-- ==== Sys2Proof/Word.lean ====
section
/-! DEFINITION. The word types of the CV9 model (spec/00, R5; spec/02, State spaces; spec/03, Table isa.1). -/

namespace Sys2Proof

/-- A word of a state space: 32 bits (02, State spaces). -/
abbrev Word := BitVec 32

/-- An Atusk instruction word, an extension word, or a K register: 64 bits (03, Tables isa.1 and isa.2). -/
abbrev DWord := BitVec 64

/-- One byte of memory. -/
abbrev Byte := BitVec 8

end Sys2Proof
end

