-- ==== Sys2Proof/Syntax.lean ====
section
/-! DEFINITION. The commands of the CV9 block: one constructor of Instr for each row of spec/opcode_table.json, with the operands that the row's rules name. -/

namespace Sys2Proof

/-- Status codes (00, Table scope.3). -/
inductive Status where
  | ok | completedBeforeAbort | aborted | broken | deferred | refused | slack | notReady | poison | decode
  | locked | preempted | queued | timeout | integrity | denied | loneNode | replace
  deriving DecidableEq, Repr

/-- One Atusk instruction as a strand issues it: the context, the CMP cycles it takes (an input of the model, within the bound of Table isa.3), the instruction word and its first two extension words (03, Table isa.2). -/
structure Issue where
  ctx : Nat
  cyc : Nat
  w : DWord
  e1 : DWord
  e2 : DWord
  deriving DecidableEq, Repr

/-- What an access meets at its target. In HBM, what the decode of a line's 36 symbols finds: no error, one device row, an uncorrectable error, or a two-row error that the code miscorrects (R217, R218). At any target, `silent`: it returns no response (R186). -/
inductive RowError where
  | none | one | uncorrectable | miscorrected | silent
  deriving DecidableEq, Repr

/-- Where patrol scrub reads (R232): a line of the address map, or a line of a stack's spare pseudo-channel or of its spare rows, by its place there. -/
inductive ScrubAt where
  | line (pa : Nat)
  | spare (stack idx : Nat)
  | spareRow (stack idx : Nat)
  deriving DecidableEq, Repr

/-- The initiator of a transaction, which decides its injection port (06, Table fab.1). -/
inductive Source where
  | hart (h : Nat)
  | tile (phys : Nat)
  | gfx | display | sextant | cmp | monitor
  | xd (n : Nat)
  | debug
  deriving DecidableEq, Repr

/-- What an access does (04, R144). -/
inductive Kind where
  | read | write | fetch
  deriving DecidableEq, Repr

/-- How a request of a PCIe port arrives (06, R212, R213): at an offset of BAR0 or of BAR2 of an endpoint, from the device behind a root port, or as that device's MSI or MSI-X write. -/
inductive PciePath where
  | bar0 | bar2 | device | msi
  deriving DecidableEq, Repr

/-- Who makes an access: its tag, its process identifier and its initiator (R129, R130, R151). -/
structure Access where
  tag : Nat
  pid : Nat
  src : Source
  kind : Kind
  /-- A hart makes it with V = 1 (R273). -/
  virt : Bool := false
  /-- A PCIe port makes it. -/
  pcie : Option PciePath := none
  /-- TID[6:0], which the initiator chooses (06, Transactions and ordering); none for an access of the device itself. -/
  tid : Option Nat := none
  /-- A write that the spec makes non-posted whatever its window says (R326, R359, R397). -/
  firm : Bool := false
  /-- A prefetch, which travels in Q4 (06, All queues full). -/
  pf : Bool := false
  /-- The fetch of the word at the target of a gate, for which the check of R243 is waived (R279). -/
  gate : Bool := false
  /-- The memory type that the hart's own translation gave (R134, R136): 0 cacheable, 1 non-cacheable, 2 device. -/
  mt : Nat := 0
  deriving DecidableEq, Repr

/-- Where a hart stands when it executes a gate, makes an access or takes an interrupt: its pc, M-mode, V and hgatp.VMID (R272, R273). -/
structure HartAt where
  pc : Nat
  mmode : Bool := false
  virt : Bool := false
  vmid : Nat := 0
  deriving DecidableEq, Repr

/-- Why an access of a hart faults: its status (R275, R276), or an AMO or LR/SC that is misaligned (09, Table apc.1). -/
inductive HartFail where
  | status (st : Status)
  | misaligned
  deriving DecidableEq, Repr

/-- Which unit executes a tile descriptor: a logical tile of the array, or the Dusk inference unit with the address of its descriptor (R335). -/
inductive InfUnit where
  | tile (t : Nat)
  | dusk (addr : Nat)
  deriving DecidableEq, Repr

/-- A shader thread (11, Table gfx.1): its job, its kind (0 vertex, 1 fragment, 2 compute), and what its first two argument registers name. -/
structure ShId where
  uid : Nat
  kind : Nat
  a : Nat
  b : Nat
  deriving DecidableEq, Repr

/-- An Xkgfx instruction as a shader thread issues it (11, Table gfx.2): the thread, its pc, the instruction word, rs1, v0, the registers from vs2 upward as 512-bit numbers, and SEW, LMUL and vl. -/
structure ShIssue where
  th : ShId
  pc : Nat
  w : Nat
  rs1 : Nat
  v0 : Nat
  vs : List Nat
  sew : Nat
  lmul : Nat
  vl : Nat
  deriving DecidableEq, Repr

/-- A 4 × 4-pixel block that a primitive touches, and its coverage: bit 8 × pixel + sample. -/
structure Frag where
  x : Nat
  y : Nat
  cov : Nat
  deriving DecidableEq, Repr

/-- A primitive as vertex shading and rasterisation give it: the outputs of its vertices as FP32 bits (position first), the bins that its bounding box touches, and its fragment blocks. -/
structure Prim where
  verts : List (List Nat)
  bins : List Nat
  frags : List Frag
  deriving DecidableEq, Repr

/-- A CSI-2 long packet (13, R400, R409): virtual channel, data type, one line of data, and whether its payload CRC failed. -/
structure CsiPacket where
  vc : Nat
  dt : Nat
  data : List Byte
  crcBad : Bool := false
  deriving DecidableEq, Repr

/-- A sample as it reaches a stream (13, R400, R402, R405, R406, R409): the Epoch stamp of its start with the quality then; of a camera, the frame number, the long packets that its port has received in the frame, and the headers that an uncorrectable ECC error has discarded; of any other kind, the payload; of a wheel sample, whether its end-to-end check failed (14, R472); and how much of the payload the full FIFO let through, where it was full. -/
structure Sample where
  stamp : Nat
  q : Nat
  number : Nat := 0
  packets : List CsiPacket := []
  lost : Nat := 0
  bytes : List Byte := []
  e2eBad : Bool := false
  kept : Option Nat := none
  deriving DecidableEq, Repr

/-- A CAN frame (14, Table net.2): identifier, IDE, RTR, format 0 to 3, ESI, SEC, SDT, VCID, acceptance field and data. -/
structure CanFrame where
  id : Nat
  ide : Bool := false
  rtr : Bool := false
  fmt : Nat := 0
  esi : Bool := false
  sec : Bool := false
  sdt : Nat := 0
  vcid : Nat := 0
  af : Nat := 0
  data : List Byte := []
  deriving DecidableEq, Repr

/-- How a CAN transmission ends: acknowledged, with an acknowledgement error, or with another transmit error (14, R465, R466). -/
inductive CanResult where
  | acked | ackError | error
  deriving DecidableEq, Repr

/-- What hands a frame to a CAN controller: the next entry of a transmit job, or the Safety Island with a controller of XD0 and a frame (14, R459; 16, R510). -/
inductive CanSend where
  | entry (uid : Nat)
  | island (c : Nat) (frame : CanFrame)
  deriving DecidableEq, Repr
/-- A write to a register that has no row of its own: in the Command Port aperture, or in the island control block, at an offset (02, R42; 16, Table saf.2). -/
inductive RegWrite where
  | port (tag off size : Nat) (v : DWord)
  | island (off v : Nat)
  deriving DecidableEq, Repr

/-- The boot flash (18, R553, R554): it answers at all, it answers in 8D-8D-8D mode, and the bytes of copy A and of copy B from the first byte of their boot images. -/
structure Flash where
  readable : Bool := true
  fast : Bool := true
  a : List Byte := []
  b : List Byte := []
  deriving DecidableEq, Repr


/-- The commands. Each constructor is the row of the table that its docstring names. -/
inductive Instr where
  /-- GOVERNOR_WINDOW_OPEN (R26). -/
  | governorWindowOpen
  /-- GOVERNOR_RELEASE_POINT (R27). -/
  | governorReleasePoint
  /-- TILE_HBM_REQUEST (R30). -/
  | tileHbmRequest (t : Nat) (a : Access) (addr : Nat) (size : Nat) (w : List Byte) (e : RowError)
  /-- CP_CHAIN_HEAD_WRITE (R49). -/
  | cpChainHeadWrite (tag : Nat) (off : Nat) (size : Nat) (v : DWord)
  /-- CP_DOORBELL_RING (R47). -/
  | cpDoorbellRing (tag : Nat) (off : Nat) (size : Nat) (v : DWord)
  /-- CP_FAULT_CODE_CLEAR (R42). -/
  | cpFaultCodeClear (tag : Nat) (off : Nat) (size : Nat) (v : DWord)
  /-- CP_LOW_HALF_READ (R41). -/
  | cpLowHalfRead (tag : Nat) (epoch : Bool)
  /-- CP_HIGH_HALF_READ (R41). -/
  | cpHighHalfRead (tag : Nat) (epoch : Bool)
  /-- REGISTER_WRITE (R42). -/
  | registerWrite (w : RegWrite)
  /-- CHAIN_HEAD_SAMPLE (R48). -/
  | chainHeadSample (n : Nat)
  /-- TENANT_DOORBELL (R51). -/
  | tenantDoorbell (n : Nat)
  /-- STRAND_QUANTUM_EXPIRY (R54). -/
  | strandQuantumExpiry (k : Nat)
  /-- PROGRAM_START (R45). -/
  | programStart (n : Nat) (e : RowError)
  /-- PROGRAM_END (R45). -/
  | programEnd (n : Nat)
  /-- RUN_AHEAD_FETCH (R68). -/
  | runAheadFetch (n : Nat) (pos : Nat) (w : DWord) (cyc : Nat) (e : RowError)
  /-- NOP (R83). -/
  | nop (i : Issue)
  /-- END (R123). -/
  | endProgram (i : Issue)
  /-- YIELD (R124). -/
  | yield (i : Issue)
  /-- FENCE (R127). -/
  | fence (i : Issue)
  /-- EPOCH (R125). -/
  | epoch (i : Issue)
  /-- LI (R91). -/
  | li (i : Issue)
  /-- LIX (R91). -/
  | lix (i : Issue)
  /-- ADD (R91). -/
  | add (i : Issue)
  /-- ADDI (R91). -/
  | addi (i : Issue)
  /-- SUB (R91). -/
  | sub (i : Issue)
  /-- AND (R91). -/
  | and (i : Issue)
  /-- OR (R91). -/
  | or (i : Issue)
  /-- XOR (R91). -/
  | xor (i : Issue)
  /-- SHLI (R91). -/
  | shli (i : Issue)
  /-- SHRI (R91). -/
  | shri (i : Issue)
  /-- MOVS (R82). -/
  | movs (i : Issue)
  /-- BR (R92). -/
  | br (i : Issue)
  /-- BST (R92). -/
  | bst (i : Issue)
  /-- CALL (R93). -/
  | call (i : Issue)
  /-- RET (R93). -/
  | ret (i : Issue)
  /-- LD (R94). -/
  | ld (i : Issue) (e : RowError)
  /-- ST (R95). -/
  | st (i : Issue) (e : RowError)
  /-- POLL (R98). -/
  | poll (i : Issue) (e : RowError)
  /-- POLL_CHECK (R98). -/
  | pollCheck (n : Nat) (cyc : Nat) (e : RowError)
  /-- POLL_TIMEOUT (R98). -/
  | pollTimeout (n : Nat)
  /-- STAGE (R100). -/
  | stage (i : Issue)
  /-- STAGEI (R100). -/
  | stagei (i : Issue)
  /-- SPACE_LOCK_GRANT (R61). -/
  | spaceLockGrant (space : Nat)
  /-- SPACE_LOCK_TIMEOUT (R61). -/
  | spaceLockTimeout (n : Nat)
  /-- COMMIT (R62). -/
  | commit (i : Issue)
  /-- DISCARD (R108). -/
  | discard (i : Issue)
  /-- FETCH (R107). -/
  | fetch (i : Issue)
  /-- DISPATCH (R111). -/
  | dispatch (i : Issue)
  /-- DISPATCH_SLOT_TIMEOUT (R111). -/
  | dispatchSlotTimeout (n : Nat)
  /-- ABORT (R112). -/
  | abort (i : Issue)
  /-- WAIT (R113). -/
  | wait (i : Issue)
  /-- WAIT_TIMEOUT (R113). -/
  | waitTimeout (n : Nat)
  /-- SIGNAL (R114). -/
  | signal (i : Issue)
  /-- LOCK (R116). -/
  | lock (i : Issue)
  /-- LOCK_TIMEOUT (R117). -/
  | lockTimeout (n : Nat)
  /-- UNLOCK (R119). -/
  | unlock (i : Issue)
  /-- SEMAPHORE_HANDOFF (R119). -/
  | semaphoreHandoff (k : Nat)
  /-- HANDOVER (R260). -/
  | handover (i : Issue)
  /-- RSTCTX (R126). -/
  | rstctx (i : Issue)
  /-- TTU_TRANSLATE (R133). -/
  | ttuTranslate (a : Access) (addr : Nat) (size : Nat)
  /-- INVALIDATION (R142). -/
  | invalidation (n : Nat) (scope : Nat) (inst : Nat) (pid : Nat) (addr : Nat)
  /-- INVALIDATION_DRAIN_DONE (R142). -/
  | invalidationDrainDone
  /-- PERIOD_BOUNDARY (R173). -/
  | periodBoundary
  /-- ORRERY_ARBITRATION (R163). -/
  | orreryArbitration (r : Nat)
  /-- SLICE_PREEMPT (R171). -/
  | slicePreempt (cluster : Bool) (k : Nat)
  /-- FABRIC_REQUEST (R180). -/
  | fabricRequest (a : Access) (addr : Nat) (size : Nat) (w : List Byte) (e : RowError)
  /-- FREEZE_LIMIT_EXPIRY (R199). -/
  | freezeLimitExpiry
  /-- FREEZE_RELEASE (R199). -/
  | freezeRelease
  /-- FABRIC_TIMEOUT (R186). -/
  | fabricTimeout (id : Nat)
  /-- LATE_RESPONSE (R186). -/
  | lateResponse (id : Nat)
  /-- POSTED_WRITE_ERROR (R202). -/
  | postedWriteError (st : Status)
  /-- INTERRUPT_MESSAGE_RELEASE (R205). -/
  | interruptMessageRelease (source : Nat)
  /-- SOURCE_INTERRUPT (R285). -/
  | sourceInterrupt (d : Nat) (x : Nat) (on : Bool)
  /-- LINK_DOWN (R193). -/
  | linkDown (n : Nat) (retries : Nat)
  /-- LINK_RETRAIN_DONE (R193). -/
  | linkRetrainDone (n : Nat)
  /-- LINK_RETRAIN_EXPIRY (R193). -/
  | linkRetrainExpiry (n : Nat)
  /-- HBM_READ (R222). -/
  | hbmRead (tag : Nat) (pa : Nat) (e : RowError) (cancelled : Bool)
  /-- HBM_FULL_WRITE (R223). -/
  | hbmFullWrite (pa : Nat) (bytes : List Byte) (e : RowError)
  /-- HBM_PARTIAL_WRITE (R224). -/
  | hbmPartialWrite (tag : Nat) (pa : Nat) (bytes : List Byte) (e : RowError)
  /-- REKEY (R220). -/
  | rekey (k : Nat)
  /-- PATROL_SCRUB (R232). -/
  | patrolScrub (w : ScrubAt) (e : RowError) (last : Bool)
  /-- MIGRATION_DONE (R236). -/
  | migrationDone (k : Nat)
  /-- HBM_VERIFY_PASS_DONE (R238). -/
  | hbmVerifyPassDone (found : List (Nat × RowError))
  /-- ENCLAVE_CREATE (R245). -/
  | enclaveCreate (e : Nat) (base : Nat) (size : Nat) (inst : Nat)
  /-- ENCLAVE_SEAL (R254). -/
  | enclaveSeal (e : Nat)
  /-- SEAL_DONE (R254). -/
  | sealDone (e : Nat)
  /-- ENCLAVE_DESTROY (R246). -/
  | enclaveDestroy (e : Nat)
  /-- DESTROY_DONE (R246). -/
  | destroyDone (e : Nat)
  /-- MAILBOX_WRITE (R249). -/
  | mailboxWrite (a : Access) (e : Nat) (addr : Nat) (bytes : List Byte)
  /-- MONITOR_RESTART (R255). -/
  | monitorRestart (verified : Bool)
  /-- GCM_ENCRYPT (R263). -/
  | gcmEncrypt (n : Nat)
  /-- GCM_DECRYPT (R265). -/
  | gcmDecrypt (n : Nat)
  /-- SHA_256 (R263). -/
  | sha256 (n : Nat)
  /-- SHA_384 (R263). -/
  | sha384 (n : Nat)
  /-- SHA_512 (R263). -/
  | sha512 (n : Nat)
  /-- SHA3_256 (R263). -/
  | sha3256 (n : Nat)
  /-- SHA3_384 (R263). -/
  | sha3384 (n : Nat)
  /-- SHA3_512 (R263). -/
  | sha3512 (n : Nat)
  /-- P256_SIGN (R263). -/
  | p256Sign (n : Nat)
  /-- P256_VERIFY (R264). -/
  | p256Verify (n : Nat)
  /-- P384_SIGN (R263). -/
  | p384Sign (n : Nat)
  /-- P384_VERIFY (R264). -/
  | p384Verify (n : Nat)
  /-- KEYLOAD (R266). -/
  | keyload (n : Nat)
  /-- CRYPTO_PREEMPT (R267). -/
  | cryptoPreempt (n : Nat) (save : Nat)
  /-- CRYPTO_RESUME (R268). -/
  | cryptoResume (n : Nat) (restore : Nat)
  /-- CRYPTO_JOB_DONE (R264). -/
  | cryptoJobDone (n : Nat)
  /-- CRYPTO_KEY_CLEAR (R266). -/
  | cryptoKeyClear (n : Nat) (k : Nat)
  /-- GATE_MARK (R278). -/
  | gateMark (h : Nat) (p : HartAt) (w : Nat)
  /-- GATE_ENTER (R279). -/
  | gateEnter (h : Nat) (p : HartAt) (w : Nat) (rs1 : Nat) (pa : Option Nat)
  /-- GATE_EXIT (R280). -/
  | gateExit (h : Nat) (p : HartAt) (w : Nat) (rs1 : Nat)
  /-- HART_ACCESS_FAULT (R275). -/
  | hartAccessFault (h : Nat) (p : HartAt) (va : Nat) (pa : Nat) (k : Kind) (f : HartFail)
  /-- STORE_ERROR (R277). -/
  | storeError (h : Nat) (addr : Nat) (st : Status) (at_ : Option HartAt)
  /-- IRQ_DELIVER (R283). -/
  | irqDeliver (at_ : Option HartAt)
  /-- SETEIPNUM_WRITE (R287). -/
  | seteipnumWrite (h : Nat) (f : Nat) (off : Nat) (size : Nat) (v : Nat)
  /-- MTIMECMP_WRITE (R287). -/
  | mtimecmpWrite (h : Nat) (off : Nat) (size : Nat) (v : Nat)
  /-- TIMER_COMPARE (R288). -/
  | timerCompare (h : Nat) (k : Nat) (at_ : Option HartAt)
  /-- SOURCE_ACK (R285). -/
  | sourceAck (n : Nat) (d : Nat) (x : Nat)
  /-- CLUSTER_RUN (R289). -/
  | clusterRun (c : Nat)
  /-- CLUSTER_RETAIN (R289). -/
  | clusterRetain (c : Nat)
  /-- CLUSTER_OFF (R289). -/
  | clusterOff (c : Nat)
  /-- CLUSTER_STATE_ENTRY (R290). -/
  | clusterStateEntry (c : Nat)
  /-- CLUSTER_WAKE (R289). -/
  | clusterWake (c : Nat)
  /-- GEMM (R311). -/
  | gemm (u : InfUnit) (cyc : Nat) (dbe : Bool)
  /-- CONV2D (R311). -/
  | conv2d (u : InfUnit) (cyc : Nat) (dbe : Bool)
  /-- DWCONV (R309). -/
  | dwconv (u : InfUnit) (cyc : Nat) (dbe : Bool)
  /-- DECONV (R309). -/
  | deconv (u : InfUnit) (cyc : Nat) (dbe : Bool)
  /-- POOL (R309). -/
  | pool (u : InfUnit) (cyc : Nat) (dbe : Bool)
  /-- ELEMWISE (R309). -/
  | elemwise (u : InfUnit) (cyc : Nat) (dbe : Bool)
  /-- ACTIVATE (R309). -/
  | activate (u : InfUnit) (cyc : Nat) (dbe : Bool)
  /-- NORM (R309). -/
  | norm (u : InfUnit) (cyc : Nat) (dbe : Bool)
  /-- SOFTMAX (R320). -/
  | softmax (u : InfUnit) (cyc : Nat) (dbe : Bool)
  /-- TOPK (R309). -/
  | topk (u : InfUnit) (cyc : Nat) (dbe : Bool)
  /-- GATHER (R309). -/
  | gather (u : InfUnit) (cyc : Nat) (dbe : Bool)
  /-- SCATTER (R310). -/
  | scatter (u : InfUnit) (cyc : Nat) (dbe : Bool)
  /-- TRANSPOSE (R309). -/
  | transpose (u : InfUnit) (cyc : Nat) (dbe : Bool)
  /-- RESHAPE (R309). -/
  | reshape (u : InfUnit) (cyc : Nat) (dbe : Bool)
  /-- QUANT (R319). -/
  | quant (u : InfUnit) (cyc : Nat) (dbe : Bool)
  /-- DEQUANT (R319). -/
  | dequant (u : InfUnit) (cyc : Nat) (dbe : Bool)
  /-- REDUCE (R309). -/
  | reduce (u : InfUnit) (cyc : Nat) (dbe : Bool)
  /-- ARGMAX (R309). -/
  | argmax (u : InfUnit) (cyc : Nat) (dbe : Bool)
  /-- RESIZE (R309). -/
  | resize (u : InfUnit) (cyc : Nat) (dbe : Bool)
  /-- GRIDSAMPLE (R309). -/
  | gridsample (u : InfUnit) (cyc : Nat) (dbe : Bool)
  /-- ATTENTION (R320). -/
  | attention (u : InfUnit) (cyc : Nat) (dbe : Bool)
  /-- COPY (R309). -/
  | copy (u : InfUnit) (cyc : Nat) (dbe : Bool)
  /-- GOLDEN (R328). -/
  | golden (u : InfUnit) (cyc : Nat) (lines : Nat) (crc : Nat)
  /-- SYNC_BARRIER (R325). -/
  | syncBarrier (u : InfUnit)
  /-- SYNC_SIGNAL (R326). -/
  | syncSignal (u : InfUnit)
  /-- SYNC_WAIT (R327). -/
  | syncWait (t : Nat)
  /-- SYNC_WAIT_POLL (R327). -/
  | syncWaitPoll (t : Nat) (u : Nat)
  /-- SYNC_WAIT_TIMEOUT (R327). -/
  | syncWaitTimeout (t : Nat) (u : Nat)
  /-- TILE_SWITCH (R297). -/
  | tileSwitch (t : Nat)
  /-- INF_JOB_COMPLETE (R303). -/
  | infJobComplete (u : Nat)
  /-- SAFETY_FRAME_END (R329). -/
  | safetyFrameEnd (cyc : Nat) (lines : Nat) (crcs : List (Nat × Nat))
  /-- SPARE_SWAP_DONE (R330). -/
  | spareSwapDone (t : Nat)
  /-- ROTATION_SWAP (R332). -/
  | rotationSwap
  /-- LBIST_DONE (R332). -/
  | lbistDone (p : Nat) (pass : Bool)
  /-- TEX_SAMPLE (R341). -/
  | texSample (i : ShIssue)
  /-- INTERP (R342). -/
  | interp (i : ShIssue)
  /-- TB_LD (R343). -/
  | tbLd (i : ShIssue)
  /-- TB_ST (R343). -/
  | tbSt (i : ShIssue)
  /-- COV_READ (R344). -/
  | covRead (i : ShIssue)
  /-- COV_DISCARD (R344). -/
  | covDiscard (i : ShIssue)
  /-- BAR (R345). -/
  | bar (i : ShIssue)
  /-- SHADER_ECALL (R338). -/
  | shaderEcall (th : ShId) (pc : Nat) (a7 : Nat)
  /-- SHADER_EXCEPTION (R338). -/
  | shaderException (th : ShId) (pc : Nat) (cause : Nat) (st : Status)
  /-- PACKET_END (R346). -/
  | packetEnd (u : Nat)
  /-- PASS_BEGIN (R349). -/
  | passBegin (u : Nat)
  /-- PASS_END (R350). -/
  | passEnd (u : Nat) (cyc : Nat)
  /-- PIPE (R347). -/
  | pipe (u : Nat)
  /-- BIND (R347). -/
  | bind (u : Nat)
  /-- DRAW (R350). -/
  | draw (u : Nat) (cyc : Nat) (prims : List Prim)
  /-- PACKET_WAIT (R348). -/
  | packetWait (u : Nat)
  /-- PACKET_WAIT_TIMEOUT (R348). -/
  | packetWaitTimeout (u : Nat)
  /-- PACKET_SIGNAL (R348). -/
  | packetSignal (u : Nat)
  /-- JUMP (R346). -/
  | jump (u : Nat)
  /-- BIN_GROW (R352). -/
  | binGrow (n : Nat) (g : Nat) (addr : Nat) (count : Nat)
  /-- BIN_GROW_TIMEOUT (R352). -/
  | binGrowTimeout (n : Nat)
  /-- GFX_STREAM_COMPLETE (R351). -/
  | gfxStreamComplete (u : Nat)
  /-- COMPUTE_JOB_START (R359). -/
  | computeJobStart (u : Nat)
  /-- COMPUTE_WAIT_TIMEOUT (R359). -/
  | computeWaitTimeout (u : Nat)
  /-- COMPUTE_JOB_COMPLETE (R359). -/
  | computeJobComplete (u : Nat) (cyc : Nat)
  /-- CLUSTER_SWITCH (R361). -/
  | clusterSwitch (c : Nat)
  /-- DEADLINE_PREEMPT (R363). -/
  | deadlinePreempt (d : Nat)
  /-- DISPLAY_DECISION_INSTANT (R380). -/
  | displayDecisionInstant (d : Nat)
  /-- BAND_PRODUCTION (R387). -/
  | bandProduction (d : Nat) (mid : Nat) (under : List Nat)
  /-- FRAME_READY_POLL (R378). -/
  | frameReadyPoll (d : Nat)
  /-- FRAME_READY_TIMEOUT (R378). -/
  | frameReadyTimeout (d : Nat) (u : Nat)
  /-- FRAME_RETIRE (R384). -/
  | frameRetire (d : Nat) (u : Nat)
  /-- REGION_CRC_CHECK (R394). -/
  | regionCrcCheck (d : Nat)
  /-- FRAME_STATUS_WRITE (R397). -/
  | frameStatusWrite (d : Nat)
  /-- PIPE_DISABLE (R398). -/
  | pipeDisable (d : Nat)
  /-- SAMPLE_ARRIVAL (R402). -/
  | sampleArrival (n : Nat) (a : Sample)
  /-- STREAM_TIMEOUT (R409). -/
  | streamTimeout (n : Nat)
  /-- STREAM_CLR (R411). -/
  | streamClr (n : Nat) (k : Nat)
  /-- STREAM_LIE (R415). -/
  | streamLie (n : Nat) (k : Nat)
  /-- EGO_STEP (R424). -/
  | egoStep
  /-- BIAS_UPDATE (R425). -/
  | biasUpdate
  /-- EPOCH_RELEASE (R419). -/
  | epochRelease
  /-- EPOCH_WAIT_EXPIRY (R419). -/
  | epochWaitExpiry
  /-- FUSION_JOB (R438). -/
  | fusionJob
  /-- FUSION_EPOCH_TIMEOUT (R436). -/
  | fusionEpochTimeout (u : Nat)
  /-- TX_ETHERNET (R459). -/
  | txEthernet (u : Nat)
  /-- TX_CAN (R459). -/
  | txCan (r : CanSend)
  /-- TX_LIN (R459). -/
  | txLin (u : Nat)
  /-- TX_DIAGNOSTIC_MESSAGE (R474). -/
  | txDiagnosticMessage (u : Nat)
  /-- TX_JOB_COMPLETE (R460). -/
  | txJobComplete (u : Nat)
  /-- SYNTHESISER_LOCK (R449). -/
  | synthesiserLock (n : Nat) (p : Nat)
  /-- SYNTHESISER_HOLD_EXPIRY (R449). -/
  | synthesiserHoldExpiry (n : Nat) (p : Nat) (tc : Nat)
  /-- EGRESS_AGED (R451). -/
  | egressAged (n : Nat) (p : Nat) (tc : Nat)
  /-- ETHERNET_RX (R462). -/
  | ethernetRx (n : Nat) (p : Nat) (b : List Byte) (fcsOk : Bool) (passed : Bool) (sec : Bool) (dst : List (Nat × Nat))
  /-- CAN_FRAME_RX (R468). -/
  | canFrameRx (n : Nat) (src : Nat) (time : Nat) (f : CanFrame)
  /-- CAN_TX_DONE (R459). -/
  | canTxDone (n : Nat) (c : Nat) (r : CanResult)
  /-- CAN_RESUME (R465). -/
  | canResume (n : Nat) (c : Nat)
  /-- BUS_OFF_RECOVERY (R465). -/
  | busOffRecovery (n : Nat) (c : Nat)
  /-- PDU_PERIOD (R470). -/
  | pduPeriod (n : Nat) (d : Nat)
  /-- DIAG_SESSION_IDLE (R475). -/
  | diagSessionIdle (n : Nat) (j : Nat)
  /-- AUTH_CHANGE (R478). -/
  | authChange
  /-- REQ_MAIN (R477). -/
  | reqMain
  /-- GPTP_SYNC_RX (R497). -/
  | gptpSyncRx (offset : Int)
  /-- GPTP_SYNC_TX (R455). -/
  | gptpSyncTx (n : Nat) (p : Nat)
  /-- REF_WINDOW_END (R488). -/
  | refWindowEnd (da : Int) (db : Int) (dab : Int)
  /-- CRYSTAL_EDGE_LOSS (R490). -/
  | crystalEdgeLoss (b : Bool)
  /-- XTAL32_EDGE_LOSS (R493). -/
  | xtal32EdgeLoss
  /-- REF_SEL (R492). -/
  | refSel (b : Bool)
  /-- EPOCH_GO (R499). -/
  | epochGo (set : Nat)
  /-- RTC_SYNC (R495). -/
  | rtcSync
  /-- HOLDOVER_EXPIRY (R501). -/
  | holdoverExpiry
  /-- FREQUENCY_CHANGE_DONE (R482). -/
  | frequencyChangeDone (gfx : Bool)
  /-- FCU_LATCH (R513). -/
  | fcuLatch (e : Nat)
  /-- WARM_RESET_ASSERT (R522). -/
  | warmResetAssert
  /-- EVENT_CLR (R516). -/
  | eventClr (e : Nat)
  /-- TAKE (R518). -/
  | take
  /-- WDOG_KICK (R512). -/
  | wdogKick (v : Nat)
  /-- ISLAND_WATCHDOG_EXPIRY (R512). -/
  | islandWatchdogExpiry
  /-- HEARTBEAT (R521). -/
  | heartbeat (v : Nat)
  /-- HEARTBEAT_TIMEOUT (R521). -/
  | heartbeatTimeout
  /-- AUTHORITY_RETURN (R519). -/
  | authorityReturn
  /-- INJECTION_RESAMPLE (R514). -/
  | injectionResample (e : Nat) (still : Bool)
  /-- STARTUP_INJECTION (R528). -/
  | startupInjection (main : Bool) (groups : List Nat) (fails : List Nat)
  /-- RUNTIME_INJECTION (R529). -/
  | runtimeInjection (g : Nat) (evs : List Nat) (ok : Bool) (asilD : Bool)
  /-- ALMANAC_RECORD (R534). -/
  | almanacRecord
  /-- BACKUP_ALARM (R540). -/
  | backupAlarm (source : Nat) (slot : Option Nat)
  /-- BK_ACK (R542). -/
  | bkAck
  /-- WRECK_TRIGGER (R543). -/
  | wreckTrigger
  /-- WRECK_SW (R543). -/
  | wreckSw
  /-- WRECK_FREEZE (R544). -/
  | wreckFreeze (d : Nat)
  /-- WRECK_REARM (R548). -/
  | wreckRearm (d : Nat)
  /-- DUMP_GO (R547). -/
  | dumpGo (d : Nat) (addr : Nat)
  /-- DUMP_DONE (R547). -/
  | dumpDone
  /-- COLD_BOOT (R549). -/
  | coldBoot (f : Flash)
  /-- POWER_LOSS (R551). -/
  | powerLoss (v : Nat)
  /-- WARM_RESTART (R567). -/
  | warmRestart (f : Flash) (verified : Bool)
  /-- WARM_RST_N_ASSERT (R617). -/
  | warmRstNAssert
  /-- WARM_RST_N_RELEASE (R617). -/
  | warmRstNRelease
  /-- REMAP (R195). -/
  | remap
  /-- SUPERVISOR_RUNNING (R564). -/
  | supervisorRunning
  /-- HART_GO (R560). -/
  | hartGo (h : Nat)
  /-- SVN_ADV (R557). -/
  | svnAdv (k : Nat) (v : Nat)
  /-- INSTANCE_RESET (R569). -/
  | instanceReset (i : Nat)
  /-- INSTANCE_RESET_DONE (R569). -/
  | instanceResetDone (i : Nat)
  /-- EM_SAMPLE (R574). -/
  | emSample (temps : List Int)
  /-- AGEING_SAMPLE (R577). -/
  | ageingSample (ages : List Nat)
  /-- WEAR_LOG_WRITE (R578). -/
  | wearLogWrite (ok : Bool)
  /-- REPLACE_FRAME_PERIOD (R586). -/
  | replaceFramePeriod
  /-- DOMAIN_POWER_ON (R592). -/
  | domainPowerOn (k : Nat)
  /-- DOMAIN_POWER_OFF (R590). -/
  | domainPowerOff (k : Nat)
  /-- DOMAIN_TRANSITION_DONE (R592). -/
  | domainTransitionDone (k : Nat)
  /-- THERMAL_SAMPLE (R602). -/
  | thermalSample (cd : Int) (xds : List Int) (hbmStacks : List Int)
  /-- THERMAL_LEVEL_FALL (R602). -/
  | thermalLevelFall (stack : Option Nat)
  /-- THERMAL_TRIP_RELEASE (R606). -/
  | thermalTripRelease
  /-- AVS_VOLTAGE_WRITE (R596). -/
  | avsVoltageWrite (rail : Nat)
  /-- AVS_ACKNOWLEDGE (R597). -/
  | avsAcknowledge (rail : Nat) (ok : Bool)
  /-- RAIL_OUT_OF_RANGE (R595). -/
  | railOutOfRange (k : Nat)
  /-- HB_OUT_TOGGLE (R618). -/
  | hbOutToggle
  /-- EXTEST (R625). -/
  | extest (pins : List Bool) (bits : List Bool)
  /-- SAMPLE_PRELOAD (R625). -/
  | samplePreload (pins : List Bool) (bits : List Bool)
  /-- BYPASS (R625). -/
  | bypass (bits : List Bool)
  /-- IDCODE (R625). -/
  | idcode
  /-- HANDOVER_QUIESCE_DONE (R260). -/
  | handoverQuiesceDone
  /-- MONITOR_RESTART_DONE (R255). -/
  | monitorRestartDone
  /-- VSYNC (R363). -/
  | vsync (d : Nat)
  /-- DISPLAY_LINK_DOWN (R374). -/
  | displayLinkDown (d : Nat)
  /-- DISPLAY_LINK_TRAINED (R374). -/
  | displayLinkTrained (d : Nat)
  /-- ETHERNET_LINK_DOWN (R448). -/
  | ethernetLinkDown (n : Nat) (p : Nat)
  /-- ETHERNET_LINK_RETRAINED (R448). -/
  | ethernetLinkRetrained (n : Nat) (p : Nat)
  /-- SYNTHESISER_CALIBRATION_START (R448). -/
  | synthesiserCalibrationStart (n : Nat) (p : Nat)
  /-- GATE_INTERVAL_EXPIRY (R451). -/
  | gateIntervalExpiry (n : Nat) (p : Nat) (gates : Nat) (slopes : List (Nat × Nat))
  /-- PDELAY_INTERVAL (R455). -/
  | pdelayInterval (n : Nat) (p : Nat)
  /-- LIN_SCHEDULE_SLOT (R467). -/
  | linScheduleSlot (n : Nat) (l : Nat)
  /-- VALID_SYNC_AGE_EXPIRY (R496). -/
  | validSyncAgeExpiry
  /-- XTAL32_EDGES_RESUME (R493). -/
  | xtal32EdgesResume
  /-- PORST_N_ASSERT (R551). -/
  | porstNAssert
  /-- PWR_GOOD_RISE (R607). -/
  | pwrGoodRise
  /-- VBAT_BKP_FALL (R607). -/
  | vbatBkpFall (lost : Bool)
  /-- STANDBY_HOUR (R583). -/
  | standbyHour
  deriving DecidableEq, Repr

end Sys2Proof
end

