-- ==== Sys2Proof/Config.lean ====
section
/-! DEFINITION. What the spec leaves open: free values and functions without a body, so that no proof can lean on a value of them. Each is named in the assumption log. -/

namespace Sys2Proof

/-- A value that the spec leaves open, fresh for each draw: the argument is the count of draws, State.free (DESIGN CHOICE, log entry 6). -/
opaque Config.freeValue : Nat → Nat

/-- The device row of a pseudo-channel in which a line lies, which is not visible to software (R214; DESIGN CHOICE, log entry 11). -/
opaque Config.hbmRow : Nat → Nat

/-- The bank group in which a line lies (R214, R234; DESIGN CHOICE, log entry 11). -/
opaque Config.hbmGroup : Nat → Nat

/-- A byte of a Peripheral Bus window, by bus and offset, belongs to one of that bus's memories: the spec names packet buffers, message RAMs and mailboxes there and gives no addresses (R196, R636; DESIGN CHOICE, log entry 45). -/
opaque Config.busMemory : Nat → Nat → Bool

/-- The messages of a traffic class for which the buffer before a layer has room; the spec gives a size only for the buffers of the links (R207; DESIGN CHOICE, log entry 44). -/
opaque Config.hopSpace : Nat → Nat → Nat

/-- The soft-repair resources of a bank group (R234; DESIGN CHOICE, log entry 11). -/
opaque Config.groupRepairs : Nat → Nat

/-! Cryptography that the spec names by its standard (R218, R253, R254, R263; DESIGN CHOICE, log entry 13). Byte strings go in and out as lists and little-endian numbers. -/

/-- A hash of FIPS 180-4 or FIPS 202, by the OP code of Table enc.4 (0x11 is SHA-384). -/
opaque Config.hash : Nat → List (BitVec 8) → Nat

/-- The key stream of AES-GCM for a key, as its bytes, and an IV, of a length in bytes. -/
opaque Config.gcmStream : List (BitVec 8) → List (BitVec 8) → Nat → Nat

/-- The tag of AES-GCM for a key, as its bytes, an IV, the additional data and the ciphertext. -/
opaque Config.gcmTag : List (BitVec 8) → List (BitVec 8) → List (BitVec 8) → List (BitVec 8) → Nat

/-- An ECDSA signature by OP code, private key, digest and nonce. -/
opaque Config.sign : Nat → Nat → List (BitVec 8) → Nat → Nat

/-- The verdict of an ECDSA verification by OP code, public key, digest and signature. -/
opaque Config.verify : Nat → Nat → List (BitVec 8) → List (BitVec 8) → Bool

/-- AES-CMAC of a message under a 128-bit key, of which the integrity tag is the first 32 bits (R218). -/
opaque Config.cmac : Nat → List (BitVec 8) → Nat

/-- The two check symbols of the 34 data and tag symbols of a line (R217), whose generator the spec does not give (DESIGN CHOICE, log entry 7). -/
opaque Config.rsCheck : List Nat → Nat × Nat

/-- The device attestation key. -/
opaque Config.attestKey : Nat

/-- The engine-ns of a crypto operation, which depend on OP, LEN and AADLEN only (R269). -/
opaque Config.cryptoNs : Nat → Nat → Nat → Nat

/-! Numerics that the spec does not give to the last bit (R309, R316, R320; Table inf.4; DESIGN CHOICE, log entry 15). FP32 values are their bits. -/

/-- A sum in FP32 whose order is not given. -/
opaque Config.sum32 : List Nat → Nat

/-- A function of one FP32 value: 4 sigmoid, 5 tanh, 6 GELU, 7 SiLU, 9 exp. -/
opaque Config.fun32 : Nat → Nat → Nat

/-- A bilinear interpolation of four FP32 values with two fractions, as numerator and denominator. -/
opaque Config.bilinear32 : List Nat → Nat × Nat → Nat × Nat → Nat

/-- A normalisation: kind, groups, epsilon, dimensions, values, gamma and beta (the spec gives neither its axis nor its order of roundings). -/
opaque Config.norm32 : Nat → Nat → Nat → List Nat → List Nat → List Nat → List Nat → List Nat

/-- A sample of a plane of FP32 values, of a width and a height, at two normalised coordinates. -/
opaque Config.grid32 : List Nat → Nat → Nat → Nat → Nat → Nat

/-- The slope of a leaky ReLU that FUSE names, for which a descriptor has no field. -/
opaque Config.fuseSlope : Nat

/-! Graphics: what the spec names and does not give to the last bit (11; DESIGN CHOICE, log entry 16). FP32 values are their bits. -/

/-- The place of a sample in an attachment that keeps all samples: samples, pitch, bytes per sample, x, y and sample. -/
opaque Config.sampleOffset : Nat → Nat → Nat → Nat → Nat → Nat → Nat

/-- The resolved value of a pixel's samples in a format. -/
opaque Config.resolve : Nat → List Nat → Nat

/-- A channel of a texel or sample of a format: format, raw bits, position in the block, channel. -/
opaque Config.unpack : Nat → Nat → Nat → Nat → Nat

/-- The raw bits in a format of four FP32 channels. -/
opaque Config.pack : Nat → List Nat → Nat

/-- Blending: the four bytes of Table gfx.5, the format, the old raw bits and the four FP32 channels. -/
opaque Config.blend : Nat → Nat → Nat → List Nat → Nat

/-- The depth and stencil of a primitive at a sample: the pipeline state, its vertices, the old raw bits, x, y and sample. -/
opaque Config.fragDepth : Nat → List (List Nat) → Nat → Nat → Nat → Nat → Nat

/-- An attribute at a pixel centre: mode 0 perspective or 1 linear, the vertices, attribute, component, x, y. -/
opaque Config.interp : Nat → List (List Nat) → Nat → Nat → Nat → Nat → Nat

/-- The texels that a sample takes, as level, x and y: the descriptor, the element's u, v and LOD, and the u and v of its quad. -/
opaque Config.texTaps : Nat → List Nat → List Nat → List (Nat × Nat × Nat)

/-- The filtered channel of the texels of a sample: the descriptor, u, v and LOD, and the texels' values of the channel. -/
opaque Config.texFilter : Nat → List Nat → List Nat → Nat

/-! Sextant and the warp unit: FP32 functions and transforms that the spec does not give to the last bit (12, 13; DESIGN CHOICE, log entry 17). Poses are lists x, y, z, roll, pitch, yaw, v, w of FP32 bits. -/

/-- A function of one FP32 value: 0 cosine, 1 sine, 2 square root. -/
opaque Config.trig32 : Nat → Nat → Nat

/-- The arc tangent of two FP32 values. -/
opaque Config.atan2 : Nat → Nat → Nat

/-- A component of a pose between two kept steps, or after the newest: kind 0 interpolated, 1 extrapolated; the poses, their times, the time and the component. -/
opaque Config.poseAt : Nat → List Nat → List Nat → Nat → Nat → Nat → Nat → Nat

/-- The rotation of a pose delta exceeds 8 degrees. -/
opaque Config.rotationExceeds : List Nat → List Nat → Bool

/-- The warp of an output pixel (12, R388), by what fixes H: the position of its first tap in the source, and the pixel that the four taps blend to. The spec gives the mapping in real numbers, and no precision of its arithmetic. -/
opaque Config.warpAt : List Nat → Nat → Nat → Int × Int
opaque Config.warpMix : List Nat → Nat → Nat → List Nat → Nat

/-- A coordinate of a point in the vehicle frame at T_k: the calibration entry, the poses at the point's time and at T_k (empty where the point is not compensated), the point, and the coordinate. -/
opaque Config.mapPoint : Nat → List Nat → List Nat → List Nat → Nat → Nat

/-- The pixel of a vehicle-frame point in a camera and its z in the camera frame as FP32 bits, before the check against its size; none where that z is below 0.1 m. -/
opaque Config.project : Nat → List Nat → Option (Nat × Nat × Nat)

/-- A depth in cm (R430). -/
opaque Config.depthCm : Nat → Nat

/-- The cells that the ray from a lidar's t to a point crosses before the point's own cell, as 512 × ix + iy. -/
opaque Config.rayCells : Nat → List Nat → List Nat

/-- The cell of the previous epoch nearest to a cell's centre, carried by the poses. -/
opaque Config.shiftCell : List Nat → List Nat → Nat → Option Nat

/-- A height in units of 20 mm. -/
opaque Config.height20 : Nat → Nat

/-- A track's x, y, vx, vy and P, ten values of the upper triangle, carried by the poses (empty where skipped) and predicted over dt ns with process noise Q. -/
opaque Config.fusPredict : List Nat → List Nat → Int → Nat → List Nat → List Nat

/-- d² of a track and a detection. -/
opaque Config.fusD2 : List Nat → List Nat → Nat

/-- A track's state after the Kalman update with a detection. -/
opaque Config.fusUpdate : List Nat → List Nat → List Nat

/-- The greatest pixel clock in kHz that the configured link of a display output carries: 4 × XD + port, and the width of a component (12, R370; DEDUCED, log entry 32). -/
opaque Config.linkKhz : Nat → Nat → Nat

/-! Vehicle networks: what the spec names by its standard (14, R455, R456; DESIGN CHOICE, log entry 18). -/

/-- A frame as MACsec puts it on the wire: key, suite, confidentiality offset, packet number, and the frame. -/
opaque Config.macsecFrame : Nat → Nat → Nat → Nat → List (BitVec 8) → List (BitVec 8)

/-- A message of IEEE 802.1AS that a port sends: kind 0 sync or 1 peer-delay request, the port, and Epoch time. -/
opaque Config.gptpFrame : Nat → Nat → Nat → List (BitVec 8)

/-- The block to which an interrupt source of a die belongs, as a resource number of HANDOVER: the spec does not number the sources (08, R260; DESIGN CHOICE, log entry 19). -/
opaque Config.sourceBlock : Nat → Nat → Nat

/-! Power, boot and the pins (18, 20, 21; log entries 23 to 25). -/

/-- The target of an AVS rail in mV: the fused voltage curve at a frequency in MHz and a temperature in 1/8 °C, plus 10 mV (R596). -/
opaque Config.avsTarget : Nat → Nat → Int → Nat

/-- The hash of a key of Kiltiost, which the boot ROM holds, by key index (18, R555). -/
opaque Config.romKeyHash : Nat → Nat

/-- The device identification that IDCODE shifts out (21, R625). -/
opaque Config.idcode : BitVec 32

end Sys2Proof
end

