-- ==== Sys2Proof/Machine/Bits.lean ====
section
/-! DEFINITION. Bit fields, sign extension and byte order (00, R5: bits are numbered from 0, values in memory are little-endian). -/

namespace Sys2Proof.Machine

/-- The field [lo + n - 1 : lo] of a number (R5). -/
def bitsOf (v lo n : Nat) : Nat := (v >>> lo) % 2 ^ n

/-- Bit `k` of a number. -/
def bitAt (v k : Nat) : Bool := v.testBit k

/-- The field [lo + n - 1 : lo] of a state-space word. -/
def getBits (w : Word) (lo n : Nat) : Nat := bitsOf w.toNat lo n

/-- The mask of the field [lo + n - 1 : lo]. -/
def maskBits (lo n : Nat) : Word := BitVec.ofNat 32 ((2 ^ n - 1) <<< lo)

/-- A state-space word with its field [lo + n - 1 : lo] replaced by the low `n` bits of `v`. -/
def setBits (w : Word) (lo n v : Nat) : Word :=
  (w &&& ~~~ maskBits lo n) ||| BitVec.ofNat 32 ((v % 2 ^ n) <<< lo)

/-- An `n`-bit two's complement value as an integer. -/
def signedOf (n v : Nat) : Int :=
  if v % 2 ^ n < 2 ^ (n - 1) then ((v % 2 ^ n : Nat) : Int) else ((v % 2 ^ n : Nat) : Int) - (2 ^ n : Nat)

/-- The low `n` bits of an integer, as an unsigned number. -/
def wrapTo (n : Nat) (i : Int) : Nat := (i % ((2 ^ n : Nat) : Int)).toNat

/-- An unsigned value limited to a field of `n` bits: a counter that saturates. -/
def satTo (n v : Nat) : Nat := if v < 2 ^ n then v else 2 ^ n - 1

/-- The `n` bytes of a number, the least significant first (R5). -/
def leBytes : Nat → Nat → List Byte
  | 0, _ => []
  | n + 1, v => BitVec.ofNat 8 v :: leBytes n (v >>> 8)

/-- The number that a list of bytes spells, the least significant first (R5). -/
def ofLeBytes : List Byte → Nat
  | [] => 0
  | b :: bs => b.toNat + 256 * ofLeBytes bs

/-- The smallest multiple of `k` at or above `n`, counted in units of `k`. -/
def ceilDiv (n k : Nat) : Nat := (n + k - 1) / k

/-- The position of the first element that a test accepts. -/
def indexOf (p : Nat → Bool) : Nat → Nat → Option Nat
  | 0, _ => none
  | n + 1, k => if p k then some k else indexOf p n (k + 1)

end Sys2Proof.Machine
end

