-- ==== Sys2Proof/Machine/Fuses.lean ====
section
/-! DEFINITION. The fuses and the variant of a device: what is fixed at assembly (01, Table block.2; 06, R200; 07, Table mem.2; 18, R555 and R573; 10, R334; 14, Table net.4; 09, R285). -/

namespace Sys2Proof.Machine

/-- The four assembly variants (R1; 01, Table block.2). -/
inductive Variant where
  | cv9A | cv9B | cv9C | cv9N
  deriving DecidableEq, Repr

/-- BOOT.ID0.VARIANT (01, Table block.5). -/
def Variant.code : Variant → Nat
  | .cv9A => 1 | .cv9B => 2 | .cv9C => 3 | .cv9N => 4

/-- Populated stack sites, from S0 upward (01, Table block.2; R21). -/
def Variant.hbmStacks : Variant → Nat
  | .cv9A => 2 | .cv9B => 4 | .cv9C => 6 | .cv9N => 4

/-- I/O dies present, from XD0 upward (01, Table block.2; R21). -/
def Variant.xds : Variant → Nat
  | .cv9A => 1 | .cv9B => 2 | .cv9C => 2 | .cv9N => 4

/-- The raw tile figure of R22: floor(B × 0.0149), with B = 716.8 GB/s for each stack (R19). -/
def Variant.tilesRaw (v : Variant) : Nat := v.hbmStacks * 7168 * 149 / 100000

/-- The enabled tile count of R22: 4 × ceil(raw ÷ 4), capped at 64. -/
def Variant.tiles (v : Variant) : Nat := min 64 (4 * ((v.tilesRaw + 3) / 4))

/-- The fields that read a fuse. -/
inductive FuseField where
  | variant | hbmStacks | stackMask | xdMask | stepping | tilesRaw | tilesEnabled | govCeil | govCap | hbmRate
  | prod | pprFree | srcLevel | tilePhys | physRole | physLog | rxLat | txLat | svnMin | cert
  deriving DecidableEq, Repr

/-- What the fuses of a device hold. No command changes it. -/
structure Fuses where
  variant : Variant
  /-- MAT.FREEZE.PROD: the production fuse (R200). -/
  prod : Bool
  /-- BOOT.ID0.STEPPING, 8 bits. -/
  stepping : Nat
  /-- Soft-repair resources of a stack at manufacture (07, Table mem.2). -/
  pprFree : Nat
  /-- NET.LAT: receive and transmit latency in ns of every port (14, Table net.4). -/
  rxLat : Nat
  txLat : Nat
  /-- The fused minimum security versions (R555, R557). -/
  svnMin : List Nat
  /-- The device certificate, BOOT.CERT, by word (18, R573). -/
  cert : List (Nat × Word)
  /-- The level-sensitive interrupt sources, as index 256 × d + x of APC.SRC (09, Table apc.7). -/
  levels : List Nat
  /-- The SHA-384 hashes of the signer keys and the revoked keys (R555): signer, key, hash. -/
  keyHashes : List (Nat × Nat × Nat)
  revoked : List (Nat × Nat)
  deriving DecidableEq, Repr

end Sys2Proof.Machine
end

