-- ==== Sys2Proof/Machine/Regs.lean ====
section
/-! DEFINITION. The field table of the 21 state spaces: one row per field of the home chapters' tables, with its space, first word, replication, bits, reset value, access code, ownership (R58) and range (R104). -/

namespace Sys2Proof.Machine

/-- Access codes of the state-space fields (00, Table scope.2). -/
inductive Acc where
  | ro | so | wonce
  deriving DecidableEq, Repr

/-- Which instance owns a field (R58): none, the instance of the first index, every instance, or the holder of the resource that the index names. -/
inductive Owns where
  | none | inst | every | port | ert | gctx | pipe | stream | fusion | cryKey | budget | ownWord
  deriving DecidableEq, Repr

/-- The range or the set of values that the home chapter states for a field (R104). -/
inductive Rng where
  | any
  | within (lo hi : Nat)
  | oneOf (vs : List Nat)
  | padFilter
  deriving DecidableEq, Repr

/-- How a field's reset value is given. -/
inductive Rst where
  | const (v : Nat)
  | first (v : Nat)
  | lastWin (v : Nat)
  | below32
  | cap
  | domMhz
  | evtReact
  | evtMin
  | msaAN | msaTX | msaSC
  | kept
  | fuse (f : FuseField)
  deriving DecidableEq, Repr

/-- One field of a state space. `dims` holds, for each index, the stride in words and the number of elements. -/
structure Row where
  space : Nat
  base : Nat
  dims : List (Nat × Nat)
  lo : Nat
  width : Nat
  reset : Rst
  acc : Acc
  owns : Owns
  fetchOnly : Bool
  rng : Rng
  deriving DecidableEq, Repr

/-! ### Space 0x01, CMD (02, Tables cmd.9 and isa.7) -/

def Reg.CMD_VIOL_COUNT : Row := ⟨0x01, 0x40, [(1, 32)], 0, 16, .const 0, .ro, .none, false, .any⟩
def Reg.CMD_CTX_INST : Row := ⟨0x01, 0x100, [(4, 64)], 0, 6, .const 0, .so, .none, false, .within 0 31⟩
def Reg.CMD_CTX_ENABLE : Row := ⟨0x01, 0x100, [(4, 64)], 8, 1, .first 1, .so, .none, false, .any⟩
def Reg.CMD_CTX_DBLINE_LO : Row := ⟨0x01, 0x101, [(4, 64)], 6, 26, .const 0, .so, .none, false, .any⟩
def Reg.CMD_CTX_DBLINE_HI : Row := ⟨0x01, 0x102, [(4, 64)], 0, 16, .const 0, .so, .none, false, .any⟩
def Reg.CMD_CTX_STATE : Row := ⟨0x01, 0x103, [(4, 64)], 0, 3, .const 0, .ro, .none, false, .any⟩
def Reg.CMD_CTX_SEQ_OPEN : Row := ⟨0x01, 0x103, [(4, 64)], 3, 1, .const 0, .ro, .none, false, .any⟩
def Reg.CMD_CTX_SEQ_FAILED : Row := ⟨0x01, 0x103, [(4, 64)], 4, 1, .const 0, .ro, .none, false, .any⟩
def Reg.CMD_CTX_STAGED : Row := ⟨0x01, 0x103, [(4, 64)], 8, 9, .const 0, .ro, .none, false, .any⟩
def Reg.CMD_CTX_SPEC_CANCEL : Row := ⟨0x01, 0x103, [(4, 64)], 17, 15, .const 0, .ro, .none, false, .any⟩
def Reg.CMD_SEM_OWNER : Row := ⟨0x01, 0x200, [(1, 256)], 0, 6, .const 0, .so, .none, false, .within 0 31⟩
def Reg.CMD_SEM_HELD : Row := ⟨0x01, 0x200, [(1, 256)], 8, 1, .const 0, .ro, .none, false, .any⟩
def Reg.CMD_SEM_HOLDER_CTX : Row := ⟨0x01, 0x200, [(1, 256)], 10, 6, .const 0, .ro, .none, false, .any⟩
def Reg.CMD_SEM_BROKEN : Row := ⟨0x01, 0x200, [(1, 256)], 16, 1, .const 0, .ro, .none, false, .any⟩
def Reg.CMD_SEM_WAITERS : Row := ⟨0x01, 0x200, [(1, 256)], 17, 6, .const 0, .ro, .none, false, .any⟩

/-- The fields of space CMD. -/
def Reg.rowsCMD : List Row :=
  [Reg.CMD_VIOL_COUNT, Reg.CMD_CTX_INST, Reg.CMD_CTX_ENABLE, Reg.CMD_CTX_DBLINE_LO, Reg.CMD_CTX_DBLINE_HI, Reg.CMD_CTX_STATE, Reg.CMD_CTX_SEQ_OPEN, Reg.CMD_CTX_SEQ_FAILED, Reg.CMD_CTX_STAGED, Reg.CMD_CTX_SPEC_CANCEL, Reg.CMD_SEM_OWNER, Reg.CMD_SEM_HELD, Reg.CMD_SEM_HOLDER_CTX, Reg.CMD_SEM_BROKEN, Reg.CMD_SEM_WAITERS]

/-! ### Space 0x02, TTU (04, Tables ttu.3 to ttu.5) -/

def Reg.TTU_INST_ENABLE : Row := ⟨0x02, 0, [(8, 32)], 0, 1, .first 1, .so, .none, false, .any⟩
def Reg.TTU_INST_CLASS : Row := ⟨0x02, 0, [(8, 32)], 1, 2, .const 1, .so, .none, false, .within 1 3⟩
def Reg.TTU_INST_FLT_VEC : Row := ⟨0x02, 0, [(8, 32)], 8, 11, .const 0, .so, .none, false, .any⟩
def Reg.TTU_INST_ROOT_LO : Row := ⟨0x02, 1, [(8, 32)], 0, 32, .const 0, .so, .none, false, .any⟩
def Reg.TTU_INST_ROOT_HI : Row := ⟨0x02, 2, [(8, 32)], 0, 4, .const 0, .so, .none, false, .any⟩
def Reg.TTU_INST_MODE : Row := ⟨0x02, 2, [(8, 32)], 28, 4, .const 0, .so, .none, false, .oneOf [0, 9]⟩
def Reg.TTU_INST_PDT_LO : Row := ⟨0x02, 3, [(8, 32)], 12, 20, .const 0, .so, .inst, false, .any⟩
def Reg.TTU_INST_PDT_HI : Row := ⟨0x02, 4, [(8, 32)], 0, 16, .const 0, .so, .inst, false, .any⟩
def Reg.TTU_INST_PDT_LOG2 : Row := ⟨0x02, 4, [(8, 32)], 16, 5, .const 0, .so, .inst, false, .within 0 20⟩
def Reg.TTU_INST_FLT_LO : Row := ⟨0x02, 5, [(8, 32)], 0, 32, .const 0, .ro, .inst, false, .any⟩
def Reg.TTU_INST_FLT_HI : Row := ⟨0x02, 6, [(8, 32)], 0, 16, .const 0, .ro, .inst, false, .any⟩
def Reg.TTU_INST_FLT_CAUSE : Row := ⟨0x02, 7, [(8, 32)], 0, 4, .const 0, .ro, .inst, false, .any⟩
def Reg.TTU_INST_FLT_WRITE : Row := ⟨0x02, 7, [(8, 32)], 4, 1, .const 0, .ro, .inst, false, .any⟩
def Reg.TTU_INST_FLT_STAGE1 : Row := ⟨0x02, 7, [(8, 32)], 5, 1, .const 0, .ro, .inst, false, .any⟩
def Reg.TTU_INST_FLT_PID : Row := ⟨0x02, 7, [(8, 32)], 6, 20, .const 0, .ro, .inst, false, .any⟩
def Reg.TTU_INST_FLT_COUNT : Row := ⟨0x02, 7, [(8, 32)], 26, 6, .const 0, .ro, .inst, false, .any⟩
def Reg.TTU_WIN_SIZE : Row := ⟨0x02, 0x100, [(4, 64)], 0, 6, .lastWin 48, .so, .none, false, .any⟩
def Reg.TTU_WIN_BASE_LO : Row := ⟨0x02, 0x100, [(4, 64)], 12, 20, .const 0, .so, .none, false, .any⟩
def Reg.TTU_WIN_BASE_HI : Row := ⟨0x02, 0x101, [(4, 64)], 0, 16, .const 0, .so, .none, false, .any⟩
def Reg.TTU_WIN_MEMTYPE : Row := ⟨0x02, 0x101, [(4, 64)], 16, 2, .const 0, .so, .none, false, .any⟩
def Reg.TTU_WIN_POSTED : Row := ⟨0x02, 0x101, [(4, 64)], 18, 1, .const 0, .so, .none, false, .any⟩
def Reg.TTU_WIN_R : Row := ⟨0x02, 0x101, [(4, 64)], 19, 1, .lastWin 1, .so, .none, false, .any⟩
def Reg.TTU_WIN_W : Row := ⟨0x02, 0x101, [(4, 64)], 20, 1, .lastWin 1, .so, .none, false, .any⟩
def Reg.TTU_WIN_X : Row := ⟨0x02, 0x101, [(4, 64)], 21, 1, .lastWin 1, .so, .none, false, .any⟩
def Reg.TTU_WIN_VALID : Row := ⟨0x02, 0x101, [(4, 64)], 22, 1, .lastWin 1, .so, .none, false, .any⟩
def Reg.TTU_WIN_INST_MASK : Row := ⟨0x02, 0x102, [(4, 64)], 0, 32, .lastWin 1, .so, .none, false, .any⟩
def Reg.TTU_WIN_AGENTS_MASK : Row := ⟨0x02, 0x103, [(4, 64)], 0, 10, .lastWin 1023, .so, .none, false, .any⟩
def Reg.TTU_INVAL_SCOPE : Row := ⟨0x02, 0x200, [], 0, 2, .const 0, .so, .every, false, .any⟩
def Reg.TTU_INVAL_INST : Row := ⟨0x02, 0x200, [], 2, 6, .const 0, .so, .every, false, .within 0 31⟩
def Reg.TTU_INVAL_PID : Row := ⟨0x02, 0x200, [], 8, 20, .const 0, .so, .every, false, .any⟩
def Reg.TTU_INVAL_ADDR_LO : Row := ⟨0x02, 0x201, [], 12, 20, .const 0, .so, .every, false, .any⟩
def Reg.TTU_INVAL_ADDR_HI : Row := ⟨0x02, 0x202, [], 0, 16, .const 0, .so, .every, false, .any⟩
def Reg.TTU_INVAL_STAT_DONE : Row := ⟨0x02, 0x203, [], 0, 16, .const 0, .ro, .every, false, .any⟩
def Reg.TTU_INVAL_STAT_ISSUED : Row := ⟨0x02, 0x203, [], 16, 16, .const 0, .ro, .every, false, .any⟩

/-- The fields of space TTU. -/
def Reg.rowsTTU : List Row :=
  [Reg.TTU_INST_ENABLE, Reg.TTU_INST_CLASS, Reg.TTU_INST_FLT_VEC, Reg.TTU_INST_ROOT_LO, Reg.TTU_INST_ROOT_HI, Reg.TTU_INST_MODE, Reg.TTU_INST_PDT_LO, Reg.TTU_INST_PDT_HI, Reg.TTU_INST_PDT_LOG2, Reg.TTU_INST_FLT_LO, Reg.TTU_INST_FLT_HI, Reg.TTU_INST_FLT_CAUSE, Reg.TTU_INST_FLT_WRITE, Reg.TTU_INST_FLT_STAGE1, Reg.TTU_INST_FLT_PID, Reg.TTU_INST_FLT_COUNT] ++
  [Reg.TTU_WIN_SIZE, Reg.TTU_WIN_BASE_LO, Reg.TTU_WIN_BASE_HI, Reg.TTU_WIN_MEMTYPE, Reg.TTU_WIN_POSTED, Reg.TTU_WIN_R, Reg.TTU_WIN_W, Reg.TTU_WIN_X, Reg.TTU_WIN_VALID, Reg.TTU_WIN_INST_MASK, Reg.TTU_WIN_AGENTS_MASK, Reg.TTU_INVAL_SCOPE, Reg.TTU_INVAL_INST, Reg.TTU_INVAL_PID, Reg.TTU_INVAL_ADDR_LO, Reg.TTU_INVAL_ADDR_HI] ++
  [Reg.TTU_INVAL_STAT_DONE, Reg.TTU_INVAL_STAT_ISSUED]

/-! ### Space 0x03, ORR (05, Tables orr.5 to orr.8) -/

def Reg.ORR_CFG_PERIOD : Row := ⟨0x03, 0, [], 0, 5, .const 3, .so, .every, true, .any⟩
def Reg.ORR_STAT_PERIOD_NO : Row := ⟨0x03, 1, [], 0, 32, .const 0, .ro, .none, false, .any⟩
def Reg.ORR_ACTIVE_PERIOD : Row := ⟨0x03, 2, [], 0, 5, .const 3, .ro, .every, false, .any⟩
def Reg.ORR_RES_CAP : Row := ⟨0x03, 0x100, [(4, 41)], 0, 32, .cap, .ro, .every, true, .any⟩
def Reg.ORR_RES_RESERVED : Row := ⟨0x03, 0x101, [(4, 41)], 0, 32, .const 0, .ro, .every, true, .any⟩
def Reg.ORR_RES_LEVEL : Row := ⟨0x03, 0x102, [(4, 41)], 0, 3, .const 0, .ro, .every, true, .any⟩
def Reg.ORR_RES_FACTOR : Row := ⟨0x03, 0x102, [(4, 41)], 3, 11, .const 1024, .ro, .every, true, .any⟩
def Reg.ORR_RES_SLACK_LAST : Row := ⟨0x03, 0x103, [(4, 41)], 0, 32, .const 0, .ro, .every, true, .any⟩
def Reg.ORR_BUDGET_TOKENS : Row := ⟨0x03, 0x1000, [(4, 2624)], 0, 32, .const 0, .so, .budget, true, .any⟩
def Reg.ORR_BUDGET_SLACK_EN : Row := ⟨0x03, 0x1001, [(4, 2624)], 0, 1, .const 1, .so, .budget, true, .any⟩
def Reg.ORR_BUDGET_LAST : Row := ⟨0x03, 0x1001, [(4, 2624)], 8, 8, .const 0, .ro, .budget, false, .any⟩
def Reg.ORR_BUDGET_EFF : Row := ⟨0x03, 0x1002, [(4, 2624)], 0, 32, .const 0, .ro, .budget, false, .any⟩
def Reg.ORR_BUDGET_USED : Row := ⟨0x03, 0x1003, [(4, 2624)], 0, 32, .const 0, .ro, .budget, false, .any⟩
def Reg.ORR_CNT_SERVED_LO : Row := ⟨0x03, 0x4000, [(8, 2624)], 0, 32, .const 0, .ro, .budget, true, .any⟩
def Reg.ORR_CNT_SERVED_HI : Row := ⟨0x03, 0x4001, [(8, 2624)], 0, 32, .const 0, .ro, .budget, true, .any⟩
def Reg.ORR_CNT_SLACK_LO : Row := ⟨0x03, 0x4002, [(8, 2624)], 0, 32, .const 0, .ro, .budget, true, .any⟩
def Reg.ORR_CNT_SLACK_HI : Row := ⟨0x03, 0x4003, [(8, 2624)], 0, 32, .const 0, .ro, .budget, true, .any⟩
def Reg.ORR_CNT_DEFERRED : Row := ⟨0x03, 0x4004, [(8, 2624)], 0, 32, .const 0, .ro, .budget, true, .any⟩
def Reg.ORR_CNT_REFUSED : Row := ⟨0x03, 0x4005, [(8, 2624)], 0, 32, .const 0, .ro, .budget, true, .any⟩

/-- The fields of space ORR. -/
def Reg.rowsORR : List Row :=
  [Reg.ORR_CFG_PERIOD, Reg.ORR_STAT_PERIOD_NO, Reg.ORR_ACTIVE_PERIOD, Reg.ORR_RES_CAP, Reg.ORR_RES_RESERVED, Reg.ORR_RES_LEVEL, Reg.ORR_RES_FACTOR, Reg.ORR_RES_SLACK_LAST, Reg.ORR_BUDGET_TOKENS, Reg.ORR_BUDGET_SLACK_EN, Reg.ORR_BUDGET_LAST, Reg.ORR_BUDGET_EFF, Reg.ORR_BUDGET_USED, Reg.ORR_CNT_SERVED_LO, Reg.ORR_CNT_SERVED_HI, Reg.ORR_CNT_SLACK_LO] ++
  [Reg.ORR_CNT_SLACK_HI, Reg.ORR_CNT_DEFERRED, Reg.ORR_CNT_REFUSED]

/-! ### Space 0x04, MAT (06, Table fab.6) -/

def Reg.MAT_REMAP_REMAP : Row := ⟨0x04, 0, [], 0, 1, .const 0, .wonce, .none, false, .any⟩
def Reg.MAT_FREEZE_LIMIT : Row := ⟨0x04, 2, [], 0, 10, .const 100, .so, .none, false, .within 1 1000⟩
def Reg.MAT_FREEZE_FROZEN : Row := ⟨0x04, 2, [], 16, 1, .const 0, .ro, .none, false, .any⟩
def Reg.MAT_FREEZE_PROD : Row := ⟨0x04, 2, [], 31, 1, .fuse .prod, .ro, .none, false, .any⟩
def Reg.MAT_DECODE_MODE : Row := ⟨0x04, 0x10, [(1, 5)], 0, 1, .const 0, .so, .none, false, .any⟩
def Reg.MAT_DECODE_PB_MODE : Row := ⟨0x04, 0x18, [(1, 32)], 0, 1, .const 0, .so, .none, false, .any⟩
def Reg.MAT_DEC_LOG_ADDR_LO : Row := ⟨0x04, 0x80, [], 0, 32, .const 0, .ro, .none, false, .any⟩
def Reg.MAT_DEC_LOG_ADDR_HI : Row := ⟨0x04, 0x81, [], 0, 16, .const 0, .ro, .none, false, .any⟩
def Reg.MAT_DEC_LOG_TAG : Row := ⟨0x04, 0x81, [], 16, 6, .const 0, .ro, .none, false, .any⟩
def Reg.MAT_DEC_LOG_LAYER : Row := ⟨0x04, 0x81, [], 22, 6, .const 0, .ro, .none, false, .any⟩
def Reg.MAT_DEC_LOG_WRITE : Row := ⟨0x04, 0x81, [], 28, 1, .const 0, .ro, .none, false, .any⟩
def Reg.MAT_DEC_LOG_COUNT : Row := ⟨0x04, 0x82, [], 0, 32, .const 0, .ro, .none, false, .any⟩
def Reg.MAT_PERR_ADDR_LO : Row := ⟨0x04, 0x100, [(4, 42)], 0, 32, .const 0, .ro, .inst, false, .any⟩
def Reg.MAT_PERR_ADDR_HI : Row := ⟨0x04, 0x101, [(4, 42)], 0, 16, .const 0, .ro, .inst, false, .any⟩
def Reg.MAT_PERR_STATUS : Row := ⟨0x04, 0x102, [(4, 42)], 0, 8, .const 0, .ro, .inst, false, .any⟩
def Reg.MAT_PERR_BRIDGE : Row := ⟨0x04, 0x102, [(4, 42)], 8, 6, .const 0, .ro, .inst, false, .any⟩
def Reg.MAT_PERR_COUNT : Row := ⟨0x04, 0x102, [(4, 42)], 14, 18, .const 0, .ro, .inst, false, .any⟩
def Reg.MAT_LINK_STATE : Row := ⟨0x04, 0x200, [(4, 4)], 0, 2, .const 0, .ro, .none, false, .any⟩
def Reg.MAT_LINK_RETRY : Row := ⟨0x04, 0x201, [(4, 4)], 0, 32, .const 0, .ro, .none, false, .any⟩
def Reg.MAT_LINK_DOWN : Row := ⟨0x04, 0x202, [(4, 4)], 0, 16, .const 0, .ro, .none, false, .any⟩
def Reg.MAT_PCIE_MODE : Row := ⟨0x04, 0x220, [(4, 4)], 0, 1, .const 0, .so, .none, false, .any⟩
def Reg.MAT_PCIE_BAR2_LOG2 : Row := ⟨0x04, 0x220, [(4, 4)], 1, 6, .const 20, .so, .none, false, .within 20 36⟩
def Reg.MAT_PCIE_BAR2_LO : Row := ⟨0x04, 0x221, [(4, 4)], 0, 32, .const 0, .so, .none, false, .any⟩
def Reg.MAT_PCIE_BAR2_HI : Row := ⟨0x04, 0x222, [(4, 4)], 0, 16, .const 0, .so, .none, false, .any⟩
def Reg.MAT_TRK_INFLIGHT : Row := ⟨0x04, 0x300, [(2, 16)], 0, 8, .const 0, .ro, .none, false, .any⟩
def Reg.MAT_TRK_HWM : Row := ⟨0x04, 0x300, [(2, 16)], 8, 8, .const 0, .ro, .none, false, .any⟩
def Reg.MAT_TRK_LATE : Row := ⟨0x04, 0x301, [(2, 16)], 0, 32, .const 0, .ro, .none, false, .any⟩

/-- The fields of space MAT. -/
def Reg.rowsMAT : List Row :=
  [Reg.MAT_REMAP_REMAP, Reg.MAT_FREEZE_LIMIT, Reg.MAT_FREEZE_FROZEN, Reg.MAT_FREEZE_PROD, Reg.MAT_DECODE_MODE, Reg.MAT_DECODE_PB_MODE, Reg.MAT_DEC_LOG_ADDR_LO, Reg.MAT_DEC_LOG_ADDR_HI, Reg.MAT_DEC_LOG_TAG, Reg.MAT_DEC_LOG_LAYER, Reg.MAT_DEC_LOG_WRITE, Reg.MAT_DEC_LOG_COUNT, Reg.MAT_PERR_ADDR_LO, Reg.MAT_PERR_ADDR_HI, Reg.MAT_PERR_STATUS, Reg.MAT_PERR_BRIDGE] ++
  [Reg.MAT_PERR_COUNT, Reg.MAT_LINK_STATE, Reg.MAT_LINK_RETRY, Reg.MAT_LINK_DOWN, Reg.MAT_PCIE_MODE, Reg.MAT_PCIE_BAR2_LOG2, Reg.MAT_PCIE_BAR2_LO, Reg.MAT_PCIE_BAR2_HI, Reg.MAT_TRK_INFLIGHT, Reg.MAT_TRK_HWM, Reg.MAT_TRK_LATE]

/-! ### Space 0x05, MEM (07, Table mem.2) -/

def Reg.MEM_CFG_SCRUB_H : Row := ⟨0x05, 0, [], 0, 8, .const 8, .so, .none, false, .within 1 168⟩
def Reg.MEM_SCRUB_PASSES : Row := ⟨0x05, 1, [], 0, 32, .const 0, .ro, .none, false, .any⟩
def Reg.MEM_WKEY_SLOT : Row := ⟨0x05, 0x40, [(1, 64)], 0, 6, .const 0, .so, .none, false, .any⟩
def Reg.MEM_KEY_OWNER : Row := ⟨0x05, 0x80, [(1, 64)], 0, 6, .below32, .so, .none, false, .within 0 41⟩
def Reg.MEM_KEY_REKEY : Row := ⟨0x05, 0x80, [(1, 64)], 8, 1, .const 0, .so, .none, false, .any⟩
def Reg.MEM_KEY_GEN : Row := ⟨0x05, 0x80, [(1, 64)], 16, 8, .const 1, .ro, .none, false, .any⟩
def Reg.MEM_RETAIN_BASE : Row := ⟨0x05, 0xc0, [(2, 16)], 0, 16, .const 0, .so, .none, false, .any⟩
def Reg.MEM_RETAIN_LEN : Row := ⟨0x05, 0xc1, [(2, 16)], 0, 16, .const 0, .so, .none, false, .any⟩
def Reg.MEM_RETAIN_SLOT : Row := ⟨0x05, 0xc1, [(2, 16)], 16, 6, .const 0, .so, .none, false, .any⟩
def Reg.MEM_RETAIN_VALID : Row := ⟨0x05, 0xc1, [(2, 16)], 31, 1, .const 0, .so, .none, false, .any⟩
def Reg.MEM_ERR_ADDR_LO : Row := ⟨0x05, 0x100, [], 0, 32, .const 0, .ro, .none, false, .any⟩
def Reg.MEM_ERR_ADDR_HI : Row := ⟨0x05, 0x101, [], 0, 16, .const 0, .ro, .none, false, .any⟩
def Reg.MEM_ERR_KIND : Row := ⟨0x05, 0x101, [], 16, 4, .const 0, .ro, .none, false, .any⟩
def Reg.MEM_ERR_TAG : Row := ⟨0x05, 0x101, [], 20, 6, .const 0, .ro, .none, false, .any⟩
def Reg.MEM_ERR_CTRL : Row := ⟨0x05, 0x101, [], 26, 4, .const 0, .ro, .none, false, .any⟩
def Reg.MEM_CNT : Row := ⟨0x05, 0x111, [(1, 7)], 0, 32, .const 0, .ro, .none, false, .any⟩
def Reg.MEM_ERRI_ADDR_LO : Row := ⟨0x05, 0x140, [(2, 32)], 0, 32, .const 0, .ro, .inst, false, .any⟩
def Reg.MEM_ERRI_ADDR_HI : Row := ⟨0x05, 0x141, [(2, 32)], 0, 16, .const 0, .ro, .inst, false, .any⟩
def Reg.MEM_ERRI_KIND : Row := ⟨0x05, 0x141, [(2, 32)], 16, 4, .const 0, .ro, .inst, false, .any⟩
def Reg.MEM_ERRI_COUNT : Row := ⟨0x05, 0x141, [(2, 32)], 20, 12, .const 0, .ro, .inst, false, .any⟩
def Reg.MEM_STK_SPARE : Row := ⟨0x05, 0x200, [(2, 6)], 0, 2, .const 0, .ro, .none, false, .any⟩
def Reg.MEM_STK_SPARED_PC : Row := ⟨0x05, 0x200, [(2, 6)], 2, 5, .const 0, .ro, .none, false, .any⟩
def Reg.MEM_STK_PPR_FREE : Row := ⟨0x05, 0x200, [(2, 6)], 8, 8, .fuse .pprFree, .ro, .none, false, .any⟩
def Reg.MEM_STK_PROGRESS : Row := ⟨0x05, 0x200, [(2, 6)], 16, 16, .const 0, .ro, .none, false, .any⟩
def Reg.MEM_STK_PPR_DONE : Row := ⟨0x05, 0x201, [(2, 6)], 0, 32, .const 0, .ro, .none, false, .any⟩

/-- The fields of space MEM. -/
def Reg.rowsMEM : List Row :=
  [Reg.MEM_CFG_SCRUB_H, Reg.MEM_SCRUB_PASSES, Reg.MEM_WKEY_SLOT, Reg.MEM_KEY_OWNER, Reg.MEM_KEY_REKEY, Reg.MEM_KEY_GEN, Reg.MEM_RETAIN_BASE, Reg.MEM_RETAIN_LEN, Reg.MEM_RETAIN_SLOT, Reg.MEM_RETAIN_VALID, Reg.MEM_ERR_ADDR_LO, Reg.MEM_ERR_ADDR_HI, Reg.MEM_ERR_KIND, Reg.MEM_ERR_TAG, Reg.MEM_ERR_CTRL, Reg.MEM_CNT] ++
  [Reg.MEM_ERRI_ADDR_LO, Reg.MEM_ERRI_ADDR_HI, Reg.MEM_ERRI_KIND, Reg.MEM_ERRI_COUNT, Reg.MEM_STK_SPARE, Reg.MEM_STK_SPARED_PC, Reg.MEM_STK_PPR_FREE, Reg.MEM_STK_PROGRESS, Reg.MEM_STK_PPR_DONE]

/-! ### Space 0x06, ENC (08) -/

def Reg.ENC_ERT_SIZE : Row := ⟨0x06, 0, [(8, 64)], 0, 6, .const 0, .so, .none, false, .any⟩
def Reg.ENC_ERT_BASE_LO : Row := ⟨0x06, 0, [(8, 64)], 17, 15, .const 0, .so, .none, false, .any⟩
def Reg.ENC_ERT_BASE_HI : Row := ⟨0x06, 1, [(8, 64)], 0, 16, .const 0, .so, .none, false, .any⟩
def Reg.ENC_ERT_INST : Row := ⟨0x06, 1, [(8, 64)], 16, 6, .const 0, .so, .none, false, .within 0 31⟩
def Reg.ENC_ERT_REQ : Row := ⟨0x06, 2, [(8, 64)], 0, 2, .const 0, .so, .none, false, .any⟩
def Reg.ENC_ERT_PEND : Row := ⟨0x06, 2, [(8, 64)], 2, 1, .const 0, .ro, .none, false, .any⟩
def Reg.ENC_ERT_STATE : Row := ⟨0x06, 2, [(8, 64)], 8, 3, .const 0, .ro, .ert, false, .any⟩
def Reg.ENC_ERT_LAST : Row := ⟨0x06, 2, [(8, 64)], 16, 8, .const 0, .ro, .none, false, .any⟩
def Reg.ENC_ERT_MBOX_VEC : Row := ⟨0x06, 3, [(8, 64)], 0, 11, .const 0, .so, .none, false, .any⟩
def Reg.ENC_ERT_MBOX_INST : Row := ⟨0x06, 4, [(8, 64)], 0, 32, .const 0, .so, .none, false, .any⟩
def Reg.ENC_ERT_MBOX_AGENTS : Row := ⟨0x06, 5, [(8, 64)], 0, 10, .const 0, .so, .none, false, .any⟩
def Reg.ENC_ERT_GEN : Row := ⟨0x06, 6, [(8, 64)], 0, 3, .const 0, .ro, .none, false, .any⟩
def Reg.ENC_MON_STATE : Row := ⟨0x06, 0x200, [], 0, 2, .const 0, .ro, .none, false, .any⟩
def Reg.ENC_MON_GEN : Row := ⟨0x06, 0x200, [], 2, 3, .const 0, .ro, .none, false, .any⟩
def Reg.ENC_MON_RESTARTS : Row := ⟨0x06, 0x200, [], 8, 8, .const 0, .ro, .none, false, .any⟩
def Reg.ENC_MON_WDOG_MS : Row := ⟨0x06, 0x200, [], 16, 8, .const 10, .so, .none, false, .within 1 100⟩
def Reg.ENC_MON_VEC : Row := ⟨0x06, 0x201, [], 0, 11, .const 0, .so, .none, false, .any⟩
def Reg.ENC_MMR : Row := ⟨0x06, 0x210, [(12, 8), (1, 12)], 0, 32, .const 0, .ro, .none, false, .any⟩
def Reg.ENC_OWN_OWNER : Row := ⟨0x06, 0x8000, [(1, 32768)], 0, 6, .const 0, .ro, .ownWord, false, .any⟩
def Reg.ENC_OWN_STEP : Row := ⟨0x06, 0x8000, [(1, 32768)], 8, 2, .const 0, .ro, .none, false, .any⟩
def Reg.ENC_OWN_GEN : Row := ⟨0x06, 0x8000, [(1, 32768)], 16, 8, .const 0, .ro, .none, false, .any⟩

/-- The fields of space ENC. -/
def Reg.rowsENC : List Row :=
  [Reg.ENC_ERT_SIZE, Reg.ENC_ERT_BASE_LO, Reg.ENC_ERT_BASE_HI, Reg.ENC_ERT_INST, Reg.ENC_ERT_REQ, Reg.ENC_ERT_PEND, Reg.ENC_ERT_STATE, Reg.ENC_ERT_LAST, Reg.ENC_ERT_MBOX_VEC, Reg.ENC_ERT_MBOX_INST, Reg.ENC_ERT_MBOX_AGENTS, Reg.ENC_ERT_GEN, Reg.ENC_MON_STATE, Reg.ENC_MON_GEN, Reg.ENC_MON_RESTARTS, Reg.ENC_MON_WDOG_MS] ++
  [Reg.ENC_MON_VEC, Reg.ENC_MMR, Reg.ENC_OWN_OWNER, Reg.ENC_OWN_STEP, Reg.ENC_OWN_GEN]

/-! ### Space 0x07, APC (09) -/

def Reg.APC_HART_VMASK : Row := ⟨0x07, 0, [(8, 16)], 0, 32, .const 1, .so, .none, false, .any⟩
def Reg.APC_HART_RUN : Row := ⟨0x07, 1, [(8, 16)], 0, 2, .const 0, .ro, .none, false, .any⟩
def Reg.APC_HART_ENTRY : Row := ⟨0x07, 1, [(8, 16)], 2, 6, .const 0, .ro, .none, false, .any⟩
def Reg.APC_HART_IN_ENCL : Row := ⟨0x07, 1, [(8, 16)], 8, 1, .const 0, .ro, .none, false, .any⟩
def Reg.APC_HART_TAG : Row := ⟨0x07, 1, [(8, 16)], 9, 6, .const 0, .ro, .none, false, .any⟩
def Reg.APC_HART_SERR_LO : Row := ⟨0x07, 2, [(8, 16)], 0, 32, .const 0, .ro, .none, false, .any⟩
def Reg.APC_HART_SERR_HI : Row := ⟨0x07, 3, [(8, 16)], 0, 16, .const 0, .ro, .none, false, .any⟩
def Reg.APC_HART_SERR_STATUS : Row := ⟨0x07, 3, [(8, 16)], 16, 8, .const 0, .ro, .none, false, .any⟩
def Reg.APC_HART_SERR_COUNT : Row := ⟨0x07, 3, [(8, 16)], 24, 8, .const 0, .ro, .none, false, .any⟩
def Reg.APC_CL_REQ : Row := ⟨0x07, 0x80, [(4, 4)], 0, 2, .const 0, .so, .none, false, .within 0 2⟩
def Reg.APC_CL_STATE : Row := ⟨0x07, 0x80, [(4, 4)], 4, 2, .const 0, .ro, .none, false, .any⟩
def Reg.APC_CL_BOOT_LO : Row := ⟨0x07, 0x81, [(4, 4)], 2, 30, .const 0, .so, .none, false, .any⟩
def Reg.APC_CL_BOOT_HI : Row := ⟨0x07, 0x82, [(4, 4)], 0, 16, .const 0, .so, .none, false, .any⟩
def Reg.APC_IRQ_HART : Row := ⟨0x07, 0xc0, [(1, 32)], 0, 4, .const 0, .so, .inst, true, .any⟩
def Reg.APC_IRQ_FILE : Row := ⟨0x07, 0xc0, [(1, 32)], 4, 3, .first 1, .so, .none, false, .any⟩
def Reg.APC_IRQ_VALID : Row := ⟨0x07, 0xc0, [(1, 32)], 7, 1, .first 1, .so, .none, false, .any⟩
def Reg.APC_IPEND : Row := ⟨0x07, 0x1000, [(64, 32), (1, 64)], 0, 32, .const 0, .ro, .inst, false, .any⟩
def Reg.APC_SRC_VEC : Row := ⟨0x07, 0x2000, [(256, 5), (1, 256)], 0, 11, .const 0, .so, .port, false, .any⟩
def Reg.APC_SRC_ACK : Row := ⟨0x07, 0x2000, [(256, 5), (1, 256)], 16, 1, .const 0, .so, .port, false, .any⟩
def Reg.APC_SRC_LEVEL : Row := ⟨0x07, 0x2000, [(256, 5), (1, 256)], 17, 1, .fuse .srcLevel, .ro, .none, false, .any⟩

/-- The fields of space APC. -/
def Reg.rowsAPC : List Row :=
  [Reg.APC_HART_VMASK, Reg.APC_HART_RUN, Reg.APC_HART_ENTRY, Reg.APC_HART_IN_ENCL, Reg.APC_HART_TAG, Reg.APC_HART_SERR_LO, Reg.APC_HART_SERR_HI, Reg.APC_HART_SERR_STATUS, Reg.APC_HART_SERR_COUNT, Reg.APC_CL_REQ, Reg.APC_CL_STATE, Reg.APC_CL_BOOT_LO, Reg.APC_CL_BOOT_HI, Reg.APC_IRQ_HART, Reg.APC_IRQ_FILE, Reg.APC_IRQ_VALID] ++
  [Reg.APC_IPEND, Reg.APC_SRC_VEC, Reg.APC_SRC_ACK, Reg.APC_SRC_LEVEL]

/-! ### Space 0x08, INF (10; governor words 01, Table block.7) -/

def Reg.INF_CFG_FRAME_MS : Row := ⟨0x08, 0, [], 0, 8, .const 50, .so, .none, false, .within 1 200⟩
def Reg.INF_GSTAT_FRAME_NO : Row := ⟨0x08, 1, [], 0, 16, .const 0, .ro, .none, false, .any⟩
def Reg.INF_GSTAT_FORCED : Row := ⟨0x08, 1, [], 16, 8, .const 0, .ro, .none, false, .any⟩
def Reg.INF_GSTAT_MISMATCH : Row := ⟨0x08, 1, [], 24, 8, .const 0, .ro, .none, false, .any⟩
def Reg.INF_GFLAG_FRAME : Row := ⟨0x08, 2, [], 0, 16, .const 0, .ro, .none, false, .any⟩
def Reg.INF_GFLAG_TILE : Row := ⟨0x08, 2, [], 16, 6, .const 0, .ro, .none, false, .any⟩
def Reg.INF_GFLAG_VALID : Row := ⟨0x08, 2, [], 31, 1, .const 0, .ro, .none, false, .any⟩
def Reg.INF_GOLD_BASE_LO : Row := ⟨0x08, 0x10, [], 12, 20, .const 0, .wonce, .none, false, .any⟩
def Reg.INF_GOLD_BASE_HI : Row := ⟨0x08, 0x11, [], 0, 16, .const 0, .wonce, .none, false, .any⟩
def Reg.INF_GOLD_SIG_LO : Row := ⟨0x08, 0x12, [], 0, 32, .const 0, .wonce, .none, false, .any⟩
def Reg.INF_GOLD_SIG_HI : Row := ⟨0x08, 0x13, [], 0, 32, .const 0, .wonce, .none, false, .any⟩
def Reg.INF_GOV_CTRL_SHARE : Row := ⟨0x08, 0x40, [], 0, 3, .fuse .govCeil, .so, .none, false, .any⟩
def Reg.INF_GOV_STAT_HOLD_CYCLES : Row := ⟨0x08, 0x41, [], 0, 32, .const 0, .ro, .none, false, .any⟩
def Reg.INF_GOV_CAP_LINES : Row := ⟨0x08, 0x42, [], 0, 16, .fuse .govCap, .ro, .none, false, .any⟩
def Reg.INF_TILE_PHYS : Row := ⟨0x08, 0x80, [(1, 64)], 0, 7, .fuse .tilePhys, .ro, .none, false, .any⟩
def Reg.INF_TILE_STATE : Row := ⟨0x08, 0x80, [(1, 64)], 8, 3, .const 0, .ro, .none, false, .any⟩
def Reg.INF_TILE_RES_G : Row := ⟨0x08, 0x80, [(1, 64)], 12, 2, .const 0, .ro, .none, false, .any⟩
def Reg.INF_TILE_RES_VALID : Row := ⟨0x08, 0x80, [(1, 64)], 14, 1, .const 0, .ro, .none, false, .any⟩
def Reg.INF_TILE_GOLD_OK : Row := ⟨0x08, 0x80, [(1, 64)], 15, 1, .const 0, .ro, .none, false, .any⟩
def Reg.INF_PHYS_ROLE : Row := ⟨0x08, 0xc0, [(1, 72)], 0, 2, .fuse .physRole, .ro, .none, false, .any⟩
def Reg.INF_PHYS_LOG : Row := ⟨0x08, 0xc0, [(1, 72)], 2, 6, .fuse .physLog, .ro, .none, false, .any⟩
def Reg.INF_PHYS_SUSPECT : Row := ⟨0x08, 0xc0, [(1, 72)], 8, 8, .const 0, .ro, .none, false, .any⟩
def Reg.INF_PHYS_SRAM_DBE : Row := ⟨0x08, 0xc0, [(1, 72)], 16, 8, .const 0, .ro, .none, false, .any⟩
def Reg.INF_SLICE_INST : Row := ⟨0x08, 0x200, [(16, 64), (4, 4)], 0, 6, .const 0, .so, .none, false, .within 0 31⟩
def Reg.INF_SLICE_VALID : Row := ⟨0x08, 0x200, [(16, 64), (4, 4)], 8, 1, .const 0, .so, .none, false, .any⟩
def Reg.INF_SLICE_SAVE_64K : Row := ⟨0x08, 0x200, [(16, 64), (4, 4)], 16, 6, .const 0, .so, .none, false, .within 0 32⟩
def Reg.INF_SLICE_PID : Row := ⟨0x08, 0x201, [(16, 64), (4, 4)], 0, 20, .const 0, .so, .none, false, .any⟩
def Reg.INF_SLICE_SAVE_BASE : Row := ⟨0x08, 0x202, [(16, 64), (4, 4)], 0, 32, .const 0, .so, .none, false, .any⟩
def Reg.INF_TERR_ADDR_LO : Row := ⟨0x08, 0x600, [(4, 32)], 0, 32, .const 0, .ro, .inst, false, .any⟩
def Reg.INF_TERR_ADDR_HI : Row := ⟨0x08, 0x601, [(4, 32)], 0, 16, .const 0, .ro, .inst, false, .any⟩
def Reg.INF_TERR_TILE : Row := ⟨0x08, 0x601, [(4, 32)], 16, 6, .const 0, .ro, .inst, false, .any⟩
def Reg.INF_TERR_KIND : Row := ⟨0x08, 0x601, [(4, 32)], 22, 1, .const 0, .ro, .inst, false, .any⟩
def Reg.INF_TERR_STATUS : Row := ⟨0x08, 0x602, [(4, 32)], 0, 8, .const 0, .ro, .inst, false, .any⟩
def Reg.INF_TERR_COUNT : Row := ⟨0x08, 0x602, [(4, 32)], 8, 8, .const 0, .ro, .inst, false, .any⟩
def Reg.INF_TERR_FRAME : Row := ⟨0x08, 0x602, [(4, 32)], 16, 16, .const 0, .ro, .inst, false, .any⟩

/-- The fields of space INF. -/
def Reg.rowsINF : List Row :=
  [Reg.INF_CFG_FRAME_MS, Reg.INF_GSTAT_FRAME_NO, Reg.INF_GSTAT_FORCED, Reg.INF_GSTAT_MISMATCH, Reg.INF_GFLAG_FRAME, Reg.INF_GFLAG_TILE, Reg.INF_GFLAG_VALID, Reg.INF_GOLD_BASE_LO, Reg.INF_GOLD_BASE_HI, Reg.INF_GOLD_SIG_LO, Reg.INF_GOLD_SIG_HI, Reg.INF_GOV_CTRL_SHARE, Reg.INF_GOV_STAT_HOLD_CYCLES, Reg.INF_GOV_CAP_LINES, Reg.INF_TILE_PHYS, Reg.INF_TILE_STATE] ++
  [Reg.INF_TILE_RES_G, Reg.INF_TILE_RES_VALID, Reg.INF_TILE_GOLD_OK, Reg.INF_PHYS_ROLE, Reg.INF_PHYS_LOG, Reg.INF_PHYS_SUSPECT, Reg.INF_PHYS_SRAM_DBE, Reg.INF_SLICE_INST, Reg.INF_SLICE_VALID, Reg.INF_SLICE_SAVE_64K, Reg.INF_SLICE_PID, Reg.INF_SLICE_SAVE_BASE, Reg.INF_TERR_ADDR_LO, Reg.INF_TERR_ADDR_HI, Reg.INF_TERR_TILE, Reg.INF_TERR_KIND] ++
  [Reg.INF_TERR_STATUS, Reg.INF_TERR_COUNT, Reg.INF_TERR_FRAME]

/-! ### Space 0x09, GFX (11) -/

def Reg.GFX_GCTX_INST : Row := ⟨0x09, 0, [(8, 32)], 0, 6, .const 0, .so, .none, false, .within 0 31⟩
def Reg.GFX_GCTX_MODE : Row := ⟨0x09, 0, [(8, 32)], 8, 1, .const 0, .so, .gctx, true, .any⟩
def Reg.GFX_GCTX_ENABLE : Row := ⟨0x09, 0, [(8, 32)], 9, 1, .const 0, .so, .none, false, .any⟩
def Reg.GFX_GCTX_BIN_VEC : Row := ⟨0x09, 0, [(8, 32)], 16, 11, .const 0, .so, .none, false, .any⟩
def Reg.GFX_GCTX_BIN_TMO : Row := ⟨0x09, 1, [(8, 32)], 0, 8, .const 10, .so, .none, false, .within 1 100⟩
def Reg.GFX_GCTX_DL_PIPE : Row := ⟨0x09, 1, [(8, 32)], 8, 3, .const 0, .so, .none, false, .within 0 4⟩
def Reg.GFX_GCTX_PAGES : Row := ⟨0x09, 2, [(8, 32)], 0, 16, .const 0, .ro, .gctx, false, .any⟩
def Reg.GFX_GCTX_PEND : Row := ⟨0x09, 2, [(8, 32)], 16, 1, .const 0, .ro, .gctx, false, .any⟩
def Reg.GFX_GCTX_GROW_ADDR_LO : Row := ⟨0x09, 3, [(8, 32)], 3, 29, .const 0, .so, .gctx, false, .any⟩
def Reg.GFX_GCTX_GROW_ADDR_HI : Row := ⟨0x09, 4, [(8, 32)], 0, 16, .const 0, .so, .gctx, false, .any⟩
def Reg.GFX_GCTX_GROW_COUNT : Row := ⟨0x09, 4, [(8, 32)], 16, 16, .const 0, .so, .gctx, false, .within 1 4096⟩
def Reg.GFX_GCTX_FLUSHES : Row := ⟨0x09, 5, [(8, 32)], 0, 32, .const 0, .ro, .gctx, false, .any⟩
def Reg.GFX_SLICE_INST : Row := ⟨0x09, 0x100, [(16, 8), (4, 4)], 0, 6, .const 0, .so, .none, false, .within 0 31⟩
def Reg.GFX_SLICE_VALID : Row := ⟨0x09, 0x100, [(16, 8), (4, 4)], 8, 1, .const 0, .so, .none, false, .any⟩
def Reg.GFX_SLICE_PID : Row := ⟨0x09, 0x101, [(16, 8), (4, 4)], 0, 20, .const 0, .so, .none, false, .any⟩
def Reg.GFX_SLICE_SAVE_BASE : Row := ⟨0x09, 0x102, [(16, 8), (4, 4)], 0, 32, .const 0, .so, .none, false, .any⟩
def Reg.GFX_CL_STATE : Row := ⟨0x09, 0x180, [(1, 8)], 0, 3, .const 0, .ro, .none, false, .any⟩
def Reg.GFX_CL_RES_G : Row := ⟨0x09, 0x180, [(1, 8)], 4, 2, .const 0, .ro, .none, false, .any⟩
def Reg.GFX_CL_RES_VALID : Row := ⟨0x09, 0x180, [(1, 8)], 6, 1, .const 0, .ro, .none, false, .any⟩
def Reg.GFX_CSTAT_DL_PREEMPT : Row := ⟨0x09, 0x200, [(4, 32)], 0, 16, .const 0, .ro, .inst, false, .any⟩
def Reg.GFX_CSTAT_SLICE_PREEMPT : Row := ⟨0x09, 0x200, [(4, 32)], 16, 16, .const 0, .ro, .inst, false, .any⟩
def Reg.GFX_SERR_PC_LO : Row := ⟨0x09, 0x201, [(4, 32)], 0, 32, .const 0, .ro, .inst, false, .any⟩
def Reg.GFX_SERR_PC_HI : Row := ⟨0x09, 0x202, [(4, 32)], 0, 16, .const 0, .ro, .inst, false, .any⟩
def Reg.GFX_SERR_CAUSE : Row := ⟨0x09, 0x202, [(4, 32)], 16, 8, .const 0, .ro, .inst, false, .any⟩
def Reg.GFX_SERR_STATUS : Row := ⟨0x09, 0x202, [(4, 32)], 24, 8, .const 0, .ro, .inst, false, .any⟩
def Reg.GFX_SERR_COUNT : Row := ⟨0x09, 0x203, [(4, 32)], 0, 8, .const 0, .ro, .inst, false, .any⟩

/-- The fields of space GFX. -/
def Reg.rowsGFX : List Row :=
  [Reg.GFX_GCTX_INST, Reg.GFX_GCTX_MODE, Reg.GFX_GCTX_ENABLE, Reg.GFX_GCTX_BIN_VEC, Reg.GFX_GCTX_BIN_TMO, Reg.GFX_GCTX_DL_PIPE, Reg.GFX_GCTX_PAGES, Reg.GFX_GCTX_PEND, Reg.GFX_GCTX_GROW_ADDR_LO, Reg.GFX_GCTX_GROW_ADDR_HI, Reg.GFX_GCTX_GROW_COUNT, Reg.GFX_GCTX_FLUSHES, Reg.GFX_SLICE_INST, Reg.GFX_SLICE_VALID, Reg.GFX_SLICE_PID, Reg.GFX_SLICE_SAVE_BASE] ++
  [Reg.GFX_CL_STATE, Reg.GFX_CL_RES_G, Reg.GFX_CL_RES_VALID, Reg.GFX_CSTAT_DL_PREEMPT, Reg.GFX_CSTAT_SLICE_PREEMPT, Reg.GFX_SERR_PC_LO, Reg.GFX_SERR_PC_HI, Reg.GFX_SERR_CAUSE, Reg.GFX_SERR_STATUS, Reg.GFX_SERR_COUNT]

/-! ### Space 0x0A, DSP (12) -/

def Reg.DSP_PIPE_INST : Row := ⟨0x0a, 0, [(32, 4)], 0, 6, .const 0, .so, .none, false, .within 0 31⟩
def Reg.DSP_PIPE_ENABLE : Row := ⟨0x0a, 0, [(32, 4)], 8, 1, .const 0, .so, .none, false, .any⟩
def Reg.DSP_PIPE_WARP_MODE : Row := ⟨0x0a, 0, [(32, 4)], 9, 2, .const 0, .so, .none, false, .within 0 2⟩
def Reg.DSP_PIPE_CRC_EN : Row := ⟨0x0a, 0, [(32, 4)], 11, 1, .const 0, .so, .none, false, .any⟩
def Reg.DSP_PIPE_VS_MSG : Row := ⟨0x0a, 0, [(32, 4)], 12, 1, .const 0, .so, .none, false, .any⟩
def Reg.DSP_PIPE_BPC : Row := ⟨0x0a, 0, [(32, 4)], 13, 1, .const 0, .so, .none, false, .any⟩
def Reg.DSP_PIPE_OUT_XD : Row := ⟨0x0a, 0, [(32, 4)], 16, 2, .const 0, .so, .none, false, .any⟩
def Reg.DSP_PIPE_OUT_PORT : Row := ⟨0x0a, 0, [(32, 4)], 18, 2, .const 0, .so, .none, false, .within 0 2⟩
def Reg.DSP_PIPE_EVT_VEC : Row := ⟨0x0a, 0, [(32, 4)], 20, 11, .const 0, .so, .none, false, .any⟩
def Reg.DSP_PIPE_TLATE : Row := ⟨0x0a, 1, [(32, 4)], 0, 8, .const 20, .so, .none, false, .within 1 160⟩
def Reg.DSP_PIPE_STALE_N : Row := ⟨0x0a, 1, [(32, 4)], 8, 8, .const 0, .so, .none, false, .any⟩
def Reg.DSP_PIPE_HACT : Row := ⟨0x0a, 2, [(32, 4)], 0, 16, .const 0, .so, .none, false, .any⟩
def Reg.DSP_PIPE_HTOT : Row := ⟨0x0a, 2, [(32, 4)], 16, 16, .const 0, .so, .none, false, .any⟩
def Reg.DSP_PIPE_HFP : Row := ⟨0x0a, 3, [(32, 4)], 0, 16, .const 0, .so, .none, false, .any⟩
def Reg.DSP_PIPE_HSW : Row := ⟨0x0a, 3, [(32, 4)], 16, 16, .const 0, .so, .none, false, .any⟩
def Reg.DSP_PIPE_VACT : Row := ⟨0x0a, 4, [(32, 4)], 0, 16, .const 0, .so, .none, false, .any⟩
def Reg.DSP_PIPE_VTOT : Row := ⟨0x0a, 4, [(32, 4)], 16, 16, .const 0, .so, .none, false, .any⟩
def Reg.DSP_PIPE_VFP : Row := ⟨0x0a, 5, [(32, 4)], 0, 16, .const 0, .so, .none, false, .any⟩
def Reg.DSP_PIPE_VSW : Row := ⟨0x0a, 5, [(32, 4)], 16, 16, .const 0, .so, .none, false, .any⟩
def Reg.DSP_PIPE_KHZ : Row := ⟨0x0a, 6, [(32, 4)], 0, 20, .const 0, .so, .none, false, .any⟩
def Reg.DSP_PIPE_HPOL : Row := ⟨0x0a, 6, [(32, 4)], 20, 1, .const 0, .so, .none, false, .any⟩
def Reg.DSP_PIPE_VPOL : Row := ⟨0x0a, 6, [(32, 4)], 21, 1, .const 0, .so, .none, false, .any⟩
def Reg.DSP_PIPE_FB_BASE_LO : Row := ⟨0x0a, 7, [(32, 4)], 16, 16, .const 0, .so, .none, false, .any⟩
def Reg.DSP_PIPE_FB_BASE_HI : Row := ⟨0x0a, 8, [(32, 4)], 0, 16, .const 0, .so, .none, false, .any⟩
def Reg.DSP_PIPE_FB_LOG2 : Row := ⟨0x0a, 9, [(32, 4)], 0, 6, .const 0, .so, .none, false, .within 20 34⟩
def Reg.DSP_PIPE_RING_LO : Row := ⟨0x0a, 0xa, [(32, 4)], 5, 27, .const 0, .so, .none, false, .any⟩
def Reg.DSP_PIPE_RING_HI : Row := ⟨0x0a, 0xb, [(32, 4)], 0, 16, .const 0, .so, .none, false, .any⟩
def Reg.DSP_PIPE_RING_LOG2 : Row := ⟨0x0a, 0xc, [(32, 4)], 0, 4, .const 4, .so, .none, false, .within 4 12⟩
def Reg.DSP_PIPE_FX : Row := ⟨0x0a, 0xd, [(32, 4)], 0, 32, .const 0, .so, .none, false, .any⟩
def Reg.DSP_PIPE_FY : Row := ⟨0x0a, 0xe, [(32, 4)], 0, 32, .const 0, .so, .none, false, .any⟩
def Reg.DSP_PIPE_CX : Row := ⟨0x0a, 0xf, [(32, 4)], 0, 32, .const 0, .so, .none, false, .any⟩
def Reg.DSP_PIPE_CY : Row := ⟨0x0a, 0x10, [(32, 4)], 0, 32, .const 0, .so, .none, false, .any⟩
def Reg.DSP_PIPE_PLANE_MM : Row := ⟨0x0a, 0x11, [(32, 4)], 0, 32, .const 0, .so, .none, false, .any⟩
def Reg.DSP_PIPE_FILL : Row := ⟨0x0a, 0x12, [(32, 4)], 0, 30, .const 0, .so, .none, false, .any⟩
def Reg.DSP_PIPE_STATE : Row := ⟨0x0a, 0x18, [(32, 4)], 0, 2, .const 0, .ro, .pipe, false, .any⟩
def Reg.DSP_PIPE_QUEUE : Row := ⟨0x0a, 0x18, [(32, 4)], 4, 3, .const 0, .ro, .pipe, false, .any⟩
def Reg.DSP_PIPE_SHOWN : Row := ⟨0x0a, 0x19, [(32, 4)], 0, 32, .const 0, .ro, .pipe, false, .any⟩
def Reg.DSP_PIPE_VSYNC_NO : Row := ⟨0x0a, 0x1a, [(32, 4)], 0, 32, .const 0, .ro, .pipe, false, .any⟩
def Reg.DSP_PIPE_CRC_FAILS : Row := ⟨0x0a, 0x1b, [(32, 4)], 0, 16, .const 0, .ro, .pipe, false, .any⟩
def Reg.DSP_PIPE_STALES : Row := ⟨0x0a, 0x1b, [(32, 4)], 16, 16, .const 0, .ro, .pipe, false, .any⟩
def Reg.DSP_PIPE_REPROJ : Row := ⟨0x0a, 0x1c, [(32, 4)], 0, 16, .const 0, .ro, .pipe, false, .any⟩
def Reg.DSP_PIPE_MIXED : Row := ⟨0x0a, 0x1c, [(32, 4)], 16, 16, .const 0, .ro, .pipe, false, .any⟩
def Reg.DSP_PIPE_UNDERRUNS : Row := ⟨0x0a, 0x1d, [(32, 4)], 0, 16, .const 0, .ro, .pipe, false, .any⟩
def Reg.DSP_PIPE_POSE_BADS : Row := ⟨0x0a, 0x1d, [(32, 4)], 16, 16, .const 0, .ro, .pipe, false, .any⟩

/-- The fields of space DSP. -/
def Reg.rowsDSP : List Row :=
  [Reg.DSP_PIPE_INST, Reg.DSP_PIPE_ENABLE, Reg.DSP_PIPE_WARP_MODE, Reg.DSP_PIPE_CRC_EN, Reg.DSP_PIPE_VS_MSG, Reg.DSP_PIPE_BPC, Reg.DSP_PIPE_OUT_XD, Reg.DSP_PIPE_OUT_PORT, Reg.DSP_PIPE_EVT_VEC, Reg.DSP_PIPE_TLATE, Reg.DSP_PIPE_STALE_N, Reg.DSP_PIPE_HACT, Reg.DSP_PIPE_HTOT, Reg.DSP_PIPE_HFP, Reg.DSP_PIPE_HSW, Reg.DSP_PIPE_VACT] ++
  [Reg.DSP_PIPE_VTOT, Reg.DSP_PIPE_VFP, Reg.DSP_PIPE_VSW, Reg.DSP_PIPE_KHZ, Reg.DSP_PIPE_HPOL, Reg.DSP_PIPE_VPOL, Reg.DSP_PIPE_FB_BASE_LO, Reg.DSP_PIPE_FB_BASE_HI, Reg.DSP_PIPE_FB_LOG2, Reg.DSP_PIPE_RING_LO, Reg.DSP_PIPE_RING_HI, Reg.DSP_PIPE_RING_LOG2, Reg.DSP_PIPE_FX, Reg.DSP_PIPE_FY, Reg.DSP_PIPE_CX, Reg.DSP_PIPE_CY] ++
  [Reg.DSP_PIPE_PLANE_MM, Reg.DSP_PIPE_FILL, Reg.DSP_PIPE_STATE, Reg.DSP_PIPE_QUEUE, Reg.DSP_PIPE_SHOWN, Reg.DSP_PIPE_VSYNC_NO, Reg.DSP_PIPE_CRC_FAILS, Reg.DSP_PIPE_STALES, Reg.DSP_PIPE_REPROJ, Reg.DSP_PIPE_MIXED, Reg.DSP_PIPE_UNDERRUNS, Reg.DSP_PIPE_POSE_BADS]

/-! ### Space 0x0B, SNS (13) -/

def Reg.SNS_STREAM_KIND : Row := ⟨0x0b, 0, [(16, 128)], 0, 3, .const 0, .so, .none, false, .within 0 4⟩
def Reg.SNS_STREAM_ENABLE : Row := ⟨0x0b, 0, [(16, 128)], 3, 1, .const 0, .so, .none, false, .any⟩
def Reg.SNS_STREAM_XD : Row := ⟨0x0b, 0, [(16, 128)], 4, 2, .const 0, .so, .none, false, .any⟩
def Reg.SNS_STREAM_PORT : Row := ⟨0x0b, 0, [(16, 128)], 6, 5, .const 0, .so, .none, false, .any⟩
def Reg.SNS_STREAM_VC : Row := ⟨0x0b, 0, [(16, 128)], 11, 2, .const 0, .so, .none, false, .any⟩
def Reg.SNS_STREAM_SAFE : Row := ⟨0x0b, 0, [(16, 128)], 13, 1, .const 0, .so, .none, false, .any⟩
def Reg.SNS_STREAM_FACTOR : Row := ⟨0x0b, 0, [(16, 128)], 16, 8, .const 0, .so, .none, false, .any⟩
def Reg.SNS_STREAM_OWNER : Row := ⟨0x0b, 0, [(16, 128)], 24, 6, .const 0, .so, .none, false, .within 0 31⟩
def Reg.SNS_STREAM_RING_LO : Row := ⟨0x0b, 1, [(16, 128)], 12, 20, .const 0, .so, .none, false, .any⟩
def Reg.SNS_STREAM_RING_HI : Row := ⟨0x0b, 2, [(16, 128)], 0, 16, .const 0, .so, .none, false, .any⟩
def Reg.SNS_STREAM_NBUF : Row := ⟨0x0b, 2, [(16, 128)], 16, 4, .const 0, .so, .none, false, .within 1 15⟩
def Reg.SNS_STREAM_SLOT_LOG2 : Row := ⟨0x0b, 2, [(16, 128)], 20, 5, .const 0, .so, .none, false, .within 6 28⟩
def Reg.SNS_STREAM_TMO_US : Row := ⟨0x0b, 3, [(16, 128)], 0, 20, .const 0, .so, .none, false, .any⟩
def Reg.SNS_STREAM_ERR_N : Row := ⟨0x0b, 3, [(16, 128)], 20, 4, .const 0, .so, .none, false, .any⟩
def Reg.SNS_STREAM_UNMASK_N : Row := ⟨0x0b, 3, [(16, 128)], 24, 8, .const 0, .so, .none, false, .any⟩
def Reg.SNS_STREAM_PARSE0 : Row := ⟨0x0b, 4, [(16, 128)], 0, 32, .const 0, .so, .none, false, .any⟩
def Reg.SNS_STREAM_PARSE1 : Row := ⟨0x0b, 5, [(16, 128)], 0, 32, .const 0, .so, .none, false, .any⟩
def Reg.SNS_STREAM_SKEW_US : Row := ⟨0x0b, 6, [(16, 128)], 0, 20, .const 0, .so, .none, false, .any⟩
def Reg.SNS_STREAM_PART : Row := ⟨0x0b, 6, [(16, 128)], 20, 10, .const 0, .so, .none, false, .any⟩
def Reg.SNS_STREAM_CLR : Row := ⟨0x0b, 7, [(16, 128)], 0, 1, .const 0, .so, .fusion, false, .any⟩
def Reg.SNS_STREAM_LIE : Row := ⟨0x0b, 7, [(16, 128)], 1, 1, .const 0, .so, .fusion, false, .any⟩
def Reg.SNS_STREAM_STATE : Row := ⟨0x0b, 8, [(16, 128)], 0, 2, .const 0, .ro, .stream, false, .any⟩
def Reg.SNS_STREAM_WHY : Row := ⟨0x0b, 8, [(16, 128)], 2, 2, .const 0, .ro, .stream, false, .any⟩
def Reg.SNS_STREAM_SAMPLES : Row := ⟨0x0b, 9, [(16, 128)], 0, 32, .const 0, .ro, .none, false, .any⟩
def Reg.SNS_STREAM_TMO : Row := ⟨0x0b, 0xa, [(16, 128)], 0, 8, .const 0, .ro, .stream, false, .any⟩
def Reg.SNS_STREAM_GAP : Row := ⟨0x0b, 0xa, [(16, 128)], 8, 8, .const 0, .ro, .stream, false, .any⟩
def Reg.SNS_STREAM_CRC : Row := ⟨0x0b, 0xa, [(16, 128)], 16, 8, .const 0, .ro, .stream, false, .any⟩
def Reg.SNS_STREAM_OVF : Row := ⟨0x0b, 0xa, [(16, 128)], 24, 8, .const 0, .ro, .stream, false, .any⟩
def Reg.SNS_STREAM_LATE : Row := ⟨0x0b, 0xb, [(16, 128)], 0, 16, .const 0, .ro, .stream, false, .any⟩
def Reg.SNS_STREAM_PLAUS : Row := ⟨0x0b, 0xb, [(16, 128)], 16, 16, .const 0, .ro, .stream, false, .any⟩

/-- The fields of space SNS. -/
def Reg.rowsSNS : List Row :=
  [Reg.SNS_STREAM_KIND, Reg.SNS_STREAM_ENABLE, Reg.SNS_STREAM_XD, Reg.SNS_STREAM_PORT, Reg.SNS_STREAM_VC, Reg.SNS_STREAM_SAFE, Reg.SNS_STREAM_FACTOR, Reg.SNS_STREAM_OWNER, Reg.SNS_STREAM_RING_LO, Reg.SNS_STREAM_RING_HI, Reg.SNS_STREAM_NBUF, Reg.SNS_STREAM_SLOT_LOG2, Reg.SNS_STREAM_TMO_US, Reg.SNS_STREAM_ERR_N, Reg.SNS_STREAM_UNMASK_N, Reg.SNS_STREAM_PARSE0] ++
  [Reg.SNS_STREAM_PARSE1, Reg.SNS_STREAM_SKEW_US, Reg.SNS_STREAM_PART, Reg.SNS_STREAM_CLR, Reg.SNS_STREAM_LIE, Reg.SNS_STREAM_STATE, Reg.SNS_STREAM_WHY, Reg.SNS_STREAM_SAMPLES, Reg.SNS_STREAM_TMO, Reg.SNS_STREAM_GAP, Reg.SNS_STREAM_CRC, Reg.SNS_STREAM_OVF, Reg.SNS_STREAM_LATE, Reg.SNS_STREAM_PLAUS]

/-! ### Space 0x0C, SXT (13) -/

def Reg.SXT_CFG_INST : Row := ⟨0x0c, 0, [], 0, 6, .const 0, .so, .fusion, true, .within 0 31⟩
def Reg.SXT_CFG_ENABLE : Row := ⟨0x0c, 0, [], 8, 1, .const 0, .so, .fusion, true, .any⟩
def Reg.SXT_CFG_REF : Row := ⟨0x0c, 0, [], 9, 7, .const 0, .so, .fusion, true, .any⟩
def Reg.SXT_CFG_W_MS : Row := ⟨0x0c, 0, [], 16, 7, .const 0, .so, .fusion, true, .within 0 100⟩
def Reg.SXT_CFG_L0_EN : Row := ⟨0x0c, 0, [], 24, 1, .const 0, .so, .none, false, .any⟩
def Reg.SXT_CFG_L1_EN : Row := ⟨0x0c, 0, [], 25, 1, .const 0, .so, .none, false, .any⟩
def Reg.SXT_RING_LO : Row := ⟨0x0c, 1, [], 12, 20, .const 0, .so, .none, false, .any⟩
def Reg.SXT_RING_HI : Row := ⟨0x0c, 2, [], 0, 16, .const 0, .so, .none, false, .any⟩
def Reg.SXT_RING_LOG2 : Row := ⟨0x0c, 2, [], 16, 4, .const 0, .so, .none, false, .within 0 3⟩
def Reg.SXT_SLOT_LOG2 : Row := ⟨0x0c, 2, [], 20, 5, .const 0, .so, .none, false, .within 20 28⟩
def Reg.SXT_CAL_LO : Row := ⟨0x0c, 3, [], 7, 25, .const 0, .so, .none, false, .any⟩
def Reg.SXT_CAL_HI : Row := ⟨0x0c, 4, [], 0, 16, .const 0, .so, .none, false, .any⟩
def Reg.SXT_MSG_VEC : Row := ⟨0x0c, 5, [], 0, 11, .const 0, .so, .none, false, .any⟩
def Reg.SXT_MEMBER : Row := ⟨0x0c, 8, [(1, 4)], 0, 32, .const 0, .so, .none, false, .any⟩
def Reg.SXT_PL_PCT : Row := ⟨0x0c, 0xc, [], 0, 8, .const 50, .so, .none, false, .any⟩
def Reg.SXT_PL_N : Row := ⟨0x0c, 0xc, [], 8, 8, .const 3, .so, .none, false, .any⟩
def Reg.SXT_PL_YAW : Row := ⟨0x0c, 0xc, [], 16, 16, .const 50, .so, .none, false, .any⟩
def Reg.SXT_GROUND_MM : Row := ⟨0x0c, 0xd, [], 0, 12, .const 300, .so, .none, false, .any⟩
def Reg.SXT_TOP_MM : Row := ⟨0x0c, 0xd, [], 16, 12, .const 3000, .so, .none, false, .any⟩
def Reg.SXT_EGO_IMU : Row := ⟨0x0c, 0x10, [], 0, 7, .const 0, .so, .none, false, .any⟩
def Reg.SXT_EGO_WHEEL : Row := ⟨0x0c, 0x10, [], 8, 7, .const 0, .so, .none, false, .any⟩
def Reg.SXT_EGO_PRED_MS : Row := ⟨0x0c, 0x10, [], 16, 7, .const 50, .so, .none, false, .within 1 100⟩
def Reg.SXT_EGO_EGO_LOG2 : Row := ⟨0x0c, 0x10, [], 24, 4, .const 6, .so, .none, false, .within 6 12⟩
def Reg.SXT_TRACK_MM : Row := ⟨0x0c, 0x11, [], 0, 16, .const 1600, .so, .none, false, .any⟩
def Reg.SXT_G_LSB : Row := ⟨0x0c, 0x12, [], 0, 32, .const 0, .so, .none, false, .any⟩
def Reg.SXT_A_LSB : Row := ⟨0x0c, 0x13, [], 0, 32, .const 0, .so, .none, false, .any⟩
def Reg.SXT_EGO_RING_LO : Row := ⟨0x0c, 0x14, [], 6, 26, .const 0, .so, .none, false, .any⟩
def Reg.SXT_EGO_RING_HI : Row := ⟨0x0c, 0x15, [], 0, 16, .const 0, .so, .none, false, .any⟩
def Reg.SXT_STAT_EPOCH_NO : Row := ⟨0x0c, 0x20, [], 0, 32, .const 0, .ro, .fusion, false, .any⟩
def Reg.SXT_STAT_OPEN : Row := ⟨0x0c, 0x21, [], 0, 3, .const 0, .ro, .fusion, false, .any⟩
def Reg.SXT_STAT_POSE_Q : Row := ⟨0x0c, 0x21, [], 4, 2, .const 0, .ro, .fusion, false, .any⟩
def Reg.SXT_STAT_LATE_DROPS : Row := ⟨0x0c, 0x22, [], 0, 16, .const 0, .ro, .fusion, false, .any⟩
def Reg.SXT_STAT_FORCED : Row := ⟨0x0c, 0x22, [], 16, 16, .const 0, .ro, .fusion, false, .any⟩

/-- The fields of space SXT. -/
def Reg.rowsSXT : List Row :=
  [Reg.SXT_CFG_INST, Reg.SXT_CFG_ENABLE, Reg.SXT_CFG_REF, Reg.SXT_CFG_W_MS, Reg.SXT_CFG_L0_EN, Reg.SXT_CFG_L1_EN, Reg.SXT_RING_LO, Reg.SXT_RING_HI, Reg.SXT_RING_LOG2, Reg.SXT_SLOT_LOG2, Reg.SXT_CAL_LO, Reg.SXT_CAL_HI, Reg.SXT_MSG_VEC, Reg.SXT_MEMBER, Reg.SXT_PL_PCT, Reg.SXT_PL_N] ++
  [Reg.SXT_PL_YAW, Reg.SXT_GROUND_MM, Reg.SXT_TOP_MM, Reg.SXT_EGO_IMU, Reg.SXT_EGO_WHEEL, Reg.SXT_EGO_PRED_MS, Reg.SXT_EGO_EGO_LOG2, Reg.SXT_TRACK_MM, Reg.SXT_G_LSB, Reg.SXT_A_LSB, Reg.SXT_EGO_RING_LO, Reg.SXT_EGO_RING_HI, Reg.SXT_STAT_EPOCH_NO, Reg.SXT_STAT_OPEN, Reg.SXT_STAT_POSE_Q, Reg.SXT_STAT_LATE_DROPS] ++
  [Reg.SXT_STAT_FORCED]

/-! ### Space 0x0D, NET (14) -/

def Reg.NET_PORT_EN : Row := ⟨0x0d, 0, [(32, 4), (1, 22)], 0, 1, .const 0, .so, .none, false, .any⟩
def Reg.NET_PORT_MS : Row := ⟨0x0d, 0, [(32, 4), (1, 22)], 1, 1, .const 0, .so, .none, false, .any⟩
def Reg.NET_PORT_GPTP : Row := ⟨0x0d, 0, [(32, 4), (1, 22)], 2, 2, .const 0, .so, .none, false, .within 0 2⟩
def Reg.NET_PORT_PLCA_ID : Row := ⟨0x0d, 0, [(32, 4), (1, 22)], 4, 5, .const 0, .so, .none, false, .any⟩
def Reg.NET_PORT_PLCA_NODES : Row := ⟨0x0d, 0, [(32, 4), (1, 22)], 9, 6, .const 8, .so, .none, false, .within 1 32⟩
def Reg.NET_PORT_BURST : Row := ⟨0x0d, 0, [(32, 4), (1, 22)], 16, 8, .const 0, .so, .none, false, .any⟩
def Reg.NET_PORT_STATE : Row := ⟨0x0d, 0, [(32, 4), (1, 22)], 24, 2, .const 0, .ro, .port, false, .any⟩
def Reg.NET_PORT_OWN_VEC_LO : Row := ⟨0x0d, 0, [(32, 4), (1, 22)], 26, 6, .const 0, .so, .none, false, .any⟩
def Reg.NET_PORT_OWN_VEC_HI : Row := ⟨0x0d, 0x80, [(32, 4), (1, 22)], 0, 5, .const 0, .so, .none, false, .any⟩
def Reg.NET_LAT_RX_LAT : Row := ⟨0x0d, 0x100, [(32, 4), (1, 22)], 0, 16, .fuse .rxLat, .so, .none, false, .any⟩
def Reg.NET_LAT_TX_LAT : Row := ⟨0x0d, 0x100, [(32, 4), (1, 22)], 16, 16, .fuse .txLat, .so, .none, false, .any⟩
def Reg.NET_CNT_NOT_READY : Row := ⟨0x0d, 0x200, [(64, 4), (2, 22)], 0, 16, .const 0, .ro, .port, false, .any⟩
def Reg.NET_CNT_FCS_DROP : Row := ⟨0x0d, 0x200, [(64, 4), (2, 22)], 16, 16, .const 0, .ro, .port, false, .any⟩
def Reg.NET_CNT_AGED : Row := ⟨0x0d, 0x201, [(64, 4), (2, 22)], 0, 16, .const 0, .ro, .port, false, .any⟩
def Reg.NET_GPTP_ROLE : Row := ⟨0x0d, 0x300, [], 0, 2, .const 0, .so, .none, false, .within 0 2⟩
def Reg.NET_GPTP_SYNC_LOG : Row := ⟨0x0d, 0x300, [], 2, 4, .const 13, .so, .none, false, .oneOf [11, 12, 13, 14, 15, 0]⟩
def Reg.NET_FLOW_PORT : Row := ⟨0x0d, 0x1000, [(1024, 4), (4, 256)], 0, 5, .const 0, .so, .none, false, .any⟩
def Reg.NET_FLOW_PANY : Row := ⟨0x0d, 0x1000, [(1024, 4), (4, 256)], 5, 1, .const 0, .so, .none, false, .any⟩
def Reg.NET_FLOW_VID : Row := ⟨0x0d, 0x1000, [(1024, 4), (4, 256)], 6, 12, .const 0, .so, .none, false, .any⟩
def Reg.NET_FLOW_VANY : Row := ⟨0x0d, 0x1000, [(1024, 4), (4, 256)], 18, 1, .const 0, .so, .none, false, .any⟩
def Reg.NET_FLOW_ACT : Row := ⟨0x0d, 0x1000, [(1024, 4), (4, 256)], 19, 2, .const 0, .so, .none, false, .any⟩
def Reg.NET_FLOW_VALID : Row := ⟨0x0d, 0x1000, [(1024, 4), (4, 256)], 31, 1, .const 0, .so, .none, false, .any⟩
def Reg.NET_FLOW_ETYPE : Row := ⟨0x0d, 0x1001, [(1024, 4), (4, 256)], 0, 16, .const 0, .so, .none, false, .any⟩
def Reg.NET_FLOW_MOFF : Row := ⟨0x0d, 0x1001, [(1024, 4), (4, 256)], 16, 8, .const 0, .so, .none, false, .any⟩
def Reg.NET_FLOW_MVAL : Row := ⟨0x0d, 0x1002, [(1024, 4), (4, 256)], 0, 16, .const 0, .so, .none, false, .any⟩
def Reg.NET_FLOW_MMASK : Row := ⟨0x0d, 0x1002, [(1024, 4), (4, 256)], 16, 16, .const 0, .so, .none, false, .any⟩
def Reg.NET_FLOW_RING : Row := ⟨0x0d, 0x1003, [(1024, 4), (4, 256)], 0, 6, .const 0, .so, .none, false, .any⟩
def Reg.NET_RING_BASE_LO : Row := ⟨0x0d, 0x2000, [(256, 4), (4, 64)], 12, 20, .const 0, .so, .none, false, .any⟩
def Reg.NET_RING_BASE_HI : Row := ⟨0x0d, 0x2001, [(256, 4), (4, 64)], 0, 16, .const 0, .so, .none, false, .any⟩
def Reg.NET_RING_NBUF1 : Row := ⟨0x0d, 0x2001, [(256, 4), (4, 64)], 16, 4, .const 0, .so, .none, false, .any⟩
def Reg.NET_RING_SLOT_LOG2 : Row := ⟨0x0d, 0x2001, [(256, 4), (4, 64)], 20, 5, .const 0, .so, .none, false, .within 6 16⟩
def Reg.NET_RING_OWNER : Row := ⟨0x0d, 0x2002, [(256, 4), (4, 64)], 0, 6, .const 0, .so, .none, false, .within 0 31⟩
def Reg.NET_RING_VEC : Row := ⟨0x0d, 0x2002, [(256, 4), (4, 64)], 8, 11, .const 0, .so, .none, false, .any⟩
def Reg.NET_RING_MSG_N : Row := ⟨0x0d, 0x2002, [(256, 4), (4, 64)], 24, 8, .const 0, .so, .none, false, .within 1 255⟩
def Reg.NET_RING_SEQ : Row := ⟨0x0d, 0x2003, [(256, 4), (4, 64)], 0, 32, .const 0, .ro, .none, false, .any⟩
def Reg.NET_ROUTE_SRC : Row := ⟨0x0d, 0x4000, [(8192, 4), (8, 1024)], 0, 6, .const 0, .so, .none, false, .any⟩
def Reg.NET_ROUTE_DST_EN : Row := ⟨0x0d, 0x4000, [(8192, 4), (8, 1024)], 16, 1, .const 0, .so, .none, false, .any⟩
def Reg.NET_ROUTE_TUN : Row := ⟨0x0d, 0x4000, [(8192, 4), (8, 1024)], 17, 1, .const 0, .so, .none, false, .any⟩
def Reg.NET_ROUTE_RING_EN : Row := ⟨0x0d, 0x4000, [(8192, 4), (8, 1024)], 18, 1, .const 0, .so, .none, false, .any⟩
def Reg.NET_ROUTE_WHEEL : Row := ⟨0x0d, 0x4000, [(8192, 4), (8, 1024)], 19, 1, .const 0, .so, .none, false, .any⟩
def Reg.NET_ROUTE_E2E : Row := ⟨0x0d, 0x4000, [(8192, 4), (8, 1024)], 20, 1, .const 0, .so, .none, false, .any⟩
def Reg.NET_ROUTE_POL_EN : Row := ⟨0x0d, 0x4000, [(8192, 4), (8, 1024)], 21, 1, .const 0, .so, .none, false, .any⟩
def Reg.NET_ROUTE_VALID : Row := ⟨0x0d, 0x4000, [(8192, 4), (8, 1024)], 31, 1, .const 0, .so, .none, false, .any⟩
def Reg.NET_ROUTE_ID : Row := ⟨0x0d, 0x4001, [(8192, 4), (8, 1024)], 0, 32, .const 0, .so, .none, false, .any⟩
def Reg.NET_ROUTE_MASK : Row := ⟨0x0d, 0x4002, [(8192, 4), (8, 1024)], 0, 32, .const 0, .so, .none, false, .any⟩
def Reg.NET_ROUTE_DST : Row := ⟨0x0d, 0x4003, [(8192, 4), (8, 1024)], 0, 16, .const 0, .so, .none, false, .any⟩
def Reg.NET_ROUTE_RING : Row := ⟨0x0d, 0x4003, [(8192, 4), (8, 1024)], 16, 6, .const 0, .so, .none, false, .any⟩
def Reg.NET_ROUTE_TPL : Row := ⟨0x0d, 0x4003, [(8192, 4), (8, 1024)], 24, 4, .const 0, .so, .none, false, .any⟩
def Reg.NET_ROUTE_RATE : Row := ⟨0x0d, 0x4004, [(8192, 4), (8, 1024)], 0, 16, .const 0, .so, .none, false, .any⟩
def Reg.NET_ROUTE_BURST : Row := ⟨0x0d, 0x4004, [(8192, 4), (8, 1024)], 16, 8, .const 0, .so, .none, false, .any⟩
def Reg.NET_ROUTE_E2E_BYTE : Row := ⟨0x0d, 0x4004, [(8192, 4), (8, 1024)], 24, 8, .const 0, .so, .none, false, .any⟩
def Reg.NET_ROUTE_E2E_ID : Row := ⟨0x0d, 0x4005, [(8192, 4), (8, 1024)], 0, 16, .const 0, .so, .none, false, .any⟩
def Reg.NET_SIG_SRT : Row := ⟨0x0d, 0x14000, [(2048, 4), (2, 1024)], 0, 10, .const 0, .so, .none, false, .any⟩
def Reg.NET_SIG_SBIT : Row := ⟨0x0d, 0x14000, [(2048, 4), (2, 1024)], 10, 9, .const 0, .so, .none, false, .any⟩
def Reg.NET_SIG_LEN1 : Row := ⟨0x0d, 0x14000, [(2048, 4), (2, 1024)], 19, 6, .const 0, .so, .none, false, .any⟩
def Reg.NET_SIG_DPDU : Row := ⟨0x0d, 0x14001, [(2048, 4), (2, 1024)], 0, 7, .const 0, .so, .none, false, .any⟩
def Reg.NET_SIG_DBIT : Row := ⟨0x0d, 0x14001, [(2048, 4), (2, 1024)], 7, 9, .const 0, .so, .none, false, .any⟩
def Reg.NET_SIG_FACTOR : Row := ⟨0x0d, 0x14001, [(2048, 4), (2, 1024)], 16, 16, .const 0, .so, .none, false, .any⟩
def Reg.NET_PDU_CTL : Row := ⟨0x0d, 0x18000, [(512, 4), (4, 128)], 0, 4, .const 0, .so, .none, false, .any⟩
def Reg.NET_PDU_FMT : Row := ⟨0x0d, 0x18000, [(512, 4), (4, 128)], 4, 2, .const 0, .so, .none, false, .any⟩
def Reg.NET_PDU_ON_CHG : Row := ⟨0x0d, 0x18000, [(512, 4), (4, 128)], 6, 1, .const 0, .so, .none, false, .any⟩
def Reg.NET_PDU_PERIOD_MS : Row := ⟨0x0d, 0x18000, [(512, 4), (4, 128)], 16, 16, .const 0, .so, .none, false, .any⟩
def Reg.NET_PDU_ID : Row := ⟨0x0d, 0x18001, [(512, 4), (4, 128)], 0, 32, .const 0, .so, .none, false, .any⟩
def Reg.NET_PDU_DLEN : Row := ⟨0x0d, 0x18002, [(512, 4), (4, 128)], 0, 7, .const 0, .so, .none, false, .any⟩
def Reg.NET_TPL_DMAC_LO : Row := ⟨0x0d, 0x19000, [(64, 4), (4, 16)], 0, 32, .const 0, .so, .none, false, .any⟩
def Reg.NET_TPL_DMAC_HI : Row := ⟨0x0d, 0x19001, [(64, 4), (4, 16)], 0, 16, .const 0, .so, .none, false, .any⟩
def Reg.NET_TPL_VID : Row := ⟨0x0d, 0x19001, [(64, 4), (4, 16)], 16, 12, .const 0, .so, .none, false, .any⟩
def Reg.NET_TPL_PCP : Row := ⟨0x0d, 0x19001, [(64, 4), (4, 16)], 28, 3, .const 0, .so, .none, false, .any⟩
def Reg.NET_TPL_SID_HI : Row := ⟨0x0d, 0x19002, [(64, 4), (4, 16)], 0, 32, .const 0, .so, .none, false, .any⟩
def Reg.NET_TPL_PORT : Row := ⟨0x0d, 0x19003, [(64, 4), (4, 16)], 0, 5, .const 0, .so, .none, false, .any⟩
def Reg.NET_TPL_BUS : Row := ⟨0x0d, 0x19003, [(64, 4), (4, 16)], 5, 5, .const 0, .so, .none, false, .any⟩
def Reg.NET_IDS_UNKNOWN_ID : Row := ⟨0x0d, 0x19400, [(8, 4)], 0, 16, .const 0, .ro, .none, false, .any⟩
def Reg.NET_IDS_POLICED : Row := ⟨0x0d, 0x19400, [(8, 4)], 16, 16, .const 0, .ro, .none, false, .any⟩
def Reg.NET_IDS_E2E_FAIL : Row := ⟨0x0d, 0x19401, [(8, 4)], 0, 16, .const 0, .ro, .none, false, .any⟩
def Reg.NET_IDS_ACF_UNKNOWN : Row := ⟨0x0d, 0x19401, [(8, 4)], 16, 16, .const 0, .ro, .none, false, .any⟩
def Reg.NET_IDS_ACF_DROP : Row := ⟨0x0d, 0x19402, [(8, 4)], 0, 16, .const 0, .ro, .none, false, .any⟩
def Reg.NET_IDS_BUF_DROP : Row := ⟨0x0d, 0x19402, [(8, 4)], 16, 16, .const 0, .ro, .none, false, .any⟩
def Reg.NET_IDS_DIAG_DENIED : Row := ⟨0x0d, 0x19403, [(8, 4)], 0, 16, .const 0, .ro, .none, false, .any⟩
def Reg.NET_IDS_NOFLOW : Row := ⟨0x0d, 0x19403, [(8, 4)], 16, 16, .const 0, .ro, .none, false, .any⟩
def Reg.NET_MSA_SLOT : Row := ⟨0x0d, 0x1a000, [(648, 4), (1, 648)], 0, 5, .const 0, .so, .none, false, .any⟩
def Reg.NET_MSA_AN : Row := ⟨0x0d, 0x1a000, [(648, 4), (1, 648)], 5, 2, .msaAN, .ro, .none, false, .any⟩
def Reg.NET_MSA_TX : Row := ⟨0x0d, 0x1a000, [(648, 4), (1, 648)], 7, 1, .msaTX, .ro, .none, false, .any⟩
def Reg.NET_MSA_SC : Row := ⟨0x0d, 0x1a000, [(648, 4), (1, 648)], 8, 4, .msaSC, .ro, .none, false, .any⟩
def Reg.NET_MSA_SUITE : Row := ⟨0x0d, 0x1a000, [(648, 4), (1, 648)], 12, 2, .const 0, .so, .none, false, .any⟩
def Reg.NET_MSA_OFFSET : Row := ⟨0x0d, 0x1a000, [(648, 4), (1, 648)], 14, 2, .const 0, .so, .none, false, .any⟩
def Reg.NET_MSA_VALID : Row := ⟨0x0d, 0x1a000, [(648, 4), (1, 648)], 16, 1, .const 0, .so, .none, false, .any⟩
def Reg.NET_DIAG_TESTER : Row := ⟨0x0d, 0x1b000, [(128, 4), (4, 32)], 0, 16, .const 0, .so, .none, false, .any⟩
def Reg.NET_DIAG_TARGET : Row := ⟨0x0d, 0x1b000, [(128, 4), (4, 32)], 16, 16, .const 0, .so, .none, false, .any⟩
def Reg.NET_DIAG_TST_RING : Row := ⟨0x0d, 0x1b001, [(128, 4), (4, 32)], 0, 6, .const 0, .so, .none, false, .any⟩
def Reg.NET_DIAG_TGT_RING : Row := ⟨0x0d, 0x1b001, [(128, 4), (4, 32)], 8, 6, .const 0, .so, .none, false, .any⟩
def Reg.NET_DIAG_ACTIVE : Row := ⟨0x0d, 0x1b001, [(128, 4), (4, 32)], 16, 1, .const 0, .so, .none, false, .any⟩
def Reg.NET_DIAG_ACT_BLOCK : Row := ⟨0x0d, 0x1b001, [(128, 4), (4, 32)], 17, 1, .const 0, .so, .none, false, .any⟩
def Reg.NET_DIAG_IDLE_S : Row := ⟨0x0d, 0x1b001, [(128, 4), (4, 32)], 24, 8, .const 0, .so, .none, false, .any⟩
def Reg.NET_AAS_AUTH : Row := ⟨0x0d, 0x1c000, [], 0, 1, .const 0, .ro, .every, false, .any⟩
def Reg.NET_AAS_REQ_MAIN : Row := ⟨0x0d, 0x1c000, [], 1, 1, .const 0, .so, .none, false, .any⟩
def Reg.NET_AAS_ACT_EN : Row := ⟨0x0d, 0x1c000, [], 4, 4, .const 0, .so, .none, false, .any⟩
def Reg.NET_AAS_VEC : Row := ⟨0x0d, 0x1c000, [], 16, 11, .const 0, .so, .none, false, .any⟩
def Reg.NET_AAS_LIST_LOCK : Row := ⟨0x0d, 0x1c001, [], 0, 1, .const 0, .wonce, .none, false, .any⟩
def Reg.NET_AAS_ISL_BLOCK : Row := ⟨0x0d, 0x1c002, [], 0, 16, .const 0, .ro, .none, false, .any⟩
def Reg.NET_AAS_MAIN_BLOCK : Row := ⟨0x0d, 0x1c002, [], 16, 16, .const 0, .ro, .none, false, .any⟩
def Reg.NET_ACTID_ID : Row := ⟨0x0d, 0x1c010, [(1, 64)], 0, 29, .const 0, .so, .none, false, .any⟩
def Reg.NET_ACTID_IDE : Row := ⟨0x0d, 0x1c010, [(1, 64)], 29, 1, .const 0, .so, .none, false, .any⟩
def Reg.NET_ACTID_VALID : Row := ⟨0x0d, 0x1c010, [(1, 64)], 31, 1, .const 0, .so, .none, false, .any⟩

/-- The fields of space NET. -/
def Reg.rowsNET : List Row :=
  [Reg.NET_PORT_EN, Reg.NET_PORT_MS, Reg.NET_PORT_GPTP, Reg.NET_PORT_PLCA_ID, Reg.NET_PORT_PLCA_NODES, Reg.NET_PORT_BURST, Reg.NET_PORT_STATE, Reg.NET_PORT_OWN_VEC_LO, Reg.NET_PORT_OWN_VEC_HI, Reg.NET_LAT_RX_LAT, Reg.NET_LAT_TX_LAT, Reg.NET_CNT_NOT_READY, Reg.NET_CNT_FCS_DROP, Reg.NET_CNT_AGED, Reg.NET_GPTP_ROLE, Reg.NET_GPTP_SYNC_LOG] ++
  [Reg.NET_FLOW_PORT, Reg.NET_FLOW_PANY, Reg.NET_FLOW_VID, Reg.NET_FLOW_VANY, Reg.NET_FLOW_ACT, Reg.NET_FLOW_VALID, Reg.NET_FLOW_ETYPE, Reg.NET_FLOW_MOFF, Reg.NET_FLOW_MVAL, Reg.NET_FLOW_MMASK, Reg.NET_FLOW_RING, Reg.NET_RING_BASE_LO, Reg.NET_RING_BASE_HI, Reg.NET_RING_NBUF1, Reg.NET_RING_SLOT_LOG2, Reg.NET_RING_OWNER] ++
  [Reg.NET_RING_VEC, Reg.NET_RING_MSG_N, Reg.NET_RING_SEQ, Reg.NET_ROUTE_SRC, Reg.NET_ROUTE_DST_EN, Reg.NET_ROUTE_TUN, Reg.NET_ROUTE_RING_EN, Reg.NET_ROUTE_WHEEL, Reg.NET_ROUTE_E2E, Reg.NET_ROUTE_POL_EN, Reg.NET_ROUTE_VALID, Reg.NET_ROUTE_ID, Reg.NET_ROUTE_MASK, Reg.NET_ROUTE_DST, Reg.NET_ROUTE_RING, Reg.NET_ROUTE_TPL] ++
  [Reg.NET_ROUTE_RATE, Reg.NET_ROUTE_BURST, Reg.NET_ROUTE_E2E_BYTE, Reg.NET_ROUTE_E2E_ID, Reg.NET_SIG_SRT, Reg.NET_SIG_SBIT, Reg.NET_SIG_LEN1, Reg.NET_SIG_DPDU, Reg.NET_SIG_DBIT, Reg.NET_SIG_FACTOR, Reg.NET_PDU_CTL, Reg.NET_PDU_FMT, Reg.NET_PDU_ON_CHG, Reg.NET_PDU_PERIOD_MS, Reg.NET_PDU_ID, Reg.NET_PDU_DLEN] ++
  [Reg.NET_TPL_DMAC_LO, Reg.NET_TPL_DMAC_HI, Reg.NET_TPL_VID, Reg.NET_TPL_PCP, Reg.NET_TPL_SID_HI, Reg.NET_TPL_PORT, Reg.NET_TPL_BUS, Reg.NET_IDS_UNKNOWN_ID, Reg.NET_IDS_POLICED, Reg.NET_IDS_E2E_FAIL, Reg.NET_IDS_ACF_UNKNOWN, Reg.NET_IDS_ACF_DROP, Reg.NET_IDS_BUF_DROP, Reg.NET_IDS_DIAG_DENIED, Reg.NET_IDS_NOFLOW, Reg.NET_MSA_SLOT] ++
  [Reg.NET_MSA_AN, Reg.NET_MSA_TX, Reg.NET_MSA_SC, Reg.NET_MSA_SUITE, Reg.NET_MSA_OFFSET, Reg.NET_MSA_VALID, Reg.NET_DIAG_TESTER, Reg.NET_DIAG_TARGET, Reg.NET_DIAG_TST_RING, Reg.NET_DIAG_TGT_RING, Reg.NET_DIAG_ACTIVE, Reg.NET_DIAG_ACT_BLOCK, Reg.NET_DIAG_IDLE_S, Reg.NET_AAS_AUTH, Reg.NET_AAS_REQ_MAIN, Reg.NET_AAS_ACT_EN] ++
  [Reg.NET_AAS_VEC, Reg.NET_AAS_LIST_LOCK, Reg.NET_AAS_ISL_BLOCK, Reg.NET_AAS_MAIN_BLOCK, Reg.NET_ACTID_ID, Reg.NET_ACTID_IDE, Reg.NET_ACTID_VALID]

/-! ### Space 0x0E, CAN (14) -/

def Reg.CAN_CTL_MODE : Row := ⟨0x0e, 0, [(128, 4), (8, 16)], 0, 2, .const 0, .so, .none, false, .within 0 2⟩
def Reg.CAN_CTL_EN : Row := ⟨0x0e, 0, [(128, 4), (8, 16)], 2, 1, .const 0, .so, .none, false, .any⟩
def Reg.CAN_CTL_AUTO_BOR : Row := ⟨0x0e, 0, [(128, 4), (8, 16)], 3, 1, .const 0, .so, .none, false, .any⟩
def Reg.CAN_CTL_LONE_STOP : Row := ⟨0x0e, 0, [(128, 4), (8, 16)], 4, 1, .const 0, .so, .none, false, .any⟩
def Reg.CAN_CTL_STRICT : Row := ⟨0x0e, 0, [(128, 4), (8, 16)], 5, 1, .const 0, .so, .none, false, .any⟩
def Reg.CAN_CTL_ACK_N : Row := ⟨0x0e, 0, [(128, 4), (8, 16)], 8, 8, .const 0, .so, .none, false, .any⟩
def Reg.CAN_CTL_MAX_LEN : Row := ⟨0x0e, 0, [(128, 4), (8, 16)], 16, 12, .const 0, .so, .none, false, .any⟩
def Reg.CAN_CTL_NBT_BRP : Row := ⟨0x0e, 1, [(128, 4), (8, 16)], 0, 5, .const 0, .so, .none, false, .any⟩
def Reg.CAN_CTL_NBT_TSEG1 : Row := ⟨0x0e, 1, [(128, 4), (8, 16)], 5, 8, .const 0, .so, .none, false, .any⟩
def Reg.CAN_CTL_NBT_TSEG2 : Row := ⟨0x0e, 1, [(128, 4), (8, 16)], 13, 7, .const 0, .so, .none, false, .any⟩
def Reg.CAN_CTL_NBT_SJW : Row := ⟨0x0e, 1, [(128, 4), (8, 16)], 20, 7, .const 0, .so, .none, false, .any⟩
def Reg.CAN_CTL_DBT_BRP : Row := ⟨0x0e, 2, [(128, 4), (8, 16)], 0, 5, .const 0, .so, .none, false, .any⟩
def Reg.CAN_CTL_DBT_TSEG1 : Row := ⟨0x0e, 2, [(128, 4), (8, 16)], 5, 5, .const 0, .so, .none, false, .any⟩
def Reg.CAN_CTL_DBT_TSEG2 : Row := ⟨0x0e, 2, [(128, 4), (8, 16)], 10, 4, .const 0, .so, .none, false, .any⟩
def Reg.CAN_CTL_DBT_SJW : Row := ⟨0x0e, 2, [(128, 4), (8, 16)], 14, 4, .const 0, .so, .none, false, .any⟩
def Reg.CAN_CTL_DBT_TDC : Row := ⟨0x0e, 2, [(128, 4), (8, 16)], 18, 8, .const 0, .so, .none, false, .any⟩
def Reg.CAN_CTL_PWMS : Row := ⟨0x0e, 3, [(128, 4), (8, 16)], 0, 6, .const 0, .so, .none, false, .any⟩
def Reg.CAN_CTL_PWML : Row := ⟨0x0e, 3, [(128, 4), (8, 16)], 6, 6, .const 0, .so, .none, false, .any⟩
def Reg.CAN_CTL_PWMO : Row := ⟨0x0e, 3, [(128, 4), (8, 16)], 12, 6, .const 0, .so, .none, false, .any⟩
def Reg.CAN_CTL_PWM_EN : Row := ⟨0x0e, 3, [(128, 4), (8, 16)], 18, 1, .const 0, .so, .none, false, .any⟩
def Reg.CAN_CTL_TEC : Row := ⟨0x0e, 4, [(128, 4), (8, 16)], 0, 8, .const 0, .ro, .port, false, .any⟩
def Reg.CAN_CTL_REC : Row := ⟨0x0e, 4, [(128, 4), (8, 16)], 8, 8, .const 0, .ro, .port, false, .any⟩
def Reg.CAN_CTL_STATE : Row := ⟨0x0e, 4, [(128, 4), (8, 16)], 16, 2, .const 0, .ro, .port, false, .any⟩
def Reg.CAN_CTL_LONE : Row := ⟨0x0e, 4, [(128, 4), (8, 16)], 18, 1, .const 0, .ro, .port, false, .any⟩
def Reg.CAN_CTL_LAST : Row := ⟨0x0e, 4, [(128, 4), (8, 16)], 24, 8, .const 0, .ro, .port, false, .any⟩
def Reg.CAN_CTL_ACKERR : Row := ⟨0x0e, 5, [(128, 4), (8, 16)], 0, 16, .const 0, .ro, .none, false, .any⟩
def Reg.CAN_CTL_LONES : Row := ⟨0x0e, 5, [(128, 4), (8, 16)], 16, 16, .const 0, .ro, .none, false, .any⟩
def Reg.CAN_CTL_RESUME : Row := ⟨0x0e, 6, [(128, 4), (8, 16)], 0, 1, .const 0, .so, .none, false, .any⟩
def Reg.CAN_CTL_OWN_VEC : Row := ⟨0x0e, 6, [(128, 4), (8, 16)], 16, 11, .const 0, .so, .none, false, .any⟩
def Reg.CAN_LIN_MODE : Row := ⟨0x0e, 0x1000, [(16, 4), (2, 8)], 0, 2, .const 0, .so, .none, false, .within 0 2⟩
def Reg.CAN_LIN_EN : Row := ⟨0x0e, 0x1000, [(16, 4), (2, 8)], 2, 1, .const 0, .so, .none, false, .any⟩
def Reg.CAN_LIN_RATE : Row := ⟨0x0e, 0x1000, [(16, 4), (2, 8)], 4, 16, .const 0, .so, .none, false, .any⟩
def Reg.CAN_LIN_SCHED : Row := ⟨0x0e, 0x1001, [(16, 4), (2, 8)], 6, 26, .const 0, .so, .none, false, .any⟩

/-- The fields of space CAN. -/
def Reg.rowsCAN : List Row :=
  [Reg.CAN_CTL_MODE, Reg.CAN_CTL_EN, Reg.CAN_CTL_AUTO_BOR, Reg.CAN_CTL_LONE_STOP, Reg.CAN_CTL_STRICT, Reg.CAN_CTL_ACK_N, Reg.CAN_CTL_MAX_LEN, Reg.CAN_CTL_NBT_BRP, Reg.CAN_CTL_NBT_TSEG1, Reg.CAN_CTL_NBT_TSEG2, Reg.CAN_CTL_NBT_SJW, Reg.CAN_CTL_DBT_BRP, Reg.CAN_CTL_DBT_TSEG1, Reg.CAN_CTL_DBT_TSEG2, Reg.CAN_CTL_DBT_SJW, Reg.CAN_CTL_DBT_TDC] ++
  [Reg.CAN_CTL_PWMS, Reg.CAN_CTL_PWML, Reg.CAN_CTL_PWMO, Reg.CAN_CTL_PWM_EN, Reg.CAN_CTL_TEC, Reg.CAN_CTL_REC, Reg.CAN_CTL_STATE, Reg.CAN_CTL_LONE, Reg.CAN_CTL_LAST, Reg.CAN_CTL_ACKERR, Reg.CAN_CTL_LONES, Reg.CAN_CTL_RESUME, Reg.CAN_CTL_OWN_VEC, Reg.CAN_LIN_MODE, Reg.CAN_LIN_EN, Reg.CAN_LIN_RATE] ++
  [Reg.CAN_LIN_SCHED]

/-! ### Space 0x0F, CLK (15) -/

def Reg.CLK_REF_SEL : Row := ⟨0x0f, 0, [], 0, 1, .const 0, .so, .none, false, .any⟩
def Reg.CLK_REF_ACTIVE : Row := ⟨0x0f, 0, [], 4, 1, .const 0, .ro, .none, false, .any⟩
def Reg.CLK_REF_A_OK : Row := ⟨0x0f, 0, [], 8, 1, .const 1, .ro, .none, false, .any⟩
def Reg.CLK_REF_B_OK : Row := ⟨0x0f, 0, [], 9, 1, .const 1, .ro, .none, false, .any⟩
def Reg.CLK_REF_J32_OK : Row := ⟨0x0f, 0, [], 10, 1, .const 1, .ro, .none, false, .any⟩
def Reg.CLK_REF_DISAGREE : Row := ⟨0x0f, 0, [], 11, 1, .const 0, .ro, .none, false, .any⟩
def Reg.CLK_REF_DEGRADED : Row := ⟨0x0f, 0, [], 12, 1, .const 0, .ro, .none, false, .any⟩
def Reg.CLK_REF_SWITCHES : Row := ⟨0x0f, 0, [], 16, 16, .const 0, .ro, .none, false, .any⟩
def Reg.CLK_DRIFT_A : Row := ⟨0x0f, 1, [], 0, 32, .const 0, .ro, .none, false, .any⟩
def Reg.CLK_DRIFT_B : Row := ⟨0x0f, 2, [], 0, 32, .const 0, .ro, .none, false, .any⟩
def Reg.CLK_DRIFT_AB : Row := ⟨0x0f, 3, [], 0, 32, .const 0, .ro, .none, false, .any⟩
def Reg.CLK_EPOCH_Q : Row := ⟨0x0f, 0x10, [], 0, 3, .const 0, .ro, .every, false, .any⟩
def Reg.CLK_EPOCH_QMIN : Row := ⟨0x0f, 0x10, [], 4, 3, .const 2, .so, .none, false, .any⟩
def Reg.CLK_EPOCH_STEP_NS : Row := ⟨0x0f, 0x11, [], 0, 32, .const 10000, .so, .none, false, .within 100 10000000⟩
def Reg.CLK_EPOCH_SLEW_PPM : Row := ⟨0x0f, 0x12, [], 0, 9, .const 100, .so, .none, false, .within 1 500⟩
def Reg.CLK_EPOCH_HOLD_S : Row := ⟨0x0f, 0x12, [], 16, 8, .const 10, .so, .none, false, .within 1 255⟩
def Reg.CLK_EPOCH_SET_LO : Row := ⟨0x0f, 0x13, [], 0, 32, .const 0, .so, .none, false, .any⟩
def Reg.CLK_EPOCH_SET_HI : Row := ⟨0x0f, 0x14, [], 0, 32, .const 0, .so, .none, false, .any⟩
def Reg.CLK_EPOCH_GO : Row := ⟨0x0f, 0x15, [], 0, 1, .const 0, .so, .none, false, .any⟩
def Reg.CLK_EPOCH_OFFSET : Row := ⟨0x0f, 0x16, [], 0, 32, .const 0, .ro, .none, false, .any⟩
def Reg.CLK_EPOCH_STEPS : Row := ⟨0x0f, 0x17, [], 0, 16, .const 0, .ro, .none, false, .any⟩
def Reg.CLK_EPOCH_LAST_STEP : Row := ⟨0x0f, 0x18, [], 0, 32, .const 0, .ro, .none, false, .any⟩
def Reg.CLK_SSC_PCT : Row := ⟨0x0f, 0x20, [(1, 3)], 0, 4, .const 0, .so, .none, false, .within 0 10⟩
def Reg.CLK_DOM_MHZ : Row := ⟨0x0f, 0x30, [(1, 14)], 0, 16, .domMhz, .ro, .none, false, .any⟩
def Reg.CLK_PAD_DRIVE : Row := ⟨0x0f, 0x41, [(1, 5)], 0, 2, .const 1, .so, .none, false, .any⟩
def Reg.CLK_PAD_SLEW : Row := ⟨0x0f, 0x41, [(1, 5)], 2, 2, .const 1, .so, .none, false, .any⟩
def Reg.CLK_PAD_FILT : Row := ⟨0x0f, 0x41, [(1, 5)], 4, 4, .const 2, .so, .none, false, .padFilter⟩
def Reg.CLK_RTC_LO : Row := ⟨0x0f, 0x50, [], 0, 32, .kept, .ro, .none, false, .any⟩
def Reg.CLK_RTC_HI : Row := ⟨0x0f, 0x51, [], 0, 16, .kept, .ro, .none, false, .any⟩
def Reg.CLK_RTC_SYNC : Row := ⟨0x0f, 0x52, [], 0, 1, .const 0, .so, .none, false, .any⟩
def Reg.CLK_RTC_VALID : Row := ⟨0x0f, 0x52, [], 1, 1, .kept, .ro, .none, false, .any⟩

/-- The fields of space CLK. -/
def Reg.rowsCLK : List Row :=
  [Reg.CLK_REF_SEL, Reg.CLK_REF_ACTIVE, Reg.CLK_REF_A_OK, Reg.CLK_REF_B_OK, Reg.CLK_REF_J32_OK, Reg.CLK_REF_DISAGREE, Reg.CLK_REF_DEGRADED, Reg.CLK_REF_SWITCHES, Reg.CLK_DRIFT_A, Reg.CLK_DRIFT_B, Reg.CLK_DRIFT_AB, Reg.CLK_EPOCH_Q, Reg.CLK_EPOCH_QMIN, Reg.CLK_EPOCH_STEP_NS, Reg.CLK_EPOCH_SLEW_PPM, Reg.CLK_EPOCH_HOLD_S] ++
  [Reg.CLK_EPOCH_SET_LO, Reg.CLK_EPOCH_SET_HI, Reg.CLK_EPOCH_GO, Reg.CLK_EPOCH_OFFSET, Reg.CLK_EPOCH_STEPS, Reg.CLK_EPOCH_LAST_STEP, Reg.CLK_SSC_PCT, Reg.CLK_DOM_MHZ, Reg.CLK_PAD_DRIVE, Reg.CLK_PAD_SLEW, Reg.CLK_PAD_FILT, Reg.CLK_RTC_LO, Reg.CLK_RTC_HI, Reg.CLK_RTC_SYNC, Reg.CLK_RTC_VALID]

/-! ### Space 0x10, PWR (20) -/

def Reg.PWR_PD_REQ : Row := ⟨0x10, 0, [(1, 12)], 0, 1, .const 1, .so, .none, false, .any⟩
def Reg.PWR_PD_STATE : Row := ⟨0x10, 0, [(1, 12)], 8, 2, .const 2, .ro, .none, false, .any⟩
def Reg.PWR_PD_ON_COUNT : Row := ⟨0x10, 0, [(1, 12)], 16, 16, .const 0, .ro, .none, false, .any⟩
def Reg.PWR_THERM_LEVEL : Row := ⟨0x10, 0x10, [], 0, 2, .const 0, .ro, .every, false, .any⟩
def Reg.PWR_THERM_HLEVEL : Row := ⟨0x10, 0x10, [], 4, 2, .const 0, .ro, .every, false, .any⟩
def Reg.PWR_THERM_TRIP : Row := ⟨0x10, 0x10, [], 8, 1, .const 0, .ro, .every, false, .any⟩
def Reg.PWR_THERM_OFFSET : Row := ⟨0x10, 0x11, [], 0, 4, .const 0, .so, .none, false, .any⟩
def Reg.PWR_TEMP : Row := ⟨0x10, 0x20, [(1, 5)], 0, 12, .const 0, .ro, .none, false, .any⟩
def Reg.PWR_HBMT_T : Row := ⟨0x10, 0x28, [(1, 6)], 0, 12, .const 0, .ro, .none, false, .any⟩
def Reg.PWR_HBMT_LEVEL : Row := ⟨0x10, 0x28, [(1, 6)], 12, 2, .const 0, .ro, .none, false, .any⟩
def Reg.PWR_DERATE_TILE : Row := ⟨0x10, 0x30, [], 0, 4, .const 8, .ro, .none, false, .any⟩
def Reg.PWR_DERATE_LINK : Row := ⟨0x10, 0x30, [], 4, 4, .const 8, .ro, .none, false, .any⟩
def Reg.PWR_AVS_CORE : Row := ⟨0x10, 0x40, [], 0, 10, .const 800, .ro, .none, false, .any⟩
def Reg.PWR_AVS_CPU : Row := ⟨0x10, 0x40, [], 16, 10, .const 800, .ro, .none, false, .any⟩
def Reg.PWR_AVS_FAIL : Row := ⟨0x10, 0x40, [], 31, 1, .const 0, .ro, .none, false, .any⟩
def Reg.PWR_LVLTIME : Row := ⟨0x10, 0x51, [(1, 3)], 0, 32, .const 0, .ro, .none, false, .any⟩
def Reg.PWR_TRIPS : Row := ⟨0x10, 0x54, [], 0, 16, .const 0, .ro, .none, false, .any⟩

/-- The fields of space PWR. -/
def Reg.rowsPWR : List Row :=
  [Reg.PWR_PD_REQ, Reg.PWR_PD_STATE, Reg.PWR_PD_ON_COUNT, Reg.PWR_THERM_LEVEL, Reg.PWR_THERM_HLEVEL, Reg.PWR_THERM_TRIP, Reg.PWR_THERM_OFFSET, Reg.PWR_TEMP, Reg.PWR_HBMT_T, Reg.PWR_HBMT_LEVEL, Reg.PWR_DERATE_TILE, Reg.PWR_DERATE_LINK, Reg.PWR_AVS_CORE, Reg.PWR_AVS_CPU, Reg.PWR_AVS_FAIL, Reg.PWR_LVLTIME] ++
  [Reg.PWR_TRIPS]

/-! ### Space 0x11, SAF (16, Table saf.7) -/

def Reg.SAF_CTRL_VEC : Row := ⟨0x11, 0, [], 0, 11, .const 0, .so, .none, false, .any⟩
def Reg.SAF_CTRL_LOCK : Row := ⟨0x11, 0, [], 16, 1, .const 0, .wonce, .none, false, .any⟩
def Reg.SAF_HB_CFG_MIN_MS : Row := ⟨0x11, 1, [], 0, 8, .const 5, .so, .none, false, .any⟩
def Reg.SAF_HB_CFG_MAX_MS : Row := ⟨0x11, 1, [], 8, 8, .const 50, .so, .none, false, .within 2 255⟩
def Reg.SAF_HB_CFG_EN : Row := ⟨0x11, 1, [], 16, 1, .const 0, .so, .none, false, .any⟩
def Reg.SAF_HB_SEQ : Row := ⟨0x11, 2, [], 0, 16, .const 0, .so, .none, false, .any⟩
def Reg.SAF_RET_HYST_MS : Row := ⟨0x11, 3, [], 0, 16, .const 1000, .so, .none, false, .within 100 60000⟩
def Reg.SAF_RST_MAX : Row := ⟨0x11, 4, [], 0, 4, .const 3, .so, .none, false, .within 1 15⟩
def Reg.SAF_RST_WIN_S : Row := ⟨0x11, 4, [], 8, 8, .const 60, .so, .none, false, .within 1 255⟩
def Reg.SAF_RST_COUNT : Row := ⟨0x11, 4, [], 16, 8, .const 0, .ro, .none, false, .any⟩
def Reg.SAF_RST_PARKED : Row := ⟨0x11, 4, [], 24, 1, .const 0, .ro, .none, false, .any⟩
def Reg.SAF_XCH : Row := ⟨0x11, 5, [], 0, 32, .const 0, .so, .none, false, .any⟩
def Reg.SAF_STAT_CONSENT : Row := ⟨0x11, 8, [], 0, 1, .const 0, .ro, .every, false, .any⟩
def Reg.SAF_STAT_ISL_FAIL : Row := ⟨0x11, 8, [], 1, 1, .const 0, .ro, .every, false, .any⟩
def Reg.SAF_STAT_INJ_DONE : Row := ⟨0x11, 8, [], 2, 1, .const 0, .ro, .every, false, .any⟩
def Reg.SAF_STAT_INJ_FAIL : Row := ⟨0x11, 8, [], 3, 1, .const 0, .ro, .every, false, .any⟩
def Reg.SAF_STAT_TAKEOVERS : Row := ⟨0x11, 9, [], 0, 16, .const 0, .ro, .none, false, .any⟩
def Reg.SAF_STAT_RETURNS : Row := ⟨0x11, 9, [], 16, 16, .const 0, .ro, .none, false, .any⟩
def Reg.SAF_EVT_REACT : Row := ⟨0x11, 0x40, [(1, 28)], 0, 3, .evtReact, .so, .none, false, .within 0 4⟩
def Reg.SAF_EVT_MIN : Row := ⟨0x11, 0x40, [(1, 28)], 4, 3, .evtMin, .ro, .none, false, .any⟩
def Reg.SAF_EVT_LATCH : Row := ⟨0x11, 0x40, [(1, 28)], 8, 1, .const 0, .ro, .none, false, .any⟩
def Reg.SAF_EVT_CLR : Row := ⟨0x11, 0x40, [(1, 28)], 9, 1, .const 0, .so, .none, false, .any⟩
def Reg.SAF_EVT_COUNT : Row := ⟨0x11, 0x40, [(1, 28)], 16, 16, .const 0, .ro, .none, false, .any⟩
def Reg.SAF_LAST_EVT : Row := ⟨0x11, 0x60, [], 0, 5, .const 0, .ro, .none, false, .any⟩
def Reg.SAF_LAST_TIME_LO : Row := ⟨0x11, 0x61, [], 0, 32, .const 0, .ro, .none, false, .any⟩
def Reg.SAF_LAST_TIME_HI : Row := ⟨0x11, 0x62, [], 0, 32, .const 0, .ro, .none, false, .any⟩
def Reg.SAF_INJ_OK : Row := ⟨0x11, 0x80, [(1, 64)], 0, 1, .const 0, .ro, .none, false, .any⟩
def Reg.SAF_INJ_FAILS : Row := ⟨0x11, 0x80, [(1, 64)], 8, 8, .const 0, .ro, .none, false, .any⟩

/-- The fields of space SAF. -/
def Reg.rowsSAF : List Row :=
  [Reg.SAF_CTRL_VEC, Reg.SAF_CTRL_LOCK, Reg.SAF_HB_CFG_MIN_MS, Reg.SAF_HB_CFG_MAX_MS, Reg.SAF_HB_CFG_EN, Reg.SAF_HB_SEQ, Reg.SAF_RET_HYST_MS, Reg.SAF_RST_MAX, Reg.SAF_RST_WIN_S, Reg.SAF_RST_COUNT, Reg.SAF_RST_PARKED, Reg.SAF_XCH, Reg.SAF_STAT_CONSENT, Reg.SAF_STAT_ISL_FAIL, Reg.SAF_STAT_INJ_DONE, Reg.SAF_STAT_INJ_FAIL] ++
  [Reg.SAF_STAT_TAKEOVERS, Reg.SAF_STAT_RETURNS, Reg.SAF_EVT_REACT, Reg.SAF_EVT_MIN, Reg.SAF_EVT_LATCH, Reg.SAF_EVT_CLR, Reg.SAF_EVT_COUNT, Reg.SAF_LAST_EVT, Reg.SAF_LAST_TIME_LO, Reg.SAF_LAST_TIME_HI, Reg.SAF_INJ_OK, Reg.SAF_INJ_FAILS]

/-! ### Space 0x12, ALM (17) -/

def Reg.ALM_CTRL_VEC : Row := ⟨0x12, 0, [], 0, 11, .const 0, .so, .none, false, .any⟩
def Reg.ALM_CFG_WREACT : Row := ⟨0x12, 1, [], 0, 3, .const 3, .so, .none, false, .within 0 4⟩
def Reg.ALM_CFG_POST : Row := ⟨0x12, 1, [], 8, 4, .const 4, .so, .none, false, .any⟩
def Reg.ALM_HEAD : Row := ⟨0x12, 2, [], 0, 12, .kept, .ro, .none, false, .any⟩
def Reg.ALM_SEQ : Row := ⟨0x12, 3, [], 0, 32, .kept, .ro, .none, false, .any⟩
def Reg.ALM_STAT_LOST : Row := ⟨0x12, 4, [], 0, 16, .const 0, .ro, .none, false, .any⟩
def Reg.ALM_STAT_FRESH : Row := ⟨0x12, 4, [], 16, 1, .const 0, .ro, .none, false, .any⟩
def Reg.ALM_STAT_BK_PENDING : Row := ⟨0x12, 4, [], 17, 1, .kept, .ro, .none, false, .any⟩
def Reg.ALM_BK_LATCH : Row := ⟨0x12, 5, [], 0, 7, .kept, .ro, .none, false, .any⟩
def Reg.ALM_BK_EN : Row := ⟨0x12, 5, [], 8, 7, .const 0, .so, .none, false, .any⟩
def Reg.ALM_BK_WAKE : Row := ⟨0x12, 5, [], 16, 7, .const 0, .so, .none, false, .any⟩
def Reg.ALM_BK_ACK : Row := ⟨0x12, 5, [], 24, 1, .const 0, .so, .none, false, .any⟩
def Reg.ALM_WRECK_STATE : Row := ⟨0x12, 0x10, [(1, 5)], 0, 2, .const 0, .ro, .none, false, .any⟩
def Reg.ALM_WRECK_CAUSE : Row := ⟨0x12, 0x10, [(1, 5)], 4, 4, .const 0, .ro, .none, false, .any⟩
def Reg.ALM_WRECK_MISSED : Row := ⟨0x12, 0x10, [(1, 5)], 8, 8, .const 0, .ro, .none, false, .any⟩
def Reg.ALM_WRECK_PTR : Row := ⟨0x12, 0x10, [(1, 5)], 16, 12, .const 0, .ro, .none, false, .any⟩
def Reg.ALM_WRECK_SW : Row := ⟨0x12, 0x18, [], 0, 1, .const 0, .so, .none, false, .any⟩
def Reg.ALM_WRECK_REARM : Row := ⟨0x12, 0x19, [], 0, 5, .const 0, .so, .none, false, .any⟩
def Reg.ALM_DUMP_DIE : Row := ⟨0x12, 0x1a, [], 0, 3, .const 0, .so, .none, false, .any⟩
def Reg.ALM_DUMP_GO : Row := ⟨0x12, 0x1a, [], 8, 1, .const 0, .so, .none, false, .any⟩
def Reg.ALM_DUMP_DONE : Row := ⟨0x12, 0x1a, [], 9, 1, .const 0, .ro, .none, false, .any⟩
def Reg.ALM_DUMP_STATUS : Row := ⟨0x12, 0x1a, [], 16, 8, .const 0, .ro, .none, false, .any⟩
def Reg.ALM_DUMP_ADDR_LO : Row := ⟨0x12, 0x1b, [], 16, 16, .const 0, .so, .none, false, .any⟩
def Reg.ALM_DUMP_ADDR_HI : Row := ⟨0x12, 0x1c, [], 0, 16, .const 0, .so, .none, false, .any⟩

/-- The fields of space ALM. -/
def Reg.rowsALM : List Row :=
  [Reg.ALM_CTRL_VEC, Reg.ALM_CFG_WREACT, Reg.ALM_CFG_POST, Reg.ALM_HEAD, Reg.ALM_SEQ, Reg.ALM_STAT_LOST, Reg.ALM_STAT_FRESH, Reg.ALM_STAT_BK_PENDING, Reg.ALM_BK_LATCH, Reg.ALM_BK_EN, Reg.ALM_BK_WAKE, Reg.ALM_BK_ACK, Reg.ALM_WRECK_STATE, Reg.ALM_WRECK_CAUSE, Reg.ALM_WRECK_MISSED, Reg.ALM_WRECK_PTR] ++
  [Reg.ALM_WRECK_SW, Reg.ALM_WRECK_REARM, Reg.ALM_DUMP_DIE, Reg.ALM_DUMP_GO, Reg.ALM_DUMP_DONE, Reg.ALM_DUMP_STATUS, Reg.ALM_DUMP_ADDR_LO, Reg.ALM_DUMP_ADDR_HI]

/-! ### Space 0x13, BOOT (18; ID0 and ID1 01, Tables block.5 and block.6) -/

def Reg.BOOT_ID0_VARIANT : Row := ⟨0x13, 0, [], 0, 4, .fuse .variant, .ro, .every, true, .any⟩
def Reg.BOOT_ID0_STACKS : Row := ⟨0x13, 0, [], 4, 4, .fuse .hbmStacks, .ro, .every, true, .any⟩
def Reg.BOOT_ID0_STACK_MASK : Row := ⟨0x13, 0, [], 8, 6, .fuse .stackMask, .ro, .every, true, .any⟩
def Reg.BOOT_ID0_XD_MASK : Row := ⟨0x13, 0, [], 16, 4, .fuse .xdMask, .ro, .every, true, .any⟩
def Reg.BOOT_ID0_STEPPING : Row := ⟨0x13, 0, [], 20, 8, .fuse .stepping, .ro, .every, true, .any⟩
def Reg.BOOT_ID1_TILES_RAW : Row := ⟨0x13, 1, [], 0, 7, .fuse .tilesRaw, .ro, .every, true, .any⟩
def Reg.BOOT_ID1_TILES_ENABLED : Row := ⟨0x13, 1, [], 8, 7, .fuse .tilesEnabled, .ro, .every, true, .any⟩
def Reg.BOOT_ID1_GOV_CEIL : Row := ⟨0x13, 1, [], 16, 3, .fuse .govCeil, .ro, .every, true, .any⟩
def Reg.BOOT_ID1_HBM_RATE : Row := ⟨0x13, 1, [], 20, 8, .fuse .hbmRate, .ro, .every, true, .any⟩
def Reg.BOOT_STAT_PHASE : Row := ⟨0x13, 2, [], 0, 4, .const 0, .ro, .every, true, .any⟩
def Reg.BOOT_STAT_CAUSE : Row := ⟨0x13, 2, [], 4, 3, .const 0, .ro, .every, true, .any⟩
def Reg.BOOT_STAT_COPY : Row := ⟨0x13, 2, [], 7, 1, .const 0, .ro, .every, true, .any⟩
def Reg.BOOT_STAT_SLOW : Row := ⟨0x13, 2, [], 8, 1, .const 0, .ro, .every, true, .any⟩
def Reg.BOOT_STAT_WARMS : Row := ⟨0x13, 2, [], 24, 8, .const 0, .ro, .every, true, .any⟩
def Reg.BOOT_CTRL_HART_GO : Row := ⟨0x13, 4, [], 1, 15, .const 0, .so, .none, false, .any⟩
def Reg.BOOT_SVN_MIN : Row := ⟨0x13, 0x11, [(1, 5)], 0, 6, .fuse .svnMin, .ro, .none, false, .any⟩
def Reg.BOOT_SVN_ADV : Row := ⟨0x13, 0x11, [(1, 5)], 8, 6, .const 0, .so, .none, false, .any⟩
def Reg.BOOT_IRST_REQ : Row := ⟨0x13, 0x40, [(1, 32)], 0, 1, .const 0, .so, .none, false, .any⟩
def Reg.BOOT_IRST_BUSY : Row := ⟨0x13, 0x40, [(1, 32)], 8, 1, .const 0, .ro, .none, false, .any⟩
def Reg.BOOT_IRST_COUNT : Row := ⟨0x13, 0x40, [(1, 32)], 16, 16, .const 0, .ro, .none, false, .any⟩
def Reg.BOOT_MEAS : Row := ⟨0x13, 0x100, [(12, 4), (1, 12)], 0, 32, .const 0, .ro, .every, true, .any⟩
def Reg.BOOT_CERT : Row := ⟨0x13, 0x400, [(1, 512)], 0, 32, .fuse .cert, .ro, .every, true, .any⟩

/-- The fields of space BOOT. -/
def Reg.rowsBOOT : List Row :=
  [Reg.BOOT_ID0_VARIANT, Reg.BOOT_ID0_STACKS, Reg.BOOT_ID0_STACK_MASK, Reg.BOOT_ID0_XD_MASK, Reg.BOOT_ID0_STEPPING, Reg.BOOT_ID1_TILES_RAW, Reg.BOOT_ID1_TILES_ENABLED, Reg.BOOT_ID1_GOV_CEIL, Reg.BOOT_ID1_HBM_RATE, Reg.BOOT_STAT_PHASE, Reg.BOOT_STAT_CAUSE, Reg.BOOT_STAT_COPY, Reg.BOOT_STAT_SLOW, Reg.BOOT_STAT_WARMS, Reg.BOOT_CTRL_HART_GO, Reg.BOOT_SVN_MIN] ++
  [Reg.BOOT_SVN_ADV, Reg.BOOT_IRST_REQ, Reg.BOOT_IRST_BUSY, Reg.BOOT_IRST_COUNT, Reg.BOOT_MEAS, Reg.BOOT_CERT]

/-! ### Space 0x14, SVC (19) -/

def Reg.SVC_STAT_CAUSE : Row := ⟨0x14, 0, [], 0, 9, .kept, .ro, .every, false, .any⟩
def Reg.SVC_STAT_REPLACE : Row := ⟨0x14, 0, [], 16, 1, .kept, .ro, .every, false, .any⟩
def Reg.SVC_CFG_TILE_MIN : Row := ⟨0x14, 1, [], 0, 4, .const 2, .so, .none, false, .within 1 8⟩
def Reg.SVC_CFG_PERIOD_S : Row := ⟨0x14, 1, [], 8, 8, .const 10, .so, .none, false, .within 1 255⟩
def Reg.SVC_CFG_FRAME_EN : Row := ⟨0x14, 1, [], 16, 1, .const 0, .so, .none, false, .any⟩
def Reg.SVC_CFG_FRAME_CTL : Row := ⟨0x14, 1, [], 20, 4, .const 0, .so, .none, false, .any⟩
def Reg.SVC_CFG_VEC : Row := ⟨0x14, 2, [], 0, 11, .const 0, .so, .none, false, .any⟩
def Reg.SVC_FRAME_ID : Row := ⟨0x14, 3, [], 0, 29, .const 0, .so, .none, false, .any⟩
def Reg.SVC_FRAME_IDE : Row := ⟨0x14, 3, [], 29, 1, .const 0, .so, .none, false, .any⟩
def Reg.SVC_FRAME_DROPS : Row := ⟨0x14, 4, [], 0, 16, .const 0, .ro, .none, false, .any⟩
def Reg.SVC_EM : Row := ⟨0x14, 0x10, [(1, 5)], 0, 32, .kept, .ro, .none, false, .any⟩
def Reg.SVC_TCYC : Row := ⟨0x14, 0x18, [(1, 5)], 0, 16, .kept, .ro, .none, false, .any⟩
def Reg.SVC_HOURS_ACTIVE : Row := ⟨0x14, 0x20, [], 0, 18, .kept, .ro, .none, false, .any⟩
def Reg.SVC_HOURS_STANDBY : Row := ⟨0x14, 0x21, [], 0, 18, .kept, .ro, .none, false, .any⟩
def Reg.SVC_AGE : Row := ⟨0x14, 0x30, [(1, 16)], 0, 8, .kept, .ro, .none, false, .any⟩
def Reg.SVC_FCAP_APC : Row := ⟨0x14, 0x40, [], 0, 16, .const 2600, .ro, .none, false, .any⟩
def Reg.SVC_FCAP_GFX : Row := ⟨0x14, 0x41, [], 0, 16, .const 1200, .ro, .none, false, .any⟩
def Reg.SVC_LOG_SEQ : Row := ⟨0x14, 0x42, [], 0, 32, .kept, .ro, .none, false, .any⟩

/-- The fields of space SVC. -/
def Reg.rowsSVC : List Row :=
  [Reg.SVC_STAT_CAUSE, Reg.SVC_STAT_REPLACE, Reg.SVC_CFG_TILE_MIN, Reg.SVC_CFG_PERIOD_S, Reg.SVC_CFG_FRAME_EN, Reg.SVC_CFG_FRAME_CTL, Reg.SVC_CFG_VEC, Reg.SVC_FRAME_ID, Reg.SVC_FRAME_IDE, Reg.SVC_FRAME_DROPS, Reg.SVC_EM, Reg.SVC_TCYC, Reg.SVC_HOURS_ACTIVE, Reg.SVC_HOURS_STANDBY, Reg.SVC_AGE, Reg.SVC_FCAP_APC] ++
  [Reg.SVC_FCAP_GFX, Reg.SVC_LOG_SEQ]

/-! ### Space 0x15, CRY (08) -/

def Reg.CRY_KEY_OWNER : Row := ⟨0x15, 0, [(32, 4), (1, 32)], 0, 6, .const 0, .so, .none, false, .within 0 31⟩
def Reg.CRY_KEY_KIND : Row := ⟨0x15, 0, [(32, 4), (1, 32)], 8, 3, .const 0, .ro, .cryKey, false, .any⟩
def Reg.CRY_KEY_CLEAR : Row := ⟨0x15, 0, [(32, 4), (1, 32)], 16, 1, .const 0, .so, .none, false, .any⟩
def Reg.CRY_GRANT : Row := ⟨0x15, 0xf0, [(1, 4)], 0, 32, .const 1, .so, .none, false, .any⟩
def Reg.CRY_CNT_PREEMPT : Row := ⟨0x15, 0x100, [(4, 4)], 0, 32, .const 0, .ro, .none, false, .any⟩
def Reg.CRY_CNT_QUEUED : Row := ⟨0x15, 0x101, [(4, 4)], 0, 32, .const 0, .ro, .none, false, .any⟩
def Reg.CRY_CNT_JOBS : Row := ⟨0x15, 0x102, [(4, 4)], 0, 32, .const 0, .ro, .none, false, .any⟩

/-- The fields of space CRY. -/
def Reg.rowsCRY : List Row :=
  [Reg.CRY_KEY_OWNER, Reg.CRY_KEY_KIND, Reg.CRY_KEY_CLEAR, Reg.CRY_GRANT, Reg.CRY_CNT_PREEMPT, Reg.CRY_CNT_QUEUED, Reg.CRY_CNT_JOBS]

/-- The fields of a space; none for an identifier outside 0x01 to 0x15. -/
def Reg.rowsOf : Nat → List Row
  | 1 => Reg.rowsCMD
  | 2 => Reg.rowsTTU
  | 3 => Reg.rowsORR
  | 4 => Reg.rowsMAT
  | 5 => Reg.rowsMEM
  | 6 => Reg.rowsENC
  | 7 => Reg.rowsAPC
  | 8 => Reg.rowsINF
  | 9 => Reg.rowsGFX
  | 10 => Reg.rowsDSP
  | 11 => Reg.rowsSNS
  | 12 => Reg.rowsSXT
  | 13 => Reg.rowsNET
  | 14 => Reg.rowsCAN
  | 15 => Reg.rowsCLK
  | 16 => Reg.rowsPWR
  | 17 => Reg.rowsSAF
  | 18 => Reg.rowsALM
  | 19 => Reg.rowsBOOT
  | 20 => Reg.rowsSVC
  | 21 => Reg.rowsCRY
  | _ => []

/-- The decoded word ranges of a space, first and last word (22, Table index.1; R630). -/
def Reg.rangesOf : Nat → List (Nat × Nat)
  | 1 => [(0x40, 0x5f), (0x100, 0x1ff), (0x200, 0x2ff)]
  | 2 => [(0, 0xff), (0x100, 0x1ff), (0x200, 0x203)]
  | 3 => [(0, 2), (0x100, 0x1a3), (0x1000, 0x38ff), (0x4000, 0x91ff)]
  | 4 => [(0, 0), (2, 2), (0x10, 0x14), (0x18, 0x37), (0x80, 0x82), (0x100, 0x1a6), (0x200, 0x20e), (0x220, 0x22e), (0x300, 0x31f)]
  | 5 => [(0, 1), (0x40, 0x7f), (0x80, 0xbf), (0xc0, 0xdf), (0x100, 0x101), (0x111, 0x117), (0x140, 0x17f), (0x200, 0x20b)]
  | 6 => [(0, 0x1fe), (0x200, 0x201), (0x210, 0x26f), (0x8000, 0xffff)]
  | 7 => [(0, 0x7b), (0x80, 0x8e), (0xc0, 0xdf), (0x1000, 0x17ff), (0x2000, 0x24ff)]
  | 8 => [(0, 2), (0x10, 0x13), (0x40, 0x42), (0x80, 0xbf), (0xc0, 0x107), (0x200, 0x5fe), (0x600, 0x67e)]
  | 9 => [(0, 0xfd), (0x100, 0x17e), (0x180, 0x187), (0x200, 0x27f)]
  | 10 => [(0, 0x7d)]
  | 11 => [(0, 0x7fb)]
  | 12 => [(0, 0xd), (0x10, 0x15), (0x20, 0x22)]
  | 13 => [(0, 0x75), (0x80, 0xf5), (0x100, 0x175), (0x200, 0x2eb), (0x300, 0x300), (0x1000, 0x1fff), (0x2000, 0x23ff), (0x4000, 0xbffd), (0x14000, 0x15fff), (0x18000, 0x187fe), (0x19000, 0x190ff), (0x19400, 0x1941b), (0x1a000, 0x1aa1f), (0x1b000, 0x1b1fd), (0x1c000, 0x1c002), (0x1c010, 0x1c04f)]
  | 14 => [(0, 0x1fe), (0x1000, 0x103f)]
  | 15 => [(0, 3), (0x10, 0x18), (0x20, 0x22), (0x30, 0x3d), (0x41, 0x45), (0x50, 0x52)]
  | 16 => [(0, 0xb), (0x10, 0x11), (0x20, 0x24), (0x28, 0x2d), (0x30, 0x30), (0x40, 0x40), (0x51, 0x53), (0x54, 0x54)]
  | 17 => [(0, 5), (8, 9), (0x40, 0x5f), (0x60, 0x62), (0x80, 0xbf)]
  | 18 => [(0, 5), (0x10, 0x14), (0x18, 0x1c)]
  | 19 => [(0, 2), (4, 4), (0x11, 0x15), (0x40, 0x5f), (0x100, 0x12f), (0x400, 0x5ff)]
  | 20 => [(0, 4), (0x10, 0x14), (0x18, 0x1c), (0x20, 0x21), (0x30, 0x3f), (0x40, 0x41), (0x42, 0x42)]
  | 21 => [(0, 0x7f), (0xf0, 0xf3), (0x100, 0x10e)]
  | _ => []

end Sys2Proof.Machine
end

