-- ==== Sys2Proof/Machine/Sparse.lean ====
section
/-! DEFINITION. Sparse tables: lists of (key, value) pairs with the keys strictly rising. An unlisted key reads as a default that the caller gives. Memory, the state-space words and the replicated records of the units are held in this form. -/

namespace Sys2Proof.Machine

/-- The value at key `k`; `d` where the table lists none. -/
def tget {α : Type} (d : α) : List (Nat × α) → Nat → α
  | [], _ => d
  | (k', v) :: t, k => if k' = k then v else tget d t k

/-- The table without key `k`. -/
def tdel {α : Type} (t : List (Nat × α)) (k : Nat) : List (Nat × α) :=
  t.filter (fun e => e.1 != k)

/-- Insert before the first larger key. -/
def tins {α : Type} (k : Nat) (v : α) : List (Nat × α) → List (Nat × α)
  | [] => [(k, v)]
  | e :: t => if k < e.1 then (k, v) :: e :: t else e :: tins k v t

/-- The table with `v` at key `k`. -/
def tput {α : Type} (t : List (Nat × α)) (k : Nat) (v : α) : List (Nat × α) :=
  tins k v (tdel t k)

/-- The table with `v` at key `k`, kept canonical: a value equal to the default is not listed. -/
def tputD {α : Type} [DecidableEq α] (d : α) (t : List (Nat × α)) (k : Nat) (v : α) : List (Nat × α) :=
  if v = d then tdel t k else tput t k v

/-- The keys rise strictly. -/
def tsorted {α : Type} : List (Nat × α) → Bool
  | [] => true
  | [_] => true
  | e :: e' :: t => (e.1 < e'.1) && tsorted (e' :: t)

/-- The canonical form: rising keys, and no entry at the default of its key. -/
def tcanon {α : Type} [DecidableEq α] (d : Nat → α) (t : List (Nat × α)) : Bool :=
  tsorted t && t.all (fun e => e.2 ≠ d e.1)

end Sys2Proof.Machine
end

