-- ==== Sys2Proof/Machine/State.lean ====
section
/-! DEFINITION. The state of the CV9 block, all of it plain data, and its reset value. Each unit's own state is one structure; the state-space words, memory and the pending commands stand in State itself. -/

namespace Sys2Proof.Machine

/-! ### Answers, messages and jobs -/

/-- The answer of the last access that a command made: its status and the data read (the MODEL's own output, DESIGN CHOICE, log entry 2). -/
structure Resp where
  status : Status := .ok
  data : Nat := 0
  deriving DecidableEq, Repr

/-- An interrupt message on its way to an instance (06, R206; 09, R283): the target instance and the identity. -/
structure Msg where
  inst : Nat
  vec : Nat
  /-- The link whose receive buffer of class Q1 holds the message until its file accepts it (R190). -/
  link : Option Nat := none
  /-- The CMP context whose SIGNAL sent it (R127). -/
  ctx : Option Nat := none
  deriving DecidableEq, Repr

/-- Where an engine job stands (R74 to R77, R111): queued in its engine, running, past its completion point with a final status. -/
inductive JobPhase where
  | queued | running | complete (st : Status)
  deriving DecidableEq, Repr

/-- An engine job that a context has dispatched (R109): the context, the engine kind of Table isa.6, the job id, the addresses of its descriptor and record, the engine parameter, and what its record will hold (02, Table cmd.10). -/
structure Job where
  uid : Nat
  ctx : Nat
  engine : Nat
  id : Nat
  desc : Nat
  record : Nat
  param : Nat
  inst : Nat
  phase : JobPhase := .queued
  abort : Bool := false
  /-- Served class of the last unit: 0 within budget, 1 slack, 2 no unit served. -/
  cls : Nat := 2
  defer : Bool := false
  start : Option Nat := none
  units : Nat := 0
  unitRes : Nat := 0xFF
  deriving DecidableEq, Repr

/-! ### Requests for accesses -/

/-- What the TTU has decided for an access that it has admitted (R146): the physical address, whether the window posts, and the memory type. -/
structure Admitted where
  pa : Nat
  posted : Bool
  memtype : Nat
  deriving DecidableEq, Repr

/-- A request for an access that still has to be carried out: the access, its address as it arrived, its size and its data, the errors found, what the TTU has decided, once it has, and whether the units that it needs next (of its port before the TTU, of the other resources after it) have been granted. -/
structure HeldReq where
  acc : Access
  addr : Nat
  size : Nat
  bytes : List Byte
  err : RowError
  adm : Option Admitted := none
  paid : Bool := false
  deriving DecidableEq, Repr

/-! ### The Command Processor (02, 03) -/

/-- One entry of a staging buffer (03, Table isa.5). -/
structure Staged where
  space : Nat
  word : Nat
  lo : Nat
  width : Nat
  value : Nat
  deriving DecidableEq, Repr

/-- What a waiting context waits for (R61, R86, R98, R111, R113, R117, R128, R167). -/
inductive Wait where
  | spaceLock (e : Staged)
  | poll (addr mask want us : Nat)
  | slot (engine id desc record param : Nat)
  | job (id kd us : Nat)
  | sem (sem us : Nat)
  | handover (res owner : Nat)
  | budget
  | frozen
  deriving DecidableEq, Repr

/-- Where a context stands: idle, ready (or deferred while its instance has no budget, R55), running on a strand, or waiting. -/
inductive RunState where
  | idle | ready | running (strand : Nat) | waiting
  deriving DecidableEq, Repr

/-- The program that a context runs (02, Table cmd.7) and what its record will hold. `ending` is the status with which it ends, once it has ended and until its record is written. -/
structure Prog where
  desc : Nat
  next : Nat
  prog : Nat
  compl : Nat
  jobId : Nat
  len : Nat
  irq : Bool
  stop : Bool
  ending : Option Status := none
  cls : Nat := 2
  defer : Bool := false
  start : Option Nat := none
  units : Nat := 0
  strand : Nat := 0
  /-- A CMP fault, or an instruction's failing status, has ended it: its strand takes the next READY context (R56). -/
  faulted : Bool := false
  deriving DecidableEq, Repr

/-- A load that run-ahead has issued (R68, R97): its word index, address and size, and what it returned. -/
structure Prefetch where
  pos : Nat
  addr : Nat
  size : Nat
  st : Status
  value : Nat
  deriving DecidableEq, Repr

/-- One of the 64 contexts of the CMP (R52, R59, R81, R113, R178). `regs` lists K1 to K15; an unlisted one is 0. -/
structure Ctx where
  regs : List (Nat × DWord) := []
  pc : Nat := 0
  ls : Status := .ok
  run : RunState := .idle
  wait : Option Wait := none
  /-- C of the waiting instruction, and the words that it takes. -/
  waitC : Bool := false
  waitAdv : Nat := 1
  prog : Option Prog := none
  /-- The next descriptor of the chain, 0 when the context holds no chain. -/
  nextDesc : Nat := 0
  seqOpen : Bool := false
  seqFailed : Bool := false
  staged : List Staged := []
  dbPending : Bool := false
  specCancel : Nat := 0
  /-- Final statuses of the 64 most recently completed jobs, the newest first. -/
  history : List (Nat × Status) := []
  /-- The ORR.CNT latch: the word it was taken for, and the high word. -/
  cntLatch : Option (Nat × Nat) := none
  /-- Prefetched loads that have not been used (R97). -/
  prefetch : List Prefetch := []
  /-- The words of its program that run-ahead has fetched and that have not executed, by index, each with whether it is a FENCE (R68, R127). Words of the program that NEXT names count on from this one's last, and its descriptor stands at 2^16. -/
  ahead : List (Nat × Bool) := []
  /-- The access that the context waited for, which may go on: Orrery has granted it (R163), or a freeze has ended (R199). -/
  granted : Option HeldReq := none
  /-- The status with which a freeze or a timeout has ended the access that the context issues again (R186, R199). -/
  answered : Option Status := none
  deriving DecidableEq, Repr

/-- The state of the Command Processor and the Command Port beside the CMD words. -/
structure Cmp where
  /-- CP_CHAIN_HEAD.HEAD as an address, a multiple of 32. -/
  head : Nat := 0
  /-- CP_STATUS.CMP_STATE. -/
  state : Nat := 0
  lastDbTag : Nat := 0
  chains : Nat := 0
  rings : Nat := 0
  faultCode : Word := 0
  faultAddr : Nat := 0
  /-- The high half latched by the last low-half read of a tag: key 2 × tag + (1 for CP_EPOCH). -/
  latches : List (Nat × Word) := []
  ctxs : List (Nat × Ctx) := []
  /-- The context taken last, from which the round-robin of R54 goes on. -/
  rr : Nat := 63
  /-- The holder of each space's sequence lock, and the contexts that wait for one, in the order of arrival (R61). -/
  locks : List (Nat × Nat) := []
  lockQ : List (Nat × Nat) := []
  /-- The contexts that wait for a semaphore, in the order of arrival (R117). -/
  semQ : List (Nat × Nat) := []
  /-- Semaphores freed while contexts wait, to be handed over (R119). -/
  handoffs : List Nat := []
  /-- The jobs that engines hold, the oldest first. -/
  jobs : List Job := []
  nextUid : Nat := 0
  deriving DecidableEq, Repr

/-! ### Translation (04) -/

/-- A translation-cache entry (R140): the tag, the process identifier, the stage, the page number of the instance address, and the page number, the permissions and the memory type that the walk gave. `perm` holds R, W, X and D of the instance table at bits 0 to 3, and those of the first stage at bits 4 to 7. `size1` is the log2 size of the leaf of the address as it arrived; under a process identifier, `ia` is the instance address that its first stage gave and `size2` the log2 size of that address's own leaf (R142). -/
structure TlbEntry where
  tag : Nat
  pid : Nat
  stage : Nat
  vpn : Nat
  ppn : Nat
  perm : Nat
  memtype : Nat
  size1 : Nat := 12
  ia : Nat := 0
  size2 : Nat := 12
  deriving DecidableEq, Repr

/-- The TTU's own state: the cache, the newest entry first, and for each invalidation whose drain has not ended, the oldest first, the open transactions that used a dropped entry (R142). -/
structure Ttu where
  tlb : List TlbEntry := []
  drains : List (List Nat) := []
  deriving DecidableEq, Repr

/-! ### Orrery (05) -/

/-- A request that waits at its initiator (R154, R163, R165): its tag, the resources with their units that have not granted it, and those that have, and the party that made it: a context, a held command, or an engine job. -/
structure OrrReq where
  id : Nat
  tag : Nat
  need : List (Nat × Nat)
  granted : List (Nat × Nat) := []
  /-- The waiting context, when a CMP context made the request. -/
  ctx : Option Nat := none
  /-- The engine job, when one made it. -/
  job : Option Nat := none
  deferred : Bool := false
  /-- The access of any other initiator. -/
  req : Option HeldReq := none
  /-- The engine, of an access to memory that the command of an engine makes. -/
  party : Option Nat := none
  deriving DecidableEq, Repr

/-- Orrery's own state: remaining allowances by activity, waiting requests, round-robin pointers by 4 × resource + class, slack units and units of the running period, and shortfalls at the last boundary. -/
structure Orr where
  allow : List (Nat × Nat) := []
  waiting : List OrrReq := []
  nextId : Nat := 0
  ptr : List (Nat × Nat) := []
  slackNow : List (Nat × Nat) := []
  /-- Units served by a resource in the running period, and in a µs of device time, with that µs (R163). -/
  used : List (Nat × Nat) := []
  usedUs : List (Nat × Nat × Nat) := []
  shortfall : List (Nat × Nat) := []
  /-- Activities whose SLACK_EN was 0 at the last boundary (R159). -/
  slackOff : List Nat := []
  /-- Requests that every resource has granted and whose access is still to issue. -/
  issued : List OrrReq := []
  /-- Engine jobs whose waiting request every resource has granted, and the served class of that grant (R169). -/
  grantedJobs : List (Nat × Nat) := []
  /-- Units that an engine's accesses have been granted and that the engine has still to use, by 64 × engine + resource (DESIGN CHOICE, log entry 40). -/
  prepaid : List (Nat × Nat) := []
  deriving DecidableEq, Repr

/-! ### The fabric (06) -/

/-- A transaction whose target has not answered (R182, R186), or that a frozen layer holds (R198). -/
structure Txn where
  id : Nat
  port : Nat
  tag : Nat
  addr : Nat
  write : Bool
  /-- Bits [6:0] of its identifier (R183). -/
  tid : Option Nat := none
  /-- Its traffic class, 2 to 4, and the layer at which a freeze holds it: the buffer of that class there holds it (R207). -/
  cls : Nat := 3
  at_ : Nat := 0
  /-- The layers that hold it or that it waits on (R186). -/
  layers : List Nat := []
  frozen : Bool := false
  expired : Bool := false
  /-- None for the access that caused a freeze, and for one whose target is silent. -/
  req : Option HeldReq := none
  /-- The CMP context that waits for it. -/
  ctx : Option Nat := none
  /-- The engine whose command waits for it. -/
  party : Option Nat := none
  /-- A table walk caused the freeze, in its first stage or not: the access ends as a fault of cause 8 (R137). -/
  walk : Option Bool := none
  /-- The bridge layer of the posted write that caused the freeze; its entry in the tracker was freed on acceptance (R201). -/
  posted : Option Nat := none
  /-- The receive buffer of a link in which it stands, as 16 × link + 8 × direction + class; direction 0 leads from the CD (R190). -/
  rx : Option Nat := none
  /-- The initiator, by srcCode. -/
  source : Nat := 0
  deriving DecidableEq, Repr

/-- A posted write that a bridge has accepted and not completed (R201): the access, the physical address, the bytes, the layer it was crossing into, the errors that its target meets, and its memory type. It stands in that bridge and has not crossed it. -/
structure Posted where
  id : Nat
  acc : Access
  addr : Nat
  bytes : List Byte
  layer : Nat
  err : RowError := .none
  memtype : Nat := 0
  deriving DecidableEq, Repr

/-- An interrupt message that a bridge holds (R205): its die, its source as 256 × d + x where an interrupt source sent it, the earlier writes of that bridge that are not yet visible, and the message. -/
structure HeldMsg where
  source : Nat
  src : Option Nat := none
  behind : List Nat
  msg : Msg
  deriving DecidableEq, Repr

/-- What stops an access that the command of an engine makes (log entry 40): resources that have not granted it, a transaction that has not answered (and, where it caused a freeze, the access with the address and the layer that found no target there), or the governor. -/
inductive Stall where
  | need (tag : Nat) (l : List (Nat × Nat))
  | open_ (t : Txn) (froze : Option (Access × Nat × Nat))
  | governor (t : Nat) (q : HeldReq)
  deriving DecidableEq, Repr

/-- The fabric's own state. -/
structure Fab where
  open_ : List Txn := []
  nextId : Nat := 0
  posted : List Posted := []
  held : List HeldMsg := []
  /-- The layers that are frozen. -/
  frozen : List Nat := []
  /-- The engine whose command runs, what has stopped one of its accesses, the units it has been granted in this run, and the ends of its accesses that waited, as engine, twice the address (and 1 more for a write) and status (the MODEL's own fields, DESIGN CHOICE, log entry 40). -/
  runner : Option Nat := none
  stall : Option Stall := none
  spent : List (Nat × Nat) := []
  answers : List (Nat × Nat × Status) := []
  deriving DecidableEq, Repr

/-! ### HBM (07) -/

/-- The integrity tag of a stored line (R218), symbols 32 and 33: the AES-CMAC of a message under the key of the line's slot and generation, or 32 bits that no key has made. -/
inductive Mac where
  | made (msg : List Byte)
  | raw (v : Nat)
  deriving DecidableEq, Repr

/-- What the model keeps of a stored line beside its data (R217, R218, R221): the slot and the key generation its tag was made with, whether both check symbols are inverted (the poison syndrome), the tag, and what the device rows in error make of its 36 symbols. -/
structure Line where
  slot : Nat
  serial : Nat
  poisoned : Bool := false
  tag : Mac := .made []
  row : RowError := .none
  deriving DecidableEq, Repr

/-- A line that the system cache holds (R226): its number, the key slot recorded with it, and whether it has to be written back. -/
structure CacheLine where
  line : Nat
  slot : Nat
  dirty : Bool
  deriving DecidableEq, Repr

/-- A device row of a pseudo-channel with the lines on which it yielded corrected errors in this scrub pass (R233). -/
structure RowTally where
  pc : Nat
  row : Nat
  lines : List Nat
  deriving DecidableEq, Repr

/-- A stack's spare pseudo-channel (R216, R232, R235): whether it has been trained and patrol-tested since the last start, the bytes that migration has copied to it, and its lines outside the address map that are poisoned. -/
structure Spare where
  ready : Bool := false
  copied : Nat := 0
  poisoned : List Nat := []
  deriving DecidableEq, Repr

/-- The memory controllers' own state. -/
structure Hbm where
  /-- Stored lines by line number PA / 64; an unlisted line was never written and fails its tag (R231), or is poisoned by the verification pass. -/
  lines : List (Nat × Line) := []
  /-- The generation of each slot's key, never reset: a new key is a new number. -/
  serials : List (Nat × Nat) := []
  /-- The 128-bit key of each slot, drawn from the random source (R220). -/
  keys : List (Nat × Nat) := []
  /-- The system cache, the line taken last first. -/
  cache : List CacheLine := []
  /-- The spare pseudo-channel of each stack. -/
  spares : List (Nat × Spare) := []
  tallies : List RowTally := []
  /-- The rows that yielded a corrected error in this scrub pass, as pseudo-channel and row (R235). -/
  rows : List (Nat × Nat) := []
  /-- Rows on which a kind 2 error fell, with the time (R235). -/
  kind2 : List (Nat × Nat × Nat) := []
  /-- Rows repaired in soft, to be repaired in hard at the next cold boot, and rows that hard repair has made permanent (R233). -/
  repaired : List (Nat × Nat) := []
  hard : List (Nat × Nat) := []
  /-- The time of the last kind 5 report to an owner (R227). -/
  kind5 : List (Nat × Nat) := []
  /-- The verification pass of R238 runs. -/
  verifying : Bool := false
  /-- Every unlisted line is poisoned, as the verification pass leaves it (R238). -/
  blank : Bool := false
  /-- Soft repairs done in each bank group (R234). -/
  groupUsed : List (Nat × Nat) := []
  /-- Owners with errors of the pass that wait until their instances are enabled again (R240). -/
  unreported : List Nat := []
  /-- Enclave ranges, as first address and end, that the next pass poisons in any case (R247). -/
  doomed : List (Nat × Nat) := []
  /-- Pseudo-channels that have met the trigger of R235 once the spare of their stack was taken (R237). -/
  further : List Nat := []
  deriving DecidableEq, Repr

/-! ### The Almanac (17) -/

/-- A record in the Almanac's intake (17, Table alm.1). -/
structure AlmRec where
  time : Nat
  code : Nat
  tag : Nat
  q : Nat
  rtc : Bool
  loss : Bool
  mainRst : Bool
  payload : List Byte
  /-- Device time of the happening: records of one time arrived together (R534). -/
  at_ : Nat
  deriving DecidableEq, Repr

/-- One entry of a wreck buffer (17, Table alm.3). -/
structure Trace where
  time : Nat
  addr : Nat
  tag : Nat
  kind : Nat
  cls : Nat
  tid : Nat
  port : Nat
  status : Nat
  trig : Bool := false
  gap : Bool := false
  deriving DecidableEq, Repr

/-- A wreck buffer (R543 to R548): its entries, the newest first, the post-trigger entries still to record, and whether the next entry is the first after a trigger. STATE, CAUSE, MISSED and PTR stand in ALM.WRECK[d]. -/
structure Wreck where
  entries : List Trace := []
  /-- Entries recorded since the buffer was armed, which place the newest in the circle. -/
  count : Nat := 0
  left : Nat := 0
  trig : Bool := false
  deriving DecidableEq, Repr

/-- The Almanac's own state: the intake, whether the next record carries LOSS, the CHK of the last record, whether the ring is valid, the last time of an alarm of each backup source, the ring slots with an uncorrectable error, and the dump that runs (die, address). `triggers` holds the triggers that have not reached the buffers, as cause and time (R543); `bkTold` says that the message of R542 has gone, `wakeEnd` until when WAKE_OUT is high, and `rtcDown` the RTC at the last power-down. -/
structure Alm where
  intake : List AlmRec := []
  lossNext : Bool := false
  chk : Nat := 0xFFFF
  ringValid : Bool := false
  bkLast : List (Nat × Nat) := []
  badSlots : List Nat := []
  dump : Option (Nat × Nat) := none
  wrecks : List (Nat × Wreck) := []
  triggers : List (Nat × Nat) := []
  bkTold : Bool := false
  wakeEnd : Nat := 0
  rtcDown : Nat := 0
  deriving DecidableEq, Repr

/-! ### The Safety Island and the FCU (16) -/

/-- The state of the Safety Island and of the Fault Collection Unit beside the SAF words. -/
structure Saf where
  /-- Checker assertions that the FCU has not latched yet (R513). -/
  lines : List Nat := []
  /-- Events whose checker is asserted while it is injected (R514). -/
  underInjection : List Nat := []
  /-- EVT_MSG of Table saf.2. -/
  evtMsg : Nat := 0
  /-- The direct-path resources on whose path the island has been told of a gap (R261). -/
  gaps : List Nat := []
  /-- Interrupts of the island that events have raised (R517). -/
  islandIrq : Nat := 0
  /-- The island cores run. -/
  islandRun : Bool := false
  wdogMs : Nat := 10
  kicked : Bool := false
  lastKick : Nat := 0
  /-- The first heartbeat after EN or a warm restart is accepted with any value (R521). -/
  hbAny : Bool := true
  hbTime : Nat := 0
  /-- Heartbeats accepted since the last warm restart (R519). -/
  hbCount : Nat := 0
  /-- Start of the current hold, and the last latch of an event of REACT 2 or higher (R519). -/
  holdStart : Nat := 0
  lastLatch : Nat := 0
  /-- The REACT 3 event whose warm reset is still to be asserted (R522). -/
  restart : Option Nat := none
  /-- The times at which warm restarts began (R524). -/
  restarts : List Nat := []
  /-- The main domain's start-up injection has passed since its last reset (R519). -/
  mainInjected : Bool := false
  /-- Pins: FAULT_N and HB_OUT. -/
  faultN : Bool := false
  hbOut : Bool := false
  deriving DecidableEq, Repr

/-! ### Clocks and time (15) -/

/-- The master counter and the servo of Epoch time, the window runs of the two crystals, and the sync history (R488, R494, R497; Table clk.3). -/
structure Clk where
  /-- Epoch time in ns, modulo 2^64, and its 32 fractional bits. -/
  epoch : Nat := 0
  frac : Nat := 0
  /-- The rate correction, in 2^-32 of the nominal rate. -/
  corr : Int := 0
  /-- Epoch time started at 0 at cold boot and has been neither stepped nor set since. -/
  unset : Bool := true
  /-- A valid sync has come since cold boot; the last one is less than 3 sync intervals old; it is at least HOLD_S s old. -/
  synced : Bool := false
  fresh : Bool := false
  held : Bool := false
  /-- Magnitudes of the offsets of the consecutive syncs since sync resumed, the newest first, at most 8. -/
  offsets : List Nat := []
  /-- Consecutive windows without the condition of R488, for XTAL_A and XTAL_B. -/
  runA : Nat := 10
  runB : Nat := 10
  /-- Frequencies in MHz that APC and GFX are changing to (R482). -/
  apcGoal : Option Nat := none
  gfxGoal : Option Nat := none
  /-- The part of a cycle that AO32K has counted towards the next cycle of the RTC, in 10^-9 of a cycle (R495). -/
  rtcFrac : Nat := 0
  deriving DecidableEq, Repr

/-! ### Boot and power (18, 20) -/

/-- What the boot has found and done beside the BOOT words. -/
structure Boot where
  /-- The main domain is out of reset. -/
  mainUp : Bool := false
  /-- A warm restart is in progress (MAIN_STATE 1). -/
  warm : Bool := false
  /-- A cold boot is in progress (MAIN_STATE 3). -/
  cold : Bool := true
  /-- The cause that the next cold boot records (R551). -/
  nextCause : Nat := 0
  /-- SVN of the image of each kind booted in this power cycle (R557). -/
  svn : List (Nat × Nat) := []
  /-- The switch has not yet left its block of both sides (R552). -/
  switchBlock : Bool := true
  /-- No valid first stage, golden image or Monitor firmware was found (R565). -/
  failed : Bool := false
  /-- The island took its images from copy B (R554). -/
  islandB : Bool := false
  /-- ENTRY of the first stage (R561). -/
  entry : Nat := 0
  /-- The golden image that is to be written once HBM is reachable: LOAD, the expected CRC-64, its payload and its digest (R562, R567). -/
  golden : Option (Nat × Nat × List Byte × Nat) := none
  /-- The write-once fields that have been written since they were unlocked, by 32 × word key + low bit (02, R102; 22, R633). -/
  wonce : List Nat := []
  /-- The harts that HART_GO has released since the main domain left reset (R560). -/
  released : List Nat := []
  deriving DecidableEq, Repr

/-- Power, thermal and pin state beside the PWR words (R551, R592, R596 to R598, R606, R607; 21). -/
structure Pwr where
  /-- Input pins after their filters. -/
  porstN : Bool := false
  pwrGood : Bool := true
  warmRstN : Bool := true
  /-- When PORST_N rose last; XSPI_RESET_N follows 100 µs later (R624). -/
  porstAt : Nat := 0
  /-- VBAT_BKP: 0 at or above 2.0 V, 1 below 2.0 V, 2 below 1.6 V. -/
  vbat : Nat := 0
  /-- REQ values committed during the opposite transition, by domain (R592). -/
  nextReq : List (Nat × Nat) := []
  /-- A trip holds the main domain in warm reset. -/
  tripHold : Bool := false
  /-- Failed writes of the AVS rails, as rail and time, and the target in mV of a write that waits for its acknowledgement, by rail. -/
  avsTries : List (Nat × Nat) := []
  avsGoal : List (Nat × Nat) := []
  /-- Samples at each logic level that do not yet make a ms of LVLTIME. -/
  lvlTicks : List (Nat × Nat) := []
  /-- JTAG (21, R625): the instruction selected (0 BYPASS, 1 IDCODE, 2 SAMPLE/PRELOAD, 3 EXTEST), the boundary-scan chain, the levels that EXTEST drives, the bypass register, and the bits shifted out last. -/
  jtag : Nat := 1
  chain : List Bool := []
  driven : Option (List Bool) := none
  bypassBit : Bool := false
  tdo : List Bool := []
  deriving DecidableEq, Repr

/-! ### Application cores (09) -/

/-- The trap that a hart took last: cause, xtval, xepc, whether it is an interrupt, and the mode that takes it (0 M, 1 HS, 2 VS), as delegation decides (R277). -/
structure Trap where
  cause : Nat
  tval : Nat
  epc : Nat
  irq : Bool := false
  mode : Nat := 0
  deriving DecidableEq, Repr

/-- What the model keeps of a hart: the registers that a gate or an asynchronous exit moves (Tables apc.3, apc.4), its pc and privilege, the Xkse CSRs, its local interrupts, its machine timer and its interrupt files. STAT and VMASK stand in APC.HART[h]. -/
structure Hart where
  x : List (Nat × DWord) := []
  f : List (Nat × DWord) := []
  v : List (Nat × BitVec 256) := []
  fcsr : Nat := 0
  vtype : DWord := 0
  vl : Nat := 0
  vstart : Nat := 0
  pc : Nat := 0
  /-- The hart runs in M-mode. -/
  mmode : Bool := true
  /-- V (R273): the hart runs a guest. -/
  virt : Bool := false
  /-- The CSRs of the extensions and options that R272 names, by their numbers in the RISC-V privileged architecture: hgatp (0x680), the delegation registers, 16 PMP entries, mhpmcounter3 to mhpmcounter10 with their events, and the 8 triggers; an unlisted one is 0 (PRESUMED, log entry 12). -/
  csrs : List (Nat × DWord) := []
  /-- The resume address: that of the last GATE.ENTER (R279). -/
  resume : Nat := 0
  /-- ukencl.ASYNC and ukencl.ENTRY; ukencl.IN stands in APC.HART[h].STAT. -/
  async : Bool := false
  lastEntry : Nat := 0
  ukstat : Nat := 0
  trap : Option Trap := none
  /-- Local interrupts pending in mip: 7 machine timer, 16 store error. -/
  mip : List Nat := []
  mtimecmp : Nat := 2 ^ 64 - 1
  /-- stimecmp, vstimecmp and htimedelta (R286); the spec gives them no reset value (DESIGN CHOICE, log entry 12). -/
  stimecmp : Nat := 2 ^ 64 - 1
  vstimecmp : Nat := 2 ^ 64 - 1
  htimedelta : Nat := 0
  /-- The compares that have fired for their present values and time (R288): 7 machine, 5 supervisor, 6 guest. -/
  fired : List Nat := []
  /-- Pending identities, as 2,048 × file + identity. -/
  eip : List Nat := []
  deriving DecidableEq, Repr

/-- The cores' own state: the harts, and the level sources that have sent their message and wait for ACK (R285), as 256 × d + x. -/
structure Apc where
  harts : List (Nat × Hart) := []
  sentLevel : List Nat := []
  /-- The asserted interrupt sources, as 256 × d + x. -/
  asserted : List Nat := []
  deriving DecidableEq, Repr
/-! ### Display pipes (12) -/

/-- A frame submission (R375, R376): its job, its job id, the 512 bits of its descriptor, and whether it is complete. -/
structure Frame where
  uid : Nat
  id : Nat
  desc : Nat
  ready : Bool
  deriving DecidableEq, Repr

/-- A frame period (R380 to R397): KIND, the frames at line 0 and at the last line, SWITCH_LINE, the flags of Table dsp.2, the pose age, the next band, the frame in production, the region's frame with the pixels output and its expected CRC, and the Epoch time of the vsync. -/
structure Period where
  kind : Nat := 3
  jobA : Nat := 0
  jobB : Nat := 0
  switchLine : Nat := 0
  warp : Bool := false
  poseBad : Bool := false
  crcChecked : Bool := false
  crcFail : Bool := false
  underflow : Bool := false
  poison : Bool := false
  age : Nat := 2 ^ 32 - 1
  band : Nat := 0
  cur : Option Nat := none
  rgn : Option Nat := none
  rgnPix : List Nat := []
  rgnSize : Nat := 0
  rgnCrc : Nat := 0
  vsync : Nat := 0
  /-- The status word has been written. -/
  told : Bool := false
  deriving DecidableEq, Repr

/-- The fields of Table dsp.3 that govern a pipe from one decision instant to the next (R372): CTRL.WARP_MODE, CRC_EN, VS_MSG, BPC and EVT_VEC, TIME.TLATE and STALE_N, the intrinsics, PLANE_MM and FILL. -/
structure PipeSet where
  warp : Nat := 0
  crc : Bool := false
  vsMsg : Bool := false
  bpc : Bool := false
  evt : Nat := 0
  tlate : Nat := 0
  staleN : Nat := 0
  fx : Nat := 0
  fy : Nat := 0
  cx : Nat := 0
  cy : Nat := 0
  plane : Nat := 0
  fill : Nat := 0
  deriving DecidableEq, Repr

/-- A display pipe: the fields that govern it, the queue with the shown frame at its front, the frame chosen at the last decision instant, the period in production and the one before it whose status is not yet written, superseded frames whose record is not yet written, the switch that R383 puts off to the next period, consecutive periods reported REPROJECTED or BLANK, and the pixels of the band produced last, one 32-bit word each (R392). -/
structure Pipe where
  set : PipeSet := {}
  queue : List Frame := []
  shown : Option Nat := none
  period : Option Period := none
  done : Option Period := none
  old : List Frame := []
  force : Bool := false
  stale : Nat := 0
  band : List Nat := []
  deriving DecidableEq, Repr


/-! ### Enclaves and the Crypto Engines (08) -/

/-- What the Enclave Monitor does for an entry (R245, R246, R254). -/
inductive MonOp where
  | seal | destroy
  deriving DecidableEq, Repr

/-- A HANDOVER that waits for its quiesce step (R260): the context, the resource and the new owner. -/
structure Handover where
  ctx : Nat
  res : Nat
  owner : Nat
  deriving DecidableEq, Repr

/-- The Monitor's own state: the operation it carries out for an entry, the request held under PEND, the stored measurements, the mailbox sequence numbers, the digest and validity of its firmware, and the HANDOVER in progress. -/
structure Enc where
  working : List (Nat × MonOp) := []
  held : List (Nat × Nat) := []
  measures : List (Nat × Nat) := []
  seqs : List (Nat × Nat) := []
  firmware : Nat := 0
  handover : Option Handover := none
  deriving DecidableEq, Repr

/-- A job in a Crypto Engine: the job number, its tag, the address of its descriptor and, once it has started, the OP, LEN, DST and TAGADDR of the descriptor, the key copied from its slot (or the slot and KIND of a KEYLOAD), the engine-ns of its operation that are still to be charged, and what the operation gave: the output, the GCM tag, whether a tag or signature failed, and a failing status. -/
structure CryJob where
  uid : Nat
  tag : Nat
  desc : Nat
  op : Nat := 0
  len : Nat := 0
  dst : Nat := 0
  tagAddr : Nat := 0
  slot : Nat := 0
  kind : Nat := 0
  owed : Nat := 0
  out : List (BitVec 8) := []
  tagOut : List (BitVec 8) := []
  bad : Bool := false
  failed : Option Status := none
  deriving DecidableEq, Repr

/-- One Crypto Engine: the running job, the saved jobs, and the waiting jobs in acceptance order (R267, R268). -/
structure CryEngine where
  running : Option CryJob := none
  saved : List CryJob := []
  waiting : List CryJob := []
  deriving DecidableEq, Repr

/-- The Crypto Engines by XD, and the key values by 32 × n + k. -/
structure Cry where
  engines : List (Nat × CryEngine) := []
  keys : List (Nat × Nat) := []
  deriving DecidableEq, Repr
/-! ### Graphics (11) -/

/-- An attachment of a pass: address, spill address, format, load and store operation, row pitch and clear value. -/
structure Att where
  addr : Nat
  spill : Nat
  fmt : Nat
  load : Nat
  store : Nat
  pitch : Nat
  clear : Nat
  deriving DecidableEq, Repr

/-- A render pass (Table gfx.4; R349 to R353): its size, its attachments, its bin pages and how many chunks are in use, the references of each bin, the primitives binned and those that a grow fault holds, the state bound, and the contents of tile memory by 2^35 × (attachment × 8 + sample) + 2^16 × y + x. -/
structure Pass where
  width : Nat
  height : Nat
  samples : Nat
  pid : Nat
  atts : List Att
  depth : Bool
  pages : List Nat
  chunks : Nat := 0
  bins : List (Nat × Nat) := []
  /-- The chunk to which a bin's references go now, and the chunks that have new ones. -/
  cur : List (Nat × Nat) := []
  fresh : List Nat := []
  prims : List Prim := []
  left : List Prim := []
  /-- A flush resolves the bins before binning goes on (R353). -/
  flush : Bool := false
  pipe : Nat := 0
  bind : Nat := 0
  px : List (Nat × Nat) := []
  /-- The bins that a flush has stored: what it stored is loaded in place of the load operation (R353). -/
  flushed : List Nat := []
  deriving DecidableEq, Repr

/-- A graphics stream (R346): its job, its graphics context, its instance, its cluster mask, the next packet, the process identifier of the first pass, whether it waits, and the running pass. -/
structure GfxJob where
  uid : Nat
  gctx : Nat
  inst : Nat
  mask : Nat
  pc : Nat
  pid : Nat
  waits : Bool := false
  ended : Bool := false
  pass : Option Pass := none
  deriving DecidableEq, Repr

/-- A compute job (R358, R359): its job, its instance, its cluster mask, the 512 bits of its descriptor, whether it has started, the threads that have ended, and the cluster-cycles charged as they passed (R172). -/
structure CompJob where
  uid : Nat
  inst : Nat
  mask : Nat
  desc : Nat
  started : Bool := false
  ended : Nat := 0
  ran : Nat := 0
  deriving DecidableEq, Repr

/-- What the model keeps of a shader thread: the vector registers that Xkgfx instructions have written, as 512-bit numbers, its coverage, gkres, and whether it waits at a barrier or has ended. -/
structure ShThread where
  id : ShId
  v : List (Nat × Nat) := []
  cov : Nat := 0
  gkres : Nat := 0
  atBar : Bool := false
  ended : Bool := false
  deriving DecidableEq, Repr

/-- The state of graphics beside the GFX words: streams, compute jobs, threads, the (cluster, grant) pairs with saved state and whether in a pass, and the clusters that R363 holds with the context that they are held for. -/
structure Gfx where
  jobs : List GfxJob := []
  comps : List CompJob := []
  threads : List ShThread := []
  saved : List (Nat × Nat × Bool) := []
  holds : List (Nat × Nat) := []
  deriving DecidableEq, Repr

/-! ### The Inference Array and the bandwidth governor (01, 10) -/

/-- A tile HBM request that the governor holds (R27, R28): the logical tile, the request, and, for a line that tile DMA moves for a descriptor, the engine whose command makes it. -/
structure GovReq where
  tile : Nat
  req : HeldReq
  party : Option Nat := none
  deriving DecidableEq, Repr

/-- The governor's window (R25 to R28): quota of each active tile, lines left to each, the free pool, lines issued, whether the release point has passed, held requests, the round-robin pointer, and the tiles that were active when the window opened. The spec names no tile with which the round robin of R27 starts: the pointer is 63 at reset, so that tile 0 comes first, it runs on over the windows, and only a request that was held moves it (DESIGN CHOICE, log entry 41). -/
structure Gov where
  cap : Nat := 0
  quota : Nat := 0
  left : List (Nat × Nat) := []
  pool : Nat := 0
  issued : Nat := 0
  released : Bool := false
  held : List GovReq := []
  rr : Nat := 63
  active : List Nat := []
  deriving DecidableEq, Repr

/-- A descriptor in a tile's queue (R301): its job, its place in the chain, its address, its 1,024 bits, and, for SYNC, whether the tile has arrived. -/
structure TileDesc where
  uid : Nat
  seq : Nat
  addr : Nat
  desc : Nat
  waits : Bool := false
  deriving DecidableEq, Repr

/-- A job of the array: its number, tag, tile mask, the next descriptor address (0 once the chain has been read), and the descriptors read. -/
structure InfJob where
  uid : Nat
  tag : Nat
  mask : Nat
  next : Nat
  read : Nat := 0
  deriving DecidableEq, Repr

/-- The state of the array beside the INF words. -/
structure Inf where
  jobs : List InfJob := []
  queues : List (Nat × List TileDesc) := []
  /-- Logical tiles that have executed a descriptor in this safety frame (R329). -/
  ran : List Nat := []
  /-- Swaps in progress: the logical tile, the spare, and the flagged frame where the outgoing tile is suspect (R330, R332). -/
  swaps : List (Nat × Nat × Option Nat) := []
  /-- The physical tile under rotation LBIST, or on its way to it (R333). -/
  rotating : Option Nat := none
  /-- Physical tiles in the order of their last test, the oldest first; a tile not listed was never tested. -/
  tested : List Nat := []
  /-- The masks in the retention SRAM: retired physical tiles, and logical tiles out of service (R334). -/
  retired : List Nat := []
  lost : List Nat := []
  /-- Physical tiles whose half has come on and that have not passed LBIST since (20, R591). -/
  waking : List Nat := []
  /-- The grants whose state on a tile stands in their save area (R297). -/
  saved : List (Nat × Nat) := []
  gov : Gov := {}
  deriving DecidableEq, Repr

/-! ### Vehicle networks and the Gateway Engine (14) -/

/-- Who sends a frame: an entry of a transmit job, the main domain's routes and signal PDUs, the Safety Island, or the Replace Request (R459, R468, R470, R476, R586). -/
inductive TxSrc where
  | entry (uid k : Nat)
  | main
  | island
  | replace
  deriving DecidableEq, Repr

/-- A frame in one of a controller's 32 transmit buffers. -/
structure CanPend where
  src : TxSrc
  frame : CanFrame
  deriving DecidableEq, Repr

/-- A CAN controller: its buffers, in acceptance order, the frame on the wire, and the consecutive transmissions that met acknowledgement errors (R465, R466). -/
structure CanCtl where
  bufs : List CanPend := []
  /-- The frame on the wire, and the Epoch time of its start of frame. -/
  sending : Option CanPend := none
  sof : Nat := 0
  ackRun : Nat := 0
  deriving DecidableEq, Repr

/-- A frame in an egress queue: port 32 × n + p, traffic class, sender, and its bytes (R449, R451). -/
structure EthPend where
  port : Nat
  tc : Nat
  src : TxSrc
  bytes : List Byte
  deriving DecidableEq, Repr

/-- The credit-based shaper of a traffic class (R452): the idle slope in kbit/s, the credit in 10^-6 of a bit, and the time at which it held, which lies ahead while a frame of the class is on the wire. -/
structure Shaper where
  slope : Nat
  credit : Int := 0
  at_ : Nat
  deriving DecidableEq, Repr

/-- An Ethernet port: the gates of 802.1Qbv, the AN of the transmit SA in use, the packets sent on it, and whether its exhaustion has been told (R451, R458). -/
structure EthPort where
  gates : Nat := 0xFF
  /-- The shaped classes (R452); none is at reset. -/
  shapers : List (Nat × Shaper) := []
  txSa : Option Nat := none
  sent : Nat := 0
  told : Bool := false
  deriving DecidableEq, Repr

/-- A transmit job of the Gateway Engine (R459, R460): the XD, COUNT, the next entry to take, the entries taken with TS = 1, and the statuses decided. -/
structure NetJob where
  uid : Nat
  xd : Nat
  count : Nat
  next : Nat := 0
  ts : List Nat := []
  done : List (Nat × Status) := []
  deriving DecidableEq, Repr

/-- The state of the networks beside the NET and CAN words: key 32 × n + p for ports, 16 × n + c for CAN controllers, 8 × n + l for LIN controllers, 1,024 × n + k for routes, 128 × n + d for PDUs, 32 × n + j for sessions. -/
structure Net where
  ports : List (Nat × EthPort) := []
  queue : List EthPend := []
  can : List (Nat × CanCtl) := []
  /-- The next slot of a LIN commander's schedule. -/
  linPos : List (Nat × Nat) := []
  jobs : List NetJob := []
  /-- Tokens of a route's bucket in 10^-9 of a frame, and the time of the last refill. -/
  buckets : List (Nat × Nat × Nat) := []
  images : List (Nat × List Byte) := []
  /-- The last time a payload passed a session. -/
  passed : List (Nat × Nat) := []
  /-- Learned addresses: switch, VID, MAC address, port (R450). -/
  learned : List (Nat × Nat × Nat × Nat) := []
  /-- The last frame put on the wire by each port, CAN controller and LIN controller: key 1,024 × kind + unit, kind 0 Ethernet, 1 CAN, 2 LIN (the MODEL's own output, DESIGN CHOICE, log entry 2). -/
  wire : List (Nat × List Byte) := []
  /-- MACsec keys by 648 × n + 36 × p + s (R457). -/
  keys : List (Nat × Nat) := []
  /-- Changes of AUTH that the switch has still to carry out (R478): the new AUTH and the cause of Table alm.2. -/
  moves : List (Bool × Nat) := []
  deriving DecidableEq, Repr

/-! ### Service (19) -/

/-- What a wear-log record holds (R578): the counters and cause bits of Table svc.3, and the tile masks. -/
structure WearRec where
  seq : Nat
  cause : Nat
  em : List Nat
  tcyc : List Nat
  active : Nat
  standby : Nat
  age : List Nat
  retired : List Nat
  outOfService : List Nat
  deriving DecidableEq, Repr

/-- A thermal-cycle tracker of a die (R575): the lowest reading since the last counted cycle, and the peak once a rise of 40 K has been seen. -/
structure CycleTrack where
  low : Int
  peak : Option Int := none
  deriving DecidableEq, Repr

/-- The service unit beside the SVC words: the newest valid log record in the boot flash, consecutive failed log writes, the rolling counter of the diagnostic frame, the cycle trackers, and the seconds counted towards the next hour. -/
structure Svc where
  log : Option WearRec := none
  fails : Nat := 0
  rolling : Nat := 0
  tracks : List (Nat × CycleTrack) := []
  activeSec : Nat := 0
  deriving DecidableEq, Repr

/-! ### Sensor ingest and Sextant (13) -/

/-- What a stream keeps beside its SNS words: the next ring slot, the last counter, the runs of faulty and of good samples, the arrival of its newest sample on Sextant's own count with its bytes, the newest complete camera samples as (time, slot, last stamp quality), the time of the newest lidar point, and the epochs of lying (R402, R409 to R411, R414, R418, R423). -/
structure Stream where
  slot : Nat := 0
  ctr : Option Nat := none
  bad : Nat := 0
  good : Nat := 0
  at_ : Option Nat := none
  bytes : List Byte := []
  shots : List (Nat × Nat × Nat) := []
  maxT : Option Nat := none
  lies : Nat := 0
  deriving DecidableEq, Repr

/-- A lidar point in the alignment buffer (R416, R422): stream, sample time, Epoch quality, x, y, z as FP32 bits, intensity. -/
structure LPoint where
  stream : Nat
  time : Nat
  q : Nat
  x : Nat
  y : Nat
  z : Nat
  inten : Nat
  deriving DecidableEq, Repr

/-- An open epoch (R417 to R421): its number, its time of validity with the quality of that stamp, and its flags STEP, FORCED and ALTREF. -/
structure OpenEpoch where
  no : Nat
  tk : Nat
  q : Nat
  step : Bool := false
  forced : Bool := false
  altref : Bool := false
  deriving DecidableEq, Repr

/-- A step that the integrator keeps (R426, Table sxt.1): Epoch time, pose, v and w as FP32 bits, POSE_Q and Epoch quality. -/
structure Kept where
  time : Nat := 0
  x : Nat := 0
  y : Nat := 0
  z : Nat := 0
  roll : Nat := 0
  pitch : Nat := 0
  yaw : Nat := 0
  v : Nat := 0
  w : Nat := 0
  q : Nat := 0
  tq : Nat := 0
  deriving DecidableEq, Repr

/-- The ego-motion integrator (R413, R423 to R428): the newest step, the kept steps with the newest first, the step number, the bias, the g_z values of the running second and whether it has been still, and the runs of steps outside and within PL_YAW. -/
structure Ego where
  cur : Kept := {}
  hist : List Kept := []
  step : Nat := 0
  bias : Nat := 0
  gz : List Nat := []
  still : Bool := true
  far : Nat := 0
  near : Nat := 0
  deriving DecidableEq, Repr

/-- A fusion job (R435, R436): its number, its instance and the address of its descriptor. -/
structure FusJob where
  uid : Nat
  inst : Nat
  desc : Nat
  deriving DecidableEq, Repr

/-- The state of ingest and Sextant beside the SNS and SXT words: streams, the alignment buffer in order of arrival, open epochs with the oldest first, the next epoch number, members named in LATE of a released epoch (number, time of validity, stream), the grid of the previous epoch as (cell, log-odds) with its time, the integrator, and fusion jobs in acceptance order. -/
structure Sxt where
  streams : List (Nat × Stream) := []
  points : List LPoint := []
  opened : List OpenEpoch := []
  nextNo : Nat := 1
  /-- T of the newest epoch opened (R422). -/
  newest : Option Nat := none
  lates : List (Nat × Nat × Nat) := []
  grid : List (Nat × Int) := []
  gridT : Option Nat := none
  /-- OLDEST of the epochs released last, by number (R434, R439). -/
  oldest : List (Nat × Nat) := []
  ego : Ego := {}
  jobs : List FusJob := []
  deriving DecidableEq, Repr


/-! ### The machine -/

/-- The state of the block. -/
structure State where
  fuses : Fuses
  /-- The state-space words by 2^17 × space + word; an unlisted word is at its reset value. -/
  words : List (Nat × Word)
  /-- Memory bytes by storage address; an unlisted byte reads 0 (DESIGN CHOICE, log entry 1). -/
  mem : List Host.Cell
  /-- Device time in ns, which no step of Epoch time moves (the MODEL's own field, DESIGN CHOICE, log entry 2). -/
  now : Nat
  /-- Free values drawn so far (the MODEL's own field, DESIGN CHOICE, log entry 2). -/
  free : Nat
  resp : Resp
  msgs : List Msg
  cmp : Cmp
  ttu : Ttu
  orr : Orr
  fab : Fab
  hbm : Hbm
  apc : Apc
  enc : Enc
  cry : Cry
  inf : Inf
  gfx : Gfx
  /-- The display pipes. -/
  dsp : List (Nat × Pipe)
  sxt : Sxt
  net : Net
  svc : Svc
  alm : Alm
  saf : Saf
  clk : Clk
  boot : Boot
  pwr : Pwr
  /-- The commands that wait, first in, first out. -/
  pending : List Instr
  deriving DecidableEq, Repr

/-- The fuses of the device that State.reset describes: a CV9-C (DESIGN CHOICE, log entry 3). -/
def Fuses.default : Fuses where
  variant := .cv9C
  prod := false
  stepping := 0
  pprFree := 16
  rxLat := 0
  txLat := 0
  svnMin := []
  cert := []
  levels := []
  keyHashes := []
  revoked := []

/-- The machine right after reset: every state-space word at its reset value, nothing listed in memory, every unit idle. -/
def State.reset : State where
  fuses := Fuses.default
  words := []
  mem := []
  now := 0
  free := 0
  resp := {}
  msgs := []
  cmp := {}
  ttu := {}
  orr := {}
  fab := {}
  hbm := {}
  apc := {}
  enc := {}
  cry := {}
  inf := {}
  gfx := {}
  dsp := []
  sxt := {}
  net := {}
  svc := {}
  alm := {}
  saf := {}
  clk := {}
  boot := {}
  pwr := {}
  pending := []

/-- Why a command stops the machine. -/
inductive Fault where
  /-- Raised by no meaning: the block answers every fault that the spec describes with a status, an event or a record, and goes on. Safe. -/
  | none
  deriving DecidableEq, Repr

/-- Why a command is refused. -/
inductive Refusal where
  /-- Raised by the dispatch for a command that has no meaning yet. Safe. -/
  | notModelled (mnemonic : String)
  /-- Raised by a meaning for operands that spell no such command (WellFormed.lean). Safe: no state follows. -/
  | illFormed
  deriving DecidableEq, Repr

end Sys2Proof.Machine
end

