-- ==== Sys2Proof/Machine/Words.lean ====
section
/-! DEFINITION. The state-space words: reset values, the word and field accessors, decoding of a word index, and absent resources (02, State spaces; 22; R634). -/

namespace Sys2Proof.Machine

/-! ### Capacities and tables that reset values need -/

/-- Nominal capacity of an Orrery resource per µs (05, Table orr.1), with `tiles` serviceable tiles and the frequencies of APC-independent units nominal. -/
def nominalPerUs (tiles r : Nat) : Nat :=
  if r ≤ 5 then 11200
  else if r ≤ 21 then 1000
  else if r = 22 then 1500 * tiles
  else if r = 23 then 1200 * 8
  else if r = 24 then 4000
  else if r ≤ 28 then 1000
  else if r ≤ 36 then 4000
  else 3125

/-- Reset frequencies of the clock domains in MHz (15, Table clk.1; APC, GFX: their top frequency, DEDUCED, log entry 5). -/
def domMhz (d : Nat) : Nat :=
  [0, 25, 2600, 1500, 1400, 1000, 1200, 0, 500, 500, 250, 800, 1500, 100].getD d 0

/-- Reset REACT of the safety events (16, Table saf.4). -/
def evtReact (e : Nat) : Nat :=
  [4, 4, 4, 4, 3, 2, 2, 1, 1, 1, 2, 1, 2, 1, 2, 1, 2, 2, 1, 2, 3, 2, 2, 3, 3, 2, 4, 1].getD e 0

/-- Lowest permitted REACT of the safety events (16, Table saf.4). -/
def evtMin (e : Nat) : Nat :=
  [4, 4, 4, 4, 3, 1, 2, 1, 1, 1, 1, 0, 2, 1, 1, 1, 2, 2, 0, 2, 3, 2, 2, 3, 3, 2, 4, 1].getD e 0

/-- The governor cap per window (R25): 1,400 × STACKS × SHARE lines. -/
def governorCap (hbmStacks share : Nat) : Nat := 1400 * hbmStacks * share

/-! ### Reset values -/

/-- The value that a fuse-backed field reads at reset, at the indices `ix` (01, Tables block.5 to block.7; R200, R292, R334). -/
def fuseValue (fz : Fuses) (f : FuseField) (ix : List Nat) : Nat :=
  match f with
  | .variant => fz.variant.code
  | .hbmStacks => fz.variant.hbmStacks
  | .stackMask => 2 ^ fz.variant.hbmStacks - 1
  | .xdMask => 2 ^ fz.variant.xds - 1
  | .stepping => fz.stepping
  | .tilesRaw => fz.variant.tilesRaw
  | .tilesEnabled => fz.variant.tiles
  | .govCeil => 7
  | .govCap => governorCap fz.variant.hbmStacks 7
  | .hbmRate => 56
  | .prod => if fz.prod then 1 else 0
  | .pprFree => fz.pprFree
  | .srcLevel => if fz.levels.contains (256 * ix.getD 0 0 + ix.getD 1 0) then 1 else 0
  | .tilePhys => ix.getD 0 0
  | .physRole => if ix.getD 0 0 < fz.variant.tiles then 0 else 1
  | .physLog => if ix.getD 0 0 < fz.variant.tiles then ix.getD 0 0 else 0
  | .rxLat => fz.rxLat
  | .txLat => fz.txLat
  | .svnMin => fz.svnMin.getD (ix.getD 0 0) 0
  | .cert => (tget (0 : Word) fz.cert (ix.getD 0 0)).toNat

/-- The reset value of a field at the indices `ix`. -/
def resetValue (fz : Fuses) (r : Row) (ix : List Nat) : Nat :=
  match r.reset with
  | .const v => v
  | .first v => if ix.getD 0 0 = 0 then v else 0
  | .lastWin v => if ix.getD 0 0 = 63 then v else 0
  | .below32 => if ix.getD 0 0 < 32 then ix.getD 0 0 else 0
  | .cap => nominalPerUs fz.variant.tiles (ix.getD 0 0) * 1000
  | .domMhz => domMhz (ix.getD 0 0)
  | .evtReact => evtReact (ix.getD 0 0)
  | .evtMin => evtMin (ix.getD 0 0)
  | .msaAN => ix.getD 1 0 % 36 % 4
  | .msaTX => if ix.getD 1 0 % 36 < 4 then 1 else 0
  | .msaSC => ix.getD 1 0 % 36 / 4
  | .kept => 0
  | .fuse f => fuseValue fz f ix

/-- The indices that an offset from a row's base names, by the strides and counts of its replication; none where the offset is no word of the row. -/
def splitOffset : List (Nat × Nat) → Nat → Option (List Nat)
  | [], off => if off = 0 then some [] else none
  | (stride, n) :: ds, off =>
    if off / stride < n then (splitOffset ds (off % stride)).map (off / stride :: ·) else none

/-- The indices at which a row's field lies in word `w` of its space. -/
def Row.hit (r : Row) (w : Nat) : Option (List Nat) :=
  if w < r.base then none else splitOffset r.dims (w - r.base)

/-- The offset in words that indices name. -/
def joinOffset : List (Nat × Nat) → List Nat → Nat
  | (stride, _) :: ds, i :: ix => stride * i + joinOffset ds ix
  | _, _ => 0

/-- The key of a word: 2^17 × space + word index (R632 lets NET indices exceed 16 bits). -/
def wordKey (space w : Nat) : Nat := space * 2 ^ 17 + w

/-- The key of the word in which a row's field lies at the indices `ix`. -/
def Row.key (r : Row) (ix : List Nat) : Nat := wordKey r.space (r.base + joinOffset r.dims ix)

/-- The fields that lie in a word, each with its indices. -/
def fieldsAt (space w : Nat) : List (Row × List Nat) :=
  (Reg.rowsOf space).filterMap (fun r => (r.hit w).map (fun ix => (r, ix)))

/-- The reset value of the word with key `k`. -/
def wordReset (fz : Fuses) (k : Nat) : Word :=
  (fieldsAt (k / 2 ^ 17) (k % 2 ^ 17)).foldl (fun acc e => setBits acc e.1.lo e.1.width (resetValue fz e.1 e.2)) 0

/-! ### Access to words and fields -/

/-- The stored value of a word. -/
def State.word (s : State) (k : Nat) : Word := tget (wordReset s.fuses k) s.words k

/-- The state with a word replaced. -/
def State.setWord (s : State) (k : Nat) (w : Word) : State :=
  { s with words := tputD (wordReset s.fuses k) s.words k w }

/-- The value of a field. -/
def State.rd (s : State) (r : Row) (ix : List Nat) : Nat := getBits (s.word (r.key ix)) r.lo r.width

/-- The state with a field set to the low bits of `v`. -/
def State.wr (s : State) (r : Row) (ix : List Nat) (v : Nat) : State :=
  s.setWord (r.key ix) (setBits (s.word (r.key ix)) r.lo r.width v)

/-- A one-bit field. -/
def State.flag (s : State) (r : Row) (ix : List Nat) : Bool := s.rd r ix = 1

/-- A counter field advanced by `n`, saturating. -/
def State.incSat (s : State) (r : Row) (ix : List Nat) (n : Nat) : State :=
  s.wr r ix (satTo r.width (s.rd r ix + n))

/-- A counter field advanced by `n`, wrapping. -/
def State.incWrap (s : State) (r : Row) (ix : List Nat) (n : Nat) : State :=
  s.wr r ix (s.rd r ix + n)

/-- A 64-bit counter held in two words, advanced by `n`. -/
def State.inc64 (s : State) (lo hi : Row) (ix : List Nat) (n : Nat) : State :=
  let v := s.rd lo ix + 2 ^ 32 * s.rd hi ix + n
  (s.wr lo ix (v % 2 ^ 32)).wr hi ix (v / 2 ^ 32)

/-- The numbers a two-word field spells: the low word at bit 0, the high word at bit 32. -/
def State.rdPair (s : State) (lo hi : Row) (ix : List Nat) : Nat :=
  s.rd lo ix * 2 ^ lo.lo + s.rd hi ix * 2 ^ 32

/-- Write a 48-bit or 64-bit value into a low and a high field. -/
def State.wrPair (s : State) (lo hi : Row) (ix : List Nat) (v : Nat) : State :=
  (s.wr lo ix (v >>> lo.lo)).wr hi ix (v >>> 32)

/-- Every field of a word, and hence every word, that a test accepts is put back to its reset value. -/
def State.resetWords (s : State) (p : Nat → Bool) : State :=
  { s with words := s.words.filter (fun e => !p e.1) }

/-! ### Resource numbers (08, R259, Table enc.3) -/

/-- The class, the die code and the index of a resource number. -/
def resClass (r : Nat) : Nat := bitsOf r 12 3
def resDie (r : Nat) : Nat := bitsOf r 8 4
def resIndex (r : Nat) : Nat := bitsOf r 0 8

/-- The greatest index of a class. -/
def resLast (cls : Nat) : Nat := [21, 15, 7, 0, 3, 15, 0, 255].getD cls 0

/-! ### Which words exist -/

/-- The word lies in a range of Table index.1 (R630). -/
def wordDecoded (space w : Nat) : Bool :=
  (Reg.rangesOf space).any (fun e => e.1 ≤ w && w ≤ e.2)

/-- The word belongs to a resource of an absent stack or XD, or to an absent tile (R37, R153, R634, R636). -/
def wordAbsent (fz : Fuses) (space w : Nat) : Bool :=
  let xds := fz.variant.xds
  let hbmStacks := fz.variant.hbmStacks
  let resAbsent : Nat → Bool := fun r =>
    if r ≤ 5 then r ≥ hbmStacks
    else if 17 ≤ r && r ≤ 20 then r - 17 ≥ xds
    else if 25 ≤ r && r ≤ 40 then (r - 25) % 4 ≥ xds
    else false
  match space with
  | 0x03 =>
    if 0x100 ≤ w && w ≤ 0x1A3 then resAbsent ((w - 0x100) / 4)
    else if 0x1000 ≤ w && w ≤ 0x38FF then resAbsent ((w - 0x1000) / 4 / 64)
    else if 0x4000 ≤ w && w ≤ 0x91FF then resAbsent ((w - 0x4000) / 8 / 64)
    else false
  | 0x04 =>
    if 0x11 ≤ w && w ≤ 0x14 then w - 0x11 ≥ xds
    else if 0x28 ≤ w && w ≤ 0x37 then
      -- windows 16 + 4n and 17 + 4n of XDn; 18 and 19 lie on XD0; the rest is unassigned
      ((w - 0x28) % 4 < 2) && (w - 0x28) / 4 ≥ xds
    else if 0x220 ≤ w && w ≤ 0x22E then (w - 0x220) / 4 ≥ xds
    else if 0x300 ≤ w && w ≤ 0x31F then
      11 ≤ (w - 0x300) / 2 && (w - 0x300) / 2 ≤ 14 && (w - 0x300) / 2 - 11 ≥ xds
    else false
  | 0x05 => 0x200 ≤ w && w ≤ 0x20B && (w - 0x200) / 2 ≥ hbmStacks
  | 0x06 => 0x8000 ≤ w && resDie (w - 0x8000) < 4 && resDie (w - 0x8000) ≥ xds
  | 0x07 => 0x2000 ≤ w && w ≤ 0x23FF && (w - 0x2000) / 256 ≥ xds
  | 0x08 =>
    if 0x80 ≤ w && w ≤ 0xBF then w - 0x80 ≥ fz.variant.tiles
    else if 0x200 ≤ w && w ≤ 0x5FE then (w - 0x200) / 16 ≥ fz.variant.tiles
    else false
  | 0x0D =>
    if w ≤ 0x75 then w / 32 ≥ xds
    else if 0x80 ≤ w && w ≤ 0xF5 then (w - 0x80) / 32 ≥ xds
    else if 0x100 ≤ w && w ≤ 0x175 then (w - 0x100) / 32 ≥ xds
    else if 0x200 ≤ w && w ≤ 0x2EB then (w - 0x200) / 64 ≥ xds
    else if 0x1000 ≤ w && w ≤ 0x1FFF then (w - 0x1000) / 1024 ≥ xds
    else if 0x2000 ≤ w && w ≤ 0x23FF then (w - 0x2000) / 256 ≥ xds
    else if 0x4000 ≤ w && w ≤ 0xBFFD then (w - 0x4000) / 8192 ≥ xds
    else if 0x14000 ≤ w && w ≤ 0x15FFF then (w - 0x14000) / 2048 ≥ xds
    else if 0x18000 ≤ w && w ≤ 0x187FE then (w - 0x18000) / 512 ≥ xds
    else if 0x19000 ≤ w && w ≤ 0x190FF then (w - 0x19000) / 64 ≥ xds
    else if 0x19400 ≤ w && w ≤ 0x1941B then (w - 0x19400) / 8 ≥ xds
    else if 0x1A000 ≤ w && w ≤ 0x1AA1F then (w - 0x1A000) / 648 ≥ xds
    else if 0x1B000 ≤ w && w ≤ 0x1B1FD then (w - 0x1B000) / 128 ≥ xds
    else false
  | 0x0E =>
    if w ≤ 0x1FE then w / 128 ≥ xds
    else if 0x1000 ≤ w && w ≤ 0x103F then (w - 0x1000) / 16 ≥ xds
    else false
  | 0x10 =>
    if 0x21 ≤ w && w ≤ 0x24 then w - 0x21 ≥ xds
    else if 0x28 ≤ w && w ≤ 0x2D then w - 0x28 ≥ hbmStacks
    else false
  | 0x14 =>
    if 0x11 ≤ w && w ≤ 0x14 then w - 0x11 ≥ xds
    else if 0x19 ≤ w && w ≤ 0x1C then w - 0x19 ≥ xds
    else false
  | 0x15 =>
    if w ≤ 0x7F then w / 32 ≥ xds
    else if 0xF0 ≤ w && w ≤ 0xF3 then w - 0xF0 ≥ xds
    else if 0x100 ≤ w && w ≤ 0x10E then (w - 0x100) / 4 ≥ xds
    else false
  | _ => false

/-- A word of a replicated field that is reserved for its element (R259, R631, R636): MAT.DECODE of an unassigned Peripheral Bus window, ORR.BUDGET and ORR.CNT of the tags 42 to 63, and ENC.OWN of a number that names no resource. -/
def wordReserved (space w : Nat) : Bool :=
  match space with
  | 0x03 => (0x1000 ≤ w && w ≤ 0x38FF && (w - 0x1000) / 4 % 64 ≥ 42) || (0x4000 ≤ w && w ≤ 0x91FF && (w - 0x4000) / 8 % 64 ≥ 42)
  | 0x04 => 0x18 ≤ w && w ≤ 0x37 && [9, 10, 11, 12, 13, 14, 15, 22, 23, 26, 27, 30, 31].contains (w - 0x18)
  | 0x06 =>
    let x := w - 0x8000
    0x8000 ≤ w && (resIndex x > resLast (resClass x) || !(resDie x < 4 || (resDie x = 8 && resClass x = 7)))
  | _ => false

/-- The fields of a word that are not reserved for its element, each with its indices. -/
def liveFields (space w : Nat) : List (Row × List Nat) := if wordReserved space w then [] else fieldsAt space w

end Sys2Proof.Machine
end

