-- ==== Sys2Proof/Machine/Ops.lean ====
section
/-! DEFINITION. The operations that every unit shares: status codes and their classes, answers, free values, Epoch time, Almanac records, checker assertions, interrupt messages, memory bytes, and completion of jobs. -/

namespace Sys2Proof.Machine

/-! ### Outcomes -/

/-- The next state, as an outcome. -/
abbrev go (s : State) : Host.Outcome State Fault Refusal := .next s

/-! ### Status codes (00, Table scope.3) -/

/-- The 8-bit code of a status. -/
def statusCode : Status → Nat
  | .ok => 0x00 | .completedBeforeAbort => 0x01 | .aborted => 0x02 | .broken => 0x03 | .deferred => 0x04
  | .refused => 0x05 | .slack => 0x06 | .notReady => 0x07 | .poison => 0x08 | .decode => 0x09 | .locked => 0x0A
  | .preempted => 0x0B | .queued => 0x0C | .timeout => 0x0D | .integrity => 0x0E | .denied => 0x0F
  | .loneNode => 0x10 | .replace => 0x11

/-- The status of a code; none for the codes 0x12 to 0xFF, which the device never returns (R11). -/
def statusOf (n : Nat) : Option Status :=
  [Status.ok, .completedBeforeAbort, .aborted, .broken, .deferred, .refused, .slack, .notReady, .poison, .decode,
   .locked, .preempted, .queued, .timeout, .integrity, .denied, .loneNode, .replace][n]?

/-- The requested effect of a status (00, Table scope.3, last column): true for "not done" and "no data", on which R85 and STOP_ON_FAIL act. -/
def statusFails : Status → Bool
  | .aborted | .refused | .notReady | .poison | .decode | .locked | .timeout | .integrity | .denied | .loneNode => true
  | _ => false

/-- A status whose requested effect is "not done", as STOP_ON_FAIL tests it (02, Table cmd.7). -/
def statusNotDone (st : Status) : Bool := statusFails st && st ≠ .poison

/-! ### Answers, free values and time -/

/-- Record the answer of an access. -/
def State.answer (s : State) (st : Status) (data : Nat) : State := { s with resp := ⟨st, data⟩ }

/-- The next free value (DESIGN CHOICE, log entry 6). -/
def State.freeVal (s : State) : Nat := Config.freeValue s.free

/-- Move on to the next free value. -/
def State.drawn (s : State) : State := { s with free := s.free + 1 }

/-- Epoch time in ns (15, R494). -/
def State.epoch (s : State) : Nat := s.clk.epoch

/-- The quality code of Epoch time (15, Table clk.3). -/
def State.quality (s : State) : Nat := s.rd Reg.CLK_EPOCH_Q []

/-- A Replace Request is active (19; CP_STATUS.REPLACE). -/
def State.replaceActive (s : State) : Bool := s.flag Reg.SVC_STAT_REPLACE []

/-! ### The Almanac's intake (17, R534) -/

/-- Whether a record is one of the FCU (R534). -/
def isFcuRec (code : Nat) : Bool := code = 0x40 || code = 0x41

/-- The order of records that arrive together (R534): FCU records, then ascending CODE, then ascending TAG. -/
def recBefore (a b : AlmRec) : Bool :=
  a.at_ = b.at_ &&
    ((isFcuRec a.code && !isFcuRec b.code) ||
      (isFcuRec a.code == isFcuRec b.code && (a.code < b.code || (a.code = b.code && a.tag < b.tag))))

/-- Put a record into the intake behind every record that goes before it. -/
def insertRec (r : AlmRec) : List AlmRec → List AlmRec
  | [] => [r]
  | x :: xs => if recBefore r x then r :: x :: xs else x :: insertRec r xs

/-- A happening enters the Almanac's intake, or is dropped and counted in LOST when 64 records are pending (R534). -/
def State.record (s : State) (code tag : Nat) (payload : List Byte) : State :=
  if s.alm.intake.length < 64 then
    { s with alm := { s.alm with
        intake := insertRec ⟨s.epoch, code, tag, s.quality, false, s.alm.lossNext, s.boot.warm, payload, s.now⟩ s.alm.intake
        lossNext := false } }
  else
    let s := s.incSat Reg.ALM_STAT_LOST [] 1
    { s with alm := { s.alm with lossNext := true } }

/-! ### Checkers and messages -/

/-- PD_SAFE is out of reset (18, R549 to R551): its units run. -/
def State.safeUp (s : State) : Bool := s.pwr.pwrGood && s.pwr.porstN

/-- A checker asserts the line of event `e` (R513). FCU_LATCH latches it. -/
def State.raise (s : State) (e : Nat) : State :=
  if s.saf.lines.contains e then s else { s with saf := { s.saf with lines := s.saf.lines ++ [e] } }

/-- An interrupt message for an instance enters the fabric (R206). Identity 0 names no message. -/
def State.send (s : State) (inst vec : Nat) : State :=
  if vec = 0 then s else { s with msgs := s.msgs ++ [{ inst := inst, vec := vec }] }

/-- A violation by an instance is counted, saturating at 0xFFFF (02, Table cmd.9). -/
def State.violation (s : State) (inst : Nat) : State := s.incSat Reg.CMD_VIOL_COUNT [inst] 1

/-! ### Memory bytes -/

/-- One byte of memory by storage address. -/
def memByte (m : List Host.Cell) (a : Nat) : Byte := tget 0 m a

/-- `n` bytes from address `a` upward. -/
def memBytes (m : List Host.Cell) : Nat → Nat → List Byte
  | _, 0 => []
  | a, n + 1 => memByte m a :: memBytes m (a + 1) n

/-- Write one byte; a byte that equals what an unlisted address reads as is not listed. -/
def memPut (m : List Host.Cell) (a : Nat) (b : Byte) : List Host.Cell := tputD 0 m a b

/-- Write bytes from address `a` upward. -/
def memPutBytes (m : List Host.Cell) : Nat → List Byte → List Host.Cell
  | _, [] => m
  | a, b :: bs => memPutBytes (memPut m a b) (a + 1) bs

/-- The canonical form of memory: addresses strictly rising, no byte listed that an unlisted address reads as. -/
def memoryWf (m : List Host.Cell) : Bool := tcanon (fun _ => (0 : Byte)) m

/-- The canonical form of the state-space words. -/
def wordsWf (s : State) : Bool := tcanon (wordReset s.fuses) s.words

/-! ### Contexts -/

/-- A context of the CMP; an unlisted one is idle, as after reset. -/
def State.ctx (s : State) (n : Nat) : Ctx := tget {} s.cmp.ctxs n

/-- The state with a context replaced. -/
def State.setCtx (s : State) (n : Nat) (c : Ctx) : State :=
  { s with cmp := { s.cmp with ctxs := tput s.cmp.ctxs n c } }

/-- The instance to which a context is bound (R52, R53). -/
def State.ctxInst (s : State) (n : Nat) : Nat := s.rd Reg.CMD_CTX_INST [n]

/-- The class rank of a tag for R17: 0 for C0 and so on; instances by TTU.INST.CLASS, agents by Table orr.2 (R156). -/
def State.classOf (s : State) (tag : Nat) : Nat :=
  if tag < 32 then s.rd Reg.TTU_INST_CLASS [tag]
  else if tag = 33 then 0 else if tag = 36 then 2 else if tag = 41 then 3 else 1

end Sys2Proof.Machine
end

