-- ==== Sys2Proof/Machine/CommandPort.lean ====
section
/-! DEFINITION. The Command Port (02, R39 to R50): its seven registers, the latches of the high halves, and the meanings of its commands. -/

namespace Sys2Proof.Machine

/-! ### The registers -/

/-- Strand `n` executes a context (CP_STATUS.STRANDS_BUSY). -/
def State.strandBusy (s : State) (n : Nat) : Bool := s.cmp.ctxs.any (fun e => e.2.run = .running n)

/-- One bit at a position. -/
def bitIf (b : Bool) (k : Nat) : Nat := if b then 2 ^ k else 0

/-- CP_STATUS (02, Table cmd.4). -/
def State.cpStatus (s : State) : Nat :=
  s.cmp.state % 4 + bitIf (s.ctx 0).dbPending 2 + bitIf ((s.ctx 0).run ≠ .idle) 3
    + bitIf (s.strandBusy 0) 4 + bitIf (s.strandBusy 1) 5 + bitIf (s.strandBusy 2) 6 + bitIf (s.strandBusy 3) 7
    + s.cmp.lastDbTag % 64 * 2 ^ 8 + s.quality * 2 ^ 16 + bitIf s.replaceActive 19

/-- CP_SEQ (02, Table cmd.6). -/
def State.cpSeq (s : State) : Nat := s.cmp.chains % 2 ^ 32 + s.cmp.rings % 2 ^ 32 * 2 ^ 32

/-- The 64-bit register at an aligned offset; a reserved offset reads 0, and so does the write-only CP_DOORBELL (02, Table cmd.1). -/
def State.cpReg (s : State) (off : Nat) : Nat :=
  if off = 0x00 then s.cmp.head
  else if off = 0x10 then s.cpStatus
  else if off = 0x18 then s.cmp.faultCode.toNat
  else if off = 0x20 then s.cmp.faultAddr
  else if off = 0x28 then s.cpSeq
  else if off = 0x30 then s.epoch
  else 0

/-- The size and the alignment of an access are admitted (R40). -/
def cpShape (off size : Nat) : Bool := (size = 4 || size = 8) && off % size = 0 && off + size ≤ 0x10000

/-- The key of a tag's latch for CP_SEQ (0x28) or CP_EPOCH (0x30) (R41). -/
def latchKey (tag off : Nat) : Nat := 2 * tag + (if off / 8 * 8 = 0x30 then 1 else 0)

/-- The register has a latched high half (R41). -/
def hasLatch (off : Nat) : Bool := off / 8 * 8 = 0x28 || off / 8 * 8 = 0x30

/-- A read of the Command Port: status, data and the state after it (R39 to R41). The spec gives no value for a high half of which the tag has read no low half: it reads as it is now; and a tag has one latch for each of the two registers (DESIGN CHOICE, log entry 47). -/
def State.cpRead (s : State) (tag off size : Nat) : Status × Nat × State :=
  if !(tag = 0 || tag = 41 || tag = 33) || !cpShape off size then (.denied, 0, s) else
  let v := s.cpReg (off / 8 * 8)
  if size = 8 then (.ok, v, s)
  else if off % 8 = 0 then
    (.ok, v % 2 ^ 32,
      if hasLatch off then
        { s with cmp := { s.cmp with latches := tput s.cmp.latches (latchKey tag off) (BitVec.ofNat 32 (v >>> 32)) } }
      else s)
  else (.ok, if hasLatch off then (tget (BitVec.ofNat 32 (v >>> 32)) s.cmp.latches (latchKey tag off)).toNat else v >>> 32, s)

/-- A ring of the doorbell (R47, R50): DB_PENDING, RINGS, LAST_DB_TAG and an Almanac record with the tag, the cookie and the head. -/
def State.ringDoorbell (s : State) (tag cookie : Nat) : State :=
  let s := s.setCtx 0 { s.ctx 0 with dbPending := true }
  let s := { s with cmp := { s.cmp with rings := (s.cmp.rings + 1) % 2 ^ 32, lastDbTag := tag } }
  s.record 0x10 tag (leBytes 2 cookie ++ leBytes 6 s.cmp.head)

/-- The bits of a 64-bit register that a write of `size` bytes at `off` covers, and their values. -/
def cpCovered (off size : Nat) (v : DWord) : Nat × Nat :=
  if size = 8 then (2 ^ 64 - 1, v.toNat)
  else if off % 8 = 0 then (2 ^ 32 - 1, v.toNat % 2 ^ 32)
  else ((2 ^ 32 - 1) * 2 ^ 32, v.toNat % 2 ^ 32 * 2 ^ 32)

/-- The bits of CP_CHAIN_HEAD.HEAD (02, Table cmd.2). -/
def headMask : Nat := 2 ^ 48 - 2 ^ 5

/-- A write to a register that R39 and R40 take (R42). -/
def State.cpWriteReg (s : State) (tag off size : Nat) (v : DWord) : Status × State :=
  let (mask, val) := cpCovered off size v
  let reg := off / 8 * 8
  if reg = 0x00 then
    (.ok, { s with cmp := { s.cmp with head := (s.cmp.head &&& (headMask ^^^ (headMask &&& mask))) ||| (val &&& mask &&& headMask) } })
  else if reg = 0x08 then (.ok, if bitAt val 0 then s.ringDoorbell tag (bitsOf val 16 16) else s)
  else if reg = 0x18 then
    (.ok, { s with cmp := { s.cmp with
      faultCode := setBits (setBits s.cmp.faultCode 30 1 (if bitAt val 30 then 0 else getBits s.cmp.faultCode 30 1))
        31 1 (if bitAt val 31 then 0 else getBits s.cmp.faultCode 31 1) } })
  else if reg = 0x10 || reg = 0x20 || reg = 0x28 || reg = 0x30 then (.denied, s)
  else (.ok, s)

/-- A write to the Command Port (R39, R40, R42). -/
def State.cpWrite (s : State) (tag off size : Nat) (v : DWord) : Status × State :=
  if !(tag = 0 || tag = 41) || !cpShape off size then (.denied, s) else s.cpWriteReg tag off size v

/-! ### Meanings -/

/-- What an access to the port meets while the main domain is in reset (R511, R638): the island gets ST_NOT_READY, no other party gets an answer. -/
def State.portDown (s : State) (tag : Nat) : State := if tag = 33 then s.answer .notReady 0 else s

/-- A write to the port, with its answer. -/
def State.portWrite (s : State) (tag off size : Nat) (v : DWord) : State :=
  if s.boot.mainUp then let (st, t) := s.cpWrite tag off size v; t.answer st 0 else s.portDown tag

/-- A read of the port, with its answer. -/
def State.portRead (s : State) (tag off size : Nat) : State :=
  if s.boot.mainUp then let (st, d, t) := s.cpRead tag off size; t.answer st d else s.portDown tag

/-- CP_CHAIN_HEAD_WRITE: a write into CP_CHAIN_HEAD at byte `off` of the register (R42, R49). -/
def execCpChainHeadWrite (tag off size : Nat) (v : DWord) (s : State) : Host.Outcome State Fault Refusal :=
  go (s.portWrite tag (off % 8) size v)

/-- CP_DOORBELL_RING: a write into CP_DOORBELL at byte `off` of the register (R47, R50). -/
def execCpDoorbellRing (tag off size : Nat) (v : DWord) (s : State) : Host.Outcome State Fault Refusal :=
  go (s.portWrite tag (0x08 + off % 8) size v)

/-- CP_FAULT_CODE_CLEAR: a write into CP_FAULT_CODE at byte `off` of the register (R42, R43). -/
def execCpFaultCodeClear (tag off size : Nat) (v : DWord) (s : State) : Host.Outcome State Fault Refusal :=
  go (s.portWrite tag (0x18 + off % 8) size v)

/-- CP_LOW_HALF_READ: a 32-bit read of the low half of CP_SEQ or, with `epoch`, of CP_EPOCH, which latches the high half (R41). -/
def execCpLowHalfRead (tag : Nat) (epoch : Bool) (s : State) : Host.Outcome State Fault Refusal :=
  go (s.portRead tag (if epoch then 0x30 else 0x28) 4)

/-- CP_HIGH_HALF_READ: a 32-bit read of the high half of CP_SEQ or, with `epoch`, of CP_EPOCH (R41). -/
def execCpHighHalfRead (tag : Nat) (epoch : Bool) (s : State) : Host.Outcome State Fault Refusal :=
  go (s.portRead tag (if epoch then 0x34 else 0x2C) 4)

end Sys2Proof.Machine
end

