-- ==== Sys2Proof/Machine/HartOps.lean ====
section
/-! DEFINITION. Interrupt files, mtimecmp and the registers of a cluster window (09, R283 to R287). -/

namespace Sys2Proof.Machine

/-- A hart; an unlisted one is as after reset. -/
def State.hart (s : State) (h : Nat) : Hart := tget {} s.apc.harts h

/-- The state with a hart replaced. -/
def State.setHart (s : State) (h : Nat) (x : Hart) : State :=
  { s with apc := { s.apc with harts := tput s.apc.harts h x } }

/-- A CSR of a hart. -/
def Hart.csr (x : Hart) (n : Nat) : Nat := (tget 0 x.csrs n).toNat

/-- The hart with a CSR replaced. -/
def Hart.setCsr (x : Hart) (n : Nat) (v : Nat) : Hart := { x with csrs := tputD 0 x.csrs n (BitVec.ofNat 64 v) }

/-- hgatp.VMID (R272: VMIDLEN is 5). -/
def Hart.vmid (x : Hart) : Nat := bitsOf (x.csr 0x680) 44 5

/-- The hart with V as an access shows it, and with V = 1 hgatp.VMID (R273). -/
def Hart.seen (x : Hart) (virt : Bool) (vmid : Nat) : Hart :=
  let x := { x with virt := virt, mmode := x.mmode && !virt }
  if virt then x.setCsr 0x680 (x.csr 0x680 - x.vmid * 2 ^ 44 + vmid % 32 * 2 ^ 44) else x

/-- The tag of a hart's accesses: 0 with V = 0, hgatp.VMID with V = 1 (R273). -/
def placeTag (p : HartAt) : Nat := if p.virt then p.vmid else 0

/-- The operands of a command place a hart as its own instructions have left it; STAT.TAG follows its tag (DEDUCED, log entry 12). -/
def State.stand (s : State) (h : Nat) (p : HartAt) : State :=
  (s.setHart h { (s.hart h).seen p.virt p.vmid with pc := p.pc, mmode := p.mmode }).wr Reg.APC_HART_TAG [h] (placeTag p)

/-- A place that a hart of the device can be in: M-mode is not virtual, and a VMID has 5 bits. -/
def placeValid (p : HartAt) : Bool := !(p.mmode && p.virt) && p.vmid < 32

/-- The interrupts that mideleg always delegates, with H: those of the VS level and the guest external interrupt (PRESUMED, log entry 12). -/
def alwaysDelegated : Nat := 0x1444

/-- The mode that takes a trap (0 M, 1 HS, 2 VS): interrupts by mideleg (0x303) and hideleg (0x603), exceptions by medeleg (0x302) and hedeleg (0x602) (R277; PRESUMED, log entry 12). An exception in M-mode stays there. -/
def Hart.trapMode (x : Hart) (cause : Nat) (irq : Bool) : Nat :=
  if irq then
    if !bitAt (x.csr 0x303 ||| alwaysDelegated) cause then 0 else if bitAt (x.csr 0x603) cause then 2 else 1
  else if x.mmode || !bitAt (x.csr 0x302) cause then 0
  else if x.virt && bitAt (x.csr 0x602) cause then 2 else 1

/-- An identity becomes pending in an interrupt file (R287): 0 and identities above 2,047 are ignored. -/
def State.setEip (s : State) (h file id : Nat) : State :=
  if id = 0 || id > 2047 || file > 6 then s
  else
    let x := s.hart h
    let k := 2048 * file + id
    if x.eip.contains k then s else s.setHart h { x with eip := x.eip ++ [k] }

/-- A message reaches its instance (R283, R284): the routed file, or APC.IPEND while no route is valid. -/
def State.deliver (s : State) (m : Msg) : State :=
  if s.flag Reg.APC_IRQ_VALID [m.inst] then
    s.setEip (s.rd Reg.APC_IRQ_HART [m.inst]) (s.rd Reg.APC_IRQ_FILE [m.inst]) m.vec
  else
    s.wr Reg.APC_IPEND [m.inst, m.vec / 32]
      (s.rd Reg.APC_IPEND [m.inst, m.vec / 32] ||| 2 ^ (m.vec % 32))

/-- The identities pending in APC.IPEND[i], in ascending order. -/
def State.ipending (s : State) (i : Nat) : List Nat :=
  (List.range 2048).filter (fun v => bitAt (s.rd Reg.APC_IPEND [i, v / 32]) (v % 32))

/-- A COMMIT that sets VALID delivers and clears every identity in APC.IPEND[i] (R284). -/
def State.flushIpend (s : State) (i : Nat) : State :=
  let ids := s.ipending i
  let s := (List.range 64).foldl (fun s k => s.wr Reg.APC_IPEND [i, k] 0) s
  ids.foldl (fun s v => s.setEip (s.rd Reg.APC_IRQ_HART [i]) (s.rd Reg.APC_IRQ_FILE [i]) v) s

/-- A new mtimecmp: the machine timer interrupt is pending no more, and the compare may fire (R286, R288). -/
def State.setMtimecmp (s : State) (h v : Nat) : State :=
  let x := s.hart h
  s.setHart h { x with mtimecmp := v % 2 ^ 64, fired := x.fired.filter (· ≠ 7), mip := x.mip.filter (· ≠ 7) }

/-- A read of a cluster window (R287): status and data. -/
def State.clusterRead (s : State) (c off size : Nat) : Status × Nat :=
  if off < 0x80000 then
    if size = 4 && off % 4 = 0 then (.ok, 0) else (.denied, 0)
  else if (size = 4 || size = 8) && off % size = 0 then
    let v := (s.hart (4 * c + (off - 0x80000) / 8)).mtimecmp
    (.ok, if size = 8 then v else if off % 8 = 0 then v % 2 ^ 32 else v >>> 32)
  else (.denied, 0)

/-- A write to a cluster window (R287). -/
def State.clusterWrite (s : State) (c off size v : Nat) : Status × State :=
  if off < 0x80000 then
    if size = 4 && off % 4 = 0 then
      (.ok, if off % 0x1000 = 0 then s.setEip (4 * c + off / 0x8000) (off / 0x1000 % 8) (v % 2 ^ 32) else s)
    else (.denied, s)
  else if (size = 4 || size = 8) && off % size = 0 then
    let h := 4 * c + (off - 0x80000) / 8
    let old := (s.hart h).mtimecmp
    let new := if size = 8 then v
      else if off % 8 = 0 then old / 2 ^ 32 * 2 ^ 32 + v % 2 ^ 32
      else old % 2 ^ 32 + v % 2 ^ 32 * 2 ^ 32
    (.ok, s.setMtimecmp h new)
  else (.denied, s)

end Sys2Proof.Machine
end

