-- ==== Sys2Proof/Machine/NetOps.lean ====
section
/-! DEFINITION. CAN controllers and their transmit buffers (14, R459, R465, R469, R476; Table net.2): the frames a controller holds, the actuation frames, and the image of a frame. -/

namespace Sys2Proof.Machine

/-- A CAN controller by 16 × n + c. -/
def State.can (s : State) (k : Nat) : CanCtl := tget {} s.net.can k

/-- The state with a CAN controller replaced. -/
def State.setCan (s : State) (k : Nat) (c : CanCtl) : State :=
  { s with net := { s.net with can := tput s.net.can k c } }

/-- A controller that lies in PD_SAFE: XD0 CAN 0 to 3 (14; 20, Table pwr.1). -/
def canSafe (n c : Nat) : Bool := n = 0 && c < 4

/-- The domain of a controller is on: PD_SAFE with PWR_GOOD, PD_NET with the main domain (R589). -/
def State.canPowered (s : State) (n c : Nat) : Bool :=
  if canSafe n c then s.pwr.pwrGood else s.boot.mainUp && n < s.fuses.variant.xds

/-- The key of the 29-bit or 11-bit arbitration identifier: a smaller one wins the bus. A base identifier wins against an extended one with the same first 11 bits. -/
def canRank (f : CanFrame) : Nat :=
  if f.ide then f.id / 2 ^ 18 * 2 ^ 19 + 2 ^ 18 + f.id % 2 ^ 18 else f.id * 2 ^ 19

/-- A frame is an actuation frame: its controller has ACT_EN set, and its identifier and IDE equal a valid entry of NET.ACTID (R476). -/
def State.isActuation (s : State) (n c : Nat) (f : CanFrame) : Bool :=
  canSafe n c && bitAt (s.rd Reg.NET_AAS_ACT_EN []) c &&
    (List.range 64).any (fun m => s.flag Reg.NET_ACTID_VALID [m] && s.rd Reg.NET_ACTID_ID [m] = f.id
      && s.flag Reg.NET_ACTID_IDE [m] == f.ide)

/-- AUTH = DUSK. -/
def State.dusk (s : State) : Bool := s.flag Reg.NET_AAS_AUTH []

/-- The Actuation Authority Switch discards a frame (R476): an actuation frame of the island under MAIN, of any other sender under DUSK; of both sides before AUTH first becomes DUSK (R552) and after an island failure (R525). -/
def State.aasBlocks (s : State) (n c : Nat) (src : TxSrc) (f : CanFrame) : Bool :=
  s.isActuation n c f && (s.boot.switchBlock || s.flag Reg.SAF_STAT_ISL_FAIL [] || (if src = .island then !s.dusk else s.dusk))

/-- A blocked frame counts in ISL_BLOCK or MAIN_BLOCK (R476). -/
def State.countBlock (s : State) (src : TxSrc) : State :=
  if src = .island then s.incSat Reg.NET_AAS_ISL_BLOCK [] 1 else s.incSat Reg.NET_AAS_MAIN_BLOCK [] 1

/-- What became of a frame offered to a controller. -/
inductive CanOffer where
  | queued | full | blocked
  deriving DecidableEq, Repr

/-- The frame that wins among those that wait: the least identifier, and of equal ones the first accepted (R459). -/
def bestPend : List CanPend → Option CanPend
  | [] => none
  | p :: ps => match bestPend ps with
    | none => some p
    | some b => if canRank p.frame ≤ canRank b.frame then some p else some b

/-- The controller may send: it is enabled, powered, not in bus-off, and not stopped as a lone node (R465, R466). -/
def State.canSends (s : State) (n c : Nat) : Bool :=
  s.canPowered n c && s.flag Reg.CAN_CTL_EN [n, c] && s.rd Reg.CAN_CTL_STATE [n, c] ≠ 2
    && !(s.flag Reg.CAN_CTL_LONE [n, c] && s.flag Reg.CAN_CTL_LONE_STOP [n, c])

/-- A controller with nothing on the wire starts its best frame (R459). -/
def State.canKick (s : State) (n c : Nat) : State :=
  let x := s.can (16 * n + c)
  if x.sending.isSome || !s.canSends n c then s
  else match bestPend x.bufs with
    | none => s
    | some p => s.setCan (16 * n + c) { x with bufs := x.bufs.erase p, sending := some p, sof := s.epoch }

/-- A controller's buffers are full for a sender: 32 for the main domain, 8 of its own for the island (R469, R510). -/
def CanCtl.full (x : CanCtl) (src : TxSrc) : Bool :=
  let all := x.bufs ++ x.sending.toList
  if src = .island then (all.filter (fun p => p.src = .island)).length ≥ 8
  else (all.filter (fun p => p.src ≠ .island)).length ≥ 32

/-- A frame is offered to a controller's transmit buffers (R459, R469, R476). -/
def State.canOffer (s : State) (n c : Nat) (src : TxSrc) (f : CanFrame) : CanOffer × State :=
  if s.aasBlocks n c src f then (.blocked, s.countBlock src)
  else
    let x := s.can (16 * n + c)
    if x.full src then (.full, s)
    else (.queued, (s.setCan (16 * n + c) { x with bufs := x.bufs ++ [⟨src, f⟩] }).canKick n c)

/-- A list of bits, the first at bit 0, as a number. -/
def ofBits : List Bool → Nat
  | [] => 0
  | b :: bs => (if b then 1 else 0) + 2 * ofBits bs

/-- The image of a CAN frame (14, Table net.2). -/
def canImage (f : CanFrame) : List Byte :=
  leBytes 4 (f.id + (if f.ide then 2 ^ 29 else 0) + (if f.rtr then 2 ^ 30 else 0))
    ++ leBytes 1 f.fmt ++ leBytes 1 (ofBits [f.esi, f.sec]) ++ leBytes 1 f.sdt ++ leBytes 1 f.vcid
    ++ leBytes 4 f.af ++ leBytes 2 f.data.length ++ [0, 0] ++ f.data

/-- The frame that an image spells. -/
def canOfImage (b : List Byte) : CanFrame :=
  let h := ofLeBytes (b.take 16)
  { id := bitsOf h 0 29, ide := bitAt h 29, rtr := bitAt h 30, fmt := bitsOf h 32 8, esi := bitAt h 40, sec := bitAt h 41,
    sdt := bitsOf h 48 8, vcid := bitsOf h 56 8, af := bitsOf h 64 32, data := (b.drop 16).take (bitsOf h 96 16) }

/-- The data lengths of CAN FD. -/
def fdLengths : List Nat := [0, 1, 2, 3, 4, 5, 6, 7, 8, 12, 16, 20, 24, 32, 48, 64]

/-- An image that keeps Table net.2 for transmission under a controller MODE, with `len` bytes given. -/
def canImageOk (mode : Nat) (b : List Byte) (len : Nat) : Bool :=
  let h := ofLeBytes (b.take 16)
  let fmt := bitsOf h 32 8
  let n := bitsOf h 96 16
  let xl := fmt = 3
  len ≥ 16 && len = 16 + n && !bitAt h 31 && bitsOf h 112 16 = 0 && bitsOf h 42 6 = 0 && !bitAt h 40
    && (bitAt h 29 || bitsOf h 11 18 = 0)
    && (if fmt = 0 then n ≤ 8 else if fmt ≤ 2 then fdLengths.contains n else fmt = 3 && 1 ≤ n && n ≤ 2048)
    && (fmt = 0 || !bitAt h 30)
    && (!xl || !bitAt h 29)
    && (xl || (!bitAt h 41 && bitsOf h 48 16 = 0 && bitsOf h 64 32 = 0))
    && (fmt = 0 || (fmt ≤ 2 && 1 ≤ mode) || (xl && mode = 2))

end Sys2Proof.Machine
end

