-- ==== Sys2Proof/Machine/Ceilings.lean ====
section
/-! DEFINITION. The frequency ceilings of APC and GFX and the changes that they cause (15, R482; 19, R577; 20, R603, Table pwr.5). -/

namespace Sys2Proof.Machine

/-- The ceiling of APC in MHz at a logic level (Table pwr.5). -/
def apcThermal (level : Nat) : Nat := [2600, 2000, 1400, 800].getD level 800

/-- The ceiling of GFX in MHz at a logic level (Table pwr.5). -/
def gfxThermal (level : Nat) : Nat := [1200, 900, 600, 600].getD level 600

/-- The ceiling of APC in force: the lower of its thermal ceiling and that of R577 (R603). -/
def State.apcCeil (s : State) : Nat := min (apcThermal (s.rd Reg.PWR_THERM_LEVEL [])) (s.rd Reg.SVC_FCAP_APC [])

/-- The ceiling of GFX in force. -/
def State.gfxCeil (s : State) : Nat := min (gfxThermal (s.rd Reg.PWR_THERM_LEVEL [])) (s.rd Reg.SVC_FCAP_GFX [])

/-- The frequency that a domain changes to under a ceiling: a fall begins at once, and a rise that its regulator has acknowledged goes on as far as the ceiling lets it (R482, R597). -/
def retarget (ceil now : Nat) (goal : Option Nat) : Option Nat :=
  if ceil < now then some ceil
  else match goal with
    | some g => if now < g && now < ceil then some (min g ceil) else none
    | none => none

/-- The ceilings in force govern the changes of APC and GFX. -/
def State.applyCeilings (s : State) : State :=
  { s with clk := { s.clk with
    apcGoal := retarget s.apcCeil (s.rd Reg.CLK_DOM_MHZ [2]) s.clk.apcGoal
    gfxGoal := retarget s.gfxCeil (s.rd Reg.CLK_DOM_MHZ [6]) s.clk.gfxGoal } }

end Sys2Proof.Machine
end

