-- ==== Sys2Proof/Machine/Wear.lean ====
section
/-! DEFINITION. Wear and the Replace Request (19): causes, the wear log, the diagnostic frame, the counters of the service unit. -/

namespace Sys2Proof.Machine

/-! ### The wear log and the diagnostic frame (R578, R586) -/

/-- The serviceable tile spares: physical tiles whose ROLE is 1 or 2 (R581). -/
def State.spareTiles (s : State) : Nat :=
  ((List.range 72).filter (fun p => s.rd Reg.INF_PHYS_ROLE [p] = 1 || s.rd Reg.INF_PHYS_ROLE [p] = 2)).length

/-- The counters of the present moment and the masks of R334, as a wear-log record (R578). -/
def State.wearNow (s : State) (seq : Nat) : WearRec where
  seq := seq
  cause := s.rd Reg.SVC_STAT_CAUSE []
  em := (List.range 5).map (fun d => s.rd Reg.SVC_EM [d])
  tcyc := (List.range 5).map (fun d => s.rd Reg.SVC_TCYC [d])
  active := s.rd Reg.SVC_HOURS_ACTIVE []
  standby := s.rd Reg.SVC_HOURS_STANDBY []
  age := (List.range 16).map (fun m => s.rd Reg.SVC_AGE [m])
  retired := (List.range 72).filter s.inf.retired.contains
  outOfService := (List.range 64).filter s.inf.lost.contains

/-- A wear-log record is written to the boot flash (R578): LOG_SEQ advances, and the record is the newest valid one. -/
def State.writeLog (s : State) : State :=
  let s := s.incWrap Reg.SVC_LOG_SEQ [] 1
  { s with svc := { s.svc with log := some (s.wearNow (s.rd Reg.SVC_LOG_SEQ [])), fails := 0 } }

/-- The greatest element of a list. -/
def maxOf (l : List Nat) : Nat := l.foldl max 0

/-- The least element of a list, or 0. -/
def minOf : List Nat → Nat
  | [] => 0
  | x :: xs => xs.foldl min x

/-- The 8 data bytes of the diagnostic frame (R586). -/
def State.replaceData (s : State) : List Byte :=
  let hbmStacks := List.range s.fuses.variant.hbmStacks
  leBytes 2 (s.rd Reg.SVC_STAT_CAUSE [])
    ++ leBytes 1 s.spareTiles
    ++ leBytes 1 (minOf (hbmStacks.map (fun k => s.rd Reg.MEM_STK_PPR_FREE [k])))
    ++ leBytes 1 (ofBits (hbmStacks.map (fun k => decide (s.rd Reg.MEM_STK_SPARE [k] ≥ 2))))
    ++ leBytes 1 (min 255 (maxOf ((List.range 5).map (fun d => s.rd Reg.SVC_EM [d])) * 100 / 758880000))
    ++ leBytes 1 (min 255 (maxOf ((List.range 5).map (fun d => s.rd Reg.SVC_TCYC [d])) * 100 / 55000))
    ++ leBytes 1 (s.svc.rolling % 16 + min 15 (maxOf ((List.range 16).map (fun m => s.rd Reg.SVC_AGE [m])) / 10) * 16)

/-- The diagnostic frame is queued on XD0 CAN controller FRAME_CTL, or dropped and counted (R586). -/
def State.sendReplaceFrame (s : State) : State :=
  if !(s.replaceActive && s.flag Reg.SVC_CFG_FRAME_EN []) then s else
  let c := s.rd Reg.SVC_CFG_FRAME_CTL []
  let f : CanFrame := { id := s.rd Reg.SVC_FRAME_ID [], ide := s.flag Reg.SVC_FRAME_IDE [], data := s.replaceData }
  let s := { s with svc := { s.svc with rolling := (s.svc.rolling + 1) % 16 } }
  if !s.flag Reg.CAN_CTL_EN [0, c] || s.rd Reg.ENC_OWN_STEP [2 ^ 12 + c] ≠ 0 || s.rd Reg.CAN_CTL_STATE [0, c] = 2 || !s.canPowered 0 c then s.incSat Reg.SVC_FRAME_DROPS [] 1
  else match s.canOffer 0 c .replace f with
    | (.queued, t) => t
    | (_, t) => t.incSat Reg.SVC_FRAME_DROPS [] 1

/-! ### Causes (R582 to R584) -/

/-- Cause bits rise (R582, R583): sticky bits, REPLACE, event 27, a message to I0, a log record and the first diagnostic frame. A bit that is set already raises nothing. -/
def State.raiseCauses (s : State) (bits : List Nat) : State :=
  let old := s.rd Reg.SVC_STAT_CAUSE []
  let fresh := bits.filter (fun b => !bitAt old b)
  if fresh.isEmpty then s
  else
    let new := fresh.foldl (fun v b => v ||| 2 ^ b) old
    let s := (s.wr Reg.SVC_STAT_CAUSE [] new).wr Reg.SVC_STAT_REPLACE [] 1
    ((((s.raise 27).send 0 (s.rd Reg.SVC_CFG_VEC [])).writeLog).sendReplaceFrame)

/-- One cause bit rises. -/
def State.raiseCause (s : State) (b : Nat) : State := s.raiseCauses [b]

/-- Cause bit 4 rises when the serviceable spares fall below TILE_MIN (R581). -/
def State.checkSpares (s : State) : State :=
  if s.spareTiles < s.rd Reg.SVC_CFG_TILE_MIN [] then s.raiseCause 4 else s

/-! ### Meanings -/

/-- Units of electromigration that one second adds at a reading in °C (R574). -/
def emUnits (t : Int) : Nat := if t ≤ 60 then 1 else if t ≤ 85 then 6 else if t ≤ 100 then 20 else 52

/-- The limit that a counter reaches raises a cause bit. -/
def State.raiseIf (s : State) (p : Bool) (b : Nat) : State := if p then s.raiseCause b else s

/-- EM_SAMPLE: one second of active time, with each die's hottest sensor in °C (R574). Causes that rise together rise as one (R583). -/
def execEmSample (temps : List Int) (s : State) : Host.Outcome State Fault Refusal :=
  if !s.pwr.pwrGood then go s else
  let dies := (List.range 5).filter (fun d => d = 0 || d - 1 < s.fuses.variant.xds)
  let s := dies.foldl (fun s d => s.incSat Reg.SVC_EM [d] (emUnits (temps.getD d 0))) s
  let em := if dies.any (fun d => s.rd Reg.SVC_EM [d] ≥ 758880000) then [1] else []
  let sec := s.svc.activeSec + 1
  if sec < 3600 then go (({ s with svc := { s.svc with activeSec := sec } }).raiseCauses em)
  else
    let s := ({ s with svc := { s.svc with activeSec := 0 } }).incSat Reg.SVC_HOURS_ACTIVE [] 1
    go (s.raiseCauses (em ++ if s.rd Reg.SVC_HOURS_ACTIVE [] ≥ 20000 then [3] else []))

/-- The frequency ceiling of a domain at a slowdown in 0.1 %; below 2.0 % it stays as it is (R577). -/
def ageCeiling (nominal old age : Nat) : Nat := if age < 20 then old else nominal * (100 - (age + 9) / 10) / 100

/-- AGEING_SAMPLE: an active hour ends, with the slowdown of each monitor in 0.1 % (R577; Table svc.1): SVC.AGE, the ceilings of APC and GFX, and cause bit 0 from 5.0 %. -/
def execAgeingSample (ages : List Nat) (s : State) : Host.Outcome State Fault Refusal :=
  if !s.pwr.pwrGood then go s else
  let s := (List.range 16).foldl (fun s m => s.wr Reg.SVC_AGE [m] (satTo 8 (ages.getD m (s.rd Reg.SVC_AGE [m])))) s
  let age := fun m => s.rd Reg.SVC_AGE [m]
  let apc := ageCeiling 2600 (s.rd Reg.SVC_FCAP_APC []) (maxOf [age 0, age 1, age 2, age 3])
  let gfx := ageCeiling 1200 (s.rd Reg.SVC_FCAP_GFX []) (age 4)
  let s := (s.wr Reg.SVC_FCAP_APC [] apc).wr Reg.SVC_FCAP_GFX [] gfx
  let s := s.applyCeilings
  go (s.raiseIf ((List.range 16).any (fun m => s.rd Reg.SVC_AGE [m] ≥ 50)) 0)

/-- WEAR_LOG_WRITE: the hourly record of the wear log (R578); `ok` says that the flash took it. Two consecutive failures raise cause bit 8 (R579). -/
def execWearLogWrite (ok : Bool) (s : State) : Host.Outcome State Fault Refusal :=
  if !s.pwr.pwrGood then go s
  else if ok then go s.writeLog
  else
    let s := { s with svc := { s.svc with fails := s.svc.fails + 1 } }
    go (s.raiseIf (s.svc.fails ≥ 2) 8)

/-- REPLACE_FRAME_PERIOD: PERIOD_S has passed and the diagnostic frame is sent (R586). -/
def execReplaceFramePeriod (s : State) : Host.Outcome State Fault Refusal :=
  if s.pwr.pwrGood then go s.sendReplaceFrame else go s

/-- STANDBY_HOUR: an hour on the backup cell alone, counted on AO32K, which runs from it at 2.0 V and above (R583, R607; Table svc.1). -/
def execStandbyHour (s : State) : Host.Outcome State Fault Refusal :=
  if s.pwr.pwrGood || s.pwr.vbat ≠ 0 then go s else
  let s := s.incSat Reg.SVC_HOURS_STANDBY [] 1
  go (s.raiseIf (s.rd Reg.SVC_HOURS_STANDBY [] ≥ 110000) 3)

/-- One reading of a die's hottest sensor, in 1/8 °C, enters its cycle tracker; true when a cycle completes (R575). -/
def CycleTrack.feed (t : CycleTrack) (x : Int) : Bool × CycleTrack :=
  match t.peak with
  | none => if x ≥ t.low + 320 then (false, { t with peak := some x }) else (false, { t with low := min t.low x })
  | some p => if x ≤ p - 320 then (true, { low := x, peak := none }) else (false, { t with peak := some (max p x) })

/-- A reading of die `d` in thermal-cycle counting, and cause bit 2 at the limit (R575). -/
def State.feedCycle (s : State) (d : Nat) (x : Int) : State :=
  let (full, t) := (tget { low := x } s.svc.tracks d).feed x
  let s := { s with svc := { s.svc with tracks := tput s.svc.tracks d t } }
  if full then
    let s := s.incSat Reg.SVC_TCYC [d] 1
    s.raiseIf (s.rd Reg.SVC_TCYC [d] ≥ 55000) 2
  else s

end Sys2Proof.Machine
end

