-- ==== Sys2Proof/Machine/Hbm.lean ====
section
/-! DEFINITION. The TTU windows as they decide an address (04, R143 to R145), the HBM address map (07, R214), lines, tags and poison (R217 to R231), and the error logs (R227, R228). -/

namespace Sys2Proof.Machine

/-! ### Windows (R143) -/

/-- BASE of a window, an address. -/
def State.winBase (s : State) (w : Nat) : Nat := s.rdPair Reg.TTU_WIN_BASE_LO Reg.TTU_WIN_BASE_HI [w]

/-- An enabled window covers an address (R143). -/
def State.winCovers (s : State) (pa w : Nat) : Bool :=
  s.flag Reg.TTU_WIN_VALID [w] && s.winBase w ≤ pa && pa < s.winBase w + 2 ^ s.rd Reg.TTU_WIN_SIZE [w]

/-- The window that decides an address: the enabled one with the lowest number that covers it (R143). -/
def State.windowOf (s : State) (pa : Nat) : Option Nat := indexOf (s.winCovers pa) 64 0

/-- The key slot of an address (R219). -/
def State.slotOf (s : State) (pa : Nat) : Nat :=
  match s.windowOf pa with
  | some w => s.rd Reg.MEM_WKEY_SLOT [w]
  | none => 0

/-- The owner of an address (R219). -/
def State.ownerOf (s : State) (pa : Nat) : Nat := s.rd Reg.MEM_KEY_OWNER [s.slotOf pa]

/-! ### The address map of HBM (R214) -/

/-- The first HBM address. -/
def hbmBase : Nat := 0x0010_0000_0000

/-- The end of HBM in a variant (01, Table block.8). -/
def hbmEnd (fz : Fuses) : Nat := hbmBase + fz.variant.hbmStacks * 2 ^ 34

/-- The address lies in the variant's HBM. -/
def isHbm (fz : Fuses) (pa : Nat) : Bool := hbmBase ≤ pa && pa < hbmEnd fz

/-- The stack of an HBM address (R214). -/
def hbmStack (fz : Fuses) (pa : Nat) : Nat := (pa - hbmBase) / 256 % fz.variant.hbmStacks

/-- The offset L within the stack (R214). -/
def hbmOffset (fz : Fuses) (pa : Nat) : Nat :=
  (pa - hbmBase) / 256 / fz.variant.hbmStacks * 256 + (pa - hbmBase) % 256

/-- The controller of an HBM address (R214): 2 × s + L[8]. -/
def hbmController (fz : Fuses) (pa : Nat) : Nat := 2 * hbmStack fz pa + bitsOf (hbmOffset fz pa) 8 1

/-- The pseudo-channel of an HBM address within its controller's group (R214): L[12:9]. -/
def hbmChannel (fz : Fuses) (pa : Nat) : Nat := bitsOf (hbmOffset fz pa) 9 4

/-- The pseudo-channel of an HBM address in the package: 32 × stack + 16 × group + index (07, Table mem.2, SPARED_PC). -/
def hbmPc (fz : Fuses) (pa : Nat) : Nat :=
  32 * hbmStack fz pa + 16 * bitsOf (hbmOffset fz pa) 8 1 + hbmChannel fz pa

/-- The place of a line in its pseudo-channel, in address order (R214, R235): each granule of 8 KB of the stack gives it four lines. -/
def hbmIndex (fz : Fuses) (pa : Nat) : Nat := hbmOffset fz pa / 8192 * 4 + hbmOffset fz pa % 256 / 64

/-- The spare pseudo-channel of a stack (R216), numbered behind the mapped ones of the package. -/
def sparePc (stack : Nat) : Nat := 32 * 6 + stack

/-- The spare of a stack. -/
def State.spare (s : State) (k : Nat) : Spare := tget {} s.hbm.spares k

/-- The state with the spare of a stack replaced. -/
def State.setSpare (s : State) (k : Nat) (x : Spare) : State :=
  { s with hbm := { s.hbm with spares := tput s.hbm.spares k x } }

/-- The bytes of a pseudo-channel (R236). -/
def pcBytes : Nat := 2 ^ 29

/-- The pseudo-channel that serves an address: the spare below the copy pointer of a migration, and the whole of the spared channel after it (R235, R236). -/
def State.servedBy (s : State) (pa : Nat) : Nat :=
  let pc := hbmPc s.fuses pa
  let k := pc / 32
  let sp := s.rd Reg.MEM_STK_SPARE [k]
  if sp ≠ 0 && s.rd Reg.MEM_STK_SPARED_PC [k] = pc % 32 && 64 * hbmIndex s.fuses pa < (s.spare k).copied then sparePc k else pc

/-! ### Keys and lines (R217 to R221, R231) -/

/-- The generation of a slot's key. -/
def State.serialOf (s : State) (slot : Nat) : Nat := tget 1 s.hbm.serials slot

/-- The 128-bit key of a slot (R220). -/
def State.keyOf (s : State) (slot : Nat) : Nat := tget 0 s.hbm.keys slot

/-- A stored line; an unlisted one was never written under any key, or is poisoned by the verification pass. -/
def State.lineAt (s : State) (pa : Nat) : Line := tget { slot := 0, serial := 0, poisoned := s.hbm.blank } s.hbm.lines (pa / 64)

/-- The state with a line's metadata replaced. -/
def State.setLine (s : State) (pa : Nat) (l : Line) : State :=
  { s with hbm := { s.hbm with lines := tput s.hbm.lines (pa / 64) l } }

/-- The 64 data bytes of a line. -/
def State.lineBytes (s : State) (pa : Nat) : List Byte := memBytes s.mem (pa / 64 * 64) 64

/-- The message over which an integrity tag is computed: PA[47:6] as 8 bytes, and the 64 data bytes (R218). -/
def tagMessage (pa : Nat) (data : List Byte) : List Byte := leBytes 8 (pa / 64) ++ data

/-- The 32 bits of a tag under a key. -/
def Mac.bits (m : Mac) (key : Nat) : Nat :=
  match m with
  | .made msg => Config.cmac key msg % 2 ^ 32
  | .raw v => v % 2 ^ 32

/-- The 36 symbols of a line, each of 16 bits (R217, R221): the data, the tag, and the check, both symbols of which are inverted on a poisoned line, whose tag is zero. -/
def State.symbols (s : State) (pa : Nat) : List Nat :=
  let l := s.lineAt pa
  let tag := l.tag.bits (s.keyOf l.slot)
  let body := (List.range 32).map (fun k => ofLeBytes (((s.lineBytes pa).drop (2 * k)).take 2)) ++ [tag % 2 ^ 16, tag / 2 ^ 16]
  let c := Config.rsCheck body
  body ++ (if l.poisoned then [2 ^ 16 - 1 - c.1 % 2 ^ 16, 2 ^ 16 - 1 - c.2 % 2 ^ 16] else [c.1 % 2 ^ 16, c.2 % 2 ^ 16])

/-- A tag verifies over data under a slot (R218, R231; DEDUCED, log entry 7): one that a key has made, if it is the slot's present key and the message is the same; 32 bits that no key has made, if they are what the key gives. -/
def State.macOk (s : State) (pa slot : Nat) (l : Line) (data : List Byte) : Bool :=
  match l.tag with
  | .made msg => l.slot = slot && l.serial = s.serialOf slot && msg = tagMessage pa data
  | .raw v => v % 2 ^ 32 = Config.cmac (s.keyOf slot) (tagMessage pa data) % 2 ^ 32

/-- The tag of a stored line verifies under a slot. -/
def State.tagOk (s : State) (pa slot : Nat) : Bool := s.macOk pa slot (s.lineAt pa) (s.lineBytes pa)

/-- A line as a write under a slot leaves it (R223): its tag is computed under the slot's key, and its check symbols are fresh. -/
def State.freshLine (s : State) (pa slot : Nat) (data : List Byte) : Line :=
  { slot := slot, serial := s.serialOf slot, tag := .made (tagMessage pa data) }

/-- A line carries the poison syndrome: its check symbols are inverted, and no other symbol is in error (R221). -/
def State.isPoison (s : State) (pa : Nat) (e : RowError) : Bool := (s.lineAt pa).poisoned && e = .none

/-- A poisoned line: zero data, a zero tag, and the poison syndrome (R221). -/
def Line.poison : Line := { slot := 0, serial := 0, poisoned := true, tag := .raw 0 }

/-! ### The system cache (R226) -/

/-- The lines that the system cache holds: 32 MB (01, Table block.1). -/
def cacheLines : Nat := 2 ^ 19

/-- The entry of the system cache for an address. -/
def State.cacheEntry (s : State) (pa : Nat) : Option CacheLine := s.hbm.cache.find? (fun c => c.line = pa / 64)

/-- The state without the entry. -/
def State.uncache (s : State) (line : Nat) : State :=
  { s with hbm := { s.hbm with cache := s.hbm.cache.filter (fun c => c.line ≠ line) } }

/-- The cache gives a line up: one that was written is stored under its recorded slot, and one that DRAM holds poisoned shows its zeros again. -/
def State.evict (s : State) (c : CacheLine) : State :=
  let pa := c.line * 64
  let s := s.uncache c.line
  if c.dirty then s.setLine pa (s.freshLine pa c.slot (s.lineBytes pa))
  else if (s.lineAt pa).poisoned then { s with mem := memPutBytes s.mem pa (List.replicate 64 0) }
  else s

/-- The line of an address leaves the cache, if it stands there. -/
def State.flush (s : State) (pa : Nat) : State :=
  match s.cacheEntry pa with
  | some c => s.evict c
  | none => s

/-- The cache takes a line; where it is full it gives up the one that it took longest ago (DESIGN CHOICE, log entry 42). -/
def State.cacheTake (s : State) (pa slot : Nat) (dirty : Bool) : State :=
  let s := if s.hbm.cache.length < cacheLines then s else match s.hbm.cache.getLast? with | some c => s.evict c | none => s
  { s with hbm := { s.hbm with cache := ⟨pa / 64, slot, dirty⟩ :: s.hbm.cache.filter (fun c => c.line ≠ pa / 64) } }

/-- Every line that the cache holds is given up. -/
def State.flushAll (s : State) : State := s.hbm.cache.foldl State.evict s

/-- The entry that serves an access under its present slot. One whose recorded slot differs is written back under that slot and dropped, and the access goes on as a miss (R226). -/
def State.cacheLookup (s : State) (pa : Nat) : Option CacheLine × State :=
  match s.cacheEntry pa with
  | some c => if c.slot = s.slotOf pa then (some c, s) else (none, s.evict c)
  | none => (none, s)

/-- Poison a line: zero data, a zero tag and the poison syndrome (R221). A copy in the system cache keeps its data while it stands there. -/
def State.poisonLine (s : State) (pa : Nat) : State :=
  let base := pa / 64 * 64
  { s with mem := if (s.cacheEntry pa).isSome then s.mem else memPutBytes s.mem base (List.replicate 64 0)
           hbm := { s.hbm with lines := tput s.hbm.lines (pa / 64) Line.poison } }

/-- A new key for a slot, from the random source (R220; a free value, log entry 6). -/
def State.newKey (s : State) (slot : Nat) : State :=
  let s := { s with hbm := { s.hbm with serials := tput s.hbm.serials slot (s.serialOf slot + 1)
                                        keys := tput s.hbm.keys slot (s.freeVal % 2 ^ 128) } }
  s.drawn.incWrap Reg.MEM_KEY_GEN [slot] 1

/-! ### Error logs (R227, R228) -/

/-- MEM.CNT[k] of a kind, saturating. -/
def State.countKind (s : State) (kind : Nat) : State := s.incSat Reg.MEM_CNT [kind - 1] 1

/-- An error of kind 2, 3, 4, 5 or 7 in MEM.ERR, its counter and the Almanac (R228). -/
def State.logMem (s : State) (kind tag pa : Nat) : State :=
  let s := s.wrPair Reg.MEM_ERR_ADDR_LO Reg.MEM_ERR_ADDR_HI [] pa
  let s := ((s.wr Reg.MEM_ERR_KIND [] kind).wr Reg.MEM_ERR_TAG [] tag).wr Reg.MEM_ERR_CTRL [] (hbmController s.fuses pa)
  let s := s.countKind kind
  s.record 0x30 tag (leBytes 1 kind ++ leBytes 1 (hbmController s.fuses pa) ++ leBytes 6 pa)

/-- MEM.ERRI of an owning instance, with the message that follows it (R227). -/
def State.reportInst (s : State) (i kind pa : Nat) : State :=
  let s := s.wrPair Reg.MEM_ERRI_ADDR_LO Reg.MEM_ERRI_ADDR_HI [i] pa
  let s := (s.wr Reg.MEM_ERRI_KIND [i] kind).incSat Reg.MEM_ERRI_COUNT [i] 1
  s.send i (s.rd Reg.TTU_INST_FLT_VEC [i])

/-- Report an error of kind 2, 3 or 4 to the owner of its line (R227): MEM.ERRI and a message, or event 14. -/
def State.reportOwner (s : State) (owner kind pa : Nat) : State :=
  if owner < 32 then s.reportInst owner kind pa else s.raise 14

/-- At least 10 µs have passed since an owner's last kind 5 report (R227). -/
def State.kind5Due (s : State) (owner : Nat) : Bool :=
  match s.hbm.kind5.find? (fun e => e.1 = owner) with
  | some e => e.2 + 10000 ≤ s.now
  | none => true

/-- Report a read of a poisoned line (R227): a message or an event only when 10 µs have passed since the owner's last kind 5 report; otherwise only the count advances. -/
def State.reportPoisoned (s : State) (owner pa : Nat) : State :=
  if s.kind5Due owner then
    { s with hbm := { s.hbm with kind5 := tput s.hbm.kind5 owner s.now } }.reportOwner owner 5 pa
  else if owner < 32 then s.incSat Reg.MEM_ERRI_COUNT [owner] 1 else s

/-! ### Row repair and sparing (R233 to R237) -/

/-- The row tally of a row in a pseudo-channel. -/
def State.tallyOf (s : State) (pc row : Nat) : List Nat :=
  match s.hbm.tallies.find? (fun t => t.pc = pc && t.row = row) with
  | some t => t.lines
  | none => []

/-- A row meets the trigger of R233: soft repair, or cause bit 6 where its bank group has no resource left (R234). A row that was repaired before is repaired anew. -/
def State.repairRow (s : State) (pc row grp : Nat) : State :=
  let stack := if pc < 192 then pc / 32 else pc - 192
  let used := tget 0 s.hbm.groupUsed grp
  if s.rd Reg.MEM_STK_PPR_FREE [stack] = 0 || used ≥ Config.groupRepairs grp then s.raiseCause 6
  else
    let s := (s.wr Reg.MEM_STK_PPR_FREE [stack] (s.rd Reg.MEM_STK_PPR_FREE [stack] - 1)).incWrap Reg.MEM_STK_PPR_DONE [stack] 1
    { s with hbm := { s.hbm with
        repaired := if s.hbm.repaired.contains (pc, row) then s.hbm.repaired else s.hbm.repaired ++ [(pc, row)]
        groupUsed := tput s.hbm.groupUsed grp (used + 1)
        tallies := s.hbm.tallies.filter (fun t => !(t.pc = pc && t.row = row)) } }

/-- A pseudo-channel that meets the trigger of R235 once its stack's spare is taken stays in service: SPARE reads 3 (once a running migration has ended), with event 15 and cause bit 7 (R237). -/
def State.furtherChannel (s : State) (stack pc : Nat) : State :=
  if s.hbm.further.contains pc then s else
  let s := { s with hbm := { s.hbm with further := s.hbm.further ++ [pc] } }
  let s := if s.rd Reg.MEM_STK_SPARE [stack] = 1 then s else s.wr Reg.MEM_STK_SPARE [stack] 3
  (s.raise 15).raiseCause 7

/-- A pseudo-channel meets the trigger of R235: migration to the spare starts at its first line, or R237 applies. The channel that is being migrated already is no further one. -/
def State.migrate (s : State) (pc : Nat) : State :=
  let stack := if pc < 192 then pc / 32 else pc - 192
  let sp := s.rd Reg.MEM_STK_SPARE [stack]
  if sp = 0 && pc < 192 then
    (((s.wr Reg.MEM_STK_SPARE [stack] 1).wr Reg.MEM_STK_SPARED_PC [stack] (pc % 32)).wr Reg.MEM_STK_PROGRESS [stack] 0).setSpare stack
      { s.spare stack with copied := 0 }
  else if sp = 0 || (pc < 192 && s.rd Reg.MEM_STK_SPARED_PC [stack] = pc % 32) then s
  else s.furtherChannel stack pc

/-- A corrected error of kind 1 or 6 on a line of a row enters the row tally (R228, R233): 4 lines of a row repair it; 16 rows of a pseudo-channel start migration (R235). -/
def State.tally (s : State) (pc row grp line : Nat) : State :=
  let old := s.tallyOf pc row
  let lines := if old.contains line then old else old ++ [line]
  let l : List RowTally := ⟨pc, row, lines⟩ :: s.hbm.tallies.filter (fun t => !(t.pc = pc && t.row = row))
  let rows := if s.hbm.rows.contains (pc, row) then s.hbm.rows else (pc, row) :: s.hbm.rows
  let s := { s with hbm := { s.hbm with tallies := l, rows := rows } }
  let s := if lines.length ≥ 4 then s.repairRow pc row grp else s
  if (rows.filter (fun e => e.1 = pc)).length ≥ 16 then s.migrate pc else s

/-- A corrected error of a mapped line. -/
def State.tallyRow (s : State) (pa : Nat) : State := s.tally (s.servedBy pa) (Config.hbmRow pa) (Config.hbmGroup pa) (pa / 64)

/-- An uncorrectable error on a row: repair (R233), and for kind 2 migration after 2 different rows within 1 s (R235). -/
def State.badRow (s : State) (pa : Nat) (kind2 : Bool) : State :=
  let pc := s.servedBy pa
  let row := Config.hbmRow pa
  let s := s.repairRow pc row (Config.hbmGroup pa)
  if !kind2 then s else
  let recent := s.hbm.kind2.filter (fun e => s.now ≤ e.2.2 + 1000000000)
  let s := { s with hbm := { s.hbm with kind2 := (pc, row, s.now) :: recent } }
  if recent.any (fun e => e.1 = pc && e.2.1 ≠ row) then s.migrate pc else s

/-! ### Reads and writes of a line (R222 to R225) -/

/-- What a decode finds: the errors that the access brings, or else those that stand in the line's symbols. -/
def State.found (s : State) (pa : Nat) (e : RowError) : RowError :=
  match e with
  | .none | .silent => (s.lineAt pa).row
  | e => e

/-- A line whose one device row in error has been corrected is rewritten corrected (Table mem.1). -/
def State.rewritten (s : State) (pa : Nat) : State :=
  if (s.lineAt pa).row = .none then s else s.setLine pa { s.lineAt pa with row := .none }

/-- A line read under a key slot with the errors found (R222; Table mem.1): the status and the state after it. A poisoned line in whose symbols a further error stands shows no poison syndrome and does not decode. A two-row error that the code miscorrects gives another codeword, of free data and a free tag, which passes only if that tag verifies (R218). A cancelled speculative read of a line already poisoned changes nothing (R228). -/
def State.readLineSlot (s : State) (slot tag pa : Nat) (e : RowError) (cancelled : Bool) : Status × State :=
  let owner := s.rd Reg.MEM_KEY_OWNER [slot]
  let e := s.found pa e
  if s.isPoison pa e then
    if cancelled then (.poison, s)
    else (.poison, (s.logMem 5 tag pa).reportPoisoned owner pa)
  else match e with
    | .uncorrectable => (.poison, (((s.poisonLine pa).logMem 2 tag pa).reportOwner owner 2 pa).badRow pa true)
    | .miscorrected =>
      let data := leBytes 64 s.freeVal
      let l : Line := { slot := slot, serial := s.serialOf slot, tag := .raw (s.drawn.freeVal % 2 ^ 32) }
      let t := s.drawn.drawn
      if t.macOk pa slot l data then
        (.ok, ((({ t with mem := memPutBytes t.mem (pa / 64 * 64) data }).setLine pa l).countKind 1).tallyRow pa)
      else (.poison, (t.logMem 3 tag pa).reportOwner owner 3 pa)
    | .one =>
      if (s.lineAt pa).poisoned then (.poison, (((s.poisonLine pa).logMem 2 tag pa).reportOwner owner 2 pa).badRow pa true)
      else if s.tagOk pa slot then (.ok, ((s.rewritten pa).countKind 1).tallyRow pa)
      else (.poison, (s.logMem 3 tag pa).reportOwner owner 3 pa)
    | _ => if s.tagOk pa slot then (.ok, s) else (.poison, (s.logMem 3 tag pa).reportOwner owner 3 pa)

/-- A line read that reaches a controller; while the verification pass runs, every access returns ST_NOT_READY (R238). A line that the system cache has written is stored first. -/
def State.readLine (s : State) (tag pa : Nat) (e : RowError) (cancelled : Bool) : Status × State :=
  if s.hbm.verifying then (.notReady, s) else
  let s := s.flush pa
  s.readLineSlot (s.slotOf pa) tag pa e cancelled

/-- A full-line write: data, tag under the line's slot, poison cleared (R223). -/
def State.writeLine (s : State) (pa : Nat) (bytes : List Byte) : Status × State :=
  if s.hbm.verifying then (.notReady, s) else
  let s := s.uncache (pa / 64)
  (.ok, { s with mem := memPutBytes s.mem (pa / 64 * 64) bytes
                 hbm := { s.hbm with lines := tput s.hbm.lines (pa / 64) (s.freshLine pa (s.slotOf pa) bytes) } })

/-- A partial write meets a line that is poisoned, or fails its decode or its tag (R224): the line is poisoned, kind 4 is logged and reported, and the status is ST_INTEGRITY. -/
def State.mergeFails (s : State) (slot tag pa : Nat) : Status × State :=
  (.integrity, ((s.poisonLine pa).logMem 4 tag pa).reportOwner (s.rd Reg.MEM_KEY_OWNER [slot]) 4 pa)

/-- The line of a partial write passes R222 with ST_OK (R224). -/
def State.mergeGood (s : State) (slot pa : Nat) (e : RowError) : Bool :=
  !(s.lineAt pa).poisoned && s.tagOk pa slot && (s.found pa e = .none || s.found pa e = .one)

/-- A partial write within one line, in the controller (R224): merged only into a line that verifies. -/
def State.mergeLine (s : State) (tag pa : Nat) (bytes : List Byte) (e : RowError) : Status × State :=
  if s.hbm.verifying then (.notReady, s) else
  let s := s.flush pa
  let slot := s.slotOf pa
  if s.mergeGood slot pa e then
    let s := if s.found pa e = .one then ((s.rewritten pa).countKind 1).tallyRow pa else s
    let s := { s with mem := memPutBytes s.mem pa bytes }
    (.ok, s.setLine pa (s.freshLine pa slot (s.lineBytes pa)))
  else s.mergeFails slot tag pa

/-! ### Accesses to HBM through the system cache (R185, R224, R226) -/

/-- A read of bytes within one line by an access of a memory type: cacheable ones are served by the system cache, which fills from a verified line; the others go to the controller. -/
def State.readThrough (s : State) (mt tag pa : Nat) (e : RowError) (cancelled : Bool) : Status × State :=
  if mt ≠ 0 then s.readLine tag pa e cancelled
  else if s.hbm.verifying then (.notReady, s)
  else match s.cacheLookup pa with
    | (some _, s) => (.ok, s)
    | (none, s) =>
      let slot := s.slotOf pa
      let (st, s) := s.readLineSlot slot tag pa e cancelled
      (st, if st = .ok then s.cacheTake pa slot false else s)

/-- A write of bytes within one line by an access of a memory type (R223, R224): a cacheable full line needs no fill, a cacheable part merges into a line that the cache holds or fills, and the others go to the controller. -/
def State.writeThrough (s : State) (mt tag pa : Nat) (bytes : List Byte) (e : RowError) : Status × State :=
  if mt ≠ 0 then (if bytes.length = 64 then s.writeLine pa bytes else s.mergeLine tag pa bytes e)
  else if s.hbm.verifying then (.notReady, s)
  else match s.cacheLookup pa with
    | (some c, s) => (.ok, ({ s with mem := memPutBytes s.mem pa bytes }).cacheTake pa c.slot true)
    | (none, s) =>
      let slot := s.slotOf pa
      if bytes.length = 64 then (.ok, ({ s with mem := memPutBytes s.mem pa bytes }).cacheTake pa slot true)
      else if s.mergeGood slot pa e then
        let s := if s.found pa e = .one then ((s.rewritten pa).countKind 1).tallyRow pa else s
        (.ok, ({ s with mem := memPutBytes s.mem pa bytes }).cacheTake pa slot true)
      else s.mergeFails slot tag pa

/-! ### Meanings -/

/-- HBM_READ: a line read of a tag reaches its controller with what the code finds (R222; Table mem.1); `cancelled` marks a speculative read that run-ahead has cancelled (R228). -/
def execHbmRead (tag pa : Nat) (e : RowError) (cancelled : Bool) (s : State) : Host.Outcome State Fault Refusal :=
  if !isHbm s.fuses pa || tag ≥ 64 then .refused .illFormed else
  let (st, t) := s.readLine tag pa e cancelled
  go (t.answer st (if st = .ok then ofLeBytes (memBytes t.mem (pa / 64 * 64) 64) else 0))

/-- HBM_FULL_WRITE: a full-line write of 64 bytes reaches its controller (R223); `e` is what comes to stand in the stored symbols afterwards, for a later read to find. -/
def execHbmFullWrite (pa : Nat) (bytes : List Byte) (e : RowError) (s : State) : Host.Outcome State Fault Refusal :=
  if !isHbm s.fuses pa || bytes.length ≠ 64 then .refused .illFormed else
  let (st, t) := s.writeLine pa bytes
  go ((if st = .ok && e ≠ .none then t.setLine pa { t.lineAt pa with row := e } else t).answer st 0)

/-- HBM_PARTIAL_WRITE: a write of part of one line reaches its controller (R224). -/
def execHbmPartialWrite (tag pa : Nat) (bytes : List Byte) (e : RowError) (s : State) : Host.Outcome State Fault Refusal :=
  if !isHbm s.fuses pa || bytes.length = 0 || pa % 64 + bytes.length > 64 || tag ≥ 64 then .refused .illFormed else
  let (st, t) := s.mergeLine tag pa bytes e
  go (t.answer st 0)

/-- Patrol scrub reads a mapped line (R232, R233): a corrected error counts as kind 6, is rewritten and enters the row tally; an uncorrectable line is poisoned as kind 7, and a poisoned one is left as it is. Patrol scrub checks no tag: a two-row error that the code miscorrects is rewritten as the codeword that it was taken for, of free data and a free tag. -/
def State.scrubLine (s : State) (pa : Nat) (e : RowError) : State :=
  let e := s.found pa e
  if s.isPoison pa e then s
  else match e with
    | .one => if (s.lineAt pa).poisoned then ((s.poisonLine pa).logMem 7 0 pa).badRow pa false
              else ((s.rewritten pa).countKind 6).tallyRow pa
    | .miscorrected =>
      let t := { s with mem := if (s.cacheEntry pa).isSome then s.mem else memPutBytes s.mem (pa / 64 * 64) (leBytes 64 s.freeVal) }
      ((t.drawn.drawn.setLine pa { slot := 0, serial := 0, tag := .raw (s.drawn.freeVal % 2 ^ 32) }).countKind 6).tallyRow pa
    | .uncorrectable => ((s.poisonLine pa).logMem 7 0 pa).badRow pa false
    | _ => s

/-- Patrol scrub reads a line of a stack's spare pseudo-channel or, with `row`, of its spare rows, which no address maps (R216, R232). MEM.ERR names no address there, so that the one it holds is free; row and bank group are taken like those of an address. -/
def State.scrubSpare (s : State) (stack idx : Nat) (row : Bool) (e : RowError) : State :=
  let pc := if row then 32 * stack else sparePc stack
  let at_ := 2 ^ 48 + (if row then 2 ^ 30 else 0) + 2 ^ 31 * stack + 64 * idx
  if (s.spare stack).poisoned.contains at_ && e = .none then s
  else match e with
    | .one | .miscorrected => (s.countKind 6).tally pc (Config.hbmRow at_) (Config.hbmGroup at_) (at_ / 64)
    | .uncorrectable =>
      let x := s.spare stack
      let s := s.setSpare stack { x with poisoned := if x.poisoned.contains at_ then x.poisoned else x.poisoned ++ [at_] }
      let s := ((s.logMem 7 0 (s.freeVal % 2 ^ 48)).drawn).wr Reg.MEM_ERR_CTRL [] (2 * stack + 1)
      s.repairRow pc (Config.hbmRow at_) (Config.hbmGroup at_)
    | _ => s

/-- PATROL_SCRUB: patrol scrub reads a line (R232, R233); `last` ends the pass. -/
def execPatrolScrub (w : ScrubAt) (e : RowError) (last : Bool) (s : State) : Host.Outcome State Fault Refusal :=
  if !(match w with | .line pa => isHbm s.fuses pa | .spare k _ | .spareRow k _ => k < s.fuses.variant.hbmStacks) then .refused .illFormed
  else if !s.boot.mainUp || s.hbm.verifying then go s else
  let s := match w with
    | .line pa => s.scrubLine pa e
    | .spare k idx => s.scrubSpare k idx false e
    | .spareRow k idx => s.scrubSpare k idx true e
  if last then
    let s := s.incWrap Reg.MEM_SCRUB_PASSES [] 1
    go { s with hbm := { s.hbm with tallies := [], rows := [] } }
  else go s

/-! ### Migration to the spare (R235, R236, R240) -/

/-- Migration copies one stored line: with correction, and poisoned where it cannot be corrected (R235). -/
def copyLine (l : Line) : Line :=
  match l.row with
  | .uncorrectable | .miscorrected => Line.poison
  | .one => if l.poisoned then Line.poison else { l with row := .none }
  | _ => l

/-- The lines of a stack's spared pseudo-channel between two places of the copy pointer, in bytes, are copied; a line that becomes poisoned holds zeros. -/
def State.copyTo (s : State) (k upto : Nat) : State :=
  let x := s.spare k
  let pc := 32 * k + s.rd Reg.MEM_STK_SPARED_PC [k]
  let within (line : Nat) : Bool :=
    hbmPc s.fuses (64 * line) = pc && x.copied ≤ 64 * hbmIndex s.fuses (64 * line) && 64 * hbmIndex s.fuses (64 * line) < upto
  let dead := s.hbm.lines.filter (fun (e : Nat × Line) => within e.1 && (copyLine e.2).poisoned && !e.2.poisoned && (s.cacheEntry (64 * e.1)).isNone)
  let zeroed := dead.foldl (fun m (e : Nat × Line) => memPutBytes m (64 * e.1) (List.replicate 64 0)) s.mem
  let copied := s.hbm.lines.map (fun (e : Nat × Line) => if within e.1 then (e.1, copyLine e.2) else e)
  let s := { s with mem := zeroed, hbm := { s.hbm with lines := copied } }
  (s.setSpare k { x with copied := upto }).wr Reg.MEM_STK_PROGRESS [k] (min 65535 (upto / (pcBytes / 65536)))

/-- A migration runs: SPARE is 1, the main domain is up, and no verification pass is under way (R235, R240). -/
def State.migrating (s : State) (k : Nat) : Bool :=
  s.rd Reg.MEM_STK_SPARE [k] = 1 && s.boot.mainUp && !s.hbm.verifying

/-- The copy of a running migration goes on by the bytes of one tick: 11.2 GB/s (R236). -/
def State.copyTick (s : State) (k : Nat) : State :=
  if s.migrating k && (s.spare k).copied < pcBytes then s.copyTo k (min pcBytes ((s.spare k).copied + 45)) else s

/-- MIGRATION_DONE: the copy of stack `k` ends with its last line, and the spare serves the whole pseudo-channel (R235, R236); SPARE reads 3 where a further channel has failed meanwhile (R237). The spec states no PROGRESS for an ended copy, so that the value is free. -/
def execMigrationDone (k : Nat) (s : State) : Host.Outcome State Fault Refusal :=
  if s.migrating k then
    let s := s.copyTo k pcBytes
    go (((s.wr Reg.MEM_STK_SPARE [k] (if s.hbm.further.any (fun pc => pc / 32 = k || pc = sparePc k) then 3 else 2)).wr Reg.MEM_STK_PROGRESS [k] s.freeVal).drawn)
  else go s

/-! ### The verification pass (R238, R240) -/

/-- The retained range that holds an address: first address, end and slot of the enabled range `j`. -/
def State.retained (s : State) (j : Nat) : Option (Nat × Nat × Nat) :=
  if s.flag Reg.MEM_RETAIN_VALID [j] then
    let b := hbmBase + s.rd Reg.MEM_RETAIN_BASE [j] * 2 ^ 21
    some (b, b + s.rd Reg.MEM_RETAIN_LEN [j] * 2 ^ 21, s.rd Reg.MEM_RETAIN_SLOT [j])
  else none

/-- The slot of the enabled range that holds an address; the ranges of enclaves that were not FREE are poisoned in any case (R247). -/
def State.retainSlot (s : State) (pa : Nat) : Option Nat :=
  if s.hbm.doomed.any (fun d => d.1 ≤ pa && pa < d.2) then none else
  ((List.range 16).filterMap s.retained).findSome? (fun r => if r.1 ≤ pa && pa < r.2.1 then some r.2.2 else none)

/-- An error of kind 2 or 3 that the pass finds: MEM.ERR with tag 0, its counter and the Almanac, and the report to its owner, which waits until that owner is enabled again (R227, R238, R240). -/
def State.passError (s : State) (kind slot pa : Nat) : State :=
  let owner := s.rd Reg.MEM_KEY_OWNER [slot]
  let s := s.logMem kind 0 pa
  if owner < 32 then
    let s := s.wrPair Reg.MEM_ERRI_ADDR_LO Reg.MEM_ERRI_ADDR_HI [owner] pa
    let s := (s.wr Reg.MEM_ERRI_KIND [owner] kind).incSat Reg.MEM_ERRI_COUNT [owner] 1
    { s with hbm := { s.hbm with unreported := if s.hbm.unreported.contains owner then s.hbm.unreported else s.hbm.unreported ++ [owner] } }
  else s.raise 14

/-- A line of a range, which one a free value says. -/
def State.freeLine (s : State) (b len : Nat) : Nat := b + 64 * (s.freeVal % (len / 64))

/-- Errors of never-written lines in a retained range, `n` of them: MEM.CNT and MEM.ERRI count each, and the Almanac admits as many as its intake has room for. Which of the lines each record names, and which one MEM.ERR holds, is free: no order between lines of different controllers is defined (R238). -/
def State.passBulk (s : State) (slot b len n : Nat) : State :=
  let room := min n (64 - s.alm.intake.length)
  let s := (List.range room).foldl (fun s _ => (s.passError 3 slot (s.freeLine b len)).drawn) s
  if n = room then s else
  let owner := s.rd Reg.MEM_KEY_OWNER [slot]
  let s := (s.passError 3 slot (s.freeLine b len)).drawn
  let more := n - room - 1
  let s := s.incSat Reg.MEM_CNT [2] more
  let s := if owner < 32 then s.incSat Reg.MEM_ERRI_COUNT [owner] more else s
  s.incSat Reg.ALM_STAT_LOST [] more

/-- One stored line in the pass: kept if it lies in a retained range and passes R222 under its slot, else poisoned; `found` lists the lines in which the decode finds something. -/
def State.passLine (found : List (Nat × RowError)) (s : State) (l : Nat × Line) : State :=
  let pa := l.1 * 64
  match s.retainSlot pa with
  | none => s.poisonLine pa
  | some slot =>
    let e := s.found pa (match found.find? (fun x => x.1 = pa) with | some x => x.2 | none => .none)
    if s.isPoison pa e then s
    else match e with
      | .uncorrectable => ((s.poisonLine pa).passError 2 slot pa).badRow pa true
      | .miscorrected => ((s.poisonLine pa).passError 3 slot pa)
      | .one =>
        if l.2.poisoned then ((s.poisonLine pa).passError 2 slot pa).badRow pa true
        else if s.tagOk pa slot then ((s.rewritten pa).countKind 1).tallyRow pa
        else (s.poisonLine pa).passError 3 slot pa
      | _ => if s.tagOk pa slot then s else (s.poisonLine pa).passError 3 slot pa

/-- The owners whose instances are enabled hear of the pass's errors (R240). -/
def State.tellErrors (s : State) : State :=
  let now := s.hbm.unreported.filter (fun i => s.flag Reg.TTU_INST_ENABLE [i])
  now.foldl (fun s i => s.send i (s.rd Reg.TTU_INST_FLT_VEC [i]))
    { s with hbm := { s.hbm with unreported := s.hbm.unreported.filter (fun i => !s.flag Reg.TTU_INST_ENABLE [i]) } }

/-- A digest extends a boot measurement register (18, R563): SHA-384 over the register and the digest. -/
def State.extendMeas (s : State) (m digest : Nat) : State :=
  let old := (List.range 12).flatMap (fun k => leBytes 4 (s.rd Reg.BOOT_MEAS [m, k]))
  let v := Config.hash 0x11 (old ++ leBytes 48 digest)
  (List.range 12).foldl (fun s k => s.wr Reg.BOOT_MEAS [m, k] (v >>> (32 * k))) s

/-- Lines of payload, the last one padded with zeros. -/
def goldenLines : (fuel : Nat) → (pa : Nat) → List Byte → List (Nat × List Byte)
  | 0, _, _ => []
  | fuel + 1, pa, b =>
    if b.isEmpty then [] else (pa, (b ++ List.replicate 64 0).take 64) :: goldenLines fuel (pa + 64) (b.drop 64)

/-- A full line is written under slot 0, as the golden image is (18, R562). -/
def State.writeGolden (s : State) (e : Nat × List Byte) : State :=
  let s := s.uncache (e.1 / 64)
  ({ s with mem := memPutBytes s.mem e.1 e.2 }).setLine e.1 (s.freshLine e.1 0 e.2)

/-- A write-once field takes its value and locks (22, R633). -/
def State.wrOnce (s : State) (r : Row) (v : Nat) : State :=
  let s := s.wr r [] v
  { s with boot := { s.boot with wonce := s.boot.wonce ++ [32 * r.key [] + r.lo] } }

/-- Once HBM is reachable: the golden image is written and checked, and the boot chain commits GOLD_BASE, GOLD_SIG and REMAP (18, R561 to R563, R567). -/
def State.finishLoad (s : State) : State :=
  match s.boot.golden with
  | none => s
  | some (load, sig, payload, digest) =>
    let s := (goldenLines (payload.length / 64 + 1) load payload).foldl State.writeGolden { s with boot := { s.boot with golden := none } }
    let s := s.extendMeas 3 digest
    let s := (s.wrOnce Reg.INF_GOLD_BASE_LO (load >>> 12)).wrOnce Reg.INF_GOLD_BASE_HI (load >>> 32)
    let s := (s.wrOnce Reg.INF_GOLD_SIG_LO sig).wrOnce Reg.INF_GOLD_SIG_HI (sig >>> 32)
    (s.wrOnce Reg.MAT_REMAP_REMAP 1).wr Reg.BOOT_STAT_PHASE [] 4

/-- HBM_VERIFY_PASS_DONE: the pass of R238 over every line ends, with the lines in which the decode finds something; HBM becomes reachable, and owners that are enabled already hear of their errors (R240). -/
def execHbmVerifyPassDone (found : List (Nat × RowError)) (s : State) : Host.Outcome State Fault Refusal :=
  if !s.hbm.verifying then go s else
  let ranges := (List.range 16).filterMap s.retained
  let stored := s.hbm.lines
  let s1 := stored.foldl (State.passLine found) s
  let s2 := if s.hbm.blank then s1 else ranges.foldl (fun t r =>
    let inside := s.hbm.doomed.foldl (fun n d => n + (min r.2.1 d.2 - max r.1 d.1) / 64) 0
    t.passBulk r.2.2 r.1 (r.2.1 - r.1) ((r.2.1 - r.1) / 64 - inside -
      (stored.filter (fun e => r.1 ≤ e.1 * 64 && e.1 * 64 < r.2.1 && (s.retainSlot (e.1 * 64)).isSome)).length)) s1
  go (State.finishLoad (State.tellErrors { s2 with hbm := { s2.hbm with verifying := false, blank := true, doomed := [], lines := s2.hbm.lines.filter (fun e => !e.2.poisoned) } }))

end Sys2Proof.Machine
end

