-- ==== Sys2Proof/Machine/Orrery.lean ====
section
/-! DEFINITION. Orrery (05): charging a unit to an activity, who may be served, arbitration, the computation of CAP and EFF, and what a period boundary does. -/

namespace Sys2Proof.Machine

/-! ### Charging (R163, R164, R169, R170) -/

/-- The activity of a resource and a tag (R152; 05, Table orr.7). -/
def activity (r t : Nat) : Nat := 64 * r + t

/-- The allowance that an activity has left in the running period. -/
def State.allowance (s : State) (a : Nat) : Nat := tget 0 s.orr.allow a

/-- SLACK_EN of an activity as the last boundary took it (R159). -/
def State.slackEn (s : State) (a : Nat) : Bool := !s.orr.slackOff.contains a

/-- The activities whose committed SLACK_EN is 0. -/
def State.slackOffNow (s : State) : List Nat :=
  (s.words.filter (fun e => e.1 / 2 ^ 17 = 0x03 && 0x1000 ≤ e.1 % 2 ^ 17 && e.1 % 2 ^ 17 < 0x1000 + 4 * 2624 && e.1 % 4 = 1
    && !e.2.getLsbD 0)).map (fun e => (e.1 % 2 ^ 17 - 0x1000) / 4)

/-! ### Capacity (R173, R604) -/

/-- The stack derate in sixteenths at a stack level (20, Table pwr.5). -/
def stackDerate (level : Nat) : Nat := [16, 15, 12, 8].getD level 16

/-- Logical tiles in service: those not in STATE 5 (R173). -/
def State.serviceable (s : State) : Nat :=
  ((List.range s.fuses.variant.tiles).filter (fun t => s.rd Reg.INF_TILE_STATE [t] ≠ 5)).length

/-- CAP of a resource per µs at the state that holds now (R173, R193, R236, R604). -/
def State.capPerUs16 (s : State) (r : Nat) : Nat :=
  if r ≤ 5 then
    11200 * stackDerate (s.rd Reg.PWR_HBMT_LEVEL [r]) *
      (if s.rd Reg.MEM_STK_SPARE [r] = 1 then 15 else 16) / 16
  else if r ≤ 21 then 1000 * 16
  else if r = 22 then 1500 * s.serviceable * s.rd Reg.PWR_DERATE_TILE [] * 2
  else if r = 23 then (if s.rd Reg.PWR_PD_STATE [6] = 2 then s.rd Reg.CLK_DOM_MHZ [6] * 8 * 16 else 0)
  else if r = 24 then 4000 * 16
  else if r ≤ 28 then 1000 * 16
  else if r ≤ 36 then
    if s.rd Reg.MAT_LINK_STATE [(r - 29) % 4] = 1 then 4000 * s.rd Reg.PWR_DERATE_LINK [] * 2 else 0
  else 3125 * 16

/-- Units that a resource has served in the running µs. -/
def State.usedUs (s : State) (r : Nat) : Nat :=
  let e := tget (0, 0) s.orr.usedUs r
  if e.1 = s.now / 1000 then e.2 else 0

/-- A resource may serve another request of an activity: capacity of the period and of the running µs is left, and the activity holds allowance or may use slack (R163, R604). -/
def State.mayServe (s : State) (r t : Nat) : Bool :=
  tget 0 s.orr.used r < s.rd Reg.ORR_RES_CAP [r] && 16 * s.usedUs r < s.capPerUs16 r &&
    (s.allowance (activity r t) > 0 || s.slackEn (activity r t))

/-- Units by a party and a resource, at 64 × party + resource, with more of them. -/
def addUnits (l : List (Nat × Nat)) (p : Nat) (units : List (Nat × Nat)) : List (Nat × Nat) :=
  units.foldl (fun l e => tput l (64 * p + e.1) (tget 0 l (64 * p + e.1) + e.2)) l

/-- Units that an engine has been granted before and not used yet (log entry 40). -/
def State.prepaidOf (s : State) (p r : Nat) : Nat := tget 0 s.orr.prepaid (64 * p + r)

/-- The engine whose command runs uses units of a resource, of those granted before if there are enough (log entry 40). -/
def State.usePrepaid (s : State) (p r units : Nat) : State :=
  { s with orr := { s.orr with prepaid := tputD 0 s.orr.prepaid (64 * p + r) (s.prepaidOf p r - units) }
           fab := { s.fab with spent := addUnits s.fab.spent 0 [(r, units)] } }

/-- Units of a resource that its activity is charged for: the part within the allowance counts in SERVED, the rest in SLACK, and LAST takes the class of the last unit (R164, R170). -/
def State.chargeNow (s : State) (r t units : Nat) : State :=
  let a := activity r t
  let al := s.allowance a
  let inB := min al units
  let out := units - inB
  let s := { s with orr := { s.orr with
    allow := tput s.orr.allow a (al - inB)
    used := tput s.orr.used r (tget 0 s.orr.used r + units)
    usedUs := tput s.orr.usedUs r (s.now / 1000, s.usedUs r + units)
    slackNow := if out = 0 then s.orr.slackNow else tput s.orr.slackNow r (tget 0 s.orr.slackNow r + out) } }
  let s := s.incSat Reg.ORR_BUDGET_USED [a] units
  let s := s.inc64 Reg.ORR_CNT_SERVED_LO Reg.ORR_CNT_SERVED_HI [a] inB
  let s := s.inc64 Reg.ORR_CNT_SLACK_LO Reg.ORR_CNT_SLACK_HI [a] out
  s.wr Reg.ORR_BUDGET_LAST [a] (statusCode (if out = 0 then .ok else .slack))

/-- Charge `units` of resource `r` to tag `t`. Units that the engine whose command runs has been granted before have been charged then (log entry 40). -/
def State.charge (s : State) (r t units : Nat) : State :=
  if units = 0 then s else
  match s.fab.runner with
  | none => s.chargeNow r t units
  | some p =>
    if units ≤ s.prepaidOf p r then s.usePrepaid p r units
    else ({ s with fab := { s.fab with spent := addUnits s.fab.spent 0 [(r, units)] } }).chargeNow r t units

/-- The served class of the last of `units` units (02, Table cmd.10): 0 within budget, 1 slack. -/
def State.chargeClass (s : State) (r t units : Nat) : Nat :=
  if units ≤ s.allowance (activity r t) then 0 else 1

/-- Every resource of a list may serve the tag. -/
def State.mayServeAll (s : State) (t : Nat) (need : List (Nat × Nat)) : Bool :=
  need.all (fun e => s.mayServe e.1 t)

/-- Charge every resource of a list. -/
def State.chargeAll (s : State) (t : Nat) (need : List (Nat × Nat)) : State :=
  need.foldl (fun s e => s.charge e.1 t e.2) s

/-- Put a request that Orrery cannot serve behind the others that wait (R154). -/
def State.hold (s : State) (q : OrrReq) : State :=
  { s with orr := { s.orr with waiting := s.orr.waiting ++ [{ q with id := s.orr.nextId }], nextId := s.orr.nextId + 1 } }

/-- Refuse an engine job for want of budget: REFUSED and LAST (R167, R169). -/
def State.refuseActivity (s : State) (r t : Nat) : State :=
  (s.incWrap Reg.ORR_CNT_REFUSED [activity r t] 1).wr Reg.ORR_BUDGET_LAST [activity r t] (statusCode .refused)

/-- An activity that is refused at admission: EFF = 0 and SLACK_EN = 0 (R167). -/
def State.noBudget (s : State) (r t : Nat) : Bool :=
  s.rd Reg.ORR_BUDGET_EFF [activity r t] = 0 && !s.slackEn (activity r t)

/-! ### Arbitration (R163) -/

/-- The distance of a tag behind a round-robin pointer: the tag after the pointer comes first. -/
def rrDistance (ptr t : Nat) : Nat := (t + 64 - ptr - 1) % 64

/-- The rank of a waiting request at resource `r`: in-budget requests first, then by class, then round-robin by tag, then by age. Smaller is served first. -/
def State.rank (s : State) (r : Nat) (q : OrrReq) : Nat :=
  let cls := s.classOf q.tag
  let tier := if s.allowance (activity r q.tag) > 0 then 0 else 1
  let ptr := tget 63 s.orr.ptr (4 * r + cls)
  ((tier * 4 + cls) * 64 + rrDistance ptr q.tag) * 2 ^ 32 + q.id

/-- A resource serves a new request of a tag at once: the request may be served, and no waiting one comes before it (R163, R166, R177). -/
def State.wins (s : State) (r t : Nat) : Bool :=
  let mine := s.rank r { id := s.orr.nextId, tag := t, need := [] }
  s.mayServe r t && s.orr.waiting.all (fun q => !(q.need.any (fun e => e.1 = r) && s.mayServe r q.tag) || mine < s.rank r q)

/-- Serve a request at a resource: its units are charged, and the round-robin pointer of its class moves past its tag (R163). -/
def State.serve (s : State) (r t units : Nat) : State :=
  let s := s.charge r t units
  { s with orr := { s.orr with ptr := tput s.orr.ptr (4 * r + s.classOf t) t } }

/-- The engine whose command runs has been granted the units of a resource before. -/
def State.hasPaid (s : State) (e : Nat × Nat) : Bool :=
  match s.fab.runner with
  | some p => e.2 ≤ s.prepaidOf p e.1
  | none => false

/-- A new request of a tag at the resources of a list: served at all of them at once, or none where one of them does not serve it yet (R163). -/
def State.pay (s : State) (t : Nat) (need : List (Nat × Nat)) : Option State :=
  need.foldl (fun o e => o.bind (fun s =>
    if s.hasPaid e then some (s.charge e.1 t e.2) else if s.wins e.1 t then some (s.serve e.1 t e.2) else none)) (some s)

/-- The request of least rank. -/
def bestReq (rank : OrrReq → Nat) : List OrrReq → Option OrrReq
  | [] => none
  | q :: qs => match bestReq rank qs with
    | none => some q
    | some b => if rank q ≤ rank b then some q else some b

/-- The request that resource `r` serves at an arbitration instant (R163). -/
def State.winner (s : State) (r : Nat) : Option OrrReq :=
  bestReq (s.rank r) (s.orr.waiting.filter (fun q => q.need.any (fun e => e.1 = r) && s.mayServe r q.tag))

/-- A waiting request with resource `r` moved from the needed to the granted ones. -/
def OrrReq.grant (q : OrrReq) (r : Nat) : OrrReq :=
  { q with need := q.need.filter (fun e => e.1 ≠ r), granted := q.granted ++ q.need.filter (fun e => e.1 = r) }

/-- A context whose access every resource has granted is READY again and issues it (R163). -/
def State.wakeCtx (s : State) (n : Nat) (q : Option HeldReq) : State :=
  let c := s.ctx n
  if c.wait = some .budget then s.setCtx n { c with wait := none, granted := q.map (fun q => { q with paid := true }) } else s

/-- The request with the given number replaced. -/
def replaceReq (q : OrrReq) (l : List OrrReq) : List OrrReq :=
  l.map (fun x => if x.id = q.id then q else x)

/-- The served class of a grant of a job's own resource is that of its record (R169). -/
def State.classJob (s : State) (u : Option Nat) (r cls : Nat) : State :=
  { s with cmp := { s.cmp with jobs := s.cmp.jobs.map (fun j => if some j.uid = u && j.unitRes = r then { j with cls := cls } else j) } }

/-- Grant resource `r` to a waiting request: charge it, advance the pointer of its class past its tag, and release it once every resource it needs has granted it. The served class of an engine job is that of this grant (R169). -/
def State.grantReq (s : State) (r : Nat) (q : OrrReq) : State :=
  let units := (q.need.filter (fun e => e.1 = r)).foldl (fun n e => n + e.2) 0
  let cls := s.chargeClass r q.tag units
  let s := s.serve r q.tag units
  let q' := q.grant r
  if q'.need.isEmpty then
    let s := { s with orr := { s.orr with waiting := s.orr.waiting.filter (fun x => x.id ≠ q.id) } }
    match q.ctx with
    | some n => s.wakeCtx n q.req
    | none => match q.party with
      | some p => { s.classJob q.job r cls with orr := { s.orr with prepaid := addUnits s.orr.prepaid p q'.granted } }
      | none =>
        if q.req.isSome then { s with orr := { s.orr with issued := s.orr.issued ++ [{ q' with req := q.req.map (fun x => { x with paid := true }) }] } }
        else match q.job with
          | some u => { s with orr := { s.orr with grantedJobs := s.orr.grantedJobs ++ [(u, cls)] } }
          | none => s
  else { s with orr := { s.orr with waiting := replaceReq q' s.orr.waiting } }

/-- One arbitration instant of a resource. -/
def State.arbitrate (s : State) (r : Nat) : State :=
  match s.winner r with
  | none => s
  | some q => s.grantReq r q

/-! ### CAP (R157, R173) -/

/-- CAP of a resource for a period of code `p` (R157, R173). -/
def State.capFor (s : State) (p r : Nat) : Nat := s.capPerUs16 r * ((p + 1) * 250) / 16

/-- The resources of the variant (R153). -/
def presentRes (fz : Fuses) : List Nat :=
  (List.range 41).filter (fun r => !wordAbsent fz 0x03 (0x100 + 4 * r))

/-! ### EFF (R174) -/

/-- TOKENS of every activity of a resource, by tag. -/
def State.tokensOf (s : State) (r : Nat) : List (Nat × Nat) :=
  (List.range 42).map (fun t => (t, s.rd Reg.ORR_BUDGET_TOKENS [activity r t]))

/-- Sum of the second components. -/
def sumSnd (l : List (Nat × Nat)) : Nat := l.foldl (fun n e => n + e.2) 0

/-- What R174 gives each class in turn: the tags with their EFF, LEVEL and FACTOR. -/
def effClasses (cap : Nat) : List (Nat × List (Nat × Nat)) → List (Nat × Nat) × Nat × Nat
  | [] => ([], 0, 1024)
  | (cls, l) :: rest =>
    let sum := sumSnd l
    if sum ≤ cap then
      let (e, lv, f) := effClasses (cap - sum) rest
      (l ++ e, lv, f)
    else
      let f := 1024 * cap / sum
      (l.map (fun e => (e.1, e.2 * f / 1024)) ++ rest.flatMap (fun c => c.2.map (fun e => (e.1, 0))), 4 - cls, f)

/-- EFF of every tag of a resource, LEVEL and FACTOR, from CAP and TOKENS (R174). -/
def State.effOf (s : State) (r cap : Nat) : List (Nat × Nat) × Nat × Nat :=
  let toks := s.tokensOf r
  effClasses cap ([0, 1, 2, 3].map (fun c => (c, toks.filter (fun e => s.classOf e.1 = c))))

/-! ### The boundary (R158 to R160, R165, R173 to R176) -/

/-- One activity takes its EFF for the new period; its allowance becomes EFF, and USED starts at 0 (R160). -/
def State.setEff (s : State) (r : Nat) (e : Nat × Nat) : State :=
  let a := activity r e.1
  let s := (s.wr Reg.ORR_BUDGET_EFF [a] e.2).wr Reg.ORR_BUDGET_USED [a] 0
  { s with orr := { s.orr with allow := tput s.orr.allow a e.2 } }

/-- By how much each activity of a resource falls short of its TOKENS. -/
def State.shortfalls (s : State) (r : Nat) (eff : List (Nat × Nat)) : List (Nat × Nat) :=
  eff.map (fun e => (activity r e.1, s.rd Reg.ORR_BUDGET_TOKENS [activity r e.1] - e.2))

/-- A C0 or C1 activity falls short by more than at the boundary before (R175). -/
def State.shortGrew (s : State) (short : List (Nat × Nat)) : Bool :=
  short.any (fun e => s.classOf (e.1 % 64) ≤ 1 && e.2 > tget 0 s.orr.shortfall e.1)

/-- A boundary at one resource: CAP, EFF, LEVEL, FACTOR, SLACK_LAST, and the capacity event of R175. -/
def State.boundaryRes (p : Nat) (s : State) (r : Nat) : State :=
  let cap := s.capFor p r
  let (eff, lv, f) := s.effOf r cap
  let short := s.shortfalls r eff
  let grew := s.shortGrew short
  let s := ((((s.wr Reg.ORR_RES_CAP [r] cap).wr Reg.ORR_RES_LEVEL [r] lv).wr Reg.ORR_RES_FACTOR [r] f).wr
    Reg.ORR_RES_SLACK_LAST [r] (tget 0 s.orr.slackNow r))
  let s := eff.foldl (fun s e => s.setEff r e) s
  let s := { s with orr := { s.orr with shortfall := short.foldl (fun m e => tputD 0 m e.1 e.2) s.orr.shortfall } }
  if grew then (s.record 0x31 34 (leBytes 1 r ++ leBytes 1 lv ++ leBytes 2 f)).raise 5 else s

/-- A request that waits at a boundary is deferred on each resource that has not granted it (R165, R170); one that waits for a free entry of its port (R182) is not. -/
def State.deferReq (s : State) (q : OrrReq) : State :=
  if q.need.isEmpty then s else
  let s := q.need.foldl (fun s e =>
    (s.incWrap Reg.ORR_CNT_DEFERRED [activity e.1 q.tag] 1).wr Reg.ORR_BUDGET_LAST [activity e.1 q.tag] (statusCode .deferred)) s
  let s := { s with orr := { s.orr with waiting := replaceReq { q with deferred := true } s.orr.waiting } }
  let s := match q.ctx with
    | some n => let c := s.ctx n
                s.setCtx n { c with prog := c.prog.map (fun p => { p with defer := true }) }
    | none => s
  match q.job with
  | some u => { s with cmp := { s.cmp with jobs := s.cmp.jobs.map (fun j => if j.uid = u then { j with defer := true } else j) } }
  | none => s

/-- What Orrery does at a period boundary. -/
def State.boundary (s : State) : State :=
  let p := s.rd Reg.ORR_CFG_PERIOD []
  let s := s.orr.waiting.foldl State.deferReq s
  let s := (presentRes s.fuses).foldl (State.boundaryRes p) s
  let s := { s with orr := { s.orr with slackNow := [], used := [], slackOff := s.slackOffNow } }
  (s.wr Reg.ORR_ACTIVE_PERIOD [] p).incWrap Reg.ORR_STAT_PERIOD_NO [] 1

/-- The condition behind event 5: a C0 or C1 activity falls short of its TOKENS (R175, R516). -/
def State.capacityShort (s : State) : Bool := s.orr.shortfall.any (fun e => s.classOf (e.1 % 64) ≤ 1 && e.2 > 0)

end Sys2Proof.Machine
end

