-- ==== Sys2Proof/Machine/Window.lean ====
section
/-! DEFINITION. The window of the bandwidth governor (01, R25 to R28): quotas, the free pool, and which tile's held request goes next. -/

namespace Sys2Proof.Machine

/-- The queue of a tile. -/
def State.tileQueue (s : State) (t : Nat) : List TileDesc := tget [] s.inf.queues t

/-- The state with the governor replaced. -/
def State.setGov (s : State) (g : Gov) : State := { s with inf := { s.inf with gov := g } }

/-- The tiles that hold a dispatched descriptor (R26). -/
def State.activeTiles (s : State) : List Nat :=
  (List.range s.fuses.variant.tiles).filter (fun t => !(s.tileQueue t).isEmpty)

/-- The logical tile that a physical tile serves. -/
def State.logicalOf (s : State) (p : Nat) : Option Nat :=
  (List.range s.fuses.variant.tiles).find? (fun t => s.rd Reg.INF_TILE_PHYS [t] = p)

/-- The governor admits one line of a tile: its own quota, then the free pool, within CAP (R27, R28). A tile that was not active when the window opened waits for the release point. -/
def Gov.take (g : Gov) (t : Nat) : Option Gov :=
  if g.issued ≥ g.cap || !(g.released || g.active.contains t) then none
  else if tget 0 g.left t > 0 then some { g with left := tput g.left t (tget 0 g.left t - 1), issued := g.issued + 1 }
  else if g.pool > 0 then some { g with pool := g.pool - 1, issued := g.issued + 1 }
  else none

/-- The governor admits lines of a tile. -/
def Gov.takes (g : Gov) (t : Nat) : Nat → Option Gov
  | 0 => some g
  | n + 1 => (g.take t).bind (fun g => g.takes t n)

/-- The lines that a request touches, of which the governor counts each. -/
def govLines (addr size : Nat) : Nat := ceilDiv (addr % 64 + size) 64

/-- The lines of a held request, at its physical address. -/
def GovReq.lines (q : GovReq) : Nat := govLines (match q.req.adm with | some m => m.pa | none => q.req.addr) q.req.size

/-- The held request that goes next: the first of the next tile in round-robin order of logical index (R27). The spec names no tile with which that order starts; the pointer runs on over the windows (DESIGN CHOICE, log entry 41). -/
def Gov.nextHeld (g : Gov) : Option GovReq :=
  ((List.range 64).map (fun k => (g.rr + 1 + k) % 64)).findSome? (fun t =>
    match g.held.find? (fun q => q.tile = t) with
    | some q => if (g.takes t q.lines).isSome then some q else none
    | none => none)

/-- The number under which an engine's granted lines of the governor stand beside its granted units (log entry 40). -/
def govLine : Nat := 63

/-- The governor's word on a request of a tile: it passes at once, or none where it has to be held (R27, R28). A tile's requests keep their order. -/
def State.govPass (s : State) (t lines : Nat) : Option State :=
  if s.hasPaid (govLine, lines) then
    (s.fab.runner.map (fun p => s.usePrepaid p govLine lines))
  else if s.inf.gov.held.any (fun q => q.tile = t) then none
  else (s.inf.gov.takes t lines).map (fun g =>
    { (s.setGov g) with fab := { s.fab with spent := if s.fab.runner.isSome then addUnits s.fab.spent 0 [(govLine, lines)] else s.fab.spent } })

end Sys2Proof.Machine
end

