-- ==== Sys2Proof/Machine/Target.lean ====
section
/-! DEFINITION. The physical address map (06, Table fab.3, Table fab.4): which target an access reaches, or which layer finds none (R35, R36, R194 to R196, R636); decode errors and freezes (R197, R198), and the reads of a table walk (R137). -/

namespace Sys2Proof.Machine

/-- What stands at a physical address. -/
inductive Target where
  | hbm
  | bootRom (off : Nat)
  | bootSram (off : Nat)
  | commandPort (off : Nat)
  /-- A byte memory on a Peripheral Bus: island SRAM (window 18), retention SRAM (window 19), or a memory of another bus. -/
  | bus (b off : Nat)
  /-- A register of a cluster window (R287). -/
  | cluster (c off : Nat)
  | tileSram (tile off : Nat)
  | pcie (n off : Nat)
  /-- No target; the layer that decides (R636). -/
  | noTarget (layer : Nat)
  deriving DecidableEq, Repr

/-- The power domain of a Peripheral Bus window and the XD it lies on (06, Table fab.4; 20, Table pwr.1); none where the window is unassigned. -/
def busDomain (b : Nat) : Option (Nat × Option Nat) :=
  if b ≤ 7 then some (b, none)
  else if b = 8 then some (9, none)
  else if b ≤ 15 then none
  else if b = 18 then some (11, some 0)
  else if b = 19 then some (12, some 0)
  else if b % 4 = 0 then some (8, some ((b - 16) / 4))
  else if b % 4 = 1 then some (10, some ((b - 17) / 4))
  else none

/-- A power domain is on (R196, R592): clusters by APC.CL.STATE, domains 4 to 8 by PWR.PD.STATE, the others with the main domain or always. -/
def State.domainOn (s : State) (k : Nat) : Bool :=
  if k ≤ 3 then s.rd Reg.APC_CL_STATE [k] ≠ 2
  else if k ≤ 8 then s.rd Reg.PWR_PD_STATE [k] = 2
  else true

/-- An offset of a cluster window has a target (R287): an interrupt-file page, or an mtimecmp register. -/
def clusterOffset (off : Nat) : Bool :=
  (off < 0x20000 && off / 0x1000 % 8 ≠ 7) || (0x80000 ≤ off && off < 0x80020)

/-- A byte of a window of a present, powered bus has a target (R636): the 4 MB of island SRAM, the retention SRAM, or a memory of a bus whose memories the spec does not place (DESIGN CHOICE, log entry 45). -/
def busHas (b off : Nat) : Bool :=
  if b = 18 then off < 0x40_0000
  else if b = 19 then off < 0x4_0000
  else Config.busMemory b off

/-- The 32-bit beats into which a Peripheral Bus bridge splits an access of `size` bytes at an offset, in ascending order, as offset and length (R187). -/
def beats : (fuel : Nat) → (off size : Nat) → List (Nat × Nat)
  | 0, _, _ => []
  | fuel + 1, off, size =>
    if size = 0 then []
    else
      let n := min size (4 - off % 4)
      (off, n) :: beats fuel (off + n) (size - n)

/-- The beats of an access. -/
def beatsOf (off size : Nat) : List (Nat × Nat) := beats (size / 4 + 2) off size

/-- The target inside an assigned window of a present, powered bus (R636); each beat that finds none is decided on its own. -/
def busTarget (b off size : Nat) : Target :=
  if b ≤ 3 then (if clusterOffset off then .cluster b off else .noTarget (8 + b))
  else if (beatsOf off size).any (fun p => busHas b p.1) then .bus b off
  else .noTarget (8 + b)

/-- The layer that forwards to a window's bus: the Main Matrix, or the local matrix of its XD (R636). -/
def forwardLayer (xd : Option Nat) : Nat := match xd with | some n => 1 + n | none => 0

/-- The region of Table fab.3 in which an address lies, with window and XD numbers apart, so that an access that spans two is seen (R636). -/
def regionOf (fz : Fuses) (a : Nat) : Nat :=
  if a < 0x10_0000 then 1
  else if a < 0x20_0000 then 2
  else if 0x1000_0000 ≤ a && a < 0x1001_0000 then 3
  else if 0x2000_0000 ≤ a && a < 0x4000_0000 then 16 + (a - 0x2000_0000) / 0x100_0000
  else if 0x1_0000_0000 ≤ a && a < 0x1_0800_0000 then 4
  else if 0x8_0000_0000 ≤ a && a < 0x10_0000_0000 then 8 + (a - 0x8_0000_0000) / 2 ^ 33
  else if isHbm fz a then 5
  else 0

/-- The target of the access of `size` bytes at address `a` (R194, R196, R636). -/
def State.targetOf (s : State) (a size : Nat) : Target :=
  let rgn := regionOf s.fuses a
  if rgn ≠ regionOf s.fuses (a + size - 1) then .noTarget 0
  else
  let remap := s.flag Reg.MAT_REMAP_REMAP []
  if rgn = 1 then
    if remap then .bootSram a else if a + size ≤ 0x4_0000 then .bootRom a else .noTarget 0
  else if rgn = 2 then
    let off := a - 0x10_0000
    if remap then (if off + size ≤ 0x4_0000 then .bootRom off else .noTarget 0) else .bootSram off
  else if rgn = 3 then .commandPort (a - 0x1000_0000)
  else if rgn = 4 then
    let t := (a - 0x1_0000_0000) / 0x20_0000
    if (a + size - 1 - 0x1_0000_0000) / 0x20_0000 < s.fuses.variant.tiles then .tileSram t ((a - 0x1_0000_0000) % 0x20_0000) else .noTarget 0
  else if rgn = 5 then .hbm
  else if 16 ≤ rgn then
    let b := rgn - 16
    match busDomain b with
    | none => .noTarget 0
    | some (k, xd) =>
      match xd with
      | some n =>
        if n ≥ s.fuses.variant.xds then .noTarget 0
        else if s.domainOn k then busTarget b ((a - 0x2000_0000) % 0x100_0000) size else .noTarget (1 + n)
      | none => if s.domainOn k then busTarget b ((a - 0x2000_0000) % 0x100_0000) size else .noTarget 0
  else if 8 ≤ rgn then
    let n := rgn - 8
    if n < s.fuses.variant.xds then .pcie n ((a - 0x8_0000_0000) % 2 ^ 33) else .noTarget 0
  else .noTarget 0

/-- The XD on which a layer lies. -/
def layerXd (l : Nat) : Option Nat :=
  if 1 ≤ l && l ≤ 4 then some (l - 1)
  else if 8 ≤ l then (match busDomain (l - 8) with | some (_, xd) => xd | none => none)
  else none

/-- The XD that an access crosses into, if its target, or the layer that finds none, lies on one (R191, R193). -/
def Target.xd : Target → Option Nat
  | .bus b _ => layerXd (8 + b)
  | .pcie n _ => some n
  | .noTarget l => layerXd l
  | _ => none

/-- The layers from the Main Matrix to a layer, without the Main Matrix. -/
def layersTo (l : Nat) : List Nat :=
  if l = 0 then [] else match layerXd l with
    | some n => if l = 1 + n then [l] else [1 + n, l]
    | none => [l]

/-- The layers beyond the Main Matrix that an access to the target passes. -/
def Target.layers : Target → List Nat
  | .bus b _ => layersTo (8 + b)
  | .cluster c _ => [8 + c]
  | .pcie n _ => [1 + n]
  | .noTarget l => layersTo l
  | _ => []

/-- The layer in which an access to a target ends: MAT.PERR.INFO.BRIDGE of a posted write that fails there (06, Table fab.6). -/
def Target.endLayer (t : Target) : Nat := t.layers.getLast?.getD 0

/-- Where the bytes of a memory target are stored: the boot ROM and the boot SRAM keep their bytes when REMAP swaps their addresses (R194), so they are stored at their addresses under REMAP = 0. -/
def storeAddr (a : Nat) : Target → Nat
  | .bootRom off => off
  | .bootSram off => 0x10_0000 + off
  | _ => a

/-- The aperture of a tile admits a tag: that of the grantee that is resident on the tile (R293). -/
def State.tileAdmits (s : State) (t tag : Nat) : Bool :=
  s.flag Reg.INF_TILE_RES_VALID [t] && s.rd Reg.INF_SLICE_INST [t, s.rd Reg.INF_TILE_RES_G [t]] = tag

/-- Every tile whose SRAM an access of `size` bytes at offset `off` of tile `t` touches admits the tag. -/
def State.sramAdmits (s : State) (t off size tag : Nat) : Bool :=
  s.tileAdmits t tag && (off + size ≤ 0x20_0000 || s.tileAdmits (t + 1) tag)

/-! ### Links and owners (R181, R193, R213, R260) -/

/-- The link to the target's XD is not up (R193). -/
def State.linkDown (s : State) (t : Target) : Bool :=
  match t.xd with | some n => s.rd Reg.MAT_LINK_STATE [n] ≠ 1 | none => false

/-- ENC.OWN index of a resource: class, die and index (R259). -/
def ownIndex (cls die idx : Nat) : Nat := cls * 2 ^ 12 + die * 2 ^ 8 + idx

/-- An access to a block that HANDOVER moves (R260): ST_NOT_READY during its steps, ST_DENIED for a tag other than the owner's. -/
def State.ownerCheck (s : State) (x tag : Nat) : Status :=
  if s.rd Reg.ENC_OWN_STEP [x] ≠ 0 then .notReady
  else if s.rd Reg.ENC_OWN_OWNER [x] ≠ tag then .denied
  else .ok

/-! ### Decode errors and freezes (R197, R198) -/

/-- MAT.DECODE[l].MODE of a layer. -/
def State.decodeMode (s : State) (l : Nat) : Bool :=
  if l < 8 then s.flag Reg.MAT_DECODE_MODE [l] else s.flag Reg.MAT_DECODE_PB_MODE [l - 8]

/-- DEC_LOG of an access with no target. -/
def State.decLog (s : State) (tag : Nat) (write : Bool) (pa l : Nat) : State :=
  let s := s.wrPair Reg.MAT_DEC_LOG_ADDR_LO Reg.MAT_DEC_LOG_ADDR_HI [] (pa % 2 ^ 48)
  let s := ((s.wr Reg.MAT_DEC_LOG_TAG [] tag).wr Reg.MAT_DEC_LOG_LAYER [] l).wr Reg.MAT_DEC_LOG_WRITE []
    (if write then 1 else 0)
  s.incSat Reg.MAT_DEC_LOG_COUNT [] 1

/-- A trigger of the wreck buffers with a cause of ALM.WRECK.CAUSE (R543), which reaches the buffers as WRECK_TRIGGER. -/
def State.wreckTrigger (s : State) (cause : Nat) : State :=
  { s with alm := { s.alm with triggers := s.alm.triggers ++ [(cause, s.now)] } }

/-- Freeze-on-decode (R198): the layer stops, FROZEN and DEC_LOG are set, the wreck buffers capture, and event 17 is raised. -/
def State.freeze (s : State) (tag : Nat) (write : Bool) (pa l : Nat) : State :=
  let s := s.decLog tag write pa l
  let s := s.wr Reg.MAT_FREEZE_FROZEN [] 1
  let s := { s with fab := { s.fab with frozen := if s.fab.frozen.contains l then s.fab.frozen else s.fab.frozen ++ [l] } }
  ((s.wreckTrigger 1).raise 17)

/-! ### Table walks (R137) -/

/-- How one read of a table walk ends: with a status and its data, not at all because a frozen layer holds it, or not at all because it finds no target at a layer in freeze-on-decode, which the access behind the walk then freezes. -/
inductive WalkRead where
  | done (st : Status) (v : Nat)
  | held
  | freezes (pa layer : Nat)
  deriving DecidableEq, Repr

/-- A status read of memory at a physical address by a table walk (R137): charged to the tag at injection port 10 (06, Table fab.1) and at the stack. HBM lines are verified under their slot; a PCIe device may leave it without a response, which the walk sees as ST_TIMEOUT (R186; a free value decides). -/
def State.walkRead (s : State) (tag pa : Nat) : WalkRead × State :=
  let s := s.charge 16 tag 1
  let t := s.targetOf pa 8
  if (0 :: t.layers).any s.fab.frozen.contains then (.held, s)
  else match t with
  | .hbm =>
    let s := s.charge (hbmStack s.fuses pa) tag 1
    let (st, s') := s.readThrough 0 tag pa .none false
    (.done st (if st = .ok then ofLeBytes (memBytes s'.mem pa 8) else 0), s')
  | .noTarget l =>
    if s.linkDown t then (.done .notReady 0, s)
    else if s.decodeMode l then (.freezes pa l, s) else (.done .decode 0, s.decLog tag false pa l)
  | .commandPort _ => (.done .denied 0, s)
  | .cluster c off => let (st, v) := s.clusterRead c off 8; (.done st v, s)
  | .tileSram t off => (if s.sramAdmits t off 8 tag then .done .ok (ofLeBytes (memBytes s.mem pa 8)) else .done .notReady 0, s)
  | .pcie n _ =>
    if s.linkDown t then (.done .notReady 0, s) else
    let s := s.charge (29 + n) tag 1
    match s.ownerCheck (ownIndex 3 n 0) tag with
    | .ok => (if s.freeVal % 2 = 0 then .done .timeout 0 else .done .ok (s.drawn.freeVal % 2 ^ 64), s.drawn.drawn)
    | st => (.done st 0, s)
  | .bus b off =>
    if s.linkDown t then (.done .notReady 0, s) else
    let s := match t.xd with | some n => s.charge (29 + n) tag 1 | none => s
    if b = 19 && off + 8 > 0x2_0000 then (.done .denied 0, s)
    else if b = 19 && s.alm.badSlots.any (fun k => off / 32 ≤ k && k ≤ (off + 7) / 32) then (.done .poison 0, s)
    else match (beatsOf off 8).find? (fun p => !busHas b p.1) with
      | some p => if s.decodeMode (8 + b) then (.freezes (pa + (p.1 - off)) (8 + b), s)
                  else (.done .decode 0, s.decLog tag false (pa + (p.1 - off)) (8 + b))
      | none => (.done .ok (ofLeBytes (memBytes s.mem pa 8)), s)
  | t => (.done .ok (ofLeBytes (memBytes s.mem (storeAddr pa t) 8)), s)

end Sys2Proof.Machine
end

