-- ==== Sys2Proof/Machine/Ttu.lean ====
section
/-! DEFINITION. The Tagged Translation Unit (04): the two-stage walk, the window and enclave checks, the translation cache, and the record of a fault. -/

namespace Sys2Proof.Machine

/-! ### Page-table entries (R135, Table ttu.1, R635) -/

/-- What an entry at a level gives for an access: a fault cause, a leaf with the address it gives, permissions (R, W, X and D at bits 0 to 3), memory type and its size as a power of two, or the next table. -/
inductive Pte where
  | bad (cause : Nat)
  | leaf (out perm memtype size : Nat)
  | next (table : Nat)
  deriving DecidableEq, Repr

/-- The size of a leaf at a level, as a power of two: 4 KB, 64 KB under Svnapot, 2 MB or 1 GB. -/
def leafSize (pte level : Nat) : Nat := if level = 0 then (if bitAt pte 63 then 16 else 12) else 12 + 9 * level

/-- The address that a leaf at a level gives for an input address. -/
def leafAddr (pte va level : Nat) : Nat :=
  let ppn := bitsOf pte 10 44
  let shift := leafSize pte level
  ((ppn <<< 12) >>> shift <<< shift) + va % 2 ^ shift

/-- The conditions of cause 1 (Table ttu.1). U, A and D of a non-leaf entry are reserved in the RISC-V privileged architecture, which makes a set reserved bit a page fault (PRESUMED, log entry 38). -/
def pteInvalid (pte level : Nat) : Bool :=
  let leaf := bitAt pte 1 || bitAt pte 3
  let n := bitAt pte 63
  let pbmt := bitsOf pte 61 2
  !bitAt pte 0 || (bitAt pte 2 && !bitAt pte 1) || bitsOf pte 54 7 ≠ 0 || pbmt = 3
    || (leaf && level = 3)
    || (leaf && n && (level ≠ 0 || bitsOf pte 10 4 ≠ 8))
    || (!leaf && (n || pbmt ≠ 0 || bitAt pte 4 || bitAt pte 6 || bitAt pte 7))
    || (!leaf && level = 0)
    || (leaf && level ≠ 0 && bitsOf pte 10 (9 * level) ≠ 0)

/-- One entry judged for an access of a kind, in the order cause 1, 4, 2, 3 (R635). -/
def judgePte (pte va level : Nat) (k : Kind) : Pte :=
  let leaf := bitAt pte 1 || bitAt pte 3
  if pteInvalid pte level then .bad 1
  else if bitsOf pte 46 8 ≠ 0 then .bad 4
  else if !leaf then .next (bitsOf pte 10 44 * 4096)
  else if !bitAt pte 4 then .bad 2
  else if (k = .read && !bitAt pte 1) || (k = .write && !bitAt pte 2) || (k = .fetch && !bitAt pte 3) then .bad 2
  else if !bitAt pte 6 || (k = .write && !bitAt pte 7) then .bad 3
  else .leaf (leafAddr pte va level) (bitsOf pte 1 3 + 8 * bitsOf pte 7 1) (bitsOf pte 61 2) (leafSize pte level)

/-- The index of an address into the table of a level. -/
def vpn (va level : Nat) : Nat := bitsOf va (12 + 9 * level) 9

/-! ### Windows and enclaves (R143, R144, R243) -/

/-- The deciding window admits a tag and a kind: none, or the fault cause (R144). -/
def State.windowFault (s : State) (tag pa : Nat) (k : Kind) : Option Nat :=
  match s.windowOf pa with
  | none => some 5
  | some w =>
    let tagOk := if tag < 32 then bitAt (s.rd Reg.TTU_WIN_INST_MASK [w]) tag
      else bitAt (s.rd Reg.TTU_WIN_AGENTS_MASK [w]) (tag - 32)
    let kindOk := match k with
      | .read => s.flag Reg.TTU_WIN_R [w]
      | .write => s.flag Reg.TTU_WIN_W [w]
      | .fetch => s.flag Reg.TTU_WIN_X [w]
    if tagOk && kindOk then none else some 6

/-- The memory type of the deciding window (R136). -/
def State.winMemtype (s : State) (pa : Nat) : Nat :=
  match s.windowOf pa with
  | some w => s.rd Reg.TTU_WIN_MEMTYPE [w]
  | none => 0

/-- The deciding window selects posted writes (R146, R201). -/
def State.winPosted (s : State) (pa : Nat) : Bool :=
  match s.windowOf pa with
  | some w => s.flag Reg.TTU_WIN_POSTED [w]
  | none => false

/-- BASE of an ERT entry. -/
def State.ertBase (s : State) (e : Nat) : Nat := s.rdPair Reg.ENC_ERT_BASE_LO Reg.ENC_ERT_BASE_HI [e]

/-- An ERT entry outside FREE contains the address (R241). -/
def State.inEntry (s : State) (pa e : Nat) : Bool :=
  s.rd Reg.ENC_ERT_STATE [e] ≠ 0 && s.ertBase e ≤ pa && pa < s.ertBase e + 2 ^ s.rd Reg.ENC_ERT_SIZE [e]

/-- The entry outside FREE whose range holds the address; entries do not overlap (R241). -/
def State.entryOf (s : State) (pa : Nat) : Option Nat := indexOf (s.inEntry pa) 64 0

/-- The intake line of an entry's mailbox: the first line of the last 4 KB (R242, R249). -/
def State.intakeLine (s : State) (e : Nat) : Nat := s.ertBase e + 2 ^ s.rd Reg.ENC_ERT_SIZE [e] - 4096

/-- A tag may send to an entry's mailbox (R249). -/
def State.mayMail (s : State) (e tag : Nat) : Bool :=
  if tag < 32 then bitAt (s.rd Reg.ENC_ERT_MBOX_INST [e]) tag
  else bitAt (s.rd Reg.ENC_ERT_MBOX_AGENTS [e]) (tag - 32)

/-- A full-line write to the intake line of an ACTIVE entry from a tag that its masks name (R249); debug access is no such write (R244). -/
def State.isMail (s : State) (a : Access) (pa size : Nat) : Bool :=
  match s.entryOf pa with
  | some e => a.src ≠ .debug && s.rd Reg.ENC_ERT_STATE [e] = 3 && a.kind = .write && size = 64 && pa = s.intakeLine e && s.mayMail e a.tag
  | none => false

/-- An initiator is a hart in enclave mode for an entry (R243, R248). -/
def State.inEnclaveFor (s : State) (src : Source) (e : Nat) : Bool :=
  match src with
  | .hart h => s.flag Reg.APC_HART_IN_ENCL [h] && s.rd Reg.APC_HART_ENTRY [h] = e
  | _ => false

/-- The range of an enclave, in which the byte at `pa` lies, does not allow the access (R243, R244; Table enc.1). -/
def State.enclaveFaultAt (s : State) (a : Access) (addr size pa : Nat) : Bool :=
  match s.entryOf pa with
  | none => false
  | some e =>
    let st := s.rd Reg.ENC_ERT_STATE [e]
    !(a.src ≠ .debug && (a.tag = 35
      || (st = 1 && a.tag = s.rd Reg.ENC_ERT_INST [e])
      || (st = 3 && s.inEnclaveFor a.src e)
      || s.isMail a addr size))

/-- An enclave's range holds one of the ends of the access and does not allow it: a range is no shorter than 2^17 bytes (R241). The fetch of a gate's target is exempt (R279). -/
def State.enclaveFault (s : State) (a : Access) (pa size : Nat) : Bool :=
  !a.gate && (s.enclaveFaultAt a pa size pa || s.enclaveFaultAt a pa size (pa + size - 1))

/-! ### The walk (R133, R137, R151) -/

/-- What a walk gives: an address with permissions, memory type and the size of its leaf, a fault cause, the status of a walk read that failed (cause 8), or nothing yet: a frozen layer holds the walk, or a walk read freezes one, with the physical address and the layer (R198). -/
inductive Walk where
  | done (out perm memtype size : Nat)
  | fault (cause : Nat)
  | failed (st : Status)
  | stuck (freezes : Option (Nat × Nat))
  deriving DecidableEq, Repr

/-- A walk read as far as it has no entry: its failure, or that it waits. -/
def WalkRead.noEntry : WalkRead → Walk
  | .done st _ => .failed st
  | .held => .stuck none
  | .freezes pa l => .stuck (some (pa, l))

/-- The instance-table walk from a table at physical address `table` at a level (R133, R135, R137). -/
def State.walkInst (s : State) (tag va : Nat) (k : Kind) : (level : Nat) → (table : Nat) → Walk × State
  | 0, table =>
    match s.walkRead tag (table + 8 * vpn va 0) with
    | (.done .ok pte, s) =>
      match judgePte pte va 0 k with
      | .bad c => (.fault c, s)
      | .leaf out perm mt size => (.done out perm mt size, s)
      | .next _ => (.fault 1, s)
    | (r, s) => (r.noEntry, s)
  | level + 1, table =>
    match s.walkRead tag (table + 8 * vpn va (level + 1)) with
    | (.done .ok pte, s) =>
      match judgePte pte va (level + 1) k with
      | .bad c => (.fault c, s)
      | .leaf out perm mt size => (.done out perm mt size, s)
      | .next t => s.walkInst tag va k level t
    | (r, s) => (r.noEntry, s)

/-- The physical address of an instance's root table. -/
def State.rootOf (s : State) (i : Nat) : Nat :=
  (s.rd Reg.TTU_INST_ROOT_LO [i] + 2 ^ 32 * s.rd Reg.TTU_INST_ROOT_HI [i]) * 4096

/-- An instance address through the instance table: identity in MODE 0, Sv48 in MODE 9 (R133). An address with bits above 47 is cause 4 (R94, R635). -/
def State.instAddr (s : State) (i va : Nat) (k : Kind) : Walk × State :=
  if va ≥ 2 ^ 48 then (.fault 4, s)
  else if s.rd Reg.TTU_INST_MODE [i] = 9 then s.walkInst i va k 3 (s.rootOf i)
  else (.done va 15 0 48, s)

/-- An 8-byte read at an instance address for the first stage: translated and window-checked like data (R137). -/
def State.readInst (s : State) (i va : Nat) : Walk × Nat × State :=
  match s.instAddr i va .read with
  | (.done pa perm mt size, s) =>
    match s.windowFault i pa .read with
    | some c => (.fault c, 0, s)
    | none =>
      if s.enclaveFault { tag := i, pid := 0, src := .monitor, kind := .read } pa 8 then (.fault 10, 0, s) else
      match s.walkRead i pa with
      | (.done .ok v, s) => (.done pa perm mt size, v, s)
      | (r, s) => (r.noEntry, 0, s)
  | (w, s) => (w, 0, s)

/-- The first-stage walk of a process identifier (R151): tables and leaf outputs are instance addresses. -/
def State.walkProc (s : State) (i va : Nat) (k : Kind) : (level : Nat) → (table : Nat) → Walk × State
  | 0, table =>
    match s.readInst i (table + 8 * vpn va 0) with
    | (.done _ _ _ _, pte, s) =>
      match judgePte pte va 0 k with
      | .bad c => (.fault c, s)
      | .leaf out perm mt size => (.done out perm mt size, s)
      | .next _ => (.fault 1, s)
    | (w, _, s) => (w, s)
  | level + 1, table =>
    match s.readInst i (table + 8 * vpn va (level + 1)) with
    | (.done _ _ _ _, pte, s) =>
      match judgePte pte va (level + 1) k with
      | .bad c => (.fault c, s)
      | .leaf out perm mt size => (.done out perm mt size, s)
      | .next t => s.walkProc i va k level t
    | (w, _, s) => (w, s)

/-- The outcome of a translation: the physical address with the stricter memory type, a fault with its cause, whether it arose in the first stage, and the status of the access, or a walk that waits, with the address and the layer of the freeze that its own read causes. -/
inductive Trans where
  | ok (pa memtype : Nat)
  | fault (cause : Nat) (stage1 : Bool) (st : Status)
  | stuck (freezes : Option (Nat × Nat)) (stage1 : Bool)
  deriving DecidableEq, Repr

/-- A walk result as the outcome of a stage. -/
def Walk.toTrans (w : Walk) (stage1 : Bool) : Trans :=
  match w with
  | .done out _ mt _ => .ok out mt
  | .fault c => .fault c stage1 .denied
  | .failed st => .fault 8 stage1 st
  | .stuck f => .stuck f stage1

/-- The translation of an address of an instance by its tables, without the cache (R133, R151), and the entry to cache. -/
def State.walk (s : State) (i pid va : Nat) (k : Kind) : Trans × Option TlbEntry × State :=
  if va ≥ 2 ^ 48 then (.fault 4 false .denied, none, s)
  else if pid = 0 then
    match s.instAddr i va k with
    | (.done pa perm mt size, s) =>
      (.ok pa mt, some { tag := i, pid := 0, stage := 1, vpn := va / 4096, ppn := pa / 4096, perm := 0xF0 + perm, memtype := mt, size1 := size }, s)
    | (w, s) => (w.toTrans false, none, s)
  else
    let log2 := s.rd Reg.TTU_INST_PDT_LOG2 [i]
    if log2 = 0 || pid ≥ 2 ^ log2 then (.fault 7 true .denied, none, s) else
    match s.readInst i (s.rdPair Reg.TTU_INST_PDT_LO Reg.TTU_INST_PDT_HI [i] + 8 * pid) with
    | (.done _ _ _ _, pde, s) =>
      if bitsOf pde 60 4 ≠ 9 || bitsOf pde 44 16 ≠ 0 then (.fault 7 true .denied, none, s) else
      match s.walkProc i va k 3 (bitsOf pde 0 44 * 4096) with
      | (.done ia perm1 mt1 size1, s) =>
        match s.instAddr i ia k with
        | (.done pa perm mt size, s) =>
          (.ok pa (max mt1 mt), some { tag := i, pid := pid, stage := 2, vpn := va / 4096, ppn := pa / 4096, perm := 16 * perm1 + perm, memtype := max mt1 mt, size1 := size1, ia := ia, size2 := size }, s)
        | (w, s) => (w.toTrans false, none, s)
      | (w, s) => (w.toTrans true, none, s)
    | (w, _, s) => (w.toTrans true, none, s)

/-! ### The cache (R140, R141) -/

/-- The entries that the translation cache holds (R140). -/
def tlbSize : Nat := 8192

/-- The cause for which permissions (R, W, X and D at bits 0 to 3) refuse a kind of access: 2 before 3 (R635). -/
def permFault (perm : Nat) (k : Kind) : Option Nat :=
  match k with
  | .read => if bitAt perm 0 then none else some 2
  | .write => if !bitAt perm 1 then some 2 else if !bitAt perm 3 then some 3 else none
  | .fetch => if bitAt perm 2 then none else some 2

/-- What a cached entry gives for an access: its first stage judges before its second. -/
def TlbEntry.serve (e : TlbEntry) (va : Nat) (k : Kind) : Trans :=
  match permFault (e.perm / 16) k with
  | some c => .fault c true .denied
  | none => match permFault (e.perm % 16) k with
    | some c => .fault c false .denied
    | none => .ok (e.ppn * 4096 + va % 4096) e.memtype

/-- The cached entry for an access. A lookup hits only an entry of the same tag and process identifier (R140). -/
def State.cached (s : State) (i pid va : Nat) : Option TlbEntry :=
  s.ttu.tlb.find? (fun e => e.tag = i && e.pid = pid && e.vpn = va / 4096)

/-- Keep a translation that a walk gave; a full cache evicts the entry that it took longest ago (R140; DESIGN CHOICE, log entry 43). -/
def State.keepEntry (s : State) (e : TlbEntry) : State :=
  let rest := s.ttu.tlb.filter (fun x => !(x.tag = e.tag && x.pid = e.pid && x.vpn = e.vpn))
  { s with ttu := { s.ttu with tlb := (e :: rest).take tlbSize } }

/-- The translation of an access of an instance. A hit makes no walk read. Where a cached entry and the tables differ, because table memory changed without an invalidation, either may serve (R141): a free value decides (DESIGN CHOICE, log entry 8). -/
def State.translate (s : State) (i pid va : Nat) (k : Kind) : Trans × State :=
  let (t, e, s') := s.walk i pid va k
  let fresh : Trans × State := (t, match e with | some e => s'.keepEntry e | none => s')
  match s.cached i pid va with
  | none => fresh
  | some e =>
    if t = e.serve va k then (t, s)
    else if s.freeVal % 2 = 0 then (fresh.1, fresh.2.drawn)
    else (e.serve va k, s.drawn)

/-! ### Faults (R139) -/

/-- The causes that count in CMD.VIOL and the Almanac (04, Table ttu.2). -/
def causeCounts (c : Nat) : Bool := c = 5 || c = 6 || c = 9 || c = 10

/-- The record of a faulting access (R139): FLT_* and the message for an instance; the Almanac alone for a system agent. -/
def State.ttuFault (s : State) (a : Access) (addr cause : Nat) (stage1 : Bool) : State :=
  let rec_ := leBytes 1 cause ++ leBytes 6 addr ++ leBytes 3 a.pid
  if a.tag < 32 then
    let i := a.tag
    let s := s.wrPair Reg.TTU_INST_FLT_LO Reg.TTU_INST_FLT_HI [i] (addr % 2 ^ 48)
    let s := s.wr Reg.TTU_INST_FLT_CAUSE [i] cause
    let s := s.wr Reg.TTU_INST_FLT_WRITE [i] (if a.kind = .write then 1 else 0)
    let s := s.wr Reg.TTU_INST_FLT_STAGE1 [i] (if stage1 then 1 else 0)
    let s := (s.wr Reg.TTU_INST_FLT_PID [i] a.pid).incSat Reg.TTU_INST_FLT_COUNT [i] 1
    let s := if causeCounts cause then (s.violation i).record 0x20 i rec_ else s
    s.send i (s.rd Reg.TTU_INST_FLT_VEC [i])
  else s.record 0x20 a.tag rec_

/-- The check of R244 that a core makes first, before any cache lookup. -/
def State.coreFault (s : State) (a : Access) (addr size : Nat) : Bool :=
  match a.src with
  | .hart _ => s.enclaveFault a addr size
  | _ => false

/-- The address of an access as the tables give it (R131, R133, R134, R151): those of its instance, but for a hart, whose accesses arrive translated with the memory type that they bring. The last byte is translated as well where it lies on another page. -/
def State.tables (s : State) (a : Access) (addr size : Nat) : Trans × State :=
  if a.tag < 32 then
    if !s.flag Reg.TTU_INST_ENABLE [a.tag] then (.fault 9 false .denied, s)
    else match a.src with
      | .hart _ => (.ok addr a.mt, s)
      | _ =>
        match s.translate a.tag a.pid addr a.kind with
        | (.ok pa mt, t) =>
          if (addr + size - 1) / 4096 = addr / 4096 then (.ok pa mt, t)
          else match t.translate a.tag a.pid (addr + size - 1) a.kind with
            | (.ok _ mt', t) => (.ok pa (max mt mt'), t)
            | r => r
        | r => r
  else (.ok addr 0, s)

/-- The whole check of an access (R131, R133, R134, R136, R143, R144, R243, R244): the tables, then the windows of its first and its last byte, then the enclave ranges; a core makes the check of enclave ranges first. -/
def State.allow (s : State) (a : Access) (addr size : Nat) : Trans × State :=
  if s.coreFault a addr size then (.fault 10 false .denied, s) else
  match s.tables a addr size with
  | (.ok pa mt, s) =>
    match (s.windowFault a.tag pa a.kind).orElse (fun _ => s.windowFault a.tag (pa + size - 1) a.kind) with
    | some c => (.fault c false .denied, s)
    | none =>
      if s.enclaveFault a pa size then (.fault 10 false .denied, s)
      else (.ok pa (max mt (s.winMemtype pa)), s)
  | r => r

/-- Translation and checks with the record of a fault (R139). -/
def State.checkAccess (s : State) (a : Access) (addr size : Nat) : Trans × State :=
  match s.allow a addr size with
  | (.fault c st1 st, s) => (.fault c st1 st, s.ttuFault a addr c st1)
  | r => r

/-! ### Tags (R129, R273, R274) -/

/-- A context of the CMP is bound to the instance, or an engine job of one of some kinds is the instance's. -/
def State.jobTag (s : State) (kinds : List Nat) (tag : Nat) : Bool :=
  s.cmp.jobs.any (fun j => j.inst = tag && kinds.contains j.engine)

/-- The instance owns a block of a die (R259, R260). -/
def State.ownsOn (s : State) (die tag : Nat) : Bool :=
  (List.range 8).any (fun c => (List.range 32).any (fun x => s.rd Reg.ENC_OWN_OWNER [ownIndex c die x] = tag))

/-- The tag is the one that the initiator's port applies from committed state (R129; 00, Table scope.4): a hart's V and VMID, an instance for which the unit holds a job, a grant or a binding, or the unit's own tag. The spec names no tag of debug access, which may carry any assigned one (DESIGN CHOICE, log entry 46). -/
def State.tagFits (s : State) (a : Access) : Bool :=
  match a.src with
  | .hart h => if a.virt then a.tag < 32 && bitAt (s.rd Reg.APC_HART_VMASK [h]) a.tag else a.tag = 0
  | .tile p =>
    match s.logicalOf p with
    | some t => s.jobTag [1] a.tag || [0, 1, 2, 3].any (fun g => s.flag Reg.INF_SLICE_VALID [t, g] && s.rd Reg.INF_SLICE_INST [t, g] = a.tag)
    | none => false
  | .gfx => s.jobTag [2, 3] a.tag || (List.range 8).any (fun c => [0, 1, 2, 3].any (fun g =>
      s.flag Reg.GFX_SLICE_VALID [c, g] && s.rd Reg.GFX_SLICE_INST [c, g] = a.tag))
  | .display => a.tag = 36 || [0, 1, 2, 3].any (fun d => s.rd Reg.DSP_PIPE_INST [d] = a.tag)
  | .sextant => a.tag = 37 || s.jobTag [5] a.tag
  | .cmp => a.tag = 32 || a.tag = 40 || (List.range 64).any (fun n => s.ctxInst n = a.tag)
  | .monitor => a.tag = 35 || a.tag < 32
  | .xd n => (n = 0 && (a.tag = 33 || a.tag = 34)) || (38 ≤ a.tag && a.tag ≤ 39) || (a.tag = 41 && s.rd Reg.MAT_PCIE_MODE [n] = 0)
      || (a.tag < 32 && (s.jobTag [6, 7] a.tag || s.ownsOn n a.tag))
  | .debug => a.tag < 42

/-- TTU_TRANSLATE: one access through the TTU (R133, R136, R139); the answer holds the physical address, with the memory type above it at bit 48, or the status of the access. A walk that a freeze stops has no answer yet. No port applies another tag than that of its initiator (R129). -/
def execTtuTranslate (a : Access) (addr size : Nat) (s : State) : Host.Outcome State Fault Refusal :=
  if a.gate || size = 0 || size > 64 then .refused .illFormed
  else if !s.tagFits a then go s else
  match s.checkAccess a addr size with
  | (.ok pa mt, s) => go (s.answer .ok (pa % 2 ^ 48 + 2 ^ 48 * mt))
  | (.fault _ _ st, s) => go (s.answer st 0)
  | (.stuck _ _, s) => go (s.answer .queued 0)

end Sys2Proof.Machine
end

