-- ==== Sys2Proof/Machine/Bus.lean ====
section
/-! DEFINITION. An access through the fabric (06): ports and charges, traces, what the targets do, posted writes, links and buffers, and the one operation by which every unit makes an access. -/

namespace Sys2Proof.Machine

/-! ### Ports, layers and charges (R180, R181, Table fab.1; R154, R191) -/

/-- The injection port of an initiator. -/
def srcPort : Source → Nat
  | .hart h => h / 4 % 4
  | .tile p => if p < 36 then 4 else 5
  | .gfx => 6 | .display => 7 | .sextant => 8 | .cmp => 9 | .monitor => 10
  | .xd n => 11 + n
  | .debug => 15

/-- The XD on which an initiator lies. -/
def srcXd : Source → Option Nat
  | .xd n => some n
  | _ => none

/-- A number for each initiator, by which posted writes and interrupts of one source are told apart. -/
def srcCode : Source → Nat
  | .hart h => h
  | .tile p => 100 + p
  | .gfx => 200 | .display => 201 | .sextant => 202 | .cmp => 203 | .monitor => 204
  | .xd n => 300 + n
  | .debug => 400

/-- The layers that an access passes before the TTU decides it. -/
def sourceLayers (a : Access) : List Nat :=
  (match srcXd a.src with | some n => [1 + n] | none => []) ++ [0]

/-- The layers that an access passes. -/
def accessLayers (a : Access) (t : Target) : List Nat := sourceLayers a ++ t.layers

/-- The traffic class of a request (06, All queues full): writes Q2, reads Q3, prefetches Q4. -/
def accCls (a : Access) : Nat := if a.kind = .write then 2 else if a.pf then 4 else 3

/-- The Orrery resources an access needs beyond its injection port, with their units (R154, R191): 64-byte data units over the links and lines of the stack. -/
def State.accessNeed (s : State) (a : Access) (t : Target) (pa size : Nat) : List (Nat × Nat) :=
  let units := ceilDiv size 64
  let out := a.kind = .write
  (match srcXd a.src with
    | some n => [(if out then 29 + n else 33 + n, units)]
    | none => []) ++
  (match t.xd with
    | some n => [(if out then 33 + n else 29 + n, units)]
    | none => []) ++
  (match t with
    | .hbm => [(hbmStack s.fuses pa, ceilDiv (pa % 64 + size) 64)]
    | _ => [])

/-- The port's share (R180). -/
def portNeed (a : Access) (size : Nat) : List (Nat × Nat) := [(6 + srcPort a.src, ceilDiv size 64)]

/-- The data of a write from an XD, which crosses that XD's link before the TTU decides. -/
def linkNeed (a : Access) (size : Nat) : List (Nat × Nat) :=
  match srcXd a.src with
  | some n => if a.kind = .write then [(29 + n, ceilDiv size 64)] else []
  | none => []

/-! ### Wreck buffers record what crosses a matrix (17, R543, R544) -/

/-- A wreck buffer; an unlisted one is empty. -/
def State.wreck (s : State) (d : Nat) : Wreck := tget {} s.alm.wrecks d

/-- The state with a wreck buffer replaced. -/
def State.setWreck (s : State) (d : Nat) (w : Wreck) : State :=
  { s with alm := { s.alm with wrecks := tput s.alm.wrecks d w } }

/-- One message enters the buffer of die `d`, while it is armed or still has post-trigger entries to record. -/
def State.wreckPush (s : State) (t : Trace) (d : Nat) : State :=
  let st := s.rd Reg.ALM_WRECK_STATE [d]
  let w := s.wreck d
  if st = 0 || (st = 1 && w.left > 0) then
    s.setWreck d { w with
      entries := ({ t with trig := w.trig } :: w.entries).take 4096
      count := w.count + 1
      left := if st = 1 then w.left - 1 else w.left
      trig := false }
  else s

/-- The dies whose matrix an access crosses. -/
def accessDies (a : Access) (t : Target) : List Nat := (accessLayers a t).filter (· < 5)

/-- The trace entries of a request and of its response (17, Table alm.3; 06, Table fab.2). -/
def State.traceAccess (s : State) (a : Access) (t : Target) (addr : Nat) (posted : Bool) (st : Status) : State :=
  let tid := 128 * srcPort a.src + (match a.tid with | some n => n % 128 | none => s.freeVal % 128)
  let s := match a.tid with | some _ => s | none => s.drawn
  let rq : Trace := ⟨s.epoch % 2 ^ 32, addr, a.tag, if a.kind = .write then (if posted then 2 else 1) else 0,
    accCls a, tid, srcPort a.src, 0, false, false⟩
  let rs : Trace := { rq with kind := if a.kind = .write then 4 else 3, cls := if a.kind = .write then 1 else 0, status := statusCode st }
  (accessDies a t).foldl (fun s d => (s.wreckPush rq d).wreckPush rs d) s

/-- The trace entry of an interrupt message of class Q1 at the matrices of some dies (R206; Table fab.2: ADDR holds the identity and the target instance). The spec gives the message no tag and no TID: both are free. -/
def State.traceMsg (s : State) (m : Msg) (port : Nat) (dies : List Nat) : State :=
  let e : Trace := ⟨s.epoch % 2 ^ 32, m.vec % 2 ^ 11 + 2 ^ 16 * m.inst, s.freeVal % 64, 5, 1, 128 * port + s.drawn.freeVal % 128, port, 0, false, false⟩
  dies.foldl (fun s d => s.wreckPush e d) s.drawn.drawn

/-! ### Trackers, buffers and credits (R182, R183, R190, R207, R208) -/

/-- The transactions that a port's tracker holds (R182): a posted write left it on acceptance. -/
def State.inflight (s : State) (p : Nat) : Nat := (s.fab.open_.filter (fun t => t.port = p && !t.expired && t.posted.isNone)).length

/-- INFLIGHT and HWM of an injection port follow its open transactions (06, Table fab.6). -/
def State.syncPort (s : State) (p extra : Nat) : State :=
  let n := s.inflight p
  let s := s.wr Reg.MAT_TRK_INFLIGHT [p] n
  if n + extra > s.rd Reg.MAT_TRK_HWM [p] then s.wr Reg.MAT_TRK_HWM [p] (n + extra) else s

/-- A transaction stays open, under a number of its own. -/
def State.openTxn (s : State) (t : Txn) : State :=
  ({ s with fab := { s.fab with open_ := s.fab.open_ ++ [t], nextId := max s.fab.nextId (t.id + 1) } }).syncPort t.port 0

/-- An earlier transaction of the same port and TID has not ended, or waits (R183, R184): the later one waits for it at its initiator, so that requests keep their issue order at every hop and responses return in it (DESIGN CHOICE, log entry 44). -/
def State.tidBusy (s : State) (a : Access) : Bool :=
  a.tid.isSome &&
    (s.fab.open_.any (fun t => t.port = srcPort a.src && t.tid = a.tid && !t.expired)
      || (s.orr.waiting ++ s.orr.issued).any (fun q => match q.req with
        | some r => srcPort r.acc.src = srcPort a.src && r.acc.tid = a.tid
        | none => false)
      || s.inf.gov.held.any (fun q => srcPort q.req.acc.src = srcPort a.src && q.req.acc.tid = a.tid))

/-- The receive buffers of the links have room for 64 messages of Q0 and of Q1, and for 32 of each other class (R190). -/
def linkCredits (cls : Nat) : Nat := if cls ≤ 1 then 64 else 32

/-- The messages in the receive buffer of link `n`, direction `dir` (0 from the CD) and class `cls`: requests that a layer beyond the link holds, and interrupt messages on their way to their file. -/
def State.received (s : State) (n dir cls : Nat) : Nat :=
  (s.fab.open_.filter (fun t => t.rx = some (16 * n + 8 * dir + cls) && !t.expired)).length
    + (if dir = 1 && cls = 1 then (s.msgs.filter (fun m => m.link = some n)).length else 0)

/-- The credits left to the sender of a link for a class (R190): a message is sent only against one of its own class. -/
def State.credits (s : State) (n dir cls : Nat) : Nat := linkCredits cls - s.received n dir cls

/-- The receive buffer of a link in which an access stands while layer `l` holds it: the layer is the first behind that link. -/
def rxOf (a : Access) (t : Target) (l : Nat) : Option (Nat × Nat) :=
  if l = 0 then (srcXd a.src).map (fun n => (n, 1))
  else match t.xd with
    | some n => if l = 1 + n then some (n, 0) else none
    | none => none

/-- The messages of a class that stand in the buffer before a layer, apart from the receive buffers of the links (R207). -/
def State.hopped (s : State) (l cls : Nat) : Nat :=
  (s.fab.open_.filter (fun t => t.at_ = l && t.cls = cls && t.rx.isNone && !t.expired)).length

/-- The buffer in which a layer holds an access has room for another message of its class (R190, R207): no message takes the space of another class. -/
def State.roomAt (s : State) (a : Access) (t : Target) (l : Nat) : Bool :=
  match rxOf a t l with
  | some (n, dir) => s.credits n dir (accCls a) > 0
  | none => s.hopped l (accCls a) < Config.hopSpace l (accCls a)

/-- The first frozen layer of a list (R198). -/
def State.frozenIn (s : State) (l : List Nat) : Option Nat := l.find? s.fab.frozen.contains

/-- A layer that an access to a target passes is frozen (R198). -/
def State.frozenFor (s : State) (a : Access) (t : Target) : Bool := (accessLayers a t).any s.fab.frozen.contains

/-- The transaction of a request that stands before layer `l` of an access to a target. -/
def State.txnOf (s : State) (q : HeldReq) (t : Target) (l : Nat) : Txn :=
  { id := s.fab.nextId, port := srcPort q.acc.src, tag := q.acc.tag, addr := q.addr, write := q.acc.kind = .write, tid := q.acc.tid,
    cls := accCls q.acc, at_ := l, layers := accessLayers q.acc t,
    rx := (rxOf q.acc t l).map (fun e => 16 * e.1 + 8 * e.2 + accCls q.acc), source := srcCode q.acc.src }

/-! ### What the targets do -/

/-- The lines an access of `size` bytes at `a` touches, as (start, length) pieces within one line each. -/
def linePieces : (fuel : Nat) → (a size : Nat) → List (Nat × Nat)
  | 0, _, _ => []
  | fuel + 1, a, size =>
    if size = 0 then []
    else
      let n := min size (64 - a % 64)
      (a, n) :: linePieces fuel (a + n) (size - n)

/-- A read of HBM bytes by an access of a memory type, line by line; the first failing line decides the status. -/
def State.hbmRead (s : State) (mt tag pa size : Nat) (e : RowError) : Status × List Byte × State :=
  let (st, s) := (linePieces (size / 64 + 2) pa size).foldl (fun (acc : Status × State) p =>
    let (st, t) := acc.2.readThrough mt tag p.1 e false
    (if acc.1 = .ok then st else acc.1, t)) (.ok, s)
  (st, if st = .ok then memBytes s.mem pa size else [], s)

/-- The bytes of a write within one line, as they reach memory: TAIL of the intake line of an ACTIVE entry is written by its mailbox unit only (R251). -/
def State.keepTail (s : State) (tag pa : Nat) (bytes : List Byte) : List Byte :=
  match s.entryOf pa with
  | some e =>
    if s.rd Reg.ENC_ERT_STATE [e] = 3 && pa / 64 * 64 = s.intakeLine e && tag ≠ 35 then
      (List.range bytes.length).map (fun k =>
        if 8 ≤ (pa + k) % 64 && (pa + k) % 64 < 16 then memByte s.mem (pa + k) else bytes.getD k 0)
    else bytes
  | none => bytes

/-- A write of HBM bytes by an access of a memory type: whole lines as full-line writes, parts merged into verified lines; the first failing line decides the status. -/
def State.hbmWrite (s : State) (mt tag pa : Nat) (bytes : List Byte) (e : RowError) : Status × State :=
  (linePieces (bytes.length / 64 + 2) pa bytes.length).foldl (fun (acc : Status × State) p =>
    let bs := acc.2.keepTail tag p.1 ((bytes.drop (p.1 - pa)).take p.2)
    let (st, t) := acc.2.writeThrough mt tag p.1 bs e
    (if acc.1 = .ok then st else acc.1, t)) (.ok, s)

/-- Place a message in the next free slot of an entry's mailbox (R250 to R252): ST_NOT_READY when it is full. -/
def State.mail (s : State) (e tag flags : Nat) (bytes : List Byte) : Status × State :=
  let intake := s.intakeLine e
  let (st, s) := s.readThrough 0 35 intake .none false
  if st ≠ .ok then (.integrity, s) else
  let head := ofLeBytes (memBytes s.mem intake 8)
  let tail := ofLeBytes (memBytes s.mem (intake + 8) 8)
  if (tail + 2 ^ 64 - head) % 2 ^ 64 = 63 then (.notReady, s) else
  let seq := tget 0 s.enc.seqs e
  let line := bytes.take 56 ++ leBytes 1 tag ++ leBytes 1 flags ++ leBytes 6 seq
  let (_, s) := s.writeThrough 0 35 (intake + 64 * (tail % 63 + 1)) line .none
  let (_, s) := s.writeThrough 0 35 (intake + 8) (leBytes 8 (tail + 1)) .none
  let s := { s with enc := { s.enc with seqs := tput s.enc.seqs e ((seq + 1) % 2 ^ 48) } }
  (.ok, s.send (s.rd Reg.ENC_ERT_INST [e]) (s.rd Reg.ENC_ERT_MBOX_VEC [e]))

/-- The status of a read of one beat of a bus memory: the retention SRAM ends its readable part at 128 KB (R531), and a slot with an uncorrectable error reads ST_POISON. -/
def State.beatRead (s : State) (b off n : Nat) : Status :=
  if !busHas b off then .decode
  else if b ≠ 19 then .ok
  else if off + n > 0x2_0000 then .denied
  else if s.alm.badSlots.any (fun k => off / 32 ≤ k && k ≤ (off + n - 1) / 32) then .poison
  else .ok

/-- The status of a write of one beat of a bus memory: R509 guards island SRAM, and only the Almanac writes the retention SRAM (R531). -/
def State.beatWrite (s : State) (b tag off n : Nat) : Status :=
  if !busHas b off then .decode
  else if b = 18 then
    (if tag = 33 || (0x3C_0000 ≤ off && tag < 32 && bitAt (s.rd Reg.SAF_XCH []) tag) then .ok else .denied)
  else if b = 19 then (if tag = 34 && off + n ≤ 0x2_0000 then .ok else .denied)
  else .ok

/-- The status of an access of several beats: that of the first that fails. -/
def firstFail (l : List Status) : Status := (l.find? (· ≠ .ok)).getD .ok

/-- A read of a target's bytes by an access of a memory type. -/
def State.targetRead (s : State) (a : Access) (mt : Nat) (t : Target) (pa size : Nat) (e : RowError) : Status × List Byte × State :=
  match t with
  | .hbm => s.hbmRead mt a.tag pa size e
  | .commandPort off =>
    let (st, v, s) := s.cpRead a.tag off size
    (st, leBytes size v, s)
  | .cluster c off => let (st, v) := s.clusterRead c off size; (st, leBytes size v, s)
  | .bus b off =>
    let st := firstFail ((beatsOf off size).map (fun p => s.beatRead b p.1 p.2))
    (st, if st = .ok then memBytes s.mem pa size else [], s)
  | .pcie n _ =>
    let st := s.ownerCheck (ownIndex 3 n 0) a.tag
    if st = .ok then (.ok, leBytes size s.freeVal, s.drawn) else (st, [], s)
  | .noTarget _ => (.decode, [], s)
  | .tileSram k off => if s.sramAdmits k off size a.tag then (.ok, memBytes s.mem pa size, s) else (.notReady, [], s)
  | t => (.ok, memBytes s.mem (storeAddr pa t) size, s)

/-- A write to a target; a bus memory takes it beat by beat (R187). A beat that R509 refuses counts as a violation like cause 6. The boot ROM keeps its bytes; the status of a write to it is left open (DESIGN CHOICE, log entry 9). -/
def State.targetWrite (s : State) (a : Access) (mt : Nat) (t : Target) (pa : Nat) (bytes : List Byte) (e : RowError) : Status × State :=
  match t with
  | .hbm =>
    if s.isMail a pa bytes.length then
      match s.entryOf pa with
      | some en => s.mail en a.tag 0 bytes
      | none => s.hbmWrite mt a.tag pa bytes e
    else s.hbmWrite mt a.tag pa bytes e
  | .commandPort off => s.cpWrite a.tag off bytes.length (BitVec.ofNat 64 (ofLeBytes bytes))
  | .cluster c off => s.clusterWrite c off bytes.length (ofLeBytes bytes)
  | .bus b off =>
    let l := (beatsOf off bytes.length).map (fun p => (p, s.beatWrite b a.tag p.1 p.2))
    let m := l.foldl (fun m e => if e.2 = .ok then memPutBytes m (pa + (e.1.1 - off)) ((bytes.drop (e.1.1 - off)).take e.1.2) else m) s.mem
    let s := { s with mem := m }
    (firstFail (l.map (·.2)), if b = 18 && l.any (fun e => e.2 = .denied) then s.ttuFault a pa 6 false else s)
  | .bootRom _ => (if s.freeVal % 2 = 0 then .ok else .denied, s.drawn)
  | .pcie n _ => (s.ownerCheck (ownIndex 3 n 0) a.tag, s)
  | .noTarget _ => (.decode, s)
  | .tileSram k off =>
    if s.sramAdmits k off bytes.length a.tag then (.ok, { s with mem := memPutBytes s.mem pa bytes }) else (.notReady, s)
  | t => (.ok, { s with mem := memPutBytes s.mem (storeAddr pa t) bytes })

/-- Where an access finds no target, as the physical address and the layer that decides it (R636): at its whole target, or at the first beat of a bus memory that has none. -/
def missAt (t : Target) (pa size : Nat) : Option (Nat × Nat) :=
  match t with
  | .noTarget l => some (pa, l)
  | .bus b off => ((beatsOf off size).find? (fun p => !busHas b p.1)).map (fun p => (pa + (p.1 - off), 8 + b))
  | _ => none

/-! ### Posted writes (R201, R202, R204) -/

/-- A store of a hart has failed after it retired (R277): SERR takes the address and the status, and local interrupt 16 is pending in mip. -/
def State.storeError (s : State) (h addr : Nat) (st : Status) : State :=
  let s := s.wrPair Reg.APC_HART_SERR_LO Reg.APC_HART_SERR_HI [h] addr
  let s := (s.wr Reg.APC_HART_SERR_STATUS [h] (statusCode st)).incSat Reg.APC_HART_SERR_COUNT [h] 1
  let x := s.hart h
  s.setHart h { x with mip := if x.mip.contains 16 then x.mip else x.mip ++ [16] }

/-- A posted write that failed on the far side (R202); one of a hart is a failed store as well (R277). -/
def State.postedError (s : State) (a : Access) (addr layer : Nat) (st : Status) : State :=
  let tag := a.tag
  let s := s.wrPair Reg.MAT_PERR_ADDR_LO Reg.MAT_PERR_ADDR_HI [tag] addr
  let s := ((s.wr Reg.MAT_PERR_STATUS [tag] (statusCode st)).wr Reg.MAT_PERR_BRIDGE [tag] layer).incSat Reg.MAT_PERR_COUNT [tag] 1
  let s := match a.src with | .hart h => s.storeError h addr st | _ => s
  if tag < 32 then s.send tag (s.rd Reg.TTU_INST_FLT_VEC [tag])
  else (s.record 0x21 tag (leBytes 1 (statusCode st) ++ leBytes 1 layer ++ leBytes 6 addr)).raise 18

/-- Complete one posted write on the far side. One that freezes a layer is the access that R199 ends; one whose target lies behind a link that is not up fails with ST_NOT_READY (R193). -/
def State.completePosted (s : State) (p : Posted) : State :=
  let size := p.bytes.length
  let q : HeldReq := { acc := p.acc, addr := p.addr, size := size, bytes := p.bytes, err := p.err }
  let t := s.targetOf p.addr size
  let s := { s with fab := { s.fab with posted := s.fab.posted.filter (fun x => x.id ≠ p.id) } }
  if s.linkDown t then s.postedError p.acc p.addr (1 + t.xd.getD 0) .notReady
  else match missAt t p.addr size with
  | some (pa, l) =>
    if s.decodeMode l then
      (s.freeze p.acc.tag true pa l).openTxn { s.txnOf q t l with id := p.id, frozen := true, posted := some l, rx := none, req := some q }
    else
      let (_, s) := s.targetWrite p.acc p.memtype t p.addr p.bytes p.err
      (s.decLog p.acc.tag true pa l).postedError p.acc p.addr l .decode
  | none =>
    let (st, s) := s.targetWrite p.acc p.memtype t p.addr p.bytes p.err
    if st = .ok then s else s.postedError p.acc p.addr t.endLayer st

/-- A posted write may complete: no layer on its way is frozen, and no earlier posted write of its source is still held (R184, R198). -/
def State.mayComplete (s : State) (p : Posted) : Bool :=
  !s.frozenFor p.acc (s.targetOf p.addr p.bytes.length)
    && !s.fab.open_.any (fun t => t.posted.isSome && t.source = srcCode p.acc.src)

/-- The posted writes of a list complete in their order, up to the first that a frozen layer holds. -/
def State.drainList (s : State) : List Posted → State
  | [] => s
  | p :: rest => if s.mayComplete p then (s.completePosted p).drainList rest else s

/-- The oldest posted write that may go on completes. -/
def State.drainOne (s : State) : State :=
  match s.fab.posted.find? (fun p => s.mayComplete p && (s.fab.posted.find? (fun x => srcCode x.acc.src = srcCode p.acc.src)) = some p) with
  | some p => s.completePosted p
  | none => s

/-- The posted writes of one source complete, in order (R204). -/
def State.drainSource (s : State) (code : Nat) : State :=
  s.drainList (s.fab.posted.filter (fun p => srcCode p.acc.src = code))

/-- An access of a source to some bytes may not pass a posted write of that source that is still held: one to overlapping bytes or to the same Peripheral Bus (R204). -/
def State.blockedBy (s : State) (code : Nat) (t : Target) (pa size : Nat) : Bool :=
  s.fab.posted.any (fun p => srcCode p.acc.src = code &&
    ((p.addr < pa + size && pa < p.addr + p.bytes.length)
      || (match t, s.targetOf p.addr p.bytes.length with
          | .bus b _, .bus b' _ => b = b'
          | .cluster c _, .cluster c' _ => c = c'
          | _, _ => false)))

/-- The bridge at which a write is posted: the first layer it crosses into (R201); none where it crosses no bridge. -/
def postedLayer (a : Access) (t : Target) : Option Nat :=
  match srcXd a.src with
  | some _ => some 0
  | none => t.layers.head?

/-- A write is posted (R201): not one of the CMP, nor one that its unit or the mailbox makes non-posted. -/
def State.isPosted (s : State) (a : Access) (m : Admitted) (t : Target) (size : Nat) : Bool :=
  a.kind = .write && m.posted && a.src ≠ .cmp && !a.firm && !s.isMail a m.pa size && (postedLayer a t).isSome

/-- The accesses of a hart show V and, with V = 1, hgatp.VMID, which its own instructions set; STAT.TAG follows (R273; DEDUCED, log entry 12). -/
def State.hartTag (s : State) (a : Access) : State :=
  match a.src with
  | .hart h => (s.setHart h ((s.hart h).seen a.virt a.tag)).wr Reg.APC_HART_TAG [h] a.tag
  | _ => s

/-! ### The access -/

/-- How Orrery treats an access: it asks for its units, or it is a completion, which Orrery charges and never holds (R154). -/
inductive Claim where
  | ask | never
  deriving DecidableEq, Repr

/-- How an access ends for its initiator: done with a status and bytes, held at the initiator with the resources it needs (none while it waits for its port, a buffer or an earlier transaction) and what it still has to do, held by the governor, or waiting in the fabric under a number, where with `froze` it has found no target at an address and a layer that it froze. -/
inductive Bus where
  | done (st : Status) (bytes : List Byte)
  | held (need : List (Nat × Nat)) (q : HeldReq)
  | governed (t : Nat) (q : HeldReq)
  | waits (id : Nat) (froze : Option (Nat × Nat))
  deriving DecidableEq, Repr

/-- The link of the initiator's XD is not up: its requests do not reach the CD (R181, R193). -/
def State.srcDown (s : State) (a : Access) : Bool :=
  match srcXd a.src with | some n => s.rd Reg.MAT_LINK_STATE [n] ≠ 1 | none => false

/-- A write of an XD initiator whose address a posted window decides: the XD's bridge accepts it before it passes the TTU on the CD (R181, R201; 06, Table fab.5). -/
def State.postedEarly (s : State) (a : Access) (addr size : Nat) : Option Nat :=
  if (srcXd a.src).isSome && a.kind = .write && !a.firm then
    match (s.tables a addr size).1 with
    | .ok pa _ => if s.winPosted pa && !s.isMail a pa size then some pa else none
    | _ => none
  else none

/-- A request takes the units that it needs, unless they have been granted already: at once, or not yet where it asks. -/
def State.claimUnits (s : State) (q : HeldReq) (need : List (Nat × Nat)) (g : Claim) : Option State :=
  if q.paid then some s else match g with
  | .ask => s.pay q.acc.tag need
  | .never => some (s.chargeAll q.acc.tag need)

/-- A request that stands before a frozen layer (R198). -/
def State.standBefore (s : State) (q : HeldReq) (t : Target) (l : Nat) : Bus × State :=
  if s.roomAt q.acc t l then
    (.waits s.fab.nextId none, s.openTxn { s.txnOf q t l with frozen := true, req := some q })
  else (.held [] q, s)

/-- The access is carried out at its target: a write that is posted enters its bridge, one with no target is logged or freezes the layer (R197, R198), one whose target is silent stays open (R186), and any other is answered. -/
def State.busAct (s : State) (q : HeldReq) (m : Admitted) (t : Target) : Bus × State :=
  let a := q.acc
  let silent := q.err = .silent || (s.fab.runner.isSome && (match t with | .pcie _ _ => s.freeVal % 2 = 1 | _ => false))
  let s := if s.fab.runner.isSome then (match t with | .pcie _ _ => s.drawn | _ => s) else s
  if s.isPosted a m t q.size then
    let p : Posted := ⟨s.fab.nextId, a, m.pa, q.bytes, (postedLayer a t).getD 0, q.err, m.memtype⟩
    (.done .ok [], ({ s with fab := { s.fab with posted := s.fab.posted ++ [p], nextId := s.fab.nextId + 1 } }).traceAccess a t m.pa true .ok)
  else match missAt t m.pa q.size with
  | some (pa, l) =>
    if s.decodeMode l then
      let s := s.freeze a.tag (a.kind = .write) pa l
      (.waits s.fab.nextId (some (pa, l)), s.openTxn { s.txnOf q t l with frozen := true, rx := none })
    else
      let s := if a.kind = .write then (s.targetWrite a m.memtype t m.pa q.bytes q.err).2 else s
      (.done .decode [], (s.decLog a.tag (a.kind = .write) pa l).traceAccess a t m.pa false .decode)
  | none =>
    if silent then (.waits s.fab.nextId none, s.openTxn { s.txnOf q t t.endLayer with rx := none })
    else if a.kind = .write then
      let (st, s) := s.targetWrite a m.memtype t m.pa q.bytes q.err
      (.done st [], s.traceAccess a t m.pa false st)
    else
      let (st, bs, s) := s.targetRead a m.memtype t m.pa q.size q.err
      (.done st bs, s.traceAccess a t m.pa false st)

/-- The governor's word on a request of a tile to HBM (R27, R28): the tile and its lines. -/
def State.governs (s : State) (a : Access) (t : Target) (pa size : Nat) : Option (Nat × Nat) :=
  match a.src, t with
  | .tile p, .hbm => (s.logicalOf p).map (fun k => (k, govLines pa size))
  | _, _ => none

/-- A request goes on beyond the TTU, which has admitted it: the links and frozen layers on its way, the units of the resources beyond its port (R163, R164), the governor, and the target. -/
def State.busOn (s : State) (q : HeldReq) (m : Admitted) (g : Claim) : Bus × State :=
  let a := q.acc
  let q := { q with adm := some m }
  let t := s.targetOf m.pa q.size
  let posted := s.isPosted a m t q.size
  let need := s.accessNeed a t m.pa q.size
  let s := if posted then s else s.drainSource (srcCode a.src)
  if s.linkDown t && !(posted && (srcXd a.src).isSome) then
    (.done .notReady [], if q.paid then s else s.chargeAll a.tag (linkNeed a q.size))
  else
    let frozen := if posted then none else s.frozenIn (0 :: t.layers)
    if (!posted && s.blockedBy (srcCode a.src) t m.pa q.size) || frozen.any (fun l => !s.roomAt a t l) then (.held [] q, s)
    else match s.claimUnits q need g with
    | none => (.held need q, s)
    | some s =>
      let q := { q with paid := true }
      match frozen with
      | some l => s.standBefore q t l
      | none =>
        match s.governs a t m.pa q.size with
        | none => s.busAct q m t
        | some (k, lines) =>
          match s.govPass k lines with
          | some s => s.busAct q m t
          | none => (.governed k q, s)

/-- A request that the TTU still has to decide: its port charge, the TTU, and what lies beyond. -/
def State.busIn (s : State) (q : HeldReq) (g : Claim) : Bus × State :=
  let a := q.acc
  match s.claimUnits q (portNeed a q.size) g with
  | none => (.held (portNeed a q.size) q, s)
  | some s =>
    match s.checkAccess a q.addr q.size with
    | (.ok pa mt, s) => s.busOn { q with paid := false } ⟨pa, s.winPosted pa, mt⟩ g
    | (.fault _ _ st, t) =>
      let t := t.chargeAll a.tag (linkNeed a q.size)
      match s.postedEarly a q.addr q.size with
      | some pa => (.done .ok [], t.postedError a pa 0 st)
      | none => (.done st [], t)
    | (.stuck none _, s) => s.standBefore { q with paid := true } (.commandPort 0) 0
    | (.stuck (some (pa, l)) st1, s) =>
      let s := s.freeze a.tag false pa l
      (.waits s.fab.nextId (some (pa, l)), s.openTxn { s.txnOf q (.commandPort 0) 0 with frozen := true, req := some q, walk := some st1 })

/-- A transaction through the fabric (R180 to R183): its link and its tracker entry, the layers before the TTU, and what follows. `g` says how Orrery treats it. -/
def State.bus (s : State) (q : HeldReq) (g : Claim) : Bus × State :=
  let a := q.acc
  if !s.boot.mainUp || s.srcDown a then (.done .notReady [], s)
  else match q.adm with
  | some m => s.busOn q m g
  | none =>
    if g = .ask && !q.paid && (s.inflight (srcPort a.src) ≥ 128 || s.tidBusy a) then (.held [] q, s)
    else match s.frozenIn (sourceLayers a) with
    | some l => s.standBefore q (.commandPort 0) l
    | none => ((s.hartTag a).syncPort (srcPort a.src) 1).busIn q g

end Sys2Proof.Machine
end

