-- ==== Sys2Proof/Machine/Strands.lean ====
section
/-! DEFINITION. The strands of the CMP (02, R54 to R56): which context a free strand takes, and when a context gives its strand up. -/

namespace Sys2Proof.Machine

/-- A context may be taken by a strand: READY, and its instance holds CMP-cycle budget or slack (R55). -/
def State.ctxReady (s : State) (n : Nat) : Bool :=
  (s.ctx n).run = .ready && (s.ctx n).wait.isNone && s.mayServe 24 (s.ctxInst n)

/-- The next READY context in round-robin order of context number (R54). The spec does not say how many pointers the four strands have: they share one, and free strands are filled in the order 0 to 3 (DESIGN CHOICE, log entry 47). -/
def State.nextReady (s : State) : Option Nat :=
  ((List.range 64).map (fun k => (s.cmp.rr + 1 + k) % 64)).find? s.ctxReady

/-- A free strand takes the next READY context. -/
def State.fillStrand (s : State) (k : Nat) : State :=
  if s.strandBusy k then s else
  match s.nextReady with
  | none => s
  | some n =>
    let c := s.ctx n
    let s := s.setCtx n { c with run := .running k, prog := c.prog.map (fun p => { p with strand := k }) }
    { s with cmp := { s.cmp with rr := n } }

/-- Every free strand takes a READY context while CMP_STATE is 1 (R54, R56). -/
def State.schedule (s : State) : State :=
  if s.cmp.state = 1 then [0, 1, 2, 3].foldl State.fillStrand s else s

/-- A running context gives up its strand and stays READY. -/
def State.releaseStrand (s : State) (n : Nat) : State :=
  match (s.ctx n).run with
  | .running _ => s.setCtx n { s.ctx n with run := .ready }
  | _ => s

/-- A context waits: it releases its strand (R86). -/
def State.suspend (s : State) (n : Nat) (w : Wait) (c : Bool) (adv : Nat) : State :=
  (s.setCtx n { s.ctx n with run := .waiting, wait := some w, waitC := c, waitAdv := adv }).schedule

/-- A context that waits in the fabric or for its port may issue its access again: what it still has to do, and the status with which it has ended, if it has (R186, R199). -/
def State.resumeCtx (s : State) (n : Nat) (q : Option HeldReq) (st : Option Status) : State :=
  let c := s.ctx n
  if c.wait = some .budget || c.wait = some .frozen then
    (s.setCtx n { c with wait := none, granted := q, answered := st }).schedule
  else s

end Sys2Proof.Machine
end

