-- ==== Sys2Proof/Machine/Fabric.lean ====
section
/-! DEFINITION. The meanings of the fabric's commands (06): requests, freezes, timeouts, posted writes, interrupt messages and links. -/

namespace Sys2Proof.Machine

/-! ### Requests that wait -/

/-- The governor holds a request (R27, R28). -/
def State.governHold (s : State) (q : GovReq) : State := s.setGov { s.inf.gov with held := s.inf.gov.held ++ [q] }

/-- The answer of an access as its initiator sees it: a held one waits as an Orrery request or in the governor, an open one waits in the fabric. -/
def State.busAnswer (s : State) : Bus → State
  | .done st bs => s.answer st (ofLeBytes bs)
  | .held need q => (s.hold { id := 0, tag := q.acc.tag, need := need, req := some q }).answer .queued 0
  | .governed t q => (s.governHold ⟨t, q, none⟩).answer .queued 0
  | .waits _ _ => s.answer .queued 0

/-- A request is made, and answered as its initiator sees it. -/
def State.request (s : State) (q : HeldReq) : State :=
  let (r, t) := s.bus q .ask
  t.busAnswer r

/-- Issue the accesses that every resource has granted. -/
def State.issueGranted (s : State) : State :=
  s.orr.issued.foldl (fun s q => match q.req with | some r => s.request r | none => s) { s with orr := { s.orr with issued := [] } }

/-- Space has become free for requests that wait for it: they ask again, in their order (R182, R183, R190). An engine's command runs again of itself. -/
def State.retryHeld (s : State) : State :=
  let l := s.orr.waiting.filter (fun q => q.need.isEmpty)
  l.foldl (fun s q => match q.ctx with
    | some n => s.resumeCtx n q.req none
    | none => match q.party, q.req with
      | none, some r => s.request r
      | _, _ => s) { s with orr := { s.orr with waiting := s.orr.waiting.filter (fun q => !q.need.isEmpty) } }

/-- The end of an open transaction reaches its initiator: a context, the engine whose command waits for it, or the sender of a request. -/
def State.endTxn (s : State) (t : Txn) (st : Status) : State :=
  match t.ctx, t.party with
  | some n, _ => s.resumeCtx n none (some st)
  | none, some p => { s with fab := { s.fab with answers := s.fab.answers ++ [(p, 2 * t.addr + (if t.write then 1 else 0), st)] } }
  | none, none => s.answer st 0

/-! ### PCIe (R212, R213) -/

/-- The address at which a request of a PCIe port enters the fabric: an endpoint maps BAR0 onto the Command Port and BAR2 at BAR2_BASE, and its host's requests carry tag 41; behind a root port, the device's requests carry the owner's tag. None for a request that its port does not take. -/
def State.pcieAddr (s : State) (a : Access) (addr size : Nat) : Option Nat :=
  match a.pcie, a.src with
  | none, .xd _ => if a.tag = 41 then none else some addr
  | none, _ => some addr
  | some .bar0, .xd n => if s.rd Reg.MAT_PCIE_MODE [n] = 0 && a.tag = 41 && addr + size ≤ 0x1_0000 then some (0x1000_0000 + addr) else none
  | some .bar2, .xd n =>
    if s.rd Reg.MAT_PCIE_MODE [n] = 0 && a.tag = 41 && addr + size ≤ 2 ^ s.rd Reg.MAT_PCIE_BAR2_LOG2 [n] then
      some (s.rdPair Reg.MAT_PCIE_BAR2_LO Reg.MAT_PCIE_BAR2_HI [n] + addr)
    else none
  | some _, .xd n =>
    if s.rd Reg.MAT_PCIE_MODE [n] = 1 && a.tag = s.rd Reg.ENC_OWN_OWNER [ownIndex 3 n 0] then some addr else none
  | some _, _ => none

/-! ### Interrupt messages (R205, R206, R285) -/

/-- The die code of HANDOVER for the die `d` of APC.SRC: 8 for the CD (R259; 09, Table apc.7). -/
def srcDie (d : Nat) : Nat := if d = 4 then 8 else d

/-- The earlier writes of a die's bridge that are not yet visible: posted ones, and those that wait in the fabric (R205). -/
def State.unseen (s : State) (d : Nat) : List Nat :=
  let xd := if d = 4 then none else some d
  (s.fab.posted.filter (fun p => srcXd p.acc.src = xd)).map (·.id)
    ++ (s.fab.open_.filter (fun t => t.write && !t.expired && (match xd with | some n => t.source = 300 + n | none => t.source < 300))).map (·.id)

/-- A message leaves the bridge of die `d` and crosses its link, against a credit of Q1 (R190, R206). -/
def State.launch (s : State) (d : Nat) (m : Msg) : State :=
  let link := if d = 4 then none else some d
  let s := s.traceMsg m (match link with | some n => 11 + n | none => 10) (match link with | some n => [1 + n, 0] | none => [0])
  if m.vec = 0 then s else { s with msgs := s.msgs ++ [{ m with link := link }] }

/-- The bridge of die `d` may send a message. -/
def State.mayLaunch (s : State) (d : Nat) : Bool := d = 4 || (s.credits d 1 1 > 0 && s.rd Reg.MAT_LINK_STATE [d] = 1)

/-- A message of a block of die `d`: its bridge sends it at once where nothing holds it back, and else holds it behind the earlier writes and messages of the die (R205, R206). -/
def State.sendBehind (s : State) (d inst vec : Nat) (src : Option Nat := none) : State :=
  let behind := s.unseen d
  if vec = 0 then s
  else if src.isNone && behind.isEmpty && !s.fab.held.any (fun m => m.source = d) && s.mayLaunch d then s.launch d { inst := inst, vec := vec }
  else { s with fab := { s.fab with held := s.fab.held ++ [⟨d, src, behind, { inst := inst, vec := vec }⟩] } }

/-- The message of an interrupt source, to the owner of its block (R205, R285). -/
def State.sourceSend (s : State) (d x : Nat) : State :=
  s.sendBehind d (s.rd Reg.ENC_OWN_OWNER [ownIndex 7 (srcDie d) x]) (s.rd Reg.APC_SRC_VEC [d, x]) (some (256 * d + x))

/-! ### Meanings -/

/-- A device behind a root port writes an MSI or MSI-X message, whose data holds the identity: it goes to the interrupt file of the port's owner, behind the device's earlier writes (R205, R213). -/
def State.deviceMsi (s : State) (a : Access) (w : List Byte) : State :=
  match a.src with
  | .xd n =>
    if a.kind = .write && (s.pcieAddr a 0 4).isSome then (s.sendBehind n a.tag (ofLeBytes w % 2 ^ 11)).answer .ok 0 else s
  | _ => s

/-- The transactions of a request of an instance, which its tables translate page by page; one of physical addresses is not split (R143, R636). -/
def requestParts (a : Access) (addr size : Nat) : List (Nat × Nat) :=
  match a.src with
  | .hart _ => [(addr, size)]
  | _ =>
    let n := 4096 - addr % 4096
    if a.tag < 32 && n < size then [(addr, n), (addr + n, size - n)] else [(addr, size)]

/-- The transactions of a request enter the fabric in their order; the answer holds the data of all of them, or the first status that is not ST_OK. -/
def State.requests (s : State) (a : Access) (addr : Nat) (w : List Byte) (e : RowError) : List (Nat × Nat) → State
  | [] => s
  | [p] => s.request { acc := a, addr := p.1, size := p.2, bytes := w.drop (p.1 - addr), err := e }
  | p :: rest =>
    let s := s.request { acc := a, addr := p.1, size := p.2, bytes := (w.drop (p.1 - addr)).take p.2, err := e }
    let first := s.resp
    let s := s.requests a addr w e rest
    if first.status = .ok then s.answer s.resp.status (first.data + 2 ^ (8 * p.2) * s.resp.data) else s.answer first.status 0

/-- FABRIC_REQUEST: a transaction of up to 64 bytes enters the fabric (R180 to R187, R189, R194 to R204, R212, R213); `e` says what it meets at its target. No port applies another tag than that of its initiator (R129), and a hart whose VMID is outside VMASK makes no access (R274; its fault is HART_ACCESS_FAULT). -/
def execFabricRequest (a : Access) (addr size : Nat) (w : List Byte) (e : RowError) (s : State) : Host.Outcome State Fault Refusal :=
  if a.gate || a.tag ≥ 64 || size = 0 || size > 64 || (a.kind = .write && w.length ≠ size) then .refused .illFormed
  else if !s.tagFits a then go s
  else if a.pcie = some .msi then go (s.deviceMsi a w)
  else match s.pcieAddr a addr size with
  | none => go s
  | some x => go (s.requests a x w e (requestParts a x size))

/-- A transaction that a freeze holds goes on: the access that caused the freeze completes with ST_DECODE (one whose table walk caused it as a fault of cause 8, R137), and any other is carried out from where it stood (R199). -/
def State.resumeOne (s : State) (t : Txn) : State :=
  let s := ({ s with fab := { s.fab with open_ := s.fab.open_.filter (fun x => x.id ≠ t.id) } }).syncPort t.port 0
  match t.req with
  | none => s.endTxn t .decode
  | some q =>
    match t.posted, t.walk with
    | some l, _ => s.postedError q.acc t.addr l .decode
    | none, some st1 => (s.ttuFault q.acc q.addr 8 st1).endTxn t .decode
    | none, none =>
      match t.ctx, t.party with
      | some n, _ => s.resumeCtx n (some q) none
      | none, some _ => s
      | none, none => s.request q

/-- FREEZE_RELEASE: debug access releases a freeze (R199). -/
def execFreezeRelease (s : State) : Host.Outcome State Fault Refusal :=
  if s.fab.frozen.isEmpty then go s
  else
    let s := { s with fab := { s.fab with frozen := [] } }
    go ((s.fab.open_.filter (fun t => t.frozen)).foldl State.resumeOne (s.wr Reg.MAT_FREEZE_FROZEN [] 0)).retryHeld

/-- FREEZE_LIMIT_EXPIRY: a freeze reaches FREEZE.LIMIT, and the island's watchdog orders a warm restart of the main domain (R199). -/
def execFreezeLimitExpiry (s : State) : Host.Outcome State Fault Refusal :=
  if !s.fab.frozen.isEmpty && s.boot.mainUp && !s.boot.warm && s.saf.restart.isNone then go { s with saf := { s.saf with restart := some 17 } }
  else go s

/-- FABRIC_TIMEOUT: a transaction has had no answer for 20 µs, in which no layer that it waits on was frozen (R186): it completes with ST_TIMEOUT. -/
def execFabricTimeout (id : Nat) (s : State) : Host.Outcome State Fault Refusal :=
  match s.fab.open_.find? (fun t => t.id = id && !t.frozen && !t.expired) with
  | none => go s
  | some t =>
    if t.layers.any s.fab.frozen.contains then go s else
    let l := s.fab.open_.map (fun x => if x.id = id then { x with expired := true } else x)
    go (((({ s with fab := { s.fab with open_ := l } }).syncPort t.port 0).endTxn t .timeout).retryHeld)

/-- LATE_RESPONSE: a response to an expired transaction is discarded and counted in LATE (R186). -/
def execLateResponse (id : Nat) (s : State) : Host.Outcome State Fault Refusal :=
  match s.fab.open_.find? (fun t => t.id = id && t.expired) with
  | none => go s
  | some t =>
    let l := s.fab.open_.filter (fun x => x.id ≠ id)
    go (({ s with fab := { s.fab with open_ := l } }).incWrap Reg.MAT_TRK_LATE [t.port] 1)

/-- POSTED_WRITE_ERROR: the oldest posted write fails on the far side with a status (R202). -/
def execPostedWriteError (st : Status) (s : State) : Host.Outcome State Fault Refusal :=
  match s.fab.posted with
  | [] => go s
  | p :: rest => go (({ s with fab := { s.fab with posted := rest } }).postedError p.acc p.addr p.layer st)

/-- INTERRUPT_MESSAGE_RELEASE: the oldest message that a bridge holds for a die goes on once every earlier write of that bridge is visible, and its link has a credit of Q1 (R190, R205, R206). -/
def execInterruptMessageRelease (source : Nat) (s : State) : Host.Outcome State Fault Refusal :=
  match s.fab.held.find? (fun m => m.source = source) with
  | none => go s
  | some m =>
    if s.fab.posted.any (fun p => m.behind.contains p.id) || s.fab.open_.any (fun t => m.behind.contains t.id && !t.expired) || !s.mayLaunch source then go s
    else go (({ s with fab := { s.fab with held := s.fab.held.erase m } }).launch source m.msg)

/-- SOURCE_INTERRUPT: source `x` of die `d` rises or, with `on` false, falls (R285). An edge source sends on each rise; a level source sends, and then not again until its owner has committed ACK. -/
def execSourceInterrupt (d x : Nat) (on : Bool) (s : State) : Host.Outcome State Fault Refusal :=
  let k := 256 * d + x
  let rest := s.apc.asserted.filter (· ≠ k)
  if !on then go { s with apc := { s.apc with asserted := rest } }
  else
    let rises := !s.apc.asserted.contains k
    let level := s.flag Reg.APC_SRC_LEVEL [d, x]
    let sent := s.apc.sentLevel.contains k
    let s := { s with apc := { s.apc with asserted := rest ++ [k] } }
    if level then
      if sent || s.rd Reg.APC_SRC_VEC [d, x] = 0 then go s
      else go (({ s with apc := { s.apc with sentLevel := s.apc.sentLevel ++ [k] } }).sourceSend d x)
    else if rises then go (s.sourceSend d x)
    else go s

/-- LINK_DOWN: the adapter of port `n` has exhausted its retries, `retries` of them, or the link's training has failed (R193): posted writes in its bridge are lost, event 16 is raised, and retraining starts. -/
def execLinkDown (n retries : Nat) (s : State) : Host.Outcome State Fault Refusal :=
  if n ≥ s.fuses.variant.xds || !s.boot.mainUp || s.rd Reg.MAT_LINK_STATE [n] ≥ 2 then go s else
  let s := ((s.wr Reg.MAT_LINK_STATE [n] 2).incSat Reg.MAT_LINK_DOWN [n] 1).incWrap Reg.MAT_LINK_RETRY [n] retries
  let lost := s.fab.posted.filter (fun p => p.layer = 1 + n || p.acc.src = .xd n)
  let keep := s.fab.posted.filter (fun p => !(p.layer = 1 + n || p.acc.src = .xd n))
  let s := { s with fab := { s.fab with posted := keep } }
  go ((lost.foldl (fun s p => s.postedError p.acc p.addr p.layer .timeout) s).raise 16)

/-- LINK_RETRAIN_DONE: the link of port `n` is up again (R193). -/
def execLinkRetrainDone (n : Nat) (s : State) : Host.Outcome State Fault Refusal :=
  if s.rd Reg.MAT_LINK_STATE [n] = 2 then go (s.wr Reg.MAT_LINK_STATE [n] 1) else go s

/-- LINK_RETRAIN_EXPIRY: 1 ms has passed without success, and the port stays down (R193). -/
def execLinkRetrainExpiry (n : Nat) (s : State) : Host.Outcome State Fault Refusal :=
  if s.rd Reg.MAT_LINK_STATE [n] = 2 then go (s.wr Reg.MAT_LINK_STATE [n] 3) else go s

end Sys2Proof.Machine
end

