-- ==== Sys2Proof/Machine/Attempt.lean ====
section
/-! DEFINITION. The commands of an engine as attempts (log entry 40): the accesses to memory that such a command makes meet Orrery, the governor, freezes and silent targets like those of any initiator, and a command that one of them stops is carried out when it comes again. -/

namespace Sys2Proof.Machine

/-! ### Engines -/

/-- Numbers of the engines whose commands wait on their own: tiles, shader clusters, CMP contexts and their waiting POLLs, display pipes, single agents, the Gateway Engine and the sensor streams of an XD, harts, and engine jobs. -/
def partyTile (t : Nat) : Nat := t
def partyCluster (c : Nat) : Nat := 80 + c
def partyCtx (n : Nat) : Nat := 100 + n
def partyPipe (d : Nat) : Nat := 200 + d
def partySextant : Nat := 210
def partyMonitor : Nat := 211
def partyAlmanac : Nat := 212
def partyDusk : Nat := 213
def partyNet (n : Nat) : Nat := 220 + n
def partyHart (h : Nat) : Nat := 240 + h
def partyStream (n : Nat) : Nat := 300 + n
def partyPoll (n : Nat) : Nat := 500 + n
def partyJob (u : Nat) : Nat := 1000 + u

/-- An access of the engine waits: for Orrery, for the governor, or for its transaction. -/
def State.partyWaits (s : State) (p : Nat) : Bool :=
  s.orr.waiting.any (fun q => q.party = some p) || s.inf.gov.held.any (fun q => q.party = some p)
    || s.fab.open_.any (fun t => t.party = some p && !t.expired)

/-! ### The accesses of an engine (R148, R189) -/

/-- The run of an engine's command has stopped at an access. -/
def State.stallAt (s : State) (x : Stall) : State := { s with fab := { s.fab with stall := some x } }

/-- One transaction of the engine whose command runs. After the access that stops the run it makes none; an access that has waited for its end, and got it, is not made again. Outside a run Orrery holds nothing back. -/
def State.engineBus (s : State) (a : Access) (addr size : Nat) (w : List Byte) (g : Claim) (e : RowError := .none) : Status × List Byte × State :=
  let q : HeldReq := { acc := a, addr := addr, size := size, bytes := w, err := e }
  match s.fab.runner with
  | none => match s.bus q .never with
    | (.done st b, t) => (st, b, t)
    | (_, t) => (.decode, [], t)
  | some p =>
    if s.fab.stall.isSome then (.notReady, [], s)
    else
      let key := 2 * addr + (if a.kind = .write then 1 else 0)
      match s.fab.answers.find? (fun e => e.1 = p && e.2.1 = key) with
      | some e => (e.2.2, [], { s with fab := { s.fab with answers := s.fab.answers.erase e } })
      | none => match s.bus q g with
        | (.done st b, t) => (st, b, t)
        | (.held need q, t) => (.notReady, [], t.stallAt (.need q.acc.tag (need.filter (fun e => !t.hasPaid e))))
        | (.governed k q, t) => (.notReady, [], t.stallAt (.governor k q))
        | (.waits id froze, t) => match t.fab.open_.find? (fun x => x.id = id) with
          | some x => (.notReady, [], t.stallAt (.open_ x (froze.map (fun f => (a, f.1, f.2)))))
          | none => (.notReady, [], t)

/-- The engine whose command runs asks for units that no access of memory carries (R163, R167): it stops where a resource does not serve them yet. -/
def State.enginePay (s : State) (tag : Nat) (need : List (Nat × Nat)) : State :=
  if s.fab.runner.isNone then s.chargeAll tag need
  else if s.fab.stall.isSome then s
  else match s.pay tag need with
    | some t => t
    | none => s.stallAt (.need tag (need.filter (fun e => !s.hasPaid e)))

/-! ### Attempts -/

/-- The state `s` with what Orrery has charged in `t`. -/
def State.withCharges (s t : State) : State :=
  { s with orr := { s.orr with allow := t.orr.allow, used := t.orr.used, usedUs := t.orr.usedUs, ptr := t.orr.ptr, slackNow := t.orr.slackNow }
           words := s.words.filter (fun e => e.1 / 2 ^ 17 < 0x03) ++ t.words.filter (fun e => e.1 / 2 ^ 17 = 0x03)
             ++ s.words.filter (fun e => 0x03 < e.1 / 2 ^ 17) }

/-- The command that has run to its end leaves nothing behind that was granted to it. -/
def State.ended (t : State) (p : Nat) : State :=
  { t with orr := { t.orr with prepaid := t.orr.prepaid.filter (fun e => e.1 / 64 ≠ p) }
           fab := { t.fab with runner := none, stall := none, spent := [], answers := t.fab.answers.filter (fun e => e.1 ≠ p) } }

/-- A stopped run leaves the state `s` as it was, but for what its accesses were granted, which it has when it comes again, the translations that they left in the TTU's cache, and the access that waits. -/
def State.stalled (s t : State) (p : Nat) (u : Option Nat) (x : Stall) : State :=
  let s := s.withCharges t
  let s := { s with
    ttu := { s.ttu with tlb := t.ttu.tlb }
    orr := { s.orr with prepaid := addUnits t.orr.prepaid p t.fab.spent }
    inf := { s.inf with gov := t.inf.gov } }
  match x with
  | .need tag l => s.hold { id := 0, tag := tag, need := l, job := u, party := some p }
  | .governor k q => s.governHold ⟨k, q, some p⟩
  | .open_ y froze =>
    let s := match froze with
      | some (a, pa, l) => s.freeze a.tag (a.kind = Kind.write) pa l
      | none => s
    s.openTxn { y with party := some p }

/-- The command of engine `p`, for job `u` if it carries one out: while an access of it waits it has no effect; one whose access is stopped comes again. -/
def State.attempt (s : State) (p : Nat) (u : Option Nat) (f : State → Host.Outcome State Fault Refusal) : Host.Outcome State Fault Refusal :=
  if s.partyWaits p then go s
  else match f { s with fab := { s.fab with runner := some p, stall := none, spent := [] } } with
  | .next t => match t.fab.stall with
    | none => go (t.ended p)
    | some x => go (s.stalled t p u x)
  | r => r

end Sys2Proof.Machine
end

