-- ==== Sys2Proof/Machine/Cmp.lean ====
section
/-! DEFINITION. The Command Processor (02, R43 to R73; 03, R81, R87, R113): strands and contexts, program chains, completion records, and the meanings of the chain commands. -/

namespace Sys2Proof.Machine

/-! ### Faults (R43, R84) -/

/-- The strand that runs a context, or ran it last. -/
def Ctx.strandNo (c : Ctx) : Nat :=
  match c.run with
  | .running k => k
  | _ => match c.prog with | some p => p.strand | none => 0

/-- Capture a CMP fault in CP_FAULT_CODE and CP_FAULT_ADDR and log it in the Almanac (R43; 02, Table cmd.5). -/
def State.cmpFault (s : State) (n : Nat) (st : Status) (opcode addr : Nat) : State :=
  let strand := (s.ctx n).strandNo
  let s := s.record 0x11 (s.ctxInst n) (leBytes 1 (statusCode st) ++ leBytes 1 opcode ++ leBytes 1 n ++ leBytes 1 strand ++ leBytes 6 addr)
  let old := s.cmp.faultCode
  if getBits old 31 1 = 1 then { s with cmp := { s.cmp with faultCode := setBits old 30 1 1 } }
  else
    let code := BitVec.ofNat 32 (statusCode st + opcode * 2 ^ 8 + n * 2 ^ 16 + strand * 2 ^ 22 + getBits old 30 1 * 2 ^ 30 + 2 ^ 31)
    { s with cmp := { s.cmp with faultCode := code, faultAddr := addr % 2 ^ 48 } }

/-! ### Where a program goes on (R45, R70) -/

/-- What run-ahead has read is cancelled where `keep` no longer holds, and counted (R70). -/
def Ctx.cancelAhead (c : Ctx) (keep : Nat → Bool) : Ctx :=
  let loads := c.prefetch.filter (fun q => keep q.pos)
  let words := c.ahead.filter (fun e => keep e.1)
  { c with prefetch := loads, ahead := words,
           specCancel := (c.specCancel + (c.prefetch.length - loads.length) + (c.ahead.length - words.length)) % 2 ^ 15 }

/-- The program of a context goes on at word `pc`; past its last word it ends normally (R45). The instruction that has executed is no longer ahead, and what run-ahead read for words left behind is cancelled (R70). -/
def State.goTo (s : State) (n pc : Nat) : State :=
  let c := s.ctx n
  let c := { c with ahead := c.ahead.filter (fun e => e.1 ≠ c.pc), prefetch := c.prefetch.filter (fun q => q.pos ≠ c.pc) }
  let c := { c.cancelAhead (fun pos => pc ≤ pos && (pos ≤ pc + 32 || pos = 2 ^ 16)) with pc := pc, granted := none }
  s.setCtx n { c with prog := c.prog.map (fun p => if pc < p.len then p else { p with ending := some (p.ending.getD .ok) }) }

/-! ### Sequences (R59, R61, R66) -/

/-- The open sequence of a context is dropped and its space locks are released (R66, R87, R108). -/
def State.discardSeq (s : State) (n : Nat) : State :=
  let s := s.setCtx n { s.ctx n with seqOpen := false, seqFailed := false, staged := [] }
  { s with cmp := { s.cmp with locks := s.cmp.locks.filter (fun e => e.2 ≠ n) } }

/-! ### The accesses of a context (R44) -/

/-- An access on behalf of a context: by the CMP, with the tag and the tables of the bound instance. -/
def State.ctxAccess (s : State) (n : Nat) (k : Kind) : Access :=
  { tag := s.ctxInst n, pid := 0, src := .cmp, kind := k }

/-- How an access of a context ended: done with a status and a value, or it waits for budget or behind a freeze. -/
inductive CtxBus where
  | done (st : Status) (bytes : List Byte)
  | waits
  deriving DecidableEq, Repr

/-- A context waits for budget or in the fabric: its strand moves on (R54), and the instruction is issued again afterwards. -/
def State.park (s : State) (n : Nat) (w : Wait) : State :=
  ((s.setCtx n { s.ctx n with wait := some w, granted := none }).releaseStrand n).schedule

/-- One access of a context. While Orrery holds it, or it waits in the fabric, the context waits, and the instruction is issued again afterwards: the access goes on from where it stood, or has ended with the status of a freeze or a timeout (R186, R199). -/
def State.ctxBus (s : State) (n : Nat) (k : Kind) (addr size : Nat) (w : List Byte) (e : RowError) : CtxBus × State :=
  let c := s.ctx n
  let a := s.ctxAccess n k
  match c.answered with
  | some st => (.done st [], s.setCtx n { c with answered := none })
  | none =>
    let q : HeldReq := match c.granted with
      | some q => q
      | none => { acc := a, addr := addr, size := size, bytes := w, err := e }
    match s.bus q .ask with
    | (.done st bs, t) => (.done st bs, t.setCtx n { t.ctx n with granted := none })
    | (.held need q, t) => (.waits, (t.park n .budget).hold { id := 0, tag := a.tag, need := need, ctx := some n, req := some q })
    | (.governed _ _, t) => (.waits, t)
    | (.waits id _, t) =>
      let l : List Txn := t.fab.open_.map (fun x => if x.id = id then { x with ctx := some n } else x)
      (.waits, ({ t with fab := { t.fab with open_ := l } }).park n .frozen)

/-! ### Completion records (R72, R73, Table cmd.10) -/

/-- The status of a job that ends with `st`: a normal end reports its served class, or a Replace Request (R72). -/
def State.finalStatus (s : State) (st : Status) (cls : Nat) : Status :=
  if st = .ok then (if s.replaceActive then .replace else if cls = 1 then .slack else .ok) else st

/-- The 32 bytes of a completion record. -/
def recordBytes (id : Nat) (st : Status) (cls : Nat) (defer : Bool) (tag ctx strand start fin units res : Nat) : List Byte :=
  leBytes 4 id ++ leBytes 1 (statusCode st) ++ leBytes 1 (cls % 4 + (if defer then 4 else 0)) ++ leBytes 1 (tag % 64)
    ++ leBytes 1 (ctx % 64 + strand % 4 * 64) ++ leBytes 8 start ++ leBytes 8 fin ++ leBytes 4 units ++ leBytes 1 res ++ [0, 0, 0]

/-- The CMP writes a record as one write, charged to the instance and never held (R44, R73, R154). A freeze that stops it stops the command that ends the job (log entry 40). -/
def State.writeRecord (s : State) (inst addr : Nat) (bytes : List Byte) : Status × State :=
  let (st, _, t) := s.engineBus { tag := inst, pid := 0, src := .cmp, kind := .write } addr 32 bytes .never
  (st, t)

/-- A job enters the history of its context, and a WAIT for it retires with its status in KD (R113). -/
def State.pushHistory (s : State) (n id : Nat) (st : Status) : State :=
  let c := s.ctx n
  let c := { c with history := ((id, st) :: c.history).take 64 }
  match c.wait with
  | some (.job j kd _) =>
    if j = id then
      (s.setCtx n { c with
        regs := if kd = 0 then c.regs else tput c.regs kd (BitVec.ofNat 64 (statusCode st))
        ls := .ok, wait := none, run := .ready }).goTo n (c.pc + c.waitAdv)
    else s.setCtx n c
  | _ => s.setCtx n c

/-- The served class that a record reports: 2 while no unit was served (Table cmd.10). -/
def reportClass (units cls : Nat) : Nat := if units = 0 then 2 else cls

/-- START of a record; where no unit was served the spec states none, and the value is free. -/
def State.startOf (s : State) (start : Option Nat) : Nat × State :=
  match start with
  | some t => (t, s)
  | none => (s.freeVal % 2 ^ 64, s.drawn)

/-! ### The end of a program (R45, R72, R87) -/

/-- The chain of a context ends, and the context returns to idle. -/
def State.endChain (s : State) (n : Nat) : State :=
  s.setCtx n { (s.ctx n).cancelAhead (fun _ => false) with prog := none, nextDesc := 0, wait := none, run := .idle, granted := none, answered := none }

/-- The record, the history entry and the completion message of a program that has ended. A message announces a record that has been written (R73). -/
def State.recordProgram (s : State) (n : Nat) (p : Prog) (st : Status) : State :=
  let cls := reportClass p.units p.cls
  let (start, s) := s.startOf p.start
  let (told, s) : Bool × State :=
    if p.compl % 32 ≠ 0 then (false, s)
    else
      let (wst, s) := s.writeRecord (s.ctxInst n) p.compl
        (recordBytes p.jobId st cls p.defer (s.ctxInst n) n p.strand start s.epoch p.units 24)
      (wst = .ok, if wst = .ok then s else s.cmpFault n wst 0 p.compl)
  let s := s.pushHistory n p.jobId st
  if p.irq && told then (s.drawn).send (s.ctxInst n) (1 + s.freeVal % 2047) else s

/-- A program whose status is decided ends: its sequence is discarded (R87), what run-ahead read for it is cancelled (R70), its record is written, and NEXT is followed unless STOP_ON_FAIL applies or the context is stopped. After a fault its strand takes the next READY context (R56). STOP_ON_FAIL acts on a status whose requested effect is "not done", and so not on a program that ends with "no data", ST_POISON; and the spec gives no answer to a NEXT that is not a multiple of 32: it is a CMP fault with ST_DENIED that ends the chain (DESIGN CHOICE, log entry 47). -/
def State.finishProgram (s : State) (n : Nat) (follow : Bool) : State :=
  match (s.ctx n).prog with
  | none => s
  | some p =>
    let s := s.discardSeq n
    let st := s.finalStatus (p.ending.getD .ok) (reportClass p.units p.cls)
    let on := follow && p.next ≠ 0 && !(p.stop && statusNotDone st)
    let c := (s.ctx n).cancelAhead (fun pos => on && p.len ≤ pos)
    let s := s.setCtx n { c with ahead := (c.ahead.map (fun e => (e.1 - p.len, e.2))).filter (fun e => e.1 < 2 ^ 16 - p.len),
                                 wait := none, granted := none, answered := none,
                                 run := if c.run = .waiting then .ready else c.run }
    let s := { s with orr := { s.orr with waiting := s.orr.waiting.filter (fun q => q.ctx ≠ some n && q.party ≠ some (partyPoll n)) } }
    let s := s.recordProgram n p st
    let s :=
      if !on then s.endChain n
      else if p.next % 32 ≠ 0 then (s.cmpFault n .denied 0 p.desc).endChain n
      else
        let s := s.setCtx n { s.ctx n with prog := none, nextDesc := p.next }
        if p.faulted then s.releaseStrand n else s
    s.schedule

/-- The program of a context ends with a status; its record follows. A context that waits leaves its wait. -/
def State.endWith (s : State) (n : Nat) (st : Status) : State :=
  let c := s.ctx n
  s.setCtx n { c with prog := c.prog.map (fun p => { p with ending := some (p.ending.getD st) }), granted := none }

/-- The program of a context ends by a CMP fault, or by an instruction's failing status (R56, R84, R85). -/
def State.failWith (s : State) (n : Nat) (st : Status) : State :=
  let s := s.endWith n st
  let c := s.ctx n
  s.setCtx n { c with prog := c.prog.map (fun p => { p with faulted := true }) }

/-! ### Semaphores and resets (R121, R126) -/

/-- Force-release of one semaphore (R121): BROKEN, an Almanac entry, and the hand-over to the first waiter. Table alm.1 gives a record the tag of the party that caused it; where RSTCTX, a disable or a warm restart releases a semaphore the spec names no such party, and the record carries the tag of the semaphore's owner (DESIGN CHOICE, log entry 47). -/
def State.forceRelease (s : State) (k : Nat) : State :=
  let former := s.rd Reg.CMD_SEM_HOLDER_CTX [k]
  let s := (s.wr Reg.CMD_SEM_HELD [k] 0).wr Reg.CMD_SEM_BROKEN [k] 1
  let s := s.record 0x13 (s.rd Reg.CMD_SEM_OWNER [k]) (leBytes 1 k ++ leBytes 1 former)
  { s with cmp := { s.cmp with handoffs := if s.cmp.semQ.any (fun e => e.1 = k) then s.cmp.handoffs ++ [k] else s.cmp.handoffs } }

/-- The semaphores that a context holds. -/
def State.heldBy (s : State) (n : Nat) : List Nat :=
  (List.range 256).filter (fun k => s.flag Reg.CMD_SEM_HELD [k] && s.rd Reg.CMD_SEM_HOLDER_CTX [k] = n)

/-- Force-release of every semaphore that a context holds. -/
def State.forceReleaseAll (s : State) (n : Nat) : State := (s.heldBy n).foldl State.forceRelease s

/-- A context leaves every wait queue. -/
def State.leaveQueues (s : State) (n : Nat) : State :=
  let semQ := s.cmp.semQ.filter (fun e => e.2 ≠ n)
  { s with cmp := { s.cmp with
      lockQ := s.cmp.lockQ.filter (fun e => e.2 ≠ n)
      semQ := semQ
      handoffs := s.cmp.handoffs.filter (fun k => semQ.any (fun e => e.1 = k)) } }

/-- The accesses that a context has asked for and not made are dropped: Orrery's requests, and reads of the fabric that no instruction waits for. -/
def State.dropAccesses (s : State) (n : Nat) : State :=
  { s with orr := { s.orr with waiting := s.orr.waiting.filter (fun q => q.ctx ≠ some n && q.party ≠ some (partyPoll n)) }
           fab := { s.fab with open_ := s.fab.open_.filter (fun t => !(t.ctx = some n && !t.write)) } }

/-- An access of the running program of a context waits in the fabric: the context stands within an instruction. -/
def Ctx.within (c : Ctx) : Bool := c.prog.isSome && c.wait = some .frozen

/-- The program of a context is aborted at its instruction boundary, and its chain ends. Within an instruction whose access waits in the fabric that boundary comes later, and PROGRAM_END follows it. -/
def State.stopContext (s : State) (n : Nat) : State :=
  let s := s.leaveQueues n
  if (s.ctx n).within then
    let s := s.endWith n .aborted
    let c := s.ctx n
    s.setCtx n { c with prog := c.prog.map (fun p => { p with next := 0 }) }
  else
    let s := s.dropAccesses n
    if (s.ctx n).prog.isSome then (s.endWith n .aborted).finishProgram n false
    else ((s.discardSeq n).endChain n).schedule

/-- The reset of a context (R126): program and sequence end, its semaphores are force-released, its doorbell and its history are cleared. -/
def State.resetContext (s : State) (n : Nat) : State :=
  let s := (s.stopContext n).forceReleaseAll n
  s.setCtx n { s.ctx n with dbPending := false, history := [] }

/-- A context that a COMMIT disables (02, Edges; R121): its program ends with ST_ABORTED and its semaphores are force-released. -/
def State.disableContext (s : State) (n : Nat) : State := (s.stopContext n).forceReleaseAll n

/-! ### Engine jobs (R72 to R76, R109 to R113) -/

/-- An engine job by its number. -/
def State.jobOf (s : State) (u : Nat) : Option Job := s.cmp.jobs.find? (fun j => j.uid = u)

/-- The state with an engine job replaced. -/
def State.setJob (s : State) (j : Job) : State :=
  { s with cmp := { s.cmp with jobs := s.cmp.jobs.map (fun x => if x.uid = j.uid then j else x) } }

/-- A served charge of an engine job: units, class and start time of its record (Table cmd.10). -/
def State.chargeJob (s : State) (u r units : Nat) : State :=
  match s.jobOf u with
  | none => s
  | some j =>
    let cls := s.chargeClass r j.inst units
    let s := s.charge r j.inst units
    if units = 0 then s
    else s.setJob { j with units := j.units + units, cls := cls, start := some (j.start.getD s.epoch), phase := .running }

/-- The job has reached its completion point with a status. -/
def State.completeJob (s : State) (u : Nat) (st : Status) : State :=
  match s.jobOf u with
  | none => s
  | some j =>
    match j.phase with
    | .complete _ => s
    | _ => s.setJob { j with phase := .complete (if j.abort then .aborted else st) }

/-- A slot frees: every DISPATCH that waits for one is issued again, and may wait again (R111). -/
def State.slotFree (s : State) : State :=
  let wake (c : Ctx) : Ctx := match c.wait with
    | some (.slot _ _ _ _ _) => { c with wait := none, run := .ready }
    | _ => c
  { s with cmp := { s.cmp with ctxs := s.cmp.ctxs.map (fun e => (e.1, wake e.2)) } }

/-- The record of an engine job (R72, R73), its history entry, and its slot. A job whose record address is misaligned gets none. -/
def State.recordJob (s : State) (u : Nat) (st : Status) : State :=
  match s.jobOf u with
  | none => s
  | some j =>
    let cls := reportClass j.units j.cls
    let st := s.finalStatus st cls
    let (start, s) := s.startOf j.start
    let (_, s) := s.writeRecord j.inst j.record
      (recordBytes j.id st cls j.defer j.inst j.ctx (s.ctx j.ctx).strandNo start s.epoch j.units j.unitRes)
    let s := { s with cmp := { s.cmp with jobs := s.cmp.jobs.filter (fun x => x.uid ≠ u) }
                      orr := { s.orr with waiting := s.orr.waiting.filter (fun q => q.job ≠ some u) } }
    ((s.pushHistory j.ctx j.id st).slotFree).schedule

/-- An engine job ends: completion point and record in one. -/
def State.endJob (s : State) (u : Nat) (st : Status) : State :=
  let s := s.completeJob u st
  match s.jobOf u with
  | some j => match j.phase with | .complete st => s.recordJob u st | _ => s
  | none => s

/-! ### Meanings -/

/-- A context may sample its chain head: a doorbell is pending, it holds no chain, it is enabled, and the CMP runs (R48, R51). -/
def State.maySample (s : State) (n : Nat) : Bool :=
  let c := s.ctx n
  c.dbPending && c.run = .idle && c.prog.isNone && c.nextDesc = 0 && s.cmp.state = 1 && s.flag Reg.CMD_CTX_ENABLE [n]

/-- The doorbell line of a tenant context, taken as a physical address (DEDUCED, log entry 10). -/
def State.dbLine (s : State) (n : Nat) : Nat := s.rdPair Reg.CMD_CTX_DBLINE_LO Reg.CMD_CTX_DBLINE_HI [n]

/-- A context starts on the chain head that it has sampled; 0 is an empty chain. -/
def State.startChain (s : State) (n head : Nat) : State :=
  let c := { s.ctx n with dbPending := false }
  (if head = 0 then s.setCtx n c else s.setCtx n { c with nextDesc := head, run := .ready }).schedule

/-- The units of an access of the CMP to a doorbell line: its port and the line's stack (R44). -/
def State.dbNeed (s : State) (line : Nat) : List (Nat × Nat) := [(15, 1), (hbmStack s.fuses line, 1)]

/-- The sample of a tenant context's doorbell line, charged to its instance (R44, R51): the head, and the write that clears RING, ordered after the sample. The spec gives no answer to a line that does not lie in HBM or cannot be read: the doorbell is taken, RING stays, and no chain starts (DESIGN CHOICE, log entry 47). -/
def State.sampleLine (s : State) (n : Nat) : State :=
  let line := s.dbLine n
  let inst := s.ctxInst n
  let gone := fun (s : State) => s.setCtx n { s.ctx n with dbPending := false }
  if !isHbm s.fuses line then gone s else
  match s.pay inst (s.dbNeed line) with
  | none => s.stallAt (.need inst ((s.dbNeed line).filter (fun e => !s.hasPaid e)))
  | some s =>
    let (st, s) := s.readThrough 0 32 line .none false
    if st ≠ .ok then gone (s.cmpFault n st 0 line)
    else
      let head := ofLeBytes (memBytes s.mem line 8) &&& headMask
      let ring := (memByte s.mem (line + 8)) &&& 0xFE
      let (_, s) := (s.chargeAll inst (s.dbNeed line)).writeThrough 0 32 (line + 8) [ring] .none
      s.startChain n head

/-- CHAIN_HEAD_SAMPLE: context `n` samples its chain head (R48, R51): context 0 from CP_CHAIN_HEAD, with CHAINS advanced; a tenant context from its doorbell line, whose RING is written back to 0 after the sample. -/
def execChainHeadSample (n : Nat) (s : State) : Host.Outcome State Fault Refusal :=
  if n ≥ 64 || !s.maySample n then go s
  else if n = 0 then
    go (({ s with cmp := { s.cmp with chains := (s.cmp.chains + 1) % 2 ^ 32 } }).startChain 0 s.cmp.head)
  else if s.fab.frozen.contains 0 then go s
  else s.attempt (partyCtx n) none (fun s => go (s.sampleLine n))

/-- TENANT_DOORBELL: a completed write has left RING = 1 in the doorbell line of tenant context `n` (R51). The spec does not say what a ring does while the context is disabled: it is dropped (DESIGN CHOICE, log entry 47). -/
def execTenantDoorbell (n : Nat) (s : State) : Host.Outcome State Fault Refusal :=
  if n = 0 || n ≥ 64 || !s.flag Reg.CMD_CTX_ENABLE [n] then go s
  else if isHbm s.fuses (s.dbLine n) && bitAt (memByte s.mem (s.dbLine n + 8)).toNat 0 then
    go (s.setCtx n { s.ctx n with dbPending := true })
  else go s

/-- STRAND_QUANTUM_EXPIRY: strand `k` has run its context for 1,024 CMP cycles and takes the next READY one (R54). -/
def execStrandQuantumExpiry (k : Nat) (s : State) : Host.Outcome State Fault Refusal :=
  match s.cmp.ctxs.find? (fun e => e.2.run = .running k && e.2.wait.isNone) with
  | none => go s
  | some e => go ((s.releaseStrand e.1).schedule)

/-- What a descriptor's fields start (02, Table cmd.7; R45, R81). -/
def State.startProgram (s : State) (n desc strand : Nat) (b : List Byte) : State :=
  let v := ofLeBytes b
  let p : Prog := { desc := desc, next := bitsOf v 0 64, prog := bitsOf v 64 64, compl := bitsOf v 128 64,
                    jobId := bitsOf v 192 32, len := bitsOf v 224 16, irq := bitAt v 240, stop := bitAt v 241, strand := strand }
  let bad := p.len = 0 || p.prog % 8 ≠ 0 || p.compl % 32 ≠ 0
  let c := (s.ctx n).cancelAhead (fun pos => pos < p.len)
  let s := s.setCtx n { c with regs := [], pc := 0, ls := .ok, nextDesc := 0,
                                     prog := some { p with ending := if bad then some .denied else none, faulted := bad } }
  if p.compl % 32 ≠ 0 then s.cmpFault n .denied 0 desc else s

/-- PROGRAM_START: a strand that runs context `n` fetches its next descriptor and starts the program that it names (R44, R45, R81). A descriptor that cannot be read is a CMP fault, and the chain ends. -/
def execProgramStart (n : Nat) (e : RowError) (s : State) : Host.Outcome State Fault Refusal :=
  let c := s.ctx n
  match c.run with
  | .running k =>
    if c.prog.isSome || c.nextDesc = 0 || c.wait.isSome || s.cmp.state ≠ 1 then go s else
    match s.ctxBus n .read c.nextDesc 32 [] e with
    | (.waits, t) => go t
    | (.done st b, t) =>
      if st = .ok then go (t.startProgram n c.nextDesc k b)
      else go (((t.cmpFault n st 0 c.nextDesc).endChain n).schedule)
  | _ => go s

/-- PROGRAM_END: the program of context `n`, whose status is decided, ends (R45, R72, R73, R87). -/
def execProgramEnd (n : Nat) (s : State) : Host.Outcome State Fault Refusal :=
  match (s.ctx n).prog with
  | none => go s
  | some p =>
    if p.ending.isNone || (s.ctx n).within then go s
    else s.attempt (partyCtx n) none (fun s => go (s.finishProgram n (s.flag Reg.CMD_CTX_ENABLE [n])))

/-- The fields of an LD with PF = 1: the word is one, its address, and its size (R94, R97). -/
def prefetchable (c : Ctx) (w : DWord) : Option (Nat × Nat) :=
  let v := w.toNat
  if bitsOf v 56 8 = 0x30 && bitAt v 36 then
    let size := 2 ^ bitsOf v 32 2
    let addr := (((tget 0 c.regs (bitsOf v 44 4)).toNat : Int) + signedOf 32 (bitsOf v 0 32))
    let a := wrapTo 64 addr
    if a % size = 0 then some (a, size) else none
  else none

/-- The line of an address of an agent's access is poisoned already. -/
def State.poisonedAt (s : State) (a : Access) (addr size : Nat) : Bool :=
  match (s.checkAccess a addr size).1 with
  | .ok pa _ => isHbm s.fuses pa && (s.lineAt pa).poisoned
  | _ => false

/-- A speculative read (R70, R71, R228). One that Orrery or the fabric would hold is not issued. It is charged; a decode error, a denial or a line poisoned before raises nothing, and the status ST_DENIED here says that the read is made again when its instruction executes; an error that the controller finds is logged like that of any read. A prefetch that finds no target is logged (06, Edges). -/
def State.specRead (s : State) (a : Access) (addr size : Nat) (e : RowError) : Option (Status × List Byte × State) :=
  match s.bus { acc := a, addr := addr, size := size, bytes := [], err := e } .ask with
  | (.done .ok b, t) => some (.ok, b, t)
  | (.done .poison _, t) => if s.poisonedAt a addr size then some (.denied, [], s.withCharges t) else some (.poison, [], t)
  | (.done .decode _, t) => some (.denied, [], t)
  | (.done _ _, t) => some (.denied, [], s.withCharges t)
  | _ => none

/-- Run-ahead has fetched a word, which is a FENCE or not, or a descriptor. -/
def Ctx.fetched (c : Ctx) (pos : Nat) (fence : Bool) : Ctx :=
  { c with ahead := if c.ahead.any (fun e => e.1 = pos) then c.ahead else c.ahead ++ [(pos, fence)] }

/-- Run-ahead across the end of a program (R68, R69): the descriptor that NEXT names is read ahead, and word `k` of the program that it names. Neither read raises anything (R71). -/
def State.runAheadNext (s : State) (n : Nat) (p : Prog) (k : Nat) (w : DWord) (e : RowError) : State :=
  if p.next = 0 || p.next % 32 ≠ 0 then s else
  match s.specRead (s.ctxAccess n .read) p.next 32 .none with
  | none => s
  | some (st, b, t) =>
    let t := t.setCtx n ((t.ctx n).fetched (2 ^ 16) false)
    let prog := bitsOf (ofLeBytes b) 64 64
    if st ≠ .ok || prog % 8 ≠ 0 || k ≥ bitsOf (ofLeBytes b) 224 16 then t
    else match t.specRead (t.ctxAccess n .read) (prog + 8 * k) 8 e with
      | none => t
      | some (_, _, t) => t.setCtx n ((t.ctx n).fetched (p.len + k) (w.toNat / 2 ^ 56 = 0x03))

/-- Every word from the present one to a later one has been fetched, and none of them is a FENCE: a load at the later one may issue before them (R97, R127). -/
def Ctx.clearTo (c : Ctx) (pos : Nat) : Bool :=
  (List.range (pos - c.pc)).all (fun k => c.ahead.any (fun e => e.1 = c.pc + k && !e.2))

/-- A fetch within the program of context `n` (R68, R88): of the word that executes next, whose failure ends the program as a CMP fault, or of a later word, which matters only once it executes; a prefetchable load at that word is issued early, unless a FENCE stands before it (R69, R97, R127). -/
def State.runAhead (s : State) (n : Nat) (p : Prog) (pos : Nat) (w : DWord) (e : RowError) : State :=
  let fence := w.toNat / 2 ^ 56 = 0x03
  if pos = (s.ctx n).pc then
    match s.ctxBus n .read (p.prog + 8 * pos) 8 [] e with
    | (.done st _, t) =>
      if st = .ok then t.setCtx n ((t.ctx n).fetched pos fence) else (t.cmpFault n st 0 (p.prog + 8 * pos)).failWith n st
    | (_, t) => t
  else
    match s.specRead (s.ctxAccess n .read) (p.prog + 8 * pos) 8 e with
    | none => s
    | some (st, _, t) =>
      let clear := (t.ctx n).clearTo pos
      let t := t.setCtx n ((t.ctx n).fetched pos fence)
      if st ≠ .ok || !clear then t else
      match prefetchable (s.ctx n) w with
      | none => t
      | some (a, size) =>
        if (s.ctx n).prefetch.any (fun q => q.pos = pos) then t else
        match t.specRead { t.ctxAccess n .read with pf := true } a size .none with
        | none => t
        | some (st, b, t) => t.setCtx n { t.ctx n with prefetch := (t.ctx n).prefetch ++ [⟨pos, a, size, st, ofLeBytes b⟩] }

/-- CMP cycles, charged to the instance and to the program's record (R44, R70, R86, R89; Table cmd.10). -/
def State.spend (s : State) (n cyc : Nat) : State :=
  let i := s.ctxInst n
  let cls := s.chargeClass 24 i cyc
  let s := s.charge 24 i cyc
  if cyc = 0 then s else
  let c := s.ctx n
  s.setCtx n { c with prog := c.prog.map (fun p =>
    { p with units := (p.units + cyc) % 2 ^ 32, cls := cls, start := some (p.start.getD s.epoch) }) }

/-- RUN_AHEAD_FETCH: the strand of context `n` fetches the instruction word at index `pos` of its program, which reads `w`, up to 32 words ahead of execution, in `cyc` CMP cycles; an index past the last word counts on into the program that NEXT names (R68 to R71, R88, R97). -/
def execRunAheadFetch (n pos : Nat) (w : DWord) (cyc : Nat) (e : RowError) (s : State) : Host.Outcome State Fault Refusal :=
  let c := s.ctx n
  match c.run, c.prog with
  | .running _, some p =>
    if p.ending.isSome || c.wait.isSome || pos < c.pc || c.pc + 32 < pos || s.cmp.state ≠ 1 then go s
    else if pos < p.len then go ((s.spend n cyc).runAhead n p pos w e)
    else go ((s.spend n cyc).runAheadNext n p (pos - p.len) w e)
  | _, _ => go s

end Sys2Proof.Machine
end

