-- ==== Sys2Proof/Machine/Dma.lean ====
section
/-! DEFINITION. What the engines share: their accesses to memory, split into lines (R148, R189), and the units of a job at its primary resource (R163 to R167, Table orr.3). -/

namespace Sys2Proof.Machine

/-- A read of a range by an engine: in transactions of at most one line (R189), each charged, until one fails. -/
def State.dmaRead (s : State) (a : Access) (addr size : Nat) : Status × List Byte × State :=
  (linePieces (size / 64 + 2) addr size).foldl (fun (acc : Status × List Byte × State) p =>
    if acc.1 ≠ .ok then acc
    else
      let (st, b, t) := acc.2.2.engineBus { a with kind := .read } p.1 p.2 [] .ask
      (st, acc.2.1 ++ b, t)) (.ok, [], s)

/-- A write of a range by an engine. -/
def State.dmaWrite (s : State) (a : Access) (addr : Nat) (bytes : List Byte) : Status × State :=
  (linePieces (bytes.length / 64 + 2) addr bytes.length).foldl (fun (acc : Status × State) p =>
    if acc.1 ≠ .ok then acc
    else
      let (st, _, t) := acc.2.engineBus { a with kind := .write } p.1 p.2 ((bytes.drop (p.1 - addr)).take p.2) .ask
      (st, t)) (.ok, s)

/-- Every earlier write of an initiator is globally visible (R185), its posted writes completing now where they can: `f` follows, and else nothing more happens yet (R326, R348, R359). -/
def State.afterWrites (s : State) (a : Access) (f : State → State) : State :=
  let s := s.drainSource (srcCode a.src)
  if s.fab.posted.any (fun p => srcCode p.acc.src = srcCode a.src)
      || s.fab.open_.any (fun t => t.write && !t.expired && t.source = srcCode a.src) then s
  else f s

/-- The same for several initiators. -/
def State.afterAll : List Access → State → (State → State) → State
  | [], s, f => f s
  | a :: rest, s, f => s.afterWrites a (fun s => State.afterAll rest s f)

/-- A number read from memory, 0 where the read fails. -/
def State.dmaNum (s : State) (a : Access) (addr size : Nat) : Status × Nat × State :=
  let (st, b, t) := s.dmaRead a addr size
  (st, if st = .ok then ofLeBytes b else 0, t)

/-- A job asks for units of a resource: true once they are granted and charged (R163). A job that must wait does so as one waiting request, which a grant of R163 releases later; its served class is that of its grant (R169). -/
def State.claim (s : State) (u r units : Nat) : Bool × State :=
  match s.jobOf u with
  | none => (false, s)
  | some j =>
    match s.orr.grantedJobs.find? (fun e => e.1 = u) with
    | some e =>
      let s := { s with orr := { s.orr with grantedJobs := s.orr.grantedJobs.filter (fun x => x.1 ≠ u) } }
      (true, s.setJob { j with units := j.units + units, cls := e.2, start := some (j.start.getD s.epoch), phase := .running })
    | none =>
      if s.orr.waiting.any (fun q => q.job = some u && q.party.isNone) then (false, s)
      else if s.hasPaid (r, units) || s.wins r j.inst then (true, s.chargeJob u r units)
      else (false, s.hold { id := 0, tag := j.inst, need := [(r, units)], job := some u })

/-- Units of a job's own resource, which an attempt of its engine asks for (R163): the job's record counts them, with the class of their grant (R169; Table cmd.10). -/
def State.payJob (s : State) (u r units : Nat) : State :=
  match s.jobOf u with
  | none => s
  | some j =>
    if units = 0 then s else
    let cls := if s.hasPaid (r, units) then j.cls else s.chargeClass r j.inst units
    (s.enginePay j.inst [(r, units)]).setJob { j with units := j.units + units, cls := cls, start := some (j.start.getD s.epoch), phase := .running }

end Sys2Proof.Machine
end

