-- ==== Sys2Proof/Machine/Almanac.lean ====
section
/-! DEFINITION. The Almanac (17): the ring and its chain, alarms on the backup cell, the wreck buffers and their dump. -/

namespace Sys2Proof.Machine

/-! ### The ring (R531 to R534, Table alm.1) -/

/-- Eight steps of CRC-16 with polynomial 0x1021. -/
def crcShift : Nat → Nat → Nat
  | 0, c => c
  | n + 1, c => crcShift n (if bitAt c 15 then (2 * c % 2 ^ 16) ^^^ 0x1021 else 2 * c % 2 ^ 16)

/-- CRC-16 of R533 over bytes, from an initial value. -/
def crc16 : Nat → List Byte → Nat
  | c, [] => c
  | c, b :: bs => crc16 (crcShift 8 (c ^^^ (b.toNat * 256))) bs

/-- CHK of a record: over its first 30 bytes and the preceding CHK, high byte first (R533). -/
def chkOf (body : List Byte) (prev : Nat) : Nat :=
  crc16 0xFFFF (body ++ [BitVec.ofNat 8 (prev / 256), BitVec.ofNat 8 prev])

/-- Bytes 0x00 to 0x1D of a record with its SEQ (Table alm.1). -/
def AlmRec.body (r : AlmRec) (seq : Nat) : List Byte :=
  leBytes 8 r.time ++ leBytes 4 seq ++ leBytes 2 r.code ++ leBytes 1 (r.tag % 64)
    ++ leBytes 1 (r.q % 8 + (if r.rtc then 8 else 0) + (if r.loss then 16 else 0) + (if r.mainRst then 32 else 0))
    ++ (r.payload ++ List.replicate 14 0).take 14

/-- The address of a slot of the ring (R531). -/
def slotAddr (k : Nat) : Nat := 0x3300_0000 + 32 * (k % 4096)

/-- A record is written at slot SEQ mod 4,096; HEAD and SEQ move on (R532). -/
def State.putRecord (s : State) (r : AlmRec) : State :=
  let seq := s.rd Reg.ALM_SEQ []
  let body := r.body seq
  let chk := chkOf body s.alm.chk
  let s := { s with mem := memPutBytes s.mem (slotAddr seq) (body ++ leBytes 2 chk) }
  let s := { s with alm := { s.alm with chk := chk, badSlots := s.alm.badSlots.filter (· ≠ seq % 4096) } }
  (s.wr Reg.ALM_SEQ [] (seq + 1)).wr Reg.ALM_HEAD [] (seq + 1)

/-- ALMANAC_RECORD: the oldest record of the intake is written to the ring (R532 to R534). -/
def execAlmanacRecord (s : State) : Host.Outcome State Fault Refusal :=
  match s.alm.intake with
  | [] => go s
  | r :: rest => go (({ s with alm := { s.alm with intake := rest } }).putRecord r)

/-- Every record of the intake is written, as at a power loss (R637). -/
def State.flushIntake (s : State) : State :=
  s.alm.intake.foldl State.putRecord { s with alm := { s.alm with intake := [] } }

/-! ### Alarms on the backup cell (R539 to R542) -/

/-- The RTC, in cycles of AO32K. -/
def State.rtc (s : State) : Nat := s.rdPair Reg.CLK_RTC_LO Reg.CLK_RTC_HI []

/-- BACKUP_ALARM: a source alarms while only the backup cell powers the device (R539 to R541, R607): a record with the RTC, its latch bit, and the pulse on WAKE_OUT, at most once per source and second. The quality bits of such a record are free: Epoch time does not run (DEDUCED, log entry 22). An uncorrectable error names the ring slot that it hit, if any (R538). -/
def execBackupAlarm (source : Nat) (slot : Option Nat) (s : State) : Host.Outcome State Fault Refusal :=
  if 7 ≤ source || s.pwr.pwrGood || s.pwr.vbat ≠ 0 then go s
  else
    let s := match slot with
      | some k => if source = 6 && !s.alm.badSlots.contains (k % 4096) then
          { s with alm := { s.alm with badSlots := s.alm.badSlots ++ [k % 4096] } } else s
      | none => s
    let early := s.alm.bkLast.any (fun x => x.1 = source && s.now < x.2 + 1000000000)
    if !bitAt (s.rd Reg.ALM_BK_EN []) source || early then go s
    else
      let r : AlmRec := ⟨s.rtc, 0x90, 34, s.freeVal % 8, true, false, false, leBytes 1 source ++ leBytes 6 s.alm.rtcDown, s.now⟩
      let s := s.drawn.putRecord r
      let s := s.wr Reg.ALM_BK_LATCH [] (s.rd Reg.ALM_BK_LATCH [] ||| 2 ^ source)
      let s := s.wr Reg.ALM_STAT_BK_PENDING [] 1
      go { s with alm := { s.alm with
        bkLast := tput s.alm.bkLast source s.now
        wakeEnd := if bitAt (s.rd Reg.ALM_BK_WAKE []) source then s.now + 2000000 else s.alm.wakeEnd } }

/-- BK.ACK clears the latch and BK_PENDING (R542). -/
def State.bkAck (s : State) : State := (s.wr Reg.ALM_BK_LATCH [] 0).wr Reg.ALM_STAT_BK_PENDING [] 0

/-- Once CTRL.VEC is non-zero, the first message of the power cycle tells I0 of pending alarms (R542). -/
def State.bkTell (s : State) : State :=
  if s.flag Reg.ALM_STAT_BK_PENDING [] && s.rd Reg.ALM_CTRL_VEC [] ≠ 0 && !s.alm.bkTold then
    ({ s with alm := { s.alm with bkTold := true } }).send 0 (s.rd Reg.ALM_CTRL_VEC [])
  else s

/-! ### Wreck buffers (R543 to R548) -/

/-- The dies that are present: the CD and the XDs. -/
def dies (fz : Fuses) : List Nat := (List.range 5).filter (fun d => d = 0 || d - 1 < fz.variant.xds)

/-- The trigger that reaches the buffers next: of triggers of one instant, a fabric freeze first (17, Edges). -/
def nextTrigger (l : List (Nat × Nat)) : Option (Nat × Nat) :=
  match l with
  | [] => none
  | x :: xs => some (((x :: xs).find? (fun y => y.2 = x.2 && y.1 = 1)).getD x)

/-- WRECK_TRIGGER: a trigger reaches the armed buffers, which record POST × 256 further entries; while any buffer captures or is frozen, none starts anew and MISSED counts on those (R543 to R545). -/
def execWreckTrigger (s : State) : Host.Outcome State Fault Refusal :=
  match nextTrigger s.alm.triggers with
  | none => go s
  | some t =>
    let s := { s with alm := { s.alm with triggers := s.alm.triggers.erase t } }
    let busy := (dies s.fuses).filter (fun d => s.rd Reg.ALM_WRECK_STATE [d] ≠ 0)
    if busy.isEmpty then
      go ((dies s.fuses).foldl (fun s d =>
        ((s.wr Reg.ALM_WRECK_STATE [d] 1).wr Reg.ALM_WRECK_CAUSE [d] t.1).setWreck d
          { s.wreck d with left := s.rd Reg.ALM_CFG_POST [] * 256, trig := true }) s)
    else go (busy.foldl (fun s d => s.incSat Reg.ALM_WRECK_MISSED [d] 1) s)

/-- The buffer of a die freezes: STATE 2, and PTR names its oldest entry (R544). -/
def State.freezeWreck (s : State) (d : Nat) : State :=
  let n := (s.wreck d).count
  (s.wr Reg.ALM_WRECK_STATE [d] 2).wr Reg.ALM_WRECK_PTR [d] (if n ≤ 4096 then 0 else n % 4096)

/-- The wreck-freeze record of a trigger, once none of its buffers still captures (R544, Table alm.2). -/
def State.wreckRecord (s : State) (cause : Nat) : State :=
  if (dies s.fuses).any (fun d => s.rd Reg.ALM_WRECK_STATE [d] = 1) then s
  else
    let mask := (dies s.fuses).foldl (fun m d => if s.rd Reg.ALM_WRECK_STATE [d] = 2 then m + 2 ^ d else m) 0
    s.record 0x80 34 (leBytes 1 cause ++ leBytes 1 mask)

/-- WRECK_FREEZE: the buffer of die `d` has recorded its post-trigger entries and freezes (R544). -/
def execWreckFreeze (d : Nat) (s : State) : Host.Outcome State Fault Refusal :=
  if (dies s.fuses).contains d && s.rd Reg.ALM_WRECK_STATE [d] = 1 && (s.wreck d).left = 0 then
    go ((s.freezeWreck d).wreckRecord (s.rd Reg.ALM_WRECK_CAUSE [d]))
  else go s

/-- A warm restart freezes every capturing buffer at once (R544). -/
def State.freezeWrecks (s : State) : State :=
  match (dies s.fuses).filter (fun d => s.rd Reg.ALM_WRECK_STATE [d] = 1) with
  | [] => s
  | d :: ds => ((d :: ds).foldl State.freezeWreck s).wreckRecord (s.rd Reg.ALM_WRECK_CAUSE [d])

/-- A committed bit of WRECK_REARM: the buffer of die `d` restarts empty, with STATE 0 (R548). -/
def State.wreckRearm (s : State) (d : Nat) : State :=
  if (dies s.fuses).contains d then
    (s.wr Reg.ALM_WRECK_STATE [d] 0).setWreck d {}
  else s

/-! ### The dump (R547, Table alm.3) -/

/-- A trace entry as its 16 bytes. -/
def Trace.bytes (t : Trace) : List Byte :=
  leBytes 4 t.time ++ leBytes 6 t.addr ++ leBytes 1 (t.tag % 64) ++ leBytes 1 (t.kind % 16 + 16 * (t.cls % 8))
    ++ leBytes 2 (t.tid % 2 ^ 11 + 2 ^ 11 * (t.port % 32)) ++ leBytes 1 t.status
    ++ leBytes 1 ((if t.trig then 1 else 0) + (if t.gap then 2 else 0))

/-- The 64 KB of a buffer from PTR on; what an entry never recorded holds is free (DEDUCED, log entry 22). -/
def State.dumpBytes (s : State) (d : Nat) : List Byte × State :=
  let l := (s.wreck d).entries.reverse.flatMap Trace.bytes
  if l.length < 65536 then (l ++ leBytes (65536 - l.length) s.freeVal, s.drawn) else (l, s)

/-- A committed DUMP.GO: DONE clears, and the copy begins (R547). -/
def State.dumpGo (s : State) : State :=
  let addr := s.rdPair Reg.ALM_DUMP_ADDR_LO Reg.ALM_DUMP_ADDR_HI []
  { s.wr Reg.ALM_DUMP_DONE [] 0 with alm := { s.alm with dump := some (s.rd Reg.ALM_DUMP_DIE [], addr) } }

/-- DUMP_DONE: the copy of the dump that runs ends, with DONE, STATUS and the message to I0 (R547). -/
def execDumpDone (s : State) : Host.Outcome State Fault Refusal :=
  s.attempt partyAlmanac none (fun s => match s.alm.dump with
  | none => go s
  | some (d, addr) =>
    let (b, s) := s.dumpBytes d
    let (st, s) := s.dmaWrite { tag := 34, pid := 0, src := .xd 0, kind := .write, firm := true } addr b
    let s := (s.wr Reg.ALM_DUMP_STATUS [] (statusCode st)).wr Reg.ALM_DUMP_DONE [] 1
    go (({ s with alm := { s.alm with dump := none } }).send 0 (s.rd Reg.ALM_CTRL_VEC [])))

end Sys2Proof.Machine
end

