-- ==== Sys2Proof/Machine/Operands.lean ====
section
/-! DEFINITION. Atusk instruction words and their operands (03, Tables isa.1 to isa.3): the fields of a word, which opcodes exist and which fields each uses, the K registers, and the encodings that are faults (R83, R84). -/

namespace Sys2Proof.Machine

/-! ### The instruction word (Table isa.2) -/

/-- The fields of an Atusk instruction word. -/
structure AWord where
  op : BitVec 8
  c : Bool
  res : BitVec 3
  kd : BitVec 4
  ka : BitVec 4
  kb : BitVec 4
  x8 : BitVec 8
  i32 : BitVec 32
  deriving DecidableEq, Repr

/-- The fields that a 64-bit word spells. -/
def awordOf (w : DWord) : AWord where
  op := w.extractLsb' 56 8
  c := w.getLsbD 55
  res := w.extractLsb' 52 3
  kd := w.extractLsb' 48 4
  ka := w.extractLsb' 44 4
  kb := w.extractLsb' 40 4
  x8 := w.extractLsb' 32 8
  i32 := w.extractLsb' 0 32

/-- The 64-bit word of the fields. -/
def AWord.word (a : AWord) : DWord :=
  a.op ++ BitVec.ofBool a.c ++ a.res ++ a.kd ++ a.ka ++ a.kb ++ a.x8 ++ a.i32

/-! ### Opcodes (Table isa.3) -/

/-- Extension words, privilege and the fields that an opcode uses. -/
structure OpInfo where
  ext : Nat
  priv : Bool
  kd : Bool
  ka : Bool
  kb : Bool
  x8 : Bool
  i32 : Bool
  deriving DecidableEq, Repr

/-- The opcode map; every other opcode is unassigned (Table isa.3). -/
def opInfo (op : Nat) : Option OpInfo :=
  match op with
  | 0x00 => some ⟨0, false, false, false, false, false, false⟩
  | 0x01 => some ⟨0, false, false, false, false, true, false⟩
  | 0x02 => some ⟨0, false, false, false, false, false, false⟩
  | 0x03 => some ⟨0, false, false, false, false, false, false⟩
  | 0x04 => some ⟨0, false, true, false, false, true, false⟩
  | 0x10 => some ⟨0, false, true, false, false, false, true⟩
  | 0x11 => some ⟨1, false, true, false, false, false, false⟩
  | 0x12 => some ⟨0, false, true, true, true, false, false⟩
  | 0x13 => some ⟨0, false, true, true, false, false, true⟩
  | 0x14 => some ⟨0, false, true, true, true, false, false⟩
  | 0x15 => some ⟨0, false, true, true, true, false, false⟩
  | 0x16 => some ⟨0, false, true, true, true, false, false⟩
  | 0x17 => some ⟨0, false, true, true, true, false, false⟩
  | 0x18 => some ⟨0, false, true, true, false, false, true⟩
  | 0x19 => some ⟨0, false, true, true, false, false, true⟩
  | 0x1A => some ⟨0, false, true, false, false, false, false⟩
  | 0x20 => some ⟨0, false, false, true, true, true, true⟩
  | 0x21 => some ⟨0, false, false, false, false, true, true⟩
  | 0x22 => some ⟨0, false, false, false, false, false, true⟩
  | 0x23 => some ⟨0, false, false, false, false, false, false⟩
  | 0x30 => some ⟨0, false, true, true, false, true, true⟩
  | 0x31 => some ⟨0, false, false, true, true, true, true⟩
  | 0x32 => some ⟨1, false, false, true, true, false, true⟩
  | 0x40 => some ⟨0, false, false, true, true, true, true⟩
  | 0x41 => some ⟨1, false, false, true, false, true, true⟩
  | 0x42 => some ⟨0, false, false, false, false, false, false⟩
  | 0x43 => some ⟨0, false, false, false, false, false, false⟩
  | 0x44 => some ⟨0, false, true, true, false, true, true⟩
  | 0x50 => some ⟨2, false, false, true, false, true, true⟩
  | 0x51 => some ⟨0, false, false, true, true, true, false⟩
  | 0x52 => some ⟨0, false, true, true, false, false, true⟩
  | 0x53 => some ⟨0, false, false, false, true, false, true⟩
  | 0x60 => some ⟨0, false, false, false, false, false, true⟩
  | 0x61 => some ⟨0, false, false, false, false, false, true⟩
  | 0x70 => some ⟨0, true, false, true, true, false, false⟩
  | 0x71 => some ⟨0, true, false, true, false, false, false⟩
  | _ => none

/-! ### K registers (Table isa.1) -/

/-- A K register; K0 reads 0. -/
def Ctx.k (c : Ctx) (r : Nat) : DWord := if r = 0 then 0 else tget 0 c.regs r

/-- Write a K register; a write to K0 is discarded. -/
def Ctx.setK (c : Ctx) (r : Nat) (v : DWord) : Ctx :=
  if r = 0 then c else { c with regs := tputD 0 c.regs r v }

/-- I32 sign-extended to 64 bits. -/
def AWord.sext (a : AWord) : DWord := a.i32.signExtend 64

/-- KA and KB of a word in a context. -/
def Ctx.ka (c : Ctx) (a : AWord) : DWord := c.k a.ka.toNat
def Ctx.kb (c : Ctx) (a : AWord) : DWord := c.k a.kb.toNat

/-- The address KA + I32 of LD and ST (R94). -/
def Ctx.memAddr (c : Ctx) (a : AWord) : Nat := (c.ka a + a.sext).toNat

/-- The target of a branch, counted in words from its own PC (R93). -/
def branchTarget (pc : Nat) (a : AWord) : Int := (pc : Int) + a.i32.toInt

/-! ### Encodings that are faults (R83, R84) -/

/-- A field that the opcode does not use, or a reserved bit, is not 0. -/
def unusedSet (a : AWord) (o : OpInfo) : Bool :=
  a.res ≠ 0 || (!o.kd && a.kd ≠ 0) || (!o.ka && a.ka ≠ 0) || (!o.kb && a.kb ≠ 0) || (!o.x8 && a.x8 ≠ 0) || (!o.i32 && a.i32 ≠ 0)

/-- A branch target outside 0 to LEN - 1. -/
def badTarget (t : Int) (len : Nat) : Bool := !(0 ≤ t && t < (len : Int))

/-- A field address with reserved bits set, or with low bit plus width above 32 (Table isa.5, R99). -/
def badField (a : AWord) : Bool :=
  let v := a.i32.toNat
  bitsOf v 26 6 ≠ 0 || bitsOf v 16 5 + bitsOf v 21 5 + 1 > 32

/-- A selector, immediate, branch target or address that the instruction does not allow (R84, R92 to R94, R98, R99, R109, R113, R114, R116, R123, R125, R126; Table isa.4). -/
def badOperand (c : Ctx) (len : Nat) (a : AWord) (e1 : DWord) : Bool :=
  let x := a.x8.toNat
  let v := a.i32.toNat
  match a.op.toNat with
  | 0x01 => x > 0x11
  | 0x04 => x > 1
  | 0x18 | 0x19 => v ≥ 64
  | 0x20 => x > 6 || badTarget (branchTarget c.pc a) len
  | 0x21 => x > 0x11 || badTarget (branchTarget c.pc a) len
  | 0x22 => badTarget (branchTarget c.pc a) len
  | 0x23 => badTarget ((c.k 15).toNat : Int) len || (c.k 15).toNat ≥ 2 ^ 16
  | 0x30 => bitsOf x 2 2 ≠ 0 || bitsOf x 5 3 ≠ 0 || c.memAddr a % 2 ^ bitsOf x 0 2 ≠ 0
  | 0x31 => bitsOf x 2 6 ≠ 0 || c.memAddr a % 2 ^ bitsOf x 0 2 ≠ 0
  | 0x32 => v = 0 || v > 100000 || (c.ka a).toNat % 8 ≠ 0
  | 0x40 | 0x41 | 0x44 => badField a
  | 0x50 => e1.toNat % 32 ≠ 0
  | 0x52 => v > 100000
  | 0x53 => v ≥ 2 ^ 11
  | 0x60 => bitsOf v 8 8 ≠ 0
  | 0x61 => v ≥ 2 ^ 8
  | 0x71 => (c.ka a).toNat ≥ 64
  | _ => false

/-- The encoding is a fault (R84). -/
def encodingFault (c : Ctx) (len : Nat) (a : AWord) (e1 : DWord) : Bool :=
  match opInfo a.op.toNat with
  | none => true
  | some o => unusedSet a o || c.pc + o.ext ≥ len || badOperand c len a e1

end Sys2Proof.Machine
end

