-- ==== Sys2Proof/Machine/Flags.lean ====
section
/-! DEFINITION. What an Atusk instruction leaves behind (03, R82, R84 to R86): the status latch LS, the branch conditions, the CMP cycles it takes, and how it retires, faults or waits. No instruction sets a carry, overflow or zero flag (R91). -/

namespace Sys2Proof.Machine

/-- The BR condition codes (R92). -/
def brCond (x : Nat) (a b : DWord) : Bool :=
  match x with
  | 0 => true
  | 1 => a = b
  | 2 => a ≠ b
  | 3 => a < b
  | 4 => b ≤ a
  | 5 => a.slt b
  | _ => b.sle a

/-- An instruction that leaves LS unchanged retires (R82). -/
def State.quiet (s : State) (n cyc pc : Nat) (f : Ctx → Ctx) : State :=
  let s := s.spend n cyc
  (s.setCtx n (f (s.ctx n))).goTo n pc

/-- An instruction retires with a status: LS holds it, and a failing one ends the program unless C is 1 (R82, R85). -/
def State.retire (s : State) (n cyc : Nat) (c : Bool) (adv : Nat) (st : Status) (f : Ctx → Ctx) : State :=
  let s := s.spend n cyc
  let x := f (s.ctx n)
  let s := s.setCtx n { x with ls := st }
  if statusFails st && !c then s.failWith n st else s.goTo n (x.pc + adv)

/-- A waiting instruction retires: its context is READY again (R86). -/
def State.retireWait (s : State) (n : Nat) (st : Status) (f : Ctx → Ctx) : State :=
  let s := { s with orr := { s.orr with waiting := s.orr.waiting.filter (fun q => q.party ≠ some (partyPoll n)) } }
  let x := s.ctx n
  let s := s.setCtx n { x with wait := none, run := .ready }
  (s.retire n 0 x.waitC x.waitAdv st f).schedule

/-- A faulting encoding ends the program with ST_DENIED, whatever C is (R84). -/
def State.faultEnd (s : State) (n cyc op : Nat) (p : Prog) : State :=
  let s := s.spend n cyc
  (s.cmpFault n .denied op (p.prog + 8 * (s.ctx n).pc)).failWith n .denied

/-- A privileged opcode in a tenant context: not executed, the program ends with ST_DENIED, and the violation counts (R57). -/
def State.privEnd (s : State) (n cyc : Nat) : State :=
  let s := s.spend n cyc
  (s.violation (s.ctxInst n)).failWith n .denied

/-- The issue of an instruction on the strand that runs its context (R54, R55, R57, R84): a context without CMP-cycle budget gives up its strand; a faulting encoding and a privileged opcode end the program; any other instruction has its own effect, `body`. A command whose word spells another assigned opcode is no such instruction. -/
def State.issue (s : State) (i : Issue) (opc : Nat) (body : AWord → Ctx → State) : Host.Outcome State Fault Refusal :=
  let a := awordOf i.w
  let c := s.ctx i.ctx
  if i.ctx ≥ 64 || (a.op.toNat ≠ opc && (opInfo a.op.toNat).isSome) then .refused .illFormed
  else match c.run, c.prog with
    | .running _, some p =>
      if p.ending.isSome || c.wait.isSome || s.cmp.state ≠ 1 || c.pc ≥ p.len then go s
      else if c.granted.isNone && !s.mayServe 24 (s.ctxInst i.ctx) then go ((s.releaseStrand i.ctx).schedule)
      else if encodingFault c p.len a i.e1 then go (s.faultEnd i.ctx i.cyc a.op.toNat p)
      else if opc ≥ 0x70 && i.ctx ≠ 0 then go (s.privEnd i.ctx i.cyc)
      else go (body a c)
    | _, _ => go s

end Sys2Proof.Machine
end

