-- ==== Sys2Proof/Machine/Atusk.lean ====
section
/-! DEFINITION. The Atusk instructions (03) but for the state instructions and the engine jobs: control, arithmetic, memory, WAIT, SIGNAL, semaphores, RSTCTX, and the expiries of their waits. -/

namespace Sys2Proof.Machine

/-! ### Control (R83, R123 to R127) -/

/-- NOP has no effect; like every instruction that is no arithmetic, logic, move or branch instruction, it writes its status into LS (R82, R83). -/
def execNop (i : Issue) (s : State) : Host.Outcome State Fault Refusal :=
  s.issue i 0x00 (fun a _ => s.retire i.ctx i.cyc a.c 1 .ok id)

/-- END ends the program: normally with X8 = 0, else with the status code in X8 (R123). -/
def execEndProgram (i : Issue) (s : State) : Host.Outcome State Fault Refusal :=
  s.issue i 0x01 (fun a _ =>
    let st := (statusOf a.x8.toNat).getD .ok
    let s := s.spend i.ctx i.cyc
    (s.setCtx i.ctx { s.ctx i.ctx with ls := st }).endWith i.ctx st)

/-- YIELD releases the strand; the context stays READY (R124). -/
def execYield (i : Issue) (s : State) : Host.Outcome State Fault Refusal :=
  s.issue i 0x02 (fun a _ => ((s.retire i.ctx i.cyc a.c 1 .ok id).releaseStrand i.ctx).schedule)

/-- A write, a record or a SIGNAL of a context is not visible yet (R127): one that the fabric holds, or a message on its way. -/
def State.unseenOf (s : State) (n : Nat) : Bool :=
  s.fab.open_.any (fun t => t.write && !t.expired && t.source = srcCode .cmp && t.tag = s.ctxInst n)
    || s.msgs.any (fun m => m.ctx = some n)

/-- FENCE retires once every earlier ST, completion record and SIGNAL of its context is visible (R127). No later load has been issued: run-ahead stops at a FENCE. -/
def execFence (i : Issue) (s : State) : Host.Outcome State Fault Refusal :=
  s.issue i 0x03 (fun a _ => if s.unseenOf i.ctx then s else s.retire i.ctx i.cyc a.c 1 .ok id)

/-- EPOCH writes Epoch time, or its quality code with X8 = 1, into KD (R125). -/
def execEpoch (i : Issue) (s : State) : Host.Outcome State Fault Refusal :=
  s.issue i 0x04 (fun a _ =>
    let v := if a.x8 = 0 then s.epoch else s.quality
    s.retire i.ctx i.cyc a.c 1 .ok (fun c => c.setK a.kd.toNat (BitVec.ofNat 64 v)))

/-! ### Arithmetic, logic and moves (Table isa.4, R91) -/

/-- An instruction that writes KD and nothing else, and takes `adv` words. -/
def State.alu (s : State) (i : Issue) (a : AWord) (c : Ctx) (adv : Nat) (v : DWord) : State :=
  s.quiet i.ctx i.cyc (c.pc + adv) (fun c => c.setK a.kd.toNat v)

/-- LI: KD takes I32 sign-extended. -/
def execLi (i : Issue) (s : State) : Host.Outcome State Fault Refusal :=
  s.issue i 0x10 (fun a c => s.alu i a c 1 a.sext)

/-- LIX: KD takes the extension word. -/
def execLix (i : Issue) (s : State) : Host.Outcome State Fault Refusal :=
  s.issue i 0x11 (fun a c => s.alu i a c 2 i.e1)

/-- ADD: KD takes KA + KB. -/
def execAdd (i : Issue) (s : State) : Host.Outcome State Fault Refusal :=
  s.issue i 0x12 (fun a c => s.alu i a c 1 (c.ka a + c.kb a))

/-- ADDI: KD takes KA + I32 sign-extended. -/
def execAddi (i : Issue) (s : State) : Host.Outcome State Fault Refusal :=
  s.issue i 0x13 (fun a c => s.alu i a c 1 (c.ka a + a.sext))

/-- SUB: KD takes KA - KB. -/
def execSub (i : Issue) (s : State) : Host.Outcome State Fault Refusal :=
  s.issue i 0x14 (fun a c => s.alu i a c 1 (c.ka a - c.kb a))

/-- AND: KD takes KA AND KB, bit by bit. -/
def execAnd (i : Issue) (s : State) : Host.Outcome State Fault Refusal :=
  s.issue i 0x15 (fun a c => s.alu i a c 1 (c.ka a &&& c.kb a))

/-- OR: KD takes KA OR KB, bit by bit. -/
def execOr (i : Issue) (s : State) : Host.Outcome State Fault Refusal :=
  s.issue i 0x16 (fun a c => s.alu i a c 1 (c.ka a ||| c.kb a))

/-- XOR: KD takes KA XOR KB, bit by bit. -/
def execXor (i : Issue) (s : State) : Host.Outcome State Fault Refusal :=
  s.issue i 0x17 (fun a c => s.alu i a c 1 (c.ka a ^^^ c.kb a))

/-- SHLI: KD takes KA shifted left by I32[5:0]. -/
def execShli (i : Issue) (s : State) : Host.Outcome State Fault Refusal :=
  s.issue i 0x18 (fun a c => s.alu i a c 1 (c.ka a <<< (a.i32.toNat % 64)))

/-- SHRI: KD takes KA shifted logically right by I32[5:0]. -/
def execShri (i : Issue) (s : State) : Host.Outcome State Fault Refusal :=
  s.issue i 0x19 (fun a c => s.alu i a c 1 (c.ka a >>> (a.i32.toNat % 64)))

/-- MOVS: KD takes LS zero-extended. -/
def execMovs (i : Issue) (s : State) : Host.Outcome State Fault Refusal :=
  s.issue i 0x1A (fun a c => s.alu i a c 1 (BitVec.ofNat 64 (statusCode c.ls)))

/-! ### Branches (R92, R93) -/

/-- The word index to which a branch goes. -/
def nextPc (c : Ctx) (a : AWord) (taken : Bool) : Nat := if taken then (branchTarget c.pc a).toNat else c.pc + 1

/-- BR branches when condition X8 holds for KA and KB. -/
def execBr (i : Issue) (s : State) : Host.Outcome State Fault Refusal :=
  s.issue i 0x20 (fun a c => s.quiet i.ctx i.cyc (nextPc c a (brCond a.x8.toNat (c.ka a) (c.kb a))) id)

/-- BST branches when LS equals X8. -/
def execBst (i : Issue) (s : State) : Host.Outcome State Fault Refusal :=
  s.issue i 0x21 (fun a c => s.quiet i.ctx i.cyc (nextPc c a (statusCode c.ls = a.x8.toNat)) id)

/-- CALL writes PC + 1 into K15 and branches. -/
def execCall (i : Issue) (s : State) : Host.Outcome State Fault Refusal :=
  s.issue i 0x22 (fun a c => s.quiet i.ctx i.cyc (nextPc c a true) (fun x => x.setK 15 (BitVec.ofNat 64 (c.pc + 1))))

/-- RET jumps to the word index in K15. -/
def execRet (i : Issue) (s : State) : Host.Outcome State Fault Refusal :=
  s.issue i 0x23 (fun _ c => s.quiet i.ctx i.cyc (c.k 15).toNat id)

/-! ### Memory (R94 to R98) -/

/-- The loads that run-ahead issued and that a store of `size` bytes at `addr` overlaps are discarded (R97). -/
def Ctx.dropOverlap (c : Ctx) (addr size : Nat) : Ctx :=
  let keep := c.prefetch.filter (fun q => q.addr + q.size ≤ addr || addr + size ≤ q.addr)
  { c with prefetch := keep, specCancel := (c.specCancel + (c.prefetch.length - keep.length)) % 2 ^ 15 }

/-- LD loads 1 to 8 bytes from KA + offset into KD, zero-extended (R94, R96); a value that run-ahead has read serves it (R97). -/
def execLd (i : Issue) (e : RowError) (s : State) : Host.Outcome State Fault Refusal :=
  s.issue i 0x30 (fun a c =>
    let addr := c.memAddr a
    let size := 2 ^ bitsOf a.x8.toNat 0 2
    match c.prefetch.find? (fun q => q.pos = c.pc && q.addr = addr && q.size = size && q.st ≠ .denied) with
    | some q =>
      s.retire i.ctx i.cyc a.c 1 q.st (fun c => if q.st = .ok then c.setK a.kd.toNat (BitVec.ofNat 64 q.value) else c)
    | none =>
      match s.ctxBus i.ctx .read addr size [] e with
      | (.waits, t) => t
      | (.done st b, t) =>
        t.retire i.ctx i.cyc a.c 1 st (fun c => if st = .ok then c.setK a.kd.toNat (BitVec.ofNat 64 (ofLeBytes b)) else c))

/-- ST stores the low bytes of KB at KA + offset, non-posted; its status is that of the write response (R94, R95). -/
def execSt (i : Issue) (e : RowError) (s : State) : Host.Outcome State Fault Refusal :=
  s.issue i 0x31 (fun a c =>
    let addr := c.memAddr a
    let size := 2 ^ bitsOf a.x8.toNat 0 2
    match s.ctxBus i.ctx .write addr size (leBytes size (c.kb a).toNat) e with
    | (.waits, t) => t
    | (.done st _, t) => t.retire i.ctx i.cyc a.c 1 st (fun c => c.dropOverlap addr size))

/-- The condition of a POLL on the word read. -/
def pollMet (b : List Byte) (mask want : Nat) : Bool := (ofLeBytes b &&& mask) = want

/-- POLL reads the word at KA and retires once (word AND ext1) = KB; otherwise it waits (R98). -/
def execPoll (i : Issue) (e : RowError) (s : State) : Host.Outcome State Fault Refusal :=
  s.issue i 0x32 (fun a c =>
    let addr := (c.ka a).toNat
    match s.ctxBus i.ctx .read addr 8 [] e with
    | (.waits, t) => t
    | (.done st b, t) =>
      if st ≠ .ok then t.retire i.ctx i.cyc a.c 2 st id
      else if pollMet b i.e1.toNat (c.kb a).toNat then t.retire i.ctx i.cyc a.c 2 .ok id
      else (t.spend i.ctx i.cyc).suspend i.ctx (.poll addr i.e1.toNat (c.kb a).toNat a.i32.toNat) a.c 2)

/-- POLL_CHECK: a waiting POLL of context `n` reads its word again, in `cyc` CMP cycles (R86, R98). The check is a load, charged to the instance; it may be held, and one that a freeze ends ends the POLL. -/
def execPollCheck (n cyc : Nat) (e : RowError) (s : State) : Host.Outcome State Fault Refusal :=
  match (s.ctx n).wait with
  | some (.poll addr mask want _) =>
    s.attempt (partyPoll n) none (fun s =>
      let (st, b, t) := (s.spend n cyc).engineBus (s.ctxAccess n .read) addr 8 [] .ask e
      if st ≠ .ok then go (t.retireWait n st id)
      else if pollMet b mask want then go (t.retireWait n .ok id)
      else go t)
  | _ => go s

/-- POLL_TIMEOUT: the I32 µs of a waiting POLL have passed (R98). -/
def execPollTimeout (n : Nat) (s : State) : Host.Outcome State Fault Refusal :=
  match (s.ctx n).wait with
  | some (.poll _ _ _ _) => go (s.retireWait n .timeout id)
  | _ => go s

/-! ### WAIT and SIGNAL (R113, R114) -/

/-- A job of a context is outstanding: dispatched, with its record not yet written (R111). Its running program is no such job. -/
def State.outstanding (s : State) (n id : Nat) : Bool := s.cmp.jobs.any (fun j => j.ctx = n && j.id = id)

/-- WAIT looks a job up in the context's history, or waits for its record (R113). -/
def execWait (i : Issue) (s : State) : Host.Outcome State Fault Refusal :=
  s.issue i 0x52 (fun a c =>
    let id := (c.ka a).toNat % 2 ^ 32
    match c.history.find? (fun e => e.1 = id) with
    | some e => s.retire i.ctx i.cyc a.c 1 .ok (fun c => c.setK a.kd.toNat (BitVec.ofNat 64 (statusCode e.2)))
    | none =>
      if !s.outstanding i.ctx id then s.retire i.ctx i.cyc a.c 1 .decode (fun c => c)
      else if a.i32 = 0 then s.retire i.ctx i.cyc a.c 1 .timeout (fun c => c)
      else (s.spend i.ctx i.cyc).suspend i.ctx (.job id a.kd.toNat a.i32.toNat) a.c 1)

/-- WAIT_TIMEOUT: the timeout of a waiting WAIT has passed (R113). -/
def execWaitTimeout (n : Nat) (s : State) : Host.Outcome State Fault Refusal :=
  match (s.ctx n).wait with
  | some (.job _ _ _) => go (s.retireWait n .timeout id)
  | _ => go s

/-- The message of a SIGNAL of context `n`. -/
def State.signal (s : State) (n t vec : Nat) : State :=
  if vec = 0 then s else { s with msgs := s.msgs ++ [{ inst := t, vec := vec, ctx := some n }] }

/-- SIGNAL sends a message-signalled interrupt (R114): context 0 to any instance, a tenant context to its own. -/
def execSignal (i : Issue) (s : State) : Host.Outcome State Fault Refusal :=
  s.issue i 0x53 (fun a c =>
    let t := (c.kb a).toNat % 64
    if i.ctx = 0 then
      if t ≥ 32 then s.retire i.ctx i.cyc a.c 1 .denied (fun c => c)
      else (s.signal i.ctx t a.i32.toNat).retire i.ctx i.cyc a.c 1 .ok (fun c => c)
    else if t = s.ctxInst i.ctx then (s.signal i.ctx t a.i32.toNat).retire i.ctx i.cyc a.c 1 .ok (fun c => c)
    else (s.violation (s.ctxInst i.ctx)).retire i.ctx i.cyc a.c 1 .denied (fun c => c))

/-! ### Semaphores (R115 to R120) -/

/-- A context acquires a free semaphore: ST_BROKEN once after a force-release (R116). -/
def State.acquire (s : State) (k n : Nat) : Status × State :=
  let st : Status := if s.flag Reg.CMD_SEM_BROKEN [k] then .broken else .ok
  (st, ((s.wr Reg.CMD_SEM_HELD [k] 1).wr Reg.CMD_SEM_HOLDER_CTX [k] n).wr Reg.CMD_SEM_BROKEN [k] 0)

/-- A write of the contexts of a force-released semaphore's owner waits in the fabric: it may be the former holder's, so that no LOCK retires before it (R121). -/
def State.formerWrites (s : State) (k : Nat) : Bool :=
  s.flag Reg.CMD_SEM_BROKEN [k] &&
    s.fab.open_.any (fun t => t.write && !t.expired && t.source = srcCode .cmp && t.tag = s.rd Reg.CMD_SEM_OWNER [k])

/-- LOCK acquires a semaphore, or waits for it (R115 to R118). A semaphore that waits to be handed over is not free. -/
def execLock (i : Issue) (s : State) : Host.Outcome State Fault Refusal :=
  s.issue i 0x60 (fun a _ =>
    let n := i.ctx
    let k := a.i32.toNat % 256
    let us := a.i32.toNat / 2 ^ 16
    if s.ctxInst n ≠ s.rd Reg.CMD_SEM_OWNER [k] then
      (s.violation (s.ctxInst n)).retire n i.cyc a.c 1 .denied (fun c => c)
    else if s.flag Reg.CMD_SEM_HELD [k] && s.rd Reg.CMD_SEM_HOLDER_CTX [k] = n then s.retire n i.cyc a.c 1 .denied (fun c => c)
    else if s.formerWrites k then s
    else if !s.flag Reg.CMD_SEM_HELD [k] && !s.cmp.handoffs.contains k then
      let (st, s) := s.acquire k n
      s.retire n i.cyc a.c 1 st (fun c => c)
    else if us = 0 then s.retire n i.cyc a.c 1 .timeout (fun c => c)
    else
      let s := s.spend n i.cyc
      ({ s with cmp := { s.cmp with semQ := s.cmp.semQ ++ [(k, n)] } }).suspend n (.sem k us) a.c 1)

/-- LOCK_TIMEOUT: the timeout of a waiting LOCK has passed (R117). -/
def execLockTimeout (n : Nat) (s : State) : Host.Outcome State Fault Refusal :=
  match (s.ctx n).wait with
  | some (.sem _ _) => go ((s.leaveQueues n).retireWait n .timeout id)
  | _ => go s

/-- UNLOCK by the holder frees the semaphore, and the first waiter takes it next (R119). -/
def execUnlock (i : Issue) (s : State) : Host.Outcome State Fault Refusal :=
  s.issue i 0x61 (fun a _ =>
    let n := i.ctx
    let k := a.i32.toNat % 256
    if s.ctxInst n = s.rd Reg.CMD_SEM_OWNER [k] && s.flag Reg.CMD_SEM_HELD [k] && s.rd Reg.CMD_SEM_HOLDER_CTX [k] = n then
      let s := s.wr Reg.CMD_SEM_HELD [k] 0
      let s := if s.cmp.semQ.any (fun e => e.1 = k) then
        { s with cmp := { s.cmp with handoffs := s.cmp.handoffs ++ [k] } } else s
      s.retire n i.cyc a.c 1 .ok (fun c => c)
    else (s.violation (s.ctxInst n)).retire n i.cyc a.c 1 .denied (fun c => c))

/-- SEMAPHORE_HANDOFF: a freed semaphore goes to its first waiter, whose LOCK retires (R119, R121). -/
def execSemaphoreHandoff (k : Nat) (s : State) : Host.Outcome State Fault Refusal :=
  if !s.cmp.handoffs.contains k || s.formerWrites k then go s else
  let s := { s with cmp := { s.cmp with handoffs := s.cmp.handoffs.filter (· ≠ k) } }
  match s.cmp.semQ.find? (fun e => e.1 = k) with
  | none => go s
  | some e =>
    let s := { s with cmp := { s.cmp with semQ := s.cmp.semQ.filter (fun x => x.2 ≠ e.2) } }
    let (st, s) := s.acquire k e.2
    go (s.retireWait e.2 st id)

/-! ### RSTCTX (R126) -/

/-- RSTCTX resets context KA[5:0]; naming context 0 returns ST_DENIED. It retires once every step is done: while an access of the target waits in the fabric, the target has not reached its instruction boundary (R126). -/
def execRstctx (i : Issue) (s : State) : Host.Outcome State Fault Refusal :=
  s.attempt (partyCtx i.ctx) none (fun s => s.issue i 0x71 (fun a c =>
    let n := (c.ka a).toNat
    if n = 0 then s.retire i.ctx i.cyc a.c 1 .denied (fun c => c)
    else if (s.ctx n).within then s.stopContext n
    else (s.resetContext n).retire i.ctx i.cyc a.c 1 .ok (fun c => c)))

end Sys2Proof.Machine
end

