-- ==== Sys2Proof/Machine/Num.lean ====
section
/-! DEFINITION. Numbers (10, R313 to R320, Table inf.3; 14, R471): floating-point values as exact dyadic numbers, their formats, rounding, arithmetic, and conversion to integers. -/

namespace Sys2Proof.Machine

/-- A floating-point value: NaN, an infinity, or the number m × 2^e with a sign. -/
inductive Fl where
  | nan
  | inf (neg : Bool)
  | fin (neg : Bool) (m : Nat) (e : Int)
  deriving DecidableEq, Repr

/-- An encoding: fraction bits, exponent bits, and whether the top exponent code holds infinities (E4M3 has none, R317). -/
structure Fmt where
  frac : Nat
  ebits : Nat
  hasInf : Bool
  deriving DecidableEq, Repr

/-- The formats of Table inf.3. -/
def fp32 : Fmt := ⟨23, 8, true⟩
def fp16 : Fmt := ⟨10, 5, true⟩
def bf16 : Fmt := ⟨7, 8, true⟩
def e4m3 : Fmt := ⟨3, 4, false⟩
def e5m2 : Fmt := ⟨2, 5, true⟩

/-- The exponent bias. -/
def Fmt.bias (f : Fmt) : Nat := 2 ^ (f.ebits - 1) - 1

/-- The least magnitude code that is no finite number. -/
def Fmt.limit (f : Fmt) : Nat := if f.hasInf then (2 ^ f.ebits - 1) * 2 ^ f.frac else 2 ^ (f.ebits + f.frac) - 1

/-- The canonical quiet NaN (R318). -/
def Fmt.quiet (f : Fmt) : Nat := if f.hasInf then f.limit + 2 ^ (f.frac - 1) else f.limit

/-- The value of an encoding; subnormal codes are honoured (R315). -/
def Fmt.decode (f : Fmt) (v : Nat) : Fl :=
  let neg := bitAt v (f.frac + f.ebits)
  let mag := bitsOf v 0 (f.frac + f.ebits)
  if f.limit ≤ mag then (if f.hasInf && mag = f.limit then .inf neg else .nan)
  else
    let ex := mag / 2 ^ f.frac
    let fr := mag % 2 ^ f.frac
    if ex = 0 then .fin neg fr (1 - (f.bias : Int) - f.frac)
    else .fin neg (2 ^ f.frac + fr) ((ex : Int) - f.bias - f.frac)

/-- m × 2^e to a multiple of 2^q, q at or above e: to nearest with ties to even, or toward zero. -/
def roundShift (zero : Bool) (m k : Nat) : Nat :=
  let n := m >>> k
  let r := m % 2 ^ k
  if zero then n
  else if 2 * r > 2 ^ k || (2 * r = 2 ^ k && n % 2 = 1) then n + 1 else n

/-- The magnitude code of m × 2^e, before the check for overflow. -/
def Fmt.magnitude (f : Fmt) (zero : Bool) (m : Nat) (e : Int) : Nat :=
  if m = 0 then 0 else
  let emin : Int := 1 - (f.bias : Int)
  let q := max ((Nat.log2 m : Int) + e - f.frac) (emin - f.frac)
  let n := if q ≤ e then m <<< (e - q).toNat else roundShift zero m (q - e).toNat
  let ex := (q + f.frac + f.bias).toNat
  (ex - 1) * 2 ^ f.frac + n

/-- A value rounded into a format: `zero` selects rounding toward zero, `sat` the largest finite value on overflow (R316 to R318; Table inf.1, RND and SATF). -/
def Fmt.encode (f : Fmt) (zero sat : Bool) (v : Fl) : Nat :=
  let sign := fun (neg : Bool) => if neg then 2 ^ (f.frac + f.ebits) else 0
  match v with
  | .nan => f.quiet
  | .inf neg => if f.hasInf then sign neg + f.limit else f.quiet
  | .fin neg m e =>
    let mag := f.magnitude zero m e
    if mag < f.limit then sign neg + mag
    else if sat then sign neg + (f.limit - 1)
    else if f.hasInf then sign neg + f.limit
    else f.quiet

/-- A value rounded to FP32, to nearest with ties to even. -/
def Fl.r32 (v : Fl) : Fl := fp32.decode (fp32.encode false false v)

/-- The FP32 bits of a value. -/
def Fl.bits32 (v : Fl) : Nat := fp32.encode false false v

/-- An integer as a value. -/
def Fl.ofInt (i : Int) : Fl := .fin (i < 0) i.natAbs 0

/-- A dyadic number as signed integer and exponent. -/
def signedM (neg : Bool) (m : Nat) : Int := if neg then -(m : Int) else m

/-- The negated value. -/
def Fl.neg : Fl → Fl
  | .nan => .nan
  | .inf s => .inf (!s)
  | .fin s m e => .fin (!s) m e

/-- The exact product (R318: infinity times zero is NaN). -/
def Fl.mul : Fl → Fl → Fl
  | .nan, _ => .nan
  | _, .nan => .nan
  | .inf s, .inf t => .inf (s != t)
  | .inf s, .fin t m _ => if m = 0 then .nan else .inf (s != t)
  | .fin s m _, .inf t => if m = 0 then .nan else .inf (s != t)
  | .fin s m e, .fin t n d => .fin (s != t) (m * n) (e + d)

/-- The exact sum (R318: infinity minus infinity is NaN); a zero sum is negative only where both terms are. -/
def Fl.add : Fl → Fl → Fl
  | .nan, _ => .nan
  | _, .nan => .nan
  | .inf s, .inf t => if s = t then .inf s else .nan
  | .inf s, .fin _ _ _ => .inf s
  | .fin _ _ _, .inf t => .inf t
  | .fin s m e, .fin t n d =>
    let q := min e d
    let v := signedM s (m <<< (e - q).toNat) + signedM t (n <<< (d - q).toNat)
    if v = 0 then .fin (s && t) 0 q else .fin (v < 0) v.natAbs q

/-- FP32 operations, each rounded once. -/
def Fl.add32 (a b : Fl) : Fl := (a.add b).r32
def Fl.sub32 (a b : Fl) : Fl := (a.add b.neg).r32
def Fl.mul32 (a b : Fl) : Fl := (a.mul b).r32

/-- The FP32 quotient, rounded once. -/
def Fl.div32 : Fl → Fl → Fl
  | .nan, _ => .nan
  | _, .nan => .nan
  | .inf _, .inf _ => .nan
  | .inf s, .fin t _ _ => .inf (s != t)
  | .fin s _ _, .inf t => .fin (s != t) 0 0
  | .fin s m e, .fin t n d =>
    if n = 0 then (if m = 0 then .nan else .inf (s != t))
    else
      let k := 64 + Nat.log2 n
      let q := (m <<< k) / n
      let r := (m <<< k) % n
      (Fl.fin (s != t) (2 * q + (if r = 0 then 0 else 1)) (e - d - k - 1)).r32

/-- a < b; false where either is NaN. -/
def Fl.lt : Fl → Fl → Bool
  | .nan, _ => false
  | _, .nan => false
  | .inf s, .inf t => s && !t
  | .inf s, .fin _ _ _ => s
  | .fin _ _ _, .inf t => !t
  | .fin s m e, .fin t n d =>
    let q := min e d
    signedM s (m <<< (e - q).toNat) < signedM t (n <<< (d - q).toNat)

/-- The greater and the smaller of two values; NaN where either is NaN (R318). -/
def Fl.max2 (a b : Fl) : Fl := if a = .nan || b = .nan then .nan else if a.lt b then b else a
def Fl.min2 (a b : Fl) : Fl := if a = .nan || b = .nan then .nan else if b.lt a then b else a

/-- A value as an integer, to nearest with ties to even or toward zero; NaN gives 0 and an infinity a limit (R319). -/
def Fl.toIntSat (v : Fl) (zero : Bool) (lo hi : Int) : Int :=
  match v with
  | .nan => 0
  | .inf s => if s then lo else hi
  | .fin s m e =>
    let i := signedM s (if 0 ≤ e then m <<< e.toNat else roundShift zero m (-e).toNat)
    max lo (min hi i)

/-- The exact sum of finite values as an integer over 2^q, with q the least exponent, and the sum of the magnitudes over 2^q. -/
def exactSum (l : List Fl) : Int × Nat × Int :=
  let q := l.foldl (fun q v => match v with | .fin _ _ e => min q e | _ => q) 0
  l.foldl (fun (acc : Int × Nat × Int) v => match v with
    | .fin s m e => (acc.1 + signedM s (m <<< (e - q).toNat), acc.2.1 + m <<< (e - q).toNat, q)
    | _ => acc) (0, 0, q)

/-- A sum in FP32 whose order the spec does not give: exact where no order of summation rounds, else a function of the terms that the spec leaves open (DESIGN CHOICE, log entry 15). -/
def sumAny (l : List Fl) : Fl :=
  if l.all (fun v => match v with | .fin _ _ _ => true | _ => false) then
    let (v, mag, q) := exactSum l
    if mag ≤ 2 ^ 24 && -149 ≤ q then .fin (v < 0) v.natAbs q
    else fp32.decode (Config.sum32 (l.map Fl.bits32) % 2 ^ 32)
  else (l.foldl Fl.add (.fin false 0 0)).r32

/-- The transcendental functions of the array, whose results the spec does not give to the last bit: FP32 bits by function code (DESIGN CHOICE, log entry 15). -/
def fnOpen (code : Nat) (v : Fl) : Fl := if v = .nan then .nan else fp32.decode (Config.fun32 code v.bits32 % 2 ^ 32)

/-- Two decimals as values: 3 and 6 of hard-swish and ReLU6. -/
def flNat (n : Nat) : Fl := .fin false n 0

/-- The activation functions by ACTIVATE's P3 (Table inf.4), in FP32; `slope` is that of leaky ReLU. Sigmoid, tanh, GELU and SiLU are open. -/
def activate (code : Nat) (slope v : Fl) : Fl :=
  match code with
  | 0 => v
  | 1 => v.max2 (flNat 0)
  | 2 => (v.max2 (flNat 0)).min2 (flNat 6)
  | 3 => if v = .nan then .nan else if v.lt (flNat 0) then v.mul32 slope else v
  | 8 => (v.mul32 (((v.add32 (flNat 3)).max2 (flNat 0)).min2 (flNat 6))).div32 (flNat 6)
  | c => fnOpen c v

/-! ### The data types of Table inf.3 -/

/-- Bytes of an element. -/
def elemSize (ty : Nat) : Nat := if ty ≤ 3 then 1 else if ty ≤ 5 then 2 else 4

/-- An integer type. -/
def isIntType (ty : Nat) : Bool := ty = 0 || ty = 1 || ty = 7

/-- The value of an element. -/
def elemValue (ty v : Nat) : Fl :=
  match ty with
  | 0 => .ofInt (signedOf 8 v)
  | 1 => .ofInt (v % 256)
  | 2 => e4m3.decode v
  | 3 => e5m2.decode v
  | 4 => fp16.decode v
  | 5 => bf16.decode v
  | 6 => fp32.decode v
  | _ => .ofInt (signedOf 32 v)

/-- The limits of an integer type. -/
def intLimits (ty : Nat) : Int × Int := if ty = 0 then (-128, 127) else if ty = 1 then (0, 255) else (-(2 ^ 31), 2 ^ 31 - 1)

/-- A value converted to a type (R316, R317, R319). -/
def elemEncode (ty : Nat) (zero sat : Bool) (v : Fl) : Nat :=
  match ty with
  | 2 => e4m3.encode zero sat v
  | 3 => e5m2.encode zero sat v
  | 4 => fp16.encode zero sat v
  | 5 => bf16.encode zero sat v
  | 6 => fp32.encode zero sat v
  | _ => wrapTo (8 * elemSize ty) (v.toIntSat zero (intLimits ty).1 (intLimits ty).2)

/-! ### Dot products (R313, R314) -/

/-- A list in groups of `n`. -/
def groupsOf {α : Type} (n : Nat) : (fuel : Nat) → List α → List (List α)
  | 0, _ => []
  | fuel + 1, l => if l.isEmpty then [] else l.take n :: groupsOf n fuel (l.drop n)

/-- The integer accumulator: groups of 32 products, 48 bits, saturating (R313). -/
def intDot (ps : List (Int × Int)) : Int :=
  (groupsOf 32 (ps.length + 1) ps).foldl (fun acc g =>
    max (-(2 ^ 47)) (min (2 ^ 47 - 1) (acc + g.foldl (fun a p => a + p.1 * p.2) 0))) 0

/-- The floating-point accumulator: exact groups of 16 products, each added in FP32 (R314). -/
def floatDot (ps : List (Fl × Fl)) : Fl :=
  (groupsOf 16 (ps.length + 1) ps).foldl (fun acc g =>
    (acc.add (g.foldl (fun a p => a.add (p.1.mul p.2)) (.fin false 0 0))).r32) (.fin false 0 0)

end Sys2Proof.Machine
end

