-- ==== Sys2Proof/Machine/Ego.lean ====
section
/-! DEFINITION. Ego-motion (13, R413, R423 to R428): the integrator's step, its bias, its kept steps and the pose queries; the state of streams. -/

namespace Sys2Proof.Machine

/-! ### Streams -/

/-- A stream; an unlisted one is as at ENABLE. -/
def State.stream (s : State) (n : Nat) : Stream := tget {} s.sxt.streams n

/-- The state with Sextant's state replaced. -/
def State.setSxt (s : State) (x : Sxt) : State := { s with sxt := x }

/-- The state with a stream replaced. -/
def State.setStream (s : State) (n : Nat) (x : Stream) : State := s.setSxt { s.sxt with streams := tput s.sxt.streams n x }

/-- Sextant and the sensor ports are out of reset and powered. -/
def State.snsUp (s : State) : Bool := s.boot.mainUp && s.domainOn 8

/-- STATE of a stream: 0 off, 1 healthy, 2 suspect, 3 masked. -/
def State.health (s : State) (n : Nat) : Nat := s.rd Reg.SNS_STREAM_STATE [n]

/-- A change of state into suspect or masked is told (R412). -/
def State.setHealth (s : State) (n st why : Nat) : State :=
  let same := s.health n = st
  let s := (s.wr Reg.SNS_STREAM_STATE [n] st).wr Reg.SNS_STREAM_WHY [n] why
  if same || st < 2 then s
  else
    let owner := s.rd Reg.SNS_STREAM_OWNER [n]
    let s := (s.record 0x50 37 (leBytes 1 n ++ leBytes 1 st ++ leBytes 1 why)).send owner (s.rd Reg.TTU_INST_FLT_VEC [owner])
    if s.flag Reg.SNS_STREAM_SAFE [n] then s.raise 10 else s

/-- Accesses of Sextant and of the ingest of an XD (R181): tag 37 on physical addresses. -/
def sextantAccess : Access := { tag := 37, pid := 0, src := .sextant, kind := .read }
def ingestAccess (xd : Nat) : Access := { tag := 37, pid := 0, src := .xd xd, kind := .read }

/-! ### FP32 arithmetic (R423) -/

/-- FP32 operations on bits, each rounded once. -/
def fadd (a b : Nat) : Nat := ((fp32.decode a).add32 (fp32.decode b)).bits32
def fsub (a b : Nat) : Nat := ((fp32.decode a).sub32 (fp32.decode b)).bits32
def fmul (a b : Nat) : Nat := ((fp32.decode a).mul32 (fp32.decode b)).bits32
def fdiv (a b : Nat) : Nat := ((fp32.decode a).div32 (fp32.decode b)).bits32
def fneg (a : Nat) : Nat := ((fp32.decode a).neg).bits32
def fcos (a : Nat) : Nat := Config.trig32 0 a % 2 ^ 32
def fsin (a : Nat) : Nat := Config.trig32 1 a % 2 ^ 32
def fsqrt (a : Nat) : Nat := Config.trig32 2 a % 2 ^ 32
def fatan2 (a b : Nat) : Nat := Config.atan2 a b % 2 ^ 32

/-- The quotient of two naturals as FP32 bits: the constants of R424, R399 and R423. -/
def fratio (a b : Nat) : Nat := fdiv (Fl.ofInt a).bits32 (Fl.ofInt b).bits32

/-- dt of a step. -/
def egoDt : Nat := fratio 1 2000

/-! ### Inputs (R399, R423, Tables sns.4 and sns.1) -/

/-- A little-endian or big-endian INT16 at a byte offset. -/
def int16At (b : List Byte) (off : Nat) (big : Bool) : Int :=
  let l := (b.drop off).take 2
  signedOf 16 (ofLeBytes (if big then l.reverse else l))

/-- The six IMU values, each with its sign by the axis-negate bits: gyro x, y, z, then acceleration x, y, z. -/
def imuRaw (p0 : Nat) (b : List Byte) : List Int :=
  (List.range 6).map (fun k =>
    let v := int16At b (bitsOf p0 13 5 + 2 * k) (bitAt p0 18)
    if bitAt p0 (19 + k) then -v else v)

/-- The four wheel speeds in 0.01 m/s: front-left, front-right, rear-left, rear-right. -/
def wheelRaw (b : List Byte) : List Int := (List.range 4).map (fun k => int16At b (2 * k) false)

/-- A stream of a kind is usable: enabled, not masked, and its newest sample at most `us` µs old on Sextant's own count (R423). -/
def State.usable (s : State) (n kind us : Nat) : Bool :=
  n < 128 && s.flag Reg.SNS_STREAM_ENABLE [n] && s.rd Reg.SNS_STREAM_KIND [n] = kind && s.health n ≠ 3
    && (match (s.stream n).at_ with | some t => s.now - t ≤ 1000 * us | none => false)

/-- The inputs of a step: g and a of the IMU, and the rear speeds in m/s; none where the stream is not usable. -/
structure EgoIn where
  imu : Option (List Nat)
  wheels : Option (Nat × Nat)
  deriving DecidableEq, Repr

/-- The inputs that a step reads (R423). -/
def State.egoIn (s : State) : EgoIn :=
  let i := s.rd Reg.SXT_EGO_IMU []
  let w := s.rd Reg.SXT_EGO_WHEEL []
  let raw := imuRaw (s.rd Reg.SNS_STREAM_PARSE0 [i]) (s.stream i).bytes
  let spd := wheelRaw (s.stream w).bytes
  let lsb := fun k => if k < 3 then s.rd Reg.SXT_G_LSB [] else s.rd Reg.SXT_A_LSB []
  let mps := fun k => fdiv (Fl.ofInt (spd.getD k 0)).bits32 (Fl.ofInt 100).bits32
  { imu := if s.usable i 3 5000 then some ((List.range 6).map (fun k => fmul (Fl.ofInt (raw.getD k 0)).bits32 (lsb k))) else none
    wheels := if s.usable w 4 50000 then some (mps 2, mps 3) else none }

/-! ### The step (R424) -/

/-- One step from the pose before it. -/
def egoStep (p : Kept) (bias track : Nat) (e : EgoIn) : Kept :=
  let dt := egoDt
  match e.imu, e.wheels with
  | none, none => { p with q := 0 }
  | imu, wh =>
    let g := imu.getD []
    let at_ := fun k => g.getD k 0
    let v := match wh with
      | some (rl, rr) => fdiv (fadd rl rr) (Fl.ofInt 2).bits32
      | none => fadd p.v (fmul (at_ 3) dt)
    let w := match imu, wh with
      | some _, _ => fsub (at_ 2) bias
      | none, some (rl, rr) => fdiv (fsub rr rl) track
      | none, none => p.w
    let yaw := fadd p.yaw (fmul w dt)
    let x := fadd p.x (fmul (fmul v (fcos yaw)) dt)
    let y := fadd p.y (fmul (fmul v (fsin yaw)) dt)
    let k1 := fratio 998 1000
    let k2 := fratio 2 1000
    let roll := if imu.isSome then fadd (fmul k1 (fadd p.roll (fmul (at_ 0) dt))) (fmul k2 (fatan2 (at_ 4) (at_ 5))) else p.roll
    let pitch := if imu.isSome then
        fadd (fmul k1 (fadd p.pitch (fmul (at_ 1) dt)))
          (fmul k2 (fatan2 (fneg (at_ 3)) (fsqrt (fadd (fmul (at_ 4) (at_ 4)) (fmul (at_ 5) (at_ 5))))))
      else p.pitch
    let z := fsub p.z (fmul (fmul v (fsin pitch)) dt)
    { p with x := x, y := y, z := z, roll := roll, pitch := pitch, yaw := yaw, v := v, w := w
             q := (if imu.isSome then 2 else 0) + (if wh.isSome then 1 else 0) }

/-- The pose record of a step (Table sxt.1). -/
def Kept.bytes (k : Kept) : List Byte :=
  leBytes 8 k.time ++ [k.x, k.y, k.z, k.roll, k.pitch, k.yaw, k.v, k.w].flatMap (leBytes 4) ++ leBytes 1 k.q ++ leBytes 1 k.tq
    ++ leBytes 22 0

/-- The pose as a list of its components. -/
def Kept.comps (k : Kept) : List Nat := [k.x, k.y, k.z, k.roll, k.pitch, k.yaw, k.v, k.w]

/-- The plausibility of IMU against wheels (R413): runs of steps beyond and within PL_YAW make both streams suspect or healthy. -/
def State.plausible (s : State) (e : EgoIn) : State :=
  match e.imu, e.wheels with
  | some g, some (rl, rr) =>
    let v := fp32.decode (fdiv (fadd rl rr) (Fl.ofInt 2).bits32)
    if !(flNat 2).lt v then s
    else
      let track := fdiv (Fl.ofInt (s.rd Reg.SXT_TRACK_MM [])).bits32 (Fl.ofInt 1000).bits32
      let d := fp32.decode (fsub (fsub (g.getD 2 0) s.sxt.ego.bias) (fdiv (fsub rr rl) track))
      let mag := if d.lt (flNat 0) then d.neg else d
      let lim := (flNat (s.rd Reg.SXT_PL_YAW [])).div32 (flNat 1000)
      let i := s.rd Reg.SXT_EGO_IMU []
      let w := s.rd Reg.SXT_EGO_WHEEL []
      let o := s.sxt.ego
      if lim.lt mag then
        let far := o.far + 1
        let s := s.setSxt { s.sxt with ego := { o with far := far, near := 0 } }
        if far = max 1 (s.rd Reg.SXT_PL_N [] * 10) then
          [i, w].foldl (fun s n =>
            (if s.health n = 1 then s.setHealth n 2 0 else s).incSat Reg.SNS_STREAM_PLAUS [n] 1) s
        else s
      else
        let near := o.near + 1
        let s := s.setSxt { s.sxt with ego := { o with far := 0, near := near } }
        if near = 2000 then [i, w].foldl (fun s n => if s.health n = 2 then s.setHealth n 1 0 else s) s else s
  | _, _ => s

/-- The g_z of a step, for the bias of the running second, and whether the second is still (R425). -/
def State.feedBias (s : State) (e : EgoIn) : State :=
  let o := s.sxt.ego
  let zero := e.wheels.isSome && (wheelRaw (s.stream (s.rd Reg.SXT_EGO_WHEEL [])).bytes).all (fun v => v = 0)
  let gz := match e.imu with | some g => o.gz ++ [g.getD 2 0] | none => o.gz
  s.setSxt { s.sxt with ego := { o with gz := gz, still := o.still && e.imu.isSome && zero } }

/-- The address of a pose record (R428). -/
def State.egoRing (s : State) : Nat :=
  s.rdPair Reg.SXT_EGO_RING_LO Reg.SXT_EGO_RING_HI [] + 64 * (s.sxt.ego.step % 2 ^ s.rd Reg.SXT_EGO_EGO_LOG2 [])

/-- EGO_STEP: one step of the integrator (R413, R423, R424, R426, R428). -/
def execEgoStep (s : State) : Host.Outcome State Fault Refusal :=
  s.attempt partySextant none (fun s => if !s.snsUp then go s else
  let e := s.egoIn
  let s := (s.plausible e).feedBias e
  let o := s.sxt.ego
  let track := fdiv (Fl.ofInt (s.rd Reg.SXT_TRACK_MM [])).bits32 (Fl.ofInt 1000).bits32
  let k := { egoStep o.cur o.bias track e with time := s.epoch, tq := s.quality }
  let s := s.setSxt { s.sxt with ego := { o with cur := k, hist := (k :: o.hist).take 4096 } }
  let s := (s.dmaWrite sextantAccess s.egoRing k.bytes).2
  let s := s.setSxt { s.sxt with ego := { s.sxt.ego with step := o.step + 1 } }
  go (s.wr Reg.SXT_STAT_POSE_Q [] k.q))

/-- BIAS_UPDATE: a whole second of Sextant's own count ends; where it was still, the bias takes the mean of g_z (R425). -/
def execBiasUpdate (s : State) : Host.Outcome State Fault Refusal :=
  if !s.snsUp then go s else
  let o := s.sxt.ego
  let mean := ((sumAny (o.gz.map fp32.decode)).div32 (flNat o.gz.length)).bits32
  go (s.setSxt { s.sxt with ego := { o with
    bias := if o.still && !o.gz.isEmpty then mean else o.bias, gz := [], still := true } })

/-! ### Pose queries (R426) -/

/-- A pose between two kept steps, or after the newest. -/
def poseBetween (kind : Nat) (a b : Kept) (t q : Nat) : Kept :=
  let c := fun k => Config.poseAt kind a.comps b.comps a.time b.time t k % 2 ^ 32
  { time := t, x := c 0, y := c 1, z := c 2, roll := c 3, pitch := c 4, yaw := c 5, v := c 6, w := c 7, q := q, tq := b.tq }

/-- The pose at a time among kept steps, the newest first. -/
def poseIn : List Kept → Nat → Option Kept
  | [], _ => none
  | [k], t => if t = k.time && k.q ≠ 0 then some k else none
  | b :: a :: rest, t =>
    if t = b.time then (if b.q ≠ 0 then some b else none)
    else if a.time < t && t < b.time then
      (if a.q ≠ 0 && b.q ≠ 0 then some (poseBetween 0 a b t (min a.q b.q)) else none)
    else poseIn (a :: rest) t

/-- The answer to a pose query for a time; none where it is invalid. -/
def State.poseQuery (s : State) (t : Nat) : Option Kept :=
  match s.sxt.ego.hist with
  | [] => none
  | k :: ks =>
    if t ≤ k.time then poseIn (k :: ks) t
    else if t - k.time ≤ s.rd Reg.SXT_EGO_PRED_MS [] * 1000000 && k.q ≠ 0 then some (poseBetween 1 k k t k.q)
    else none

/-- Epoch time has stepped by `d` ns: every kept step moves by it, and open epochs carry STEP (R427). -/
def State.shiftPoses (s : State) (d : Int) : State :=
  let mv := fun (k : Kept) => { k with time := wrapTo 64 (k.time + d) }
  s.setSxt { s.sxt with ego := { s.sxt.ego with cur := mv s.sxt.ego.cur, hist := s.sxt.ego.hist.map mv }
                        opened := s.sxt.opened.map (fun e => { e with step := true }) }

end Sys2Proof.Machine
end

