-- ==== Sys2Proof/Machine/Harts.lean ====
section
/-! DEFINITION. The harts (09): gates, asynchronous exits, access faults, store errors, interrupts, timers, cluster power states, and the meanings of their commands. -/

namespace Sys2Proof.Machine

/-! ### Traps and asynchronous exits (R281, Tables apc.3 and apc.4) -/

/-- vtype with vill set. -/
def villType : DWord := BitVec.ofNat 64 (2 ^ 63)

/-- A hart is in enclave mode. -/
def State.inEnclave (s : State) (h : Nat) : Bool := s.flag Reg.APC_HART_IN_ENCL [h]

/-- The 25 full lines of a save area (Table apc.4). -/
def Hart.saved (x : Hart) : List Byte :=
  leBytes 8 x.pc
    ++ (List.range 31).flatMap (fun k => leBytes 8 (tget 0 x.x (k + 1)).toNat)
    ++ (List.range 32).flatMap (fun k => leBytes 8 (tget 0 x.f k).toNat)
    ++ (List.range 32).flatMap (fun k => leBytes 32 (tget 0 x.v k).toNat)
    ++ leBytes 8 x.fcsr ++ leBytes 8 x.vtype.toNat ++ leBytes 8 x.vl ++ leBytes 8 x.vstart
    ++ List.replicate 32 0

/-- A write whose initiator does not wait for its response: it is charged, and one that no buffer takes yet waits at its initiator. -/
def State.putLine (s : State) (a : Access) (addr : Nat) (bytes : List Byte) : State :=
  match s.bus { acc := a, addr := addr, size := bytes.length, bytes := bytes, err := .none } .never with
  | (.held need q, t) => t.hold { id := 0, tag := a.tag, need := need, req := some q }
  | (_, t) => t

/-- The hart writes its state to its save area as full lines (R281). The line writes are non-posted accesses of the hart, which they do not hold back. -/
def State.writeSave (s : State) (h base : Nat) (bytes : List Byte) : State :=
  let a : Access := { tag := s.rd Reg.APC_HART_TAG [h], pid := 0, src := .hart h, kind := .write, virt := (s.hart h).virt, firm := true }
  (List.range 25).foldl (fun s k => s.putLine a (base + 64 * k) ((bytes.drop (64 * k)).take 64)) s

/-- The asynchronous exit of a hart in enclave mode (R281). -/
def State.asyncExit (s : State) (h : Nat) : State :=
  if !s.inEnclave h then s else
  let x := s.hart h
  let s := s.writeSave h (s.ertBase (s.rd Reg.APC_HART_ENTRY [h]) + 2048 * h) x.saved
  let s := s.setHart h { s.hart h with x := [], f := [], v := [], fcsr := 0, vtype := villType, vl := 0, vstart := 0, async := true }
  s.wr Reg.APC_HART_IN_ENCL [h] 0

/-- A hart takes a trap, in the mode that delegation gives; in enclave mode an asynchronous exit comes first, and xepc is the resume address and xtval 0 (R281). -/
def State.takeTrap (s : State) (h cause tval : Nat) (irq : Bool) : State :=
  let encl := s.inEnclave h
  let s := s.asyncExit h
  let x := s.hart h
  let m := x.trapMode cause irq
  s.setHart h { x with mmode := m = 0, virt := m = 2,
                       trap := some { cause := cause, tval := if encl then 0 else tval, epc := if encl then x.resume else x.pc, irq := irq, mode := m } }

/-- A hart that stands somewhere takes an interrupt. -/
def State.takeIrq (s : State) (h cause : Nat) (p : Option HartAt) : State :=
  match p with
  | some p => (s.stand h p).takeTrap h cause 0 true
  | none => s

/-! ### Gates (R278 to R280) -/

/-- What a word of major opcode custom-0 spells (Table apc.2); `illegal` covers another funct3 and a field that has to be 0 (R278). -/
inductive GateOp where
  | mark (e : Nat)
  | enter | exit | illegal
  /-- No word of custom-0. -/
  | none
  deriving DecidableEq, Repr

/-- The instruction that a word spells. -/
def gateOp (w : Nat) : GateOp :=
  let f3 := bitsOf w 12 3
  if w ≥ 2 ^ 32 || w % 128 ≠ 0x0B then .none
  else if bitsOf w 7 5 ≠ 0 || bitsOf w 20 6 ≠ 0 then .illegal
  else if f3 = 0 then (if bitsOf w 15 5 = 0 then .mark (bitsOf w 26 6) else .illegal)
  else if bitsOf w 26 6 ≠ 0 then .illegal
  else if f3 = 1 then .enter else if f3 = 2 then .exit else .illegal

/-- The entry that a word carries, if it is GATE.MARK. -/
def gateMark (w : Nat) : Option Nat :=
  match gateOp w with | .mark e => some e | _ => none

/-- A hart executes a word of custom-0 as one of the three instructions: an illegal word takes cause 2 in its place, with the word in xtval (R278; PRESUMED, log entry 12). -/
def State.gateRun (s : State) (h : Nat) (p : HartAt) (w : Nat) (is : GateOp → Bool) (f : State → Host.Outcome State Fault Refusal) : Host.Outcome State Fault Refusal :=
  if h ≥ 16 || !placeValid p then .refused .illFormed
  else if gateOp w = .illegal then go ((s.stand h p).takeTrap h 2 w false)
  else if is (gateOp w) then f (s.stand h p)
  else .refused .illFormed

/-- The general registers that a gate passes: x10 to x17. -/
def passedX (l : List (Nat × DWord)) : List (Nat × DWord) := l.filter (fun e => 10 ≤ e.1 && e.1 ≤ 17)

/-- VMASK keeps a guest from making any access (R274). -/
def State.barred (s : State) (h : Nat) (p : HartAt) : Bool := p.virt && !bitAt (s.rd Reg.APC_HART_VMASK [h]) p.vmid

/-- The Almanac's record of a hart and a VMID outside its VMASK (R274). -/
def State.barRecord (s : State) (h : Nat) (p : HartAt) (cause va : Nat) : State :=
  s.record 0x20 (placeTag p) (leBytes 1 cause ++ leBytes 6 va ++ leBytes 3 h)

/-- The fetch of the word at a gate's target, with the check of R243 waived (R279). -/
def State.gateFetch (s : State) (h : Nat) (p : HartAt) (va pa : Nat) : Option Nat × State :=
  if s.barred h p then (none, s.barRecord h p 1 va)
  else
    let a : Access := { tag := placeTag p, pid := 0, src := .hart h, kind := .fetch, virt := p.virt, gate := true }
    let (st, b, s) := s.engineBus a pa 4 [] .ask
    (if st = .ok then some (ofLeBytes b) else none, s)

/-- GATE_MARK executes as a no-op (R278). -/
def execGateMark (h : Nat) (p : HartAt) (w : Nat) (s : State) : Host.Outcome State Fault Refusal :=
  s.gateRun h p w (fun o => match o with | .mark _ => true | _ => false) go

/-- A gate whose checks have passed (R279, Table apc.3): enclave mode for entry `e`, the resume address, the registers, and the instruction after the mark. -/
def State.enterGate (s : State) (h pc rs1 e : Nat) : State :=
  let x := s.hart h
  let s := s.setHart h { x with x := passedX x.x, resume := pc, pc := rs1 + 4, lastEntry := e }
  (s.wr Reg.APC_HART_ENTRY [h] e).wr Reg.APC_HART_IN_ENCL [h] 1

/-- The checks of GATE.ENTER in their order (R279). -/
def State.gateEnter (s : State) (h : Nat) (p : HartAt) (rs1 : Nat) (pa : Option Nat) : State :=
  let fault := fun (s : State) => s.takeTrap h 24 rs1 false
  if s.inEnclave h then fault s else
  match pa with
  | none => fault s
  | some a =>
    let (w, s) := s.gateFetch h p rs1 a
    match w.bind gateMark with
    | none => fault s
    | some e =>
      if s.rd Reg.ENC_ERT_STATE [e] = 3 && s.inEntry a e && s.rd Reg.ENC_ERT_INST [e] = placeTag p then s.enterGate h p.pc rs1 e
      else fault s

/-- GATE_ENTER: hart `h` executes the word `w` with target `rs1`, whose physical address is `pa` (none where the fetch takes a page fault) (R279). In M-mode it is illegal. -/
def execGateEnter (h : Nat) (p : HartAt) (w rs1 : Nat) (pa : Option Nat) (s : State) : Host.Outcome State Fault Refusal :=
  s.gateRun h p w (· = .enter) (fun s =>
    if p.mmode then go (s.takeTrap h 2 w false)
    else s.attempt (partyHart h) none (fun s => go (s.gateEnter h p rs1 pa)))

/-- GATE_EXIT: hart `h` executes the word `w` with target `rs1` (R280, Table apc.3); outside enclave mode it is illegal. -/
def execGateExit (h : Nat) (p : HartAt) (w rs1 : Nat) (s : State) : Host.Outcome State Fault Refusal :=
  s.gateRun h p w (· = .exit) (fun s =>
    if s.inEnclave h then
      let x := s.hart h
      let s := s.setHart h { x with x := passedX x.x, f := [], v := [], fcsr := 0, vtype := villType, vl := 0, vstart := 0,
                                    pc := rs1, async := false }
      go (s.wr Reg.APC_HART_IN_ENCL [h] 0)
    else go (s.takeTrap h 2 w false))

/-! ### Failed accesses (R274 to R277) -/

/-- The RISC-V cause of an access fault: fetch 1, load 5, store or AMO 7. -/
def accessCause : Kind → Nat
  | .fetch => 1 | .read => 5 | .write => 7

/-- The statuses that R275 turns into an access fault. -/
def faultStatus (st : Status) : Bool :=
  st = .denied || st = .decode || st = .poison || st = .timeout || st = .notReady

/-- A failing access of hart `h`: ukstat takes the status, and the fault is taken (R275, R276). -/
def State.accessFault (s : State) (h va : Nat) (k : Kind) (st : Status) : State :=
  (s.setHart h { s.hart h with ukstat := statusCode st }).takeTrap h (accessCause k) va false

/-- HART_ACCESS_FAULT: an access of hart `h`, by the instruction at its place, to virtual address `va`, whose physical address is `pa`, fails (R274 to R276; Table apc.1). A guest outside VMASK makes no access: the Almanac records the hart and the VMID. A misaligned AMO or LR/SC takes cause 4 or 6. A fill that fails in HBM is treated as R224 says before the fault. -/
def execHartAccessFault (h : Nat) (p : HartAt) (va pa : Nat) (k : Kind) (f : HartFail) (s : State) : Host.Outcome State Fault Refusal :=
  if h ≥ 16 || !placeValid p then .refused .illFormed else
  match f with
  | .misaligned => if k = .fetch then .refused .illFormed else go ((s.stand h p).takeTrap h (if k = .read then 4 else 6) va false)
  | .status st =>
    if s.barred h p then go (((s.stand h p).barRecord h p (accessCause k) va).takeTrap h (accessCause k) va false)
    else if k = .write && st = .integrity then
      if isHbm s.fuses pa then go (((s.stand h p).mergeFails (s.slotOf pa) (placeTag p) pa).2.accessFault h va k st) else .refused .illFormed
    else if faultStatus st then go ((s.stand h p).accessFault h va k st)
    else .refused .illFormed

/-- STORE_ERROR: a failing status for a non-cacheable store of hart `h` returns (R277); with `at_` the hart's enables let it take local interrupt 16 at once. -/
def execStoreError (h addr : Nat) (st : Status) (at_ : Option HartAt) (s : State) : Host.Outcome State Fault Refusal :=
  if h ≥ 16 || st = .ok then .refused .illFormed
  else go ((s.storeError h addr st).takeIrq h 16 at_)

/-! ### Interrupts and timers (R283 to R288) -/

/-- The external interrupt of an interrupt file: machine 11, supervisor 9, guest 10. -/
def fileCause (f : Nat) : Nat := if f = 0 then 11 else if f = 1 then 9 else 10

/-- IRQ_DELIVER: the oldest message in the fabric reaches its instance, and its place in the link's buffer is free (R190, R283, R284); with `at_` the hart's enables let it take the interrupt at once. -/
def execIrqDeliver (at_ : Option HartAt) (s : State) : Host.Outcome State Fault Refusal :=
  match s.msgs with
  | [] => go s
  | m :: rest =>
    let s := ({ s with msgs := rest }).deliver m
    if s.flag Reg.APC_IRQ_VALID [m.inst] then
      go (s.takeIrq (s.rd Reg.APC_IRQ_HART [m.inst]) (fileCause (s.rd Reg.APC_IRQ_FILE [m.inst])) at_)
    else go s

/-- SETEIPNUM_WRITE: a write of `size` bytes at offset `off` of page `f` of hart `h` (R287). -/
def execSeteipnumWrite (h f off size v : Nat) (s : State) : Host.Outcome State Fault Refusal :=
  if h ≥ 16 || f > 6 || off ≥ 0x1000 then .refused .illFormed
  else if s.rd Reg.APC_CL_STATE [h / 4] = 2 then go (s.answer .decode 0)
  else
    let (st, t) := s.clusterWrite (h / 4) (0x1000 * (8 * (h % 4) + f) + off) size v
    go (t.answer st 0)

/-- MTIMECMP_WRITE: a write of `size` bytes at byte `off` of the mtimecmp register of hart `h` (R287). -/
def execMtimecmpWrite (h off size v : Nat) (s : State) : Host.Outcome State Fault Refusal :=
  if h ≥ 16 || off ≥ 8 then .refused .illFormed
  else if s.rd Reg.APC_CL_STATE [h / 4] = 2 then go (s.answer .decode 0)
  else
    let (st, t) := s.clusterWrite (h / 4) (0x80000 + 8 * (h % 4) + off) size v
    go (t.answer st 0)

/-- The compare value of an interrupt and the time that it is held against (R286): machine 7, supervisor 5, guest 6. -/
def State.compareOf (s : State) (h k : Nat) : Nat × Nat :=
  let x := s.hart h
  if k = 7 then (x.mtimecmp, s.epoch)
  else if k = 5 then (x.stimecmp, s.epoch)
  else (x.vstimecmp, (s.epoch + x.htimedelta) % 2 ^ 64)

/-- TIMER_COMPARE: Epoch time has reached a compare of hart `h`, and its interrupt `k` fires (R286, R288); with `at_` the hart's enables let it take it at once. -/
def execTimerCompare (h k : Nat) (at_ : Option HartAt) (s : State) : Host.Outcome State Fault Refusal :=
  if h ≥ 16 || !(k = 5 || k = 6 || k = 7) then .refused .illFormed else
  let (c, t) := s.compareOf h k
  let x := s.hart h
  if t < c || x.fired.contains k then go s
  else
    let s := s.setHart h { x with fired := x.fired ++ [k], mip := x.mip.filter (· ≠ k) ++ [k] }
    go (s.takeIrq h k at_)

/-- After a step of Epoch time, a compare that lies ahead of it again fires only when time reaches it (R288). -/
def State.rearmTimers (s : State) : State :=
  (List.range 16).foldl (fun s h =>
    let ahead := [5, 6, 7].filter (fun k => (s.compareOf h k).2 < (s.compareOf h k).1)
    let x := s.hart h
    if x.fired.any ahead.contains then
      s.setHart h { x with fired := x.fired.filter (fun k => !ahead.contains k), mip := x.mip.filter (fun k => !ahead.contains k) }
    else s) s

/-- A level source of die `d` is re-armed; while it is still asserted it sends again (R285). -/
def State.sourceAck (s : State) (d x : Nat) : State :=
  let k := 256 * d + x
  let s := { s with apc := { s.apc with sentLevel := s.apc.sentLevel.filter (· ≠ k) } }
  if s.flag Reg.APC_SRC_LEVEL [d, x] && s.apc.asserted.contains k && s.rd Reg.APC_SRC_VEC [d, x] ≠ 0 then
    ({ s with apc := { s.apc with sentLevel := s.apc.sentLevel ++ [k] } }).sourceSend d x
  else s

/-! ### Cluster power states (R289, R290, Table apc.6) -/

/-- The harts of a cluster. -/
def clusterHarts (c : Nat) : List Nat := [4 * c, 4 * c + 1, 4 * c + 2, 4 * c + 3]

/-- BOOT of a cluster. -/
def State.bootAddr (s : State) (c : Nat) : Nat := s.rdPair Reg.APC_CL_BOOT_LO Reg.APC_CL_BOOT_HI [c]

/-- A cluster returns to RUN: from RETAIN with its state, from OFF with its harts starting in M-mode at BOOT. -/
def State.clusterRun (s : State) (c : Nat) : State :=
  let st := s.rd Reg.APC_CL_STATE [c]
  let s := s.wr Reg.APC_CL_STATE [c] 0
  if st = 0 then s
  else (clusterHarts c).foldl (fun s h =>
    let s := s.wr Reg.APC_HART_RUN [h] 0
    if st = 2 then
      ((s.setHart h { pc := s.bootAddr c }).wr Reg.APC_HART_IN_ENCL [h] 0).wr Reg.APC_HART_TAG [h] 0
    else s) s

/-- CLUSTER_STATE_ENTRY: the four harts of cluster `c` meet the entry condition of the requested state, and the cluster enters it (R289, R290). The harts of a cluster in RETAIN are in WFI, so that REQ = 2 takes it to OFF as well (DEDUCED, log entry 12). -/
def execClusterStateEntry (c : Nat) (s : State) : Host.Outcome State Fault Refusal :=
  if c ≥ 4 then .refused .illFormed else
  let req := s.rd Reg.APC_CL_REQ [c]
  let st := s.rd Reg.APC_CL_STATE [c]
  if st = 0 && req = 1 then
    go ((clusterHarts c).foldl (fun s h => s.wr Reg.APC_HART_RUN [h] 1) (s.wr Reg.APC_CL_STATE [c] 1))
  else if st ≤ 1 && req = 2 then
    go ((clusterHarts c).foldl (fun s h => (s.setHart h {}).wr Reg.APC_HART_RUN [h] 3) (s.wr Reg.APC_CL_STATE [c] 2))
  else go s

/-- A file or a compare of the cluster is pending. -/
def State.wakePending (s : State) (c : Nat) : Bool :=
  (clusterHarts c).any (fun h => !(s.hart h).eip.isEmpty || !(s.hart h).mip.isEmpty)

/-- CLUSTER_WAKE: a message to a file of cluster `c`, or a timer compare, wakes it from RETAIN (R289). -/
def execClusterWake (c : Nat) (s : State) : Host.Outcome State Fault Refusal :=
  if c ≥ 4 then .refused .illFormed
  else if s.rd Reg.APC_CL_STATE [c] = 1 && s.wakePending c then go (s.clusterRun c)
  else go s

end Sys2Proof.Machine
end

