-- ==== Sys2Proof/Machine/Clock.lean ====
section
/-! DEFINITION. The reference and Epoch time (15): judgement of the two crystals and the switchover, the quality code, steps and the servo, and the RTC. -/

namespace Sys2Proof.Machine

/-! ### Quality (Table clk.3, R496) -/

/-- The code of the one row of Table clk.3 that holds. -/
def State.qCode (s : State) : Nat :=
  let role := s.rd Reg.NET_GPTP_ROLE []
  if s.clk.unset then 0
  else if s.flag Reg.CLK_REF_DEGRADED [] then 1
  else if role = 1 then 7
  else if role = 0 || !s.clk.synced then 2
  else if s.clk.fresh then
    (if s.clk.offsets.length < 8 || s.clk.offsets.any (· > 1000) then 4
     else if s.clk.offsets.any (· > 100) then 5 else 6)
  else if s.clk.held then 2 else 3

/-- The quality field takes its row's code: a change makes an Almanac entry, and one to a code below QMIN raises the time event (R496). -/
def State.updateQ (s : State) : State :=
  let old := s.quality
  let q := s.qCode
  if q = old then s
  else
    let s := (s.wr Reg.CLK_EPOCH_Q [] q).record 0x61 34 (leBytes 1 old ++ leBytes 1 q)
    if q < s.rd Reg.CLK_EPOCH_QMIN [] then s.raise 13 else s

/-! ### Steps (R500) -/

/-- A number as a signed field of 32 bits, saturating. -/
def sat32 (i : Int) : Nat := wrapTo 32 (max (-(2 ^ 31 : Int)) (min i (2 ^ 31 - 1)))

/-- Epoch time moves by `d` ns without a step, as at a switchover. -/
def State.nudge (s : State) (d : Int) : State :=
  { s with clk := { s.clk with epoch := wrapTo 64 (s.clk.epoch + d) } }

/-- Epoch time steps by `d` ns: STEPS, LAST_STEP, the Almanac entry of the party `tag`, and its readers (R288, R427, R500). -/
def State.stepEpoch (s : State) (tag : Nat) (d : Int) : State :=
  let s := s.nudge d
  let s := { s with clk := { s.clk with unset := false } }
  let s := (s.incSat Reg.CLK_EPOCH_STEPS [] 1).wr Reg.CLK_EPOCH_LAST_STEP [] (sat32 d)
  ((s.record 0x62 tag (leBytes 8 (wrapTo 64 d))).shiftPoses d).rearmTimers

/-- The largest rate correction, in 2^-32 of the nominal rate (R497). -/
def State.slewLimit (s : State) : Nat := s.rd Reg.CLK_EPOCH_SLEW_PPM [] * 2 ^ 32 / 1000000

/-- A magnitude joins the last eight. -/
def pushOffset (l : List Nat) (x : Nat) : List Nat := (x :: l).take 8

/-- GPTP_SYNC_RX: a follower takes a valid sync with its offset (R497); the size and the sign of a slew are free within SLEW_PPM (DESIGN CHOICE, log entry 20). -/
def execGptpSyncRx (offset : Int) (s : State) : Host.Outcome State Fault Refusal :=
  if s.rd Reg.NET_GPTP_ROLE [] ≠ 2 || !s.boot.mainUp then go s
  else
    let s := s.wr Reg.CLK_EPOCH_OFFSET [] (sat32 offset)
    let l := pushOffset (if s.clk.fresh then s.clk.offsets else []) offset.natAbs
    let s := { s with clk := { s.clk with synced := true, fresh := true, held := false, offsets := l } }
    let s : State :=
      if offset.natAbs ≤ s.rd Reg.CLK_EPOCH_STEP_NS [] then
        let c : Int := (s.freeVal % (2 * s.slewLimit + 1) : Nat) - (s.slewLimit : Int)
        { s.drawn with clk := { s.clk with corr := c } }
      else s.stepEpoch 34 offset
    go s.updateQ

/-- VALID_SYNC_AGE_EXPIRY: the last valid sync is 3 sync intervals old (R496, Table clk.3). -/
def execValidSyncAgeExpiry (s : State) : Host.Outcome State Fault Refusal :=
  if s.clk.fresh then go ({ s with clk := { s.clk with fresh := false, offsets := [] } }).updateQ else go s

/-- HOLDOVER_EXPIRY: the last valid sync is at least 3 sync intervals and HOLD_S s old (R501, Table clk.3). -/
def execHoldoverExpiry (s : State) : Host.Outcome State Fault Refusal :=
  if s.clk.synced && !s.clk.fresh then go ({ s with clk := { s.clk with held := true } }).updateQ else go s

/-! ### Reference selection (R488 to R493), which runs while PD_SAFE does -/

/-- A crystal is in tolerance. -/
def State.refOk (s : State) (b : Bool) : Bool := s.flag (if b then Reg.CLK_REF_B_OK else Reg.CLK_REF_A_OK) []

/-- The last-window deviation of a crystal from the judge, as its DRIFT word. -/
def State.driftWord (s : State) (b : Bool) : Nat := s.rd (if b then Reg.CLK_DRIFT_B else Reg.CLK_DRIFT_A) []

/-- The crystal in use. -/
def State.onB (s : State) : Bool := s.flag Reg.CLK_REF_ACTIVE []

/-- The judge is gPTP-derived frequency. -/
def State.judgeIsGptp (s : State) : Bool :=
  s.rd Reg.NET_GPTP_ROLE [] = 2 && (s.quality = 5 || s.quality = 6)

/-- REF moves to the other crystal: SWITCHES, a reference record of kind 1 with the drift of the crystal left, and Epoch time moves by at most `ns`, by a free amount (R489, R490, R492). -/
def State.switchRef (s : State) (tag cause ns : Nat) : State :=
  let b := !s.onB
  let left := s.driftWord s.onB
  let s := (s.wr Reg.CLK_REF_ACTIVE [] (if b then 1 else 0)).incSat Reg.CLK_REF_SWITCHES [] 1
  let s := s.record 0x60 tag (leBytes 1 1 ++ leBytes 1 (if b then 1 else 0) ++ leBytes 4 left ++ leBytes 1 cause)
  s.drawn.nudge ((s.freeVal % (2 * ns + 1) : Nat) - (ns : Int))

/-- What follows a judgement: a switch away from a crystal that is out, or DEGRADED while both are out, on the crystal nearer to the judge (R489 to R491). -/
def State.judgeRef (s : State) (ns : Nat) : State :=
  let a := s.refOk false
  let b := s.refOk true
  if a || b then
    let s := s.wr Reg.CLK_REF_DEGRADED [] 0
    if !s.refOk s.onB && s.refOk !s.onB then (s.switchRef 34 0 ns).raise 11 else s
  else
    let dev := fun (x : Bool) => (signedOf 32 (s.driftWord x)).natAbs
    let was := s.flag Reg.CLK_REF_DEGRADED []
    let s := if dev (!s.onB) < dev s.onB then s.switchRef 34 0 ns else s
    let s := s.wr Reg.CLK_REF_DEGRADED [] 1
    if was then s
    else (s.record 0x60 34 (leBytes 1 2 ++ leBytes 1 (s.rd Reg.CLK_REF_ACTIVE []) ++ leBytes 4 (s.driftWord s.onB))).raise 12

/-- One crystal's judgement at a window end: `out` is the condition of R488, `live` says that it may be judged out by it (R493), and `run` counts the windows without it. -/
def State.judgeCrystal (s : State) (b out live : Bool) (run : Nat) : State :=
  let r := if b then Reg.CLK_REF_B_OK else Reg.CLK_REF_A_OK
  let n := if out then 0 else min 10 (run + 1)
  let s := if out && live then s.wr r [] 0 else if n = 10 then s.wr r [] 1 else s
  { s with clk := if b then { s.clk with runB := n } else { s.clk with runA := n } }

/-- REF_WINDOW_END: a 1 s window ends with the deviations of A and of B from the judge and of A from B, in 0.01 ppm (R488 to R491, R493). -/
def execRefWindowEnd (da db dab : Int) (s : State) : Host.Outcome State Fault Refusal :=
  if !s.safeUp then go s else
  let s := ((s.wr Reg.CLK_DRIFT_A [] (sat32 da)).wr Reg.CLK_DRIFT_B [] (sat32 db)).wr Reg.CLK_DRIFT_AB [] (sat32 dab)
  let live := s.judgeIsGptp || s.flag Reg.CLK_REF_J32_OK []
  let apart := dab.natAbs > 10000
  let s := s.judgeCrystal false (apart && da.natAbs > 10000) live s.clk.runA
  let s := s.judgeCrystal true (apart && db.natAbs > 10000) live s.clk.runB
  let dis := apart && s.refOk false && s.refOk true
  let s := s.wr Reg.CLK_REF_DISAGREE [] (if dis then 1 else 0)
  let s := if dis then
      s.record 0x60 34 (leBytes 1 0 ++ leBytes 1 (s.rd Reg.CLK_REF_ACTIVE []) ++ leBytes 4 (s.rd Reg.CLK_DRIFT_AB []))
    else s
  go (s.judgeRef 2).updateQ

/-- CRYSTAL_EDGE_LOSS: a 25 MHz crystal (B when `b`) has delivered no edge for 200 ns (R490). -/
def execCrystalEdgeLoss (b : Bool) (s : State) : Host.Outcome State Fault Refusal :=
  if s.safeUp then go ((s.judgeCrystal b true true 0).judgeRef 10).updateQ else go s

/-- XTAL32_EDGE_LOSS: XTAL32 has delivered no edge for 1 ms (R493). -/
def execXtal32EdgeLoss (s : State) : Host.Outcome State Fault Refusal :=
  if s.safeUp then go (s.wr Reg.CLK_REF_J32_OK [] 0) else go s

/-- XTAL32_EDGES_RESUME: XTAL32 delivers edges again (R493). -/
def execXtal32EdgesResume (s : State) : Host.Outcome State Fault Refusal :=
  if s.safeUp then go (s.wr Reg.CLK_REF_J32_OK [] 1) else go s

/-! ### What a commit of the CLK space does (R492, R495, R497, R499) -/

/-- A committed SEL names the crystal that is not in use (R492). -/
def State.refSel (s : State) (tag : Nat) : State :=
  if s.rd Reg.CLK_REF_SEL [] = s.rd Reg.CLK_REF_ACTIVE [] then s else (s.switchRef tag 1 2).updateQ

/-- EPOCH.GO steps Epoch time to SET (R499). -/
def State.epochGo (s : State) (tag : Nat) : State :=
  (s.stepEpoch tag ((s.rdPair Reg.CLK_EPOCH_SET_LO Reg.CLK_EPOCH_SET_HI [] : Nat) - (s.epoch : Int))).updateQ

/-- RTC.SYNC copies Epoch time into the RTC, in cycles of AO32K (R495). -/
def State.rtcSync (s : State) : State :=
  ((s.wrPair Reg.CLK_RTC_LO Reg.CLK_RTC_HI [] (s.epoch * 32768 / 1000000000 % 2 ^ 48)).wr Reg.CLK_RTC_VALID [] 1)

/-- The role after a commit: while it is not follower the rate correction is 0 (R497), and the code follows Table clk.3. -/
def State.roleSet (s : State) : State :=
  let s := if s.rd Reg.NET_GPTP_ROLE [] = 2 then s else { s with clk := { s.clk with corr := 0 } }
  s.updateQ

end Sys2Proof.Machine
end

