-- ==== Sys2Proof/Machine/Enclave.lean ====
section
/-! DEFINITION. Enclave ranges and the Enclave Monitor (08, R241 to R258): lifecycle requests, measurement and reports, the mailbox, and the restart of the Monitor. -/

namespace Sys2Proof.Machine

/-! ### The Monitor's accesses -/

/-- An access of the Monitor (tag 35). Its writes are non-posted, so that what follows them finds them visible. -/
def monAccess : Access := { tag := 35, pid := 0, src := .monitor, kind := .read, firm := true }

/-- The Monitor writes full lines over a range, line by line (R246). -/
def State.monScrub (s : State) (base size : Nat) : State :=
  (linePieces (size / 64 + 2) base size).foldl (fun s p => (s.dmaWrite monAccess p.1 (List.replicate p.2 0)).2) s

/-! ### Measurement and the report (R254, R256, Table enc.2) -/

/-- A measurement register as bytes. -/
def State.mmr (s : State) (m : Nat) : List Byte := (List.range 12).flatMap (fun k => leBytes 4 (s.rd Reg.ENC_MMR [m, k]))

/-- The digest of the Monitor's firmware extends a measurement register (R253): SHA-384 over the register and the digest. -/
def State.extendMmr (s : State) (m : Nat) : State :=
  let v := Config.hash 0x11 (s.mmr m ++ leBytes 48 s.enc.firmware)
  (List.range 12).foldl (fun s k => s.wr Reg.ENC_MMR [m, k] (v >>> (32 * k))) s

/-- The 16-byte header of a measurement (R254). -/
def State.sealHeader (s : State) (e : Nat) : List Byte :=
  leBytes 8 (s.ertBase e) ++ leBytes 1 (s.rd Reg.ENC_ERT_SIZE [e]) ++ leBytes 1 (s.rd Reg.ENC_ERT_INST [e]) ++ leBytes 6 0

/-- The measurement of an entry: SHA-384 over the header and every byte of the range outside the control region and the mailbox page (R254). Where a read fails the spec states no measurement, and it is free. -/
def State.measure (s : State) (e : Nat) : Nat × State :=
  let (st, b, t) := s.dmaRead monAccess (s.ertBase e + 0x10000) (2 ^ s.rd Reg.ENC_ERT_SIZE [e] - 0x11000)
  if st = .ok then (Config.hash 0x11 (s.sealHeader e ++ b), t) else (t.freeVal, t.drawn)

/-- Bytes 0x00 to 0x77 of the report. -/
def State.reportBody (s : State) (e : Nat) : List Byte :=
  leBytes 4 1 ++ leBytes 1 e ++ leBytes 1 (s.rd Reg.ENC_ERT_INST [e]) ++ leBytes 1 (s.rd Reg.ENC_MON_GEN []) ++ [0]
    ++ leBytes 8 s.epoch ++ leBytes 6 (s.ertBase e) ++ leBytes 1 (s.rd Reg.ENC_ERT_SIZE [e]) ++ [0]
    ++ leBytes 48 (tget 0 s.enc.measures e) ++ s.mmr (s.rd Reg.ENC_MON_GEN [])

/-- The Monitor signs the report of an entry and writes it (R254, Table enc.2): 216 bytes. -/
def State.writeReport (s : State) (e : Nat) : State :=
  let body := s.reportBody e
  let sig := Config.sign 0x22 Config.attestKey (leBytes 48 (Config.hash 0x11 body)) s.freeVal
  let s := (s.drawn.dmaWrite monAccess (s.ertBase e + 0x8000) (body ++ leBytes 96 sig)).2
  s.wr Reg.ENC_ERT_GEN [e] (s.rd Reg.ENC_MON_GEN [])

/-! ### Lifecycle requests (R245, R246, R254, R257, R258) -/

/-- A lifecycle request fits the entry's STATE (R245). -/
def State.ertLegal (s : State) (e req : Nat) : Bool :=
  let st := s.rd Reg.ENC_ERT_STATE [e]
  (req = 1 && st = 0) || (req = 2 && st = 1) || (req = 3 && (st = 1 || st = 2 || st = 3))

/-- The Monitor's work for an entry. -/
def State.setWork (s : State) (e : Nat) (o : Option MonOp) : State :=
  let rest := tdel s.enc.working e
  { s with enc := { s.enc with working := match o with | some w => tput rest e w | none => rest } }

/-- Every hart in enclave mode for an entry takes an asynchronous exit, and then the gate fault of Application cores (R246, R281). -/
def State.evictHarts (s : State) (e : Nat) : State :=
  (List.range 16).foldl (fun s h =>
    if s.inEnclave h && s.rd Reg.APC_HART_ENTRY [h] = e then s.takeTrap h 24 0 false else s) s

/-- A request starts (R245, R246, R254). One that waited under PEND and no longer fits the STATE is not done. -/
def State.ertStart (s : State) (e req : Nat) : State :=
  if !s.ertLegal e req then s.wr Reg.ENC_ERT_LAST [e] (statusCode .denied)
  else if req = 1 then (s.wr Reg.ENC_ERT_STATE [e] 1).wr Reg.ENC_ERT_LAST [e] (statusCode .ok)
  else if req = 2 then (s.wr Reg.ENC_ERT_STATE [e] 2).setWork e (some .seal)
  else ((s.evictHarts e).wr Reg.ENC_ERT_STATE [e] 4).setWork e (some .destroy)

/-- A committed request of entry `e` (R245): at once while the Monitor runs, else under PEND (R257, R258). -/
def State.ertRequest (s : State) (e req : Nat) : State :=
  if s.rd Reg.ENC_MON_STATE [] = 0 then s.ertStart e req
  else { s.wr Reg.ENC_ERT_PEND [e] 1 with enc := { s.enc with held := s.enc.held ++ [(e, req)] } }

/-- SEAL_DONE: the Monitor has measured entry `e`; it writes the report, and the entry is ACTIVE (R254). -/
def execSealDone (e : Nat) (s : State) : Host.Outcome State Fault Refusal :=
  if e ≥ 64 then .refused .illFormed
  else if s.rd Reg.ENC_MON_STATE [] ≠ 0 || tget .destroy s.enc.working e ≠ .seal then go s
  else s.attempt partyMonitor none (fun s =>
    let (m, s) := s.measure e
    let s := { s with enc := { s.enc with measures := tput s.enc.measures e (m % 2 ^ 384) } }
    let s := s.writeReport e
    go (((s.setWork e none).wr Reg.ENC_ERT_STATE [e] 3).wr Reg.ENC_ERT_LAST [e] (statusCode .ok)))

/-- DESTROY_DONE: the Monitor has written zero full lines over the range of entry `e`, and the entry is FREE (R246). -/
def execDestroyDone (e : Nat) (s : State) : Host.Outcome State Fault Refusal :=
  if e ≥ 64 then .refused .illFormed
  else if s.rd Reg.ENC_MON_STATE [] ≠ 0 || tget .seal s.enc.working e ≠ .destroy then go s
  else s.attempt partyMonitor none (fun s =>
    let s := s.monScrub (s.ertBase e) (2 ^ s.rd Reg.ENC_ERT_SIZE [e])
    let s := { s with enc := { s.enc with measures := tdel s.enc.measures e, seqs := tdel s.enc.seqs e } }
    go (((s.setWork e none).wr Reg.ENC_ERT_STATE [e] 0).wr Reg.ENC_ERT_LAST [e] (statusCode .ok)))

/-! ### The mailbox (R249 to R252) -/

/-- MAILBOX_WRITE: a full-line write of 64 bytes at an address that the TTU takes to the intake line of entry `e` (R244, R249, R251): placed by the mailbox unit in the next free slot of an ACTIVE entry, rejected for a tag that the masks do not name, and ordinary memory in an entry that is not ACTIVE. It passes the windows like any access; one that they refuse ends there. -/
def execMailboxWrite (a : Access) (e addr : Nat) (bytes : List Byte) (s : State) : Host.Outcome State Fault Refusal :=
  if a.gate || e ≥ 64 || bytes.length ≠ 64 || a.kind ≠ .write then .refused .illFormed
  else if !s.tagFits a then go s
  else match (s.allow a addr 64).1 with
    | .ok pa _ => if pa = s.intakeLine e then go (s.request { acc := a, addr := addr, size := 64, bytes := bytes, err := .none }) else go s
    | _ => go (s.request { acc := a, addr := addr, size := 64, bytes := bytes, err := .none })

/-! ### Restart (R253, R255 to R258) -/

/-- The Monitor halts (R258). -/
def State.monHalt (s : State) : State :=
  let s := s.wr Reg.ENC_MON_STATE [] 2
  (s.record 0x70 35 (leBytes 1 2 ++ leBytes 1 (s.rd Reg.ENC_MON_GEN []))).send 0 (s.rd Reg.ENC_MON_VEC [])

/-- MONITOR_RESTART: the Monitor missed its heartbeat or took a fatal fault, in a restart as well (R255); `verified` says whether its firmware image verifies. With GEN = 7, or an image that fails, it stays halted (R258). -/
def execMonitorRestart (verified : Bool) (s : State) : Host.Outcome State Fault Refusal :=
  if !s.boot.mainUp || s.rd Reg.ENC_MON_STATE [] = 2 then go s
  else if s.rd Reg.ENC_MON_GEN [] = 7 then go s.monHalt
  else
    let s := (s.wr Reg.ENC_MON_STATE [] 1).incSat Reg.ENC_MON_RESTARTS [] 1
    if !verified then go s.monHalt
    else
      let s := s.incWrap Reg.ENC_MON_GEN [] 1
      go ((s.extendMmr (s.rd Reg.ENC_MON_GEN [])).record 0x70 35 (leBytes 1 1 ++ leBytes 1 (s.rd Reg.ENC_MON_GEN [])))

/-- Re-attestation of an ACTIVE entry: the report under the new generation, and a notice in the mailbox (R256). The spec gives the notice no content, so that its bytes 0 to 55 are free. -/
def State.reattest (s : State) (e : Nat) : State :=
  if s.rd Reg.ENC_ERT_STATE [e] ≠ 3 then s
  else
    let s := s.writeReport e
    (s.mail e 35 1 (leBytes 56 s.freeVal)).2.drawn

/-- MONITOR_RESTART_DONE: the entries are re-attested, STATE returns to 0, MON.VEC goes to I0, and the requests under PEND run (R255 to R257). -/
def execMonitorRestartDone (s : State) : Host.Outcome State Fault Refusal :=
  if s.rd Reg.ENC_MON_STATE [] ≠ 1 then go s else
  s.attempt partyMonitor none (fun s =>
    let s := (List.range 64).foldl State.reattest s
    let s := (s.wr Reg.ENC_MON_STATE [] 0).send 0 (s.rd Reg.ENC_MON_VEC [])
    let l := s.enc.held
    go (l.foldl (fun s r => (s.wr Reg.ENC_ERT_PEND [r.1] 0).ertStart r.1 r.2) { s with enc := { s.enc with held := [] } }))

end Sys2Proof.Machine
end

