-- ==== Sys2Proof/Machine/Ether.lean ====
section
/-! DEFINITION. Ethernet ports (14, R445 to R461): entries of transmit jobs, egress queues, synthesisers, gates, MACsec, and the messages of gPTP. -/

namespace Sys2Proof.Machine

/-! ### Transmit jobs (R459 to R461) -/

/-- The state with the networks' own state replaced. -/
def State.setNet (s : State) (x : Net) : State := { s with net := x }

/-- A transmit job by its number. -/
def State.netJob (s : State) (u : Nat) : Option NetJob := s.net.jobs.find? (fun j => j.uid = u)

/-- The state with a transmit job replaced. -/
def State.setNetJob (s : State) (j : NetJob) : State :=
  s.setNet { s.net with jobs := s.net.jobs.map (fun x => if x.uid = j.uid then j else x) }

/-- An access of a transmit job: the job's tag and process identifier 0, from its XD (R459). Its writes are not posted, so that they are visible at the completion point (R460). -/
def netAccess (tag xd : Nat) : Access := { tag := tag, pid := 0, src := .xd xd, kind := .read, firm := true }

/-- The status of an entry is decided: STATUS and, where TS asks for the stamp of a frame that was sent, TSTAMP are written (Table net.1). -/
def State.entryDone (s : State) (u k : Nat) (st : Status) (stamp : Nat) : State :=
  match s.netJob u, s.jobOf u with
  | some j, some g =>
    if j.done.any (fun e => e.1 = k) then s
    else
      let a := netAccess g.inst j.xd
      let s := if st = .ok && j.ts.contains k then (s.dmaWrite a (g.desc + 32 * k + 16) (leBytes 8 stamp)).2 else s
      let s := (s.dmaWrite a (g.desc + 32 * k + 3) (leBytes 1 (statusCode st))).2
      s.setNetJob { j with done := j.done ++ [(k, st)] }
  | _, _ => s

/-- The sender of a frame learns what became of it: an entry of a job gets its status. -/
def State.sentBy (s : State) (src : TxSrc) (st : Status) (stamp : Nat) : State :=
  match src with
  | .entry u k => s.entryDone u k st stamp
  | _ => s

/-- The entries of a job that are not handed to a port or controller end with ST_ABORTED (R461). -/
def State.netAbort (s : State) (u : Nat) : State :=
  match s.netJob u with
  | none => s
  | some j =>
    let s := s.setNetJob { j with next := j.count }
    ((List.range j.count).filter (fun k => j.next ≤ k)).foldl (fun s k => s.entryDone u k .aborted 0) s

/-! ### Ports -/

/-- A port by 32 × n + p. -/
def State.ethPort (s : State) (k : Nat) : EthPort := tget {} s.net.ports k

/-- The state with a port replaced. -/
def State.setEthPort (s : State) (k : Nat) (x : EthPort) : State := s.setNet { s.net with ports := tput s.net.ports k x }

/-- A PHY port of a present XD whose domain is on (R442, R37). -/
def State.portOn (s : State) (n p : Nat) : Bool :=
  n < s.fuses.variant.xds && p < 22 && s.boot.mainUp && s.flag Reg.NET_PORT_EN [n, p]

/-- What leaves the device is kept, unit by unit: kind 0 Ethernet, 1 CAN, 2 LIN (DESIGN CHOICE, log entry 2). -/
def State.onWire (s : State) (kind unit : Nat) (b : List Byte) : State :=
  s.setNet { s.net with wire := tput s.net.wire (1024 * kind + unit) b }

/-- The message identity of a port's owner (Table net.4). -/
def State.portVec (s : State) (n p : Nat) : Nat := s.rd Reg.NET_PORT_OWN_VEC_LO [n, p] + 2 ^ 6 * s.rd Reg.NET_PORT_OWN_VEC_HI [n, p]

/-- The packets that a transmit SA may send: 32-bit packet numbers, or 64-bit ones with the XPN suites 2 and 3 (R456, R458). -/
def pnLimit (suite : Nat) : Nat := if suite ≥ 2 then 2 ^ 64 - 1 else 2 ^ 32 - 1

/-- A frame goes out at a port (R446, R447, R456, R458): padded, protected by the transmit SA in use, and stamped; on an exhausted SA it is discarded, and the owner is told once. -/
def State.ethSend (s : State) (e : EthPend) : State :=
  let n := e.port / 32
  let p := e.port % 32
  let x := s.ethPort e.port
  let b := e.bytes ++ List.replicate (60 - e.bytes.length) 0
  let stamp := (s.epoch + s.rd Reg.NET_LAT_TX_LAT [n, p]) % 2 ^ 64
  match x.txSa with
  | none => (s.onWire 0 e.port b).sentBy e.src .ok stamp
  | some an =>
    let ix := [n, 36 * p + an]
    let suite := s.rd Reg.NET_MSA_SUITE ix
    if x.sent ≥ pnLimit suite then
      let s := if x.told then s else
        (s.setEthPort e.port { x with told := true }).send (s.rd Reg.ENC_OWN_OWNER [ownIndex 0 n p]) (s.portVec n p)
      s.sentBy e.src .denied 0
    else
      let key := tget 0 s.net.keys (648 * n + 36 * p + an)
      let s := s.setEthPort e.port { x with sent := x.sent + 1 }
      (s.onWire 0 e.port (Config.macsecFrame key suite (s.rd Reg.NET_MSA_OFFSET ix) (x.sent + 1) b)).sentBy e.src .ok stamp

/-! ### Credit-based shaping (R452; log entry 48) -/

/-- The rate of a port in Mbit/s (R442, R445). -/
def portMbps (p : Nat) : Nat := if p < 8 then 1000 else if p < 16 then 100 else if p < 18 then 10000 else 10

/-- The shaper at a time: credit grows with the idle slope, above 0 only while a frame of its class waits. -/
def Shaper.settle (x : Shaper) (now : Nat) (waits : Bool) : Shaper :=
  let c := x.credit + (x.slope * (now - x.at_) : Nat)
  { x with credit := if waits then c else min c 0, at_ := max now x.at_ }

/-- The shaper after a frame of `bits` bits on a port of a rate: while it is on the wire the credit falls by the port rate and grows with the idle slope. -/
def Shaper.sent (x : Shaper) (bits mbps : Nat) : Shaper :=
  let ns := bits * 1000 / mbps
  { x with credit := x.credit + (x.slope * ns : Nat) - (bits * 1000000 : Nat), at_ := x.at_ + ns }

/-- The bits of a frame on the wire: padded, with its FCS (R446). -/
def wireBits (b : List Byte) : Nat := 8 * (max 60 b.length + 4)

/-- Frames of a class wait at a port. -/
def State.classWaits (s : State) (port tc : Nat) : Bool := s.net.queue.any (fun e => e.port = port && e.tc = tc)

/-- The shaper of a class is brought to the present time, before the queue of its class changes. -/
def State.settleShaper (s : State) (port tc : Nat) : State :=
  let x := s.ethPort port
  s.setEthPort port { x with shapers := x.shapers.map (fun e => if e.1 = tc then (e.1, e.2.settle s.now (s.classWaits port tc)) else e) }

/-- The shaper of a class admits a frame: its credit is not negative, and no frame of the class is on the wire. -/
def State.shaperAdmits (s : State) (port tc : Nat) : Bool :=
  (s.ethPort port).shapers.all (fun e => e.1 ≠ tc || ((e.2.settle s.now true).credit ≥ 0 && e.2.at_ ≤ s.now))

/-- A frame leaves the queue of its class. -/
def State.dequeue (s : State) (e : EthPend) : State :=
  let s := s.settleShaper e.port e.tc
  let x := s.ethPort e.port
  let s := s.setEthPort e.port { x with shapers := x.shapers.map (fun k =>
    if k.1 = e.tc then (k.1, k.2.sent (wireBits e.bytes) (portMbps (e.port % 32))) else k) }
  s.setNet { s.net with queue := s.net.queue.erase e }

/-- The shaping of a port as its switch's configuration sets it: slopes in kbit/s by class; 0 ends the shaping of a class. -/
def State.setSlopes (s : State) (n p : Nat) (l : List (Nat × Nat)) : State :=
  l.foldl (fun s e =>
    let x := s.ethPort (32 * n + p)
    let rest := x.shapers.filter (fun k => k.1 ≠ e.1)
    s.setEthPort (32 * n + p) { x with shapers :=
      if e.2 = 0 || e.2 > 1000 * portMbps p || e.1 > 7 then rest
      else rest ++ [(e.1, match x.shapers.find? (fun k => k.1 = e.1) with
        | some k => { k.2.settle s.now (s.classWaits (32 * n + p) e.1) with slope := e.2 }
        | none => { slope := e.2, at_ := s.now })] }) s

/-- A queued frame may leave now: its port is up, the gate of its class is open, and its class's shaper admits it (R448, R451, R452). -/
def State.mayLeave (s : State) (e : EthPend) : Bool :=
  s.portOn (e.port / 32) (e.port % 32) && s.rd Reg.NET_PORT_STATE [e.port / 32, e.port % 32] = 2 && bitAt (s.ethPort e.port).gates e.tc && s.shaperAdmits e.port e.tc

/-- The frame that a port sends next: of the highest class that may leave, the first that came (R450). -/
def State.nextFrame (s : State) (port : Nat) : Option EthPend :=
  ([7, 6, 5, 4, 3, 2, 1, 0].filterMap (fun c => s.net.queue.find? (fun e => e.port = port && e.tc = c && s.mayLeave e))).head?

/-- A port sends what may leave. -/
def State.ethDrain : (fuel : Nat) → State → Nat → State
  | 0, s, _ => s
  | fuel + 1, s, port =>
    match s.nextFrame port with
    | none => s
    | some e => State.ethDrain fuel ((s.dequeue e).ethSend e) port

/-- A port sends every frame that may leave. -/
def State.portRun (s : State) (n p : Nat) : State := State.ethDrain (s.net.queue.length) s (32 * n + p)

/-- A frame enters the egress queue of a port. A port that a HANDOVER moves accepts none (R260). -/
def State.ethOffer (s : State) (n p tc : Nat) (src : TxSrc) (b : List Byte) : State :=
  if s.rd Reg.ENC_OWN_STEP [ownIndex 0 n p] ≠ 0 then s.sentBy src .aborted 0
  else
    let s := s.settleShaper (32 * n + p) (tc % 8)
    (s.setNet { s.net with queue := s.net.queue ++ [⟨32 * n + p, tc % 8, src, b⟩] }).portRun n p

/-- A frame of the engine enters the switch: its bytes are charged to a tag, and wait where Orrery has no budget for them (R155, R167). -/
def State.enterSwitch (s : State) (n p tc tag : Nat) (src : TxSrc) (b : List Byte) : State :=
  (s.enginePay tag [(37 + n, b.length)]).ethOffer n p tc src b

/-- Ports whose shapers have gained credit send what may leave (R452). -/
def State.shaperTick (s : State) : State :=
  s.net.ports.foldl (fun s e => if e.2.shapers.isEmpty then s else s.portRun (e.1 / 32) (e.1 % 32)) s

/-- A frame leaves the queue of its class unsent. -/
def State.unqueue (s : State) (e : EthPend) : State :=
  let s := s.settleShaper e.port e.tc
  s.setNet { s.net with queue := s.net.queue.erase e }

/-- The oldest frame of a class in a port's queue is discarded with a status. -/
def State.ethDiscard (s : State) (n p tc : Nat) (st : Status) : Option (EthPend × State) :=
  (s.net.queue.find? (fun e => e.port = 32 * n + p && e.tc = tc)).map (fun e => (e, (s.unqueue e).sentBy e.src st 0))

/-! ### Meanings -/

/-- SYNTHESISER_LOCK: the synthesiser of a settling port locks, and held frames go out (R448, R449). -/
def execSynthesiserLock (n p : Nat) (s : State) : Host.Outcome State Fault Refusal :=
  if s.portOn n p && s.rd Reg.NET_PORT_STATE [n, p] = 1 then
    s.attempt (partyNet n) none (fun s => go ((s.wr Reg.NET_PORT_STATE [n, p] 2).portRun n p))
  else go s

/-- SYNTHESISER_HOLD_EXPIRY: the oldest frame of a class has been held for 2 ms without lock (R449): ST_NOT_READY for an entry, NOT_READY for a routed frame. -/
def execSynthesiserHoldExpiry (n p tc : Nat) (s : State) : Host.Outcome State Fault Refusal :=
  if s.rd Reg.NET_PORT_STATE [n, p] ≠ 1 then go s
  else s.attempt (partyNet n) none (fun s => match s.ethDiscard n p tc .notReady with
    | none => go s
    | some (e, t) => match e.src with
      | .entry _ _ => go t
      | _ => go (t.incSat Reg.NET_CNT_NOT_READY [n, p] 1))

/-- EGRESS_AGED: the oldest frame of a class has waited 1 s in its queue (R451). -/
def execEgressAged (n p tc : Nat) (s : State) : Host.Outcome State Fault Refusal :=
  s.attempt (partyNet n) none (fun s => match s.ethDiscard n p tc .timeout with
    | none => go s
    | some (_, t) => go (t.incSat Reg.NET_CNT_AGED [n, p] 1))

/-- ETHERNET_LINK_DOWN: a port loses its link (R448). -/
def execEthernetLinkDown (n p : Nat) (s : State) : Host.Outcome State Fault Refusal :=
  if s.portOn n p then go (s.wr Reg.NET_PORT_STATE [n, p] 0) else go s

/-- ETHERNET_LINK_RETRAINED: a link retrains, and its synthesiser settles (R448). -/
def execEthernetLinkRetrained (n p : Nat) (s : State) : Host.Outcome State Fault Refusal :=
  if s.portOn n p then go (s.wr Reg.NET_PORT_STATE [n, p] 1) else go s

/-- SYNTHESISER_CALIBRATION_START: between frames, a port whose die has moved by 20 °C starts to calibrate (R448). -/
def execSynthesiserCalibrationStart (n p : Nat) (s : State) : Host.Outcome State Fault Refusal :=
  if s.portOn n p && s.rd Reg.NET_PORT_STATE [n, p] = 2 then go (s.wr Reg.NET_PORT_STATE [n, p] 1) else go s

/-- GATE_INTERVAL_EXPIRY: the next entry of a port's gate control list takes effect, with its eight gate states (R451), and with it the shaping that the switch's configuration has set since, as class and idle slope in kbit/s (R452): the spec gives the lists and the slopes no words (DESIGN CHOICE, log entry 48). -/
def execGateIntervalExpiry (n p gates : Nat) (slopes : List (Nat × Nat)) (s : State) : Host.Outcome State Fault Refusal :=
  if s.portOn n p then
    s.attempt (partyNet n) none (fun s =>
      go (((s.setEthPort (32 * n + p) { s.ethPort (32 * n + p) with gates := gates % 256 }).setSlopes n p slopes).portRun n p))
  else go s

/-- A port that carries gPTP in a role: up, with the role, not 10BASE-T1S, and gPTP on (R455). -/
def State.gptpPort (s : State) (n p : Nat) (roles : List Nat) : Bool :=
  s.portOn n p && p < 18 && s.rd Reg.NET_PORT_STATE [n, p] = 2 && s.rd Reg.NET_GPTP_ROLE [] ≠ 0
    && roles.contains (s.rd Reg.NET_PORT_GPTP [n, p])

/-- GPTP_SYNC_TX: a master port sends its sync (R455). -/
def execGptpSyncTx (n p : Nat) (s : State) : Host.Outcome State Fault Refusal :=
  if s.gptpPort n p [1] then go (s.onWire 0 (32 * n + p) (Config.gptpFrame 0 p s.epoch)) else go s

/-- PDELAY_INTERVAL: a gPTP port runs its peer-delay exchange (R455). -/
def execPdelayInterval (n p : Nat) (s : State) : Host.Outcome State Fault Refusal :=
  if s.gptpPort n p [1, 2] then go (s.onWire 0 (32 * n + p) (Config.gptpFrame 1 p s.epoch)) else go s

end Sys2Proof.Machine
end

