-- ==== Sys2Proof/Machine/Release.lean ====
section
/-! DEFINITION. Sextant's release of an epoch (13, R414, R418 to R422, R429 to R434): contributions, lidar agreement, the L0 lists, the L1 grid, and the epoch record. -/

namespace Sys2Proof.Machine

/-! ### Members and contributions (R416, R418, R419, R421) -/

/-- Stream `n` is a member. -/
def State.isMember (s : State) (n : Nat) : Bool := bitAt (s.rd Reg.SXT_MEMBER [n / 32]) (n % 32)

/-- The enabled members in stream order. -/
def State.members (s : State) : List Nat :=
  (List.range 128).filter (fun n => s.isMember n && s.flag Reg.SNS_STREAM_ENABLE [n])

/-- KIND of a stream: camera, lidar. -/
def State.isCamera (s : State) (n : Nat) : Bool := s.rd Reg.SNS_STREAM_KIND [n] = 1
def State.isLidar (s : State) (n : Nat) : Bool := s.rd Reg.SNS_STREAM_KIND [n] = 2

/-- SKEW of a stream in ns. -/
def State.skew (s : State) (n : Nat) : Nat := s.rd Reg.SNS_STREAM_SKEW_US [n] * 1000

/-- A time lies within the skew of a time of validity. -/
def within (t tk skew : Nat) : Bool := t ≤ tk + skew && tk ≤ t + skew

/-- The camera sample that a stream contributes to a time of validity: the newest complete one within the skew. -/
def State.shotFor (s : State) (n tk : Nat) : Option (Nat × Nat × Nat) :=
  (s.stream n).shots.find? (fun e => within e.1 tk (s.skew n))

/-- The points that a lidar contributes. -/
def State.pointsFor (s : State) (n tk : Nat) : List LPoint :=
  s.sxt.points.filter (fun p => p.stream = n && within p.time tk (s.skew n))

/-- A member's contribution to a time of validity is complete (R418). -/
def State.complete (s : State) (n tk : Nat) : Bool :=
  if s.isCamera n then (s.shotFor n tk).isSome
  else match (s.stream n).maxT with
    | some t => t > tk + s.skew n
    | none => false

/-- Every unmasked member has a complete contribution. -/
def State.epochReady (s : State) (e : OpenEpoch) : Bool :=
  (s.members.filter (fun n => s.health n ≠ 3)).all (fun n => s.complete n e.tk)

/-! ### Points in the vehicle frame (R429) -/

/-- A point of an included lidar in the vehicle frame at T_k. -/
structure VPoint where
  p : LPoint
  x : Nat
  y : Nat
  z : Nat
  comp : Bool
  deriving DecidableEq, Repr

/-- The calibration entry of a stream; its bytes as a number, 0 where it cannot be read. -/
def State.calib (s : State) (n : Nat) : Nat × State :=
  match s.dmaNum sextantAccess (s.rdPair Reg.SXT_CAL_LO Reg.SXT_CAL_HI [] + 128 * n) 128 with
  | (_, v, t) => (v, t)

/-- A point mapped by its entry, and carried to T_k by the pose queries. -/
def State.mapPoint (s : State) (cal tk : Nat) (p : LPoint) : VPoint :=
  let (a, b) : List Nat × List Nat := match s.poseQuery p.time, s.poseQuery tk with
    | some a, some b => (a.comps, b.comps)
    | _, _ => ([], [])
  let c := fun k => Config.mapPoint cal a b [p.x, p.y, p.z] k % 2 ^ 32
  { p := p, x := c 0, y := c 1, z := c 2, comp := !a.isEmpty }

/-! ### Cells (R414, R431) -/

/-- The greatest integer at or below a value. -/
def Fl.floor? : Fl → Option Int
  | .fin neg m e => some (let i := signedM neg m
                          if 0 ≤ e then i * 2 ^ e.toNat else i / 2 ^ (-e).toNat)
  | _ => none

/-- The index of a coordinate, of 512 cells of 0.2 m about 0. -/
def cellIndex (v : Nat) : Option Nat :=
  match ((fp32.decode v).mul (flNat 5)).floor? with
  | some i => if -256 ≤ i && i < 256 then some (i + 256).toNat else none
  | none => none

/-- The cell of a point, as 512 × ix + iy. -/
def VPoint.cell (p : VPoint) : Option Nat :=
  match cellIndex p.x, cellIndex p.y with
  | some ix, some iy => some (512 * ix + iy)
  | _, _ => none

/-- A point is a hit: GROUND_MM < z < TOP_MM. -/
def State.isHit (s : State) (p : VPoint) : Bool :=
  let z := (fp32.decode p.z).mul (flNat 1000)
  (flNat (s.rd Reg.SXT_GROUND_MM [])).lt z && z.lt (flNat (s.rd Reg.SXT_TOP_MM []))

/-- What a lidar observes: its hits as (cell, z) and the free counts of cells, one entry for each crossing. -/
structure Seen where
  stream : Nat
  hits : List (Nat × Nat)
  free : List Nat
  deriving DecidableEq, Repr

/-- What the points of a lidar observe (R414, R431). -/
def State.seen (s : State) (n cal : Nat) (ps : List VPoint) : Seen where
  stream := n
  hits := (ps.filter s.isHit).filterMap (fun p => p.cell.map (fun c => (c, p.z)))
  free := ps.flatMap (fun p => (Config.rayCells cal [p.x, p.y, p.z]).filter (fun c => c < 262144))

/-- The lidar observes a cell; it has a hit there. -/
def Seen.hit (a : Seen) (c : Nat) : Bool := a.hits.any (fun h => h.1 = c)
def Seen.cells (a : Seen) : List Nat := (a.hits.map (fun h => h.1) ++ a.free).eraseDups

/-- A pair disagrees: at least 1,000 cells in common, and a conflict ratio above PL_PCT % (R414). -/
def disagree (pct : Nat) (a b : Seen) : Bool :=
  let common := a.cells.filter (fun c => b.hit c || b.free.contains c)
  let conf := common.filter (fun c => a.hit c != b.hit c)
  1000 ≤ common.length && pct * common.length < 100 * conf.length

/-- A lidar lies in an epoch: it disagrees with every other, and at least two of those agree with one another. -/
def lies (pct : Nat) (l : List Seen) (a : Seen) : Bool :=
  let others := l.filter (fun b => b.stream ≠ a.stream)
  others.all (fun b => disagree pct a b)
    && others.any (fun b => others.any (fun c => b.stream < c.stream && !disagree pct b c))

/-- A lidar that R414 does not hold suspect for this epoch is healthy again. -/
def State.trustLidar (s : State) (n : Nat) : State := if s.health n = 2 then s.setHealth n 1 0 else s

/-- The outcome of R414 for one included lidar. -/
def State.judgeLidar (l : List Seen) (s : State) (a : Seen) : State :=
  let pct := s.rd Reg.SXT_PL_PCT []
  let x := s.stream a.stream
  if lies pct l a then
    let s := s.setStream a.stream { x with lies := x.lies + 1 }
    if x.lies + 1 ≥ max 1 (s.rd Reg.SXT_PL_N []) then s.setHealth a.stream 3 3 else s.trustLidar a.stream
  else
    let s := s.setStream a.stream { x with lies := 0 }
    if (l.filter (fun b => b.stream ≠ a.stream)).any (fun b => disagree pct a b) then
      (if s.health a.stream = 1 then s.setHealth a.stream 2 0 else s)
    else s.trustLidar a.stream

/-! ### L0 and L1 (R430, R431) -/

/-- A candidate L0 entry: pixel index in row-major order, the pixel, z in the camera frame as FP32 bits, and the point. -/
structure L0Cand where
  pix : Nat
  u : Nat
  v : Nat
  depth : Nat
  p : LPoint
  deriving DecidableEq, Repr

/-- The candidate of a point in a camera with the given entry. -/
def l0Cand (cal : Nat) (q : VPoint) : Option L0Cand :=
  let w := bitsOf cal (8 * 0x54) 16
  let h := bitsOf cal (8 * 0x56) 16
  match Config.project cal [q.x, q.y, q.z] with
  | some (u, v, d) => if u < w && v < h then some ⟨w * v + u, u, v, d, q.p⟩ else none
  | none => none

/-- A candidate is nearer than another one. -/
def L0Cand.nearer (a b : L0Cand) : Bool := (fp32.decode a.depth).lt (fp32.decode b.depth)

/-- The nearest candidate of each pixel, ties to the lower stream, then the earlier point; in row-major order. -/
def l0Keep : List L0Cand → List (Nat × L0Cand)
  | [] => []
  | c :: cs =>
    let m := l0Keep cs
    match m.find? (fun e => e.1 = c.pix) with
    | none => tput m c.pix c
    | some e => if c.nearer e.2 || (!e.2.nearer c && c.p.stream ≤ e.2.p.stream) then tput m c.pix c else m

/-- The eight bytes of an L0 entry. -/
def L0Cand.bytes (c : L0Cand) : List Byte :=
  leBytes 8 (c.u % 2 ^ 16 + c.v % 2 ^ 16 * 2 ^ 16 + Config.depthCm c.depth % 2 ^ 16 * 2 ^ 32 + c.p.inten % 2 ^ 8 * 2 ^ 48 + c.p.stream % 2 ^ 7 * 2 ^ 56)

/-- A camera's list, and whether entries beyond 65,536 were dropped. -/
def l0List (cal : Nat) (ps : List VPoint) : List L0Cand × Bool :=
  let l := (l0Keep (ps.filterMap (l0Cand cal))).map (fun e => e.2)
  (l.take 65536, l.length > 65536)

/-- One step toward 0. -/
def decay (l : Int) : Int := if l > 0 then l - 1 else if l < 0 then l + 1 else 0

/-- The log-odds of every cell of an epoch (R431): shift, decay, update. -/
def State.gridCell (s : State) (tk : Nat) (seen : List Seen) (c : Nat) : Int :=
  let before : Int := match s.sxt.gridT with
    | none => 0
    | some t0 => match s.poseQuery t0, s.poseQuery tk with
      | some a, some b => (match Config.shiftCell a.comps b.comps c with
        | some k => tget (0 : Int) s.sxt.grid k
        | none => 0)
      | _, _ => 0
  let hits := (seen.map (fun a => (a.hits.filter (fun h => h.1 = c)).length)).foldl (· + ·) 0
  let free := (seen.map (fun a => (a.free.filter (fun k => k = c)).length)).foldl (· + ·) 0
  max (-127) (min 127 (decay before + 16 * (min hits 4 : Nat) - 4 * (min free 8 : Nat)))

/-- The highest hit of a cell in 20 mm units. -/
def cellHeight (seen : List Seen) (c : Nat) : Nat :=
  let hs := seen.flatMap (fun a => (a.hits.filter (fun h => h.1 = c)).map (fun h => h.2))
  match hs with
  | [] => 0
  | h :: t => Config.height20 (t.foldl (fun m z => if (fp32.decode m).lt (fp32.decode z) then z else m) h) % 256

/-! ### The record (R433, R434, Tables sxt.3 and sxt.4) -/

/-- A 128-bit mask of streams. -/
def maskOf (l : List Nat) : Nat := (l.eraseDups).foldl (fun m n => m + 2 ^ n) 0

/-- CONF (R434). -/
def State.conf (s : State) (out : List Nat) : Nat :=
  (s.members.filter (fun n => out.contains n || s.health n = 2)).foldl (fun c n => c * s.rd Reg.SNS_STREAM_FACTOR [n] / 256) 65535

/-- The 96-byte header of Table sxt.3. -/
def headerBytes (no kind tq conf tk written age poseq flags mask late masked size : Nat) : List Byte :=
  leBytes 4 no ++ leBytes 1 kind ++ leBytes 1 tq ++ leBytes 2 conf ++ leBytes 8 tk ++ leBytes 8 written ++ leBytes 4 age
    ++ leBytes 1 poseq ++ leBytes 1 flags ++ leBytes 2 0 ++ leBytes 16 mask ++ leBytes 16 late ++ leBytes 16 masked
    ++ leBytes 8 size ++ leBytes 8 0

/-- The slot of an epoch in the ring. -/
def State.epochSlot (s : State) (no : Nat) : Nat :=
  s.rdPair Reg.SXT_RING_LO Reg.SXT_RING_HI [] + no % 2 ^ s.rd Reg.SXT_RING_LOG2 [] * 2 ^ s.rd Reg.SXT_SLOT_LOG2 []

/-- The included lidars with their mapped points and entries. -/
def State.lidarViews (s : State) (tk : Nat) (incl : List Nat) : List (Nat × Nat × List VPoint) × State :=
  (incl.filter s.isLidar).foldl (fun (acc : List (Nat × Nat × List VPoint) × State) n =>
    match acc.2.calib n with
    | (cal, t) => (acc.1 ++ [(n, cal, (t.pointsFor n tk).map (t.mapPoint cal tk))], t)) ([], s)

/-- The included cameras with their entries. -/
def State.cameraViews (s : State) (incl : List Nat) : List (Nat × Nat) × State :=
  (incl.filter s.isCamera).foldl (fun (acc : List (Nat × Nat) × State) n =>
    match acc.2.calib n with
    | (cal, t) => (acc.1 ++ [(n, cal)], t)) ([], s)

/-- The directory and the lists of the cameras, with the offset where the next list starts. -/
def State.l0Body (s : State) (tk : Nat) (ps : List VPoint) : List (Nat × Nat) → Nat → List Byte × List Byte × Bool
  | [], _ => ([], [], false)
  | (n, cal) :: rest, off =>
    let (l, ovf) := if s.flag Reg.SXT_CFG_L0_EN [] then l0List cal ps else ([], false)
    let slot := match s.shotFor n tk with | some e => e.2.1 | none => 0
    let dir := leBytes 1 n ++ leBytes 1 (if ovf then 1 else 0) ++ leBytes 1 slot ++ leBytes 1 0 ++ leBytes 4 l.length ++ leBytes 8 off
    let (d, b, o) := s.l0Body tk ps rest (off + 8 * l.length)
    (dir ++ d, l.flatMap L0Cand.bytes ++ b, ovf || o)

/-- The pose at T_k in the format of Table sxt.1; zero where the query is invalid. -/
def State.poseBytes (s : State) (tk : Nat) : List Byte :=
  match s.poseQuery tk with
  | some k => k.bytes
  | none => leBytes 64 0

/-- Bytes are written into a slot from an offset, cut at the slot's end. -/
def State.slotWrite (s : State) (base size off : Nat) (b : List Byte) : State :=
  (s.dmaWrite sextantAccess (base + off) (b.take (size - off))).2

/-- OLDEST among the included sample times (R434). The spec states none for an epoch without a contribution: a free value (DESIGN CHOICE, log entry 17). -/
def State.oldestOf (s : State) : List (Nat × Nat) → Nat × State
  | [] => (s.freeVal % 2 ^ 64, s.drawn)
  | x :: l => (l.foldl (fun m y => min m y.1) x.1, s)

/-- Points are freed that no open epoch includes and that lie before T − SKEW_US of the newest epoch opened (R422). -/
def State.freePoints (s : State) : State :=
  match s.sxt.newest with
  | none => s
  | some t => s.setSxt { s.sxt with
      points := s.sxt.points.filter (fun p => t ≤ p.time + s.skew p.stream || s.sxt.opened.any (fun x => within p.time x.tk (s.skew p.stream))) }

/-- The release of an epoch (R414, R418 to R422, R429 to R434): `late` are the members without a complete contribution. -/
def State.release (s : State) (e : OpenEpoch) : State :=
  let masked := s.members.filter (fun n => s.health n = 3)
  let live := s.members.filter (fun n => s.health n ≠ 3)
  let late := live.filter (fun n => !s.complete n e.tk)
  let incl := live.filter (fun n => s.complete n e.tk)
  let (lv, s) := s.lidarViews e.tk incl
  let (cv, s) := s.cameraViews incl
  let ps := lv.flatMap (fun v => v.2.2)
  let seen := lv.map (fun v => s.seen v.1 v.2.1 v.2.2)
  let s := late.foldl (fun s n => s.incSat Reg.SNS_STREAM_LATE [n] 1) s
  let s := (late.filter s.isLidar).foldl State.trustLidar s
  let s := seen.foldl (State.judgeLidar seen) s
  let cells : List (Nat × Int) := if s.flag Reg.SXT_CFG_L1_EN [] then
      ((List.range 262144).map (fun c => (c, s.gridCell e.tk seen c))).filter (fun x => x.2 ≠ 0) else []
  let grid : List Byte := if s.flag Reg.SXT_CFG_L1_EN [] then
      (List.range 262144).flatMap (fun c => leBytes 1 (wrapTo 8 (tget (0 : Int) cells c)) ++ leBytes 1 (cellHeight seen c))
    else leBytes 524288 0
  let (dir, lists, ovf) := s.l0Body e.tk ps cv 0x81000
  let times := ps.map (fun p => (p.p.time, p.p.q)) ++ (cv.filterMap (fun c => (s.shotFor c.1 e.tk).map (fun x => (x.1, x.2.2))))
  let (oldest, s) := s.oldestOf times
  let tq := times.foldl (fun m x => min m x.2) s.quality
  let poseq := match s.poseQuery e.tk with | some k => k.q | none => 0
  let slot := 2 ^ s.rd Reg.SXT_SLOT_LOG2 []
  let size := 0x81000 + lists.length
  let nocomp := ps.any (fun p => !p.comp)
  let flags := ofBits [nocomp, e.step, e.forced, e.altref, size > slot, ovf]
  let age := min (2 ^ 32 - 1) ((s.epoch - oldest) / 1000)
  let base := s.epochSlot e.no
  let s := s.slotWrite base slot 0 (leBytes 4 (2 ^ 32 - 1))
  let s := s.slotWrite base slot 0x60 (s.poseBytes e.tk ++ leBytes 4 cv.length ++ leBytes 4 ps.length ++ leBytes 8 0 ++ dir)
  let s := (s.slotWrite base slot 0x1000 grid).slotWrite base slot 0x81000 lists
  let s := s.slotWrite base slot 0 (headerBytes e.no 0 tq (s.conf (late ++ masked)) e.tk s.epoch age poseq flags
    (maskOf incl) (maskOf late) (maskOf masked) (min size slot))
  let s := (s.send (s.rd Reg.SXT_CFG_INST []) (s.rd Reg.SXT_MSG_VEC [])).wr Reg.SXT_STAT_EPOCH_NO [] e.no
  let s := if e.forced then s.incSat Reg.SXT_STAT_FORCED [] 1 else s
  let opened := s.sxt.opened.filter (fun x => x.no ≠ e.no)
  let s := s.setSxt { s.sxt with
    opened := opened
    oldest := ((e.no, oldest) :: s.sxt.oldest).take 256
    lates := s.sxt.lates ++ late.map (fun n => (e.no, e.tk, n))
    grid := cells
    gridT := some e.tk }
  s.freePoints.wr Reg.SXT_STAT_OPEN [] opened.length

/-- A command of Sextant, while it is up, as an attempt of it (log entry 40). -/
def State.sextantRun (s : State) (f : State → State) : Host.Outcome State Fault Refusal :=
  s.attempt partySextant none (fun s => go (if s.snsUp then f s else s))

/-- EPOCH_RELEASE: the oldest open epoch has every contribution, and is released (R419). -/
def execEpochRelease (s : State) : Host.Outcome State Fault Refusal :=
  s.sextantRun (fun s => match s.sxt.opened with
    | [] => s
    | e :: _ => if s.epochReady e then s.release e else s)

/-- EPOCH_WAIT_EXPIRY: W_MS have passed since the oldest open epoch opened, and it is released with what is complete (R419). -/
def execEpochWaitExpiry (s : State) : Host.Outcome State Fault Refusal :=
  s.sextantRun (fun s => match s.sxt.opened with
    | [] => s
    | e :: _ => s.release e)

end Sys2Proof.Machine
end

