-- ==== Sys2Proof/Machine/Sensors.lean ====
section
/-! DEFINITION. Sensor ingest (13, R399 to R412, R415 to R422): samples and their rings, health and masking, the points of lidars, and the opening of epochs. -/

namespace Sys2Proof.Machine

/-! ### Health (R409 to R411) -/

/-- The counter of a sample and its width; none where the kind or the parse words have none, and 0 disables a camera's (R409, Tables sns.1, sns.4). -/
def State.counterOf (s : State) (n : Nat) (a : Sample) : Option (Nat × Nat) :=
  let p1 := s.rd Reg.SNS_STREAM_PARSE1 [n]
  match s.rd Reg.SNS_STREAM_KIND [n] with
  | 1 => if a.number = 0 then none else some (a.number % 2 ^ 16, 16)
  | 2 => if bitAt p1 16 then some (ofLeBytes ((a.bytes.drop (bitsOf p1 8 8)).take 2), 16) else none
  | 3 => if bitAt p1 13 then some (ofLeBytes ((a.bytes.drop (bitsOf p1 8 5)).take 1), 8) else none
  | _ => some (ofLeBytes ((a.bytes.drop 8).take 1), 8)

/-- The value that follows a counter: CSI-2 frame numbers wrap from 0xFFFF to 1. -/
def nextCounter (camera : Bool) (width v : Nat) : Nat :=
  if camera && v = 0xFFFF then 1 else (v + 1) % 2 ^ width

/-- A gap before a sample. -/
def State.gapAt (s : State) (n : Nat) (a : Sample) : Bool :=
  match (s.stream n).ctr, s.counterOf n a with
  | some v, some (c, w) => c ≠ nextCounter (s.isCamera n) w v
  | _, _ => false

/-- The state of a stream after a sample that is faulty or not (R410, R411). -/
def State.judgeSample (s : State) (n : Nat) (faulty : Bool) : State :=
  let x := s.stream n
  let bad := if faulty then x.bad + 1 else 0
  let good := if faulty then 0 else x.good + 1
  let s := s.setStream n { x with bad := bad, good := good }
  let errN := s.rd Reg.SNS_STREAM_ERR_N [n]
  let why := s.rd Reg.SNS_STREAM_WHY [n]
  if s.health n = 3 then
    if why ≠ 3 && good ≥ max 1 (s.rd Reg.SNS_STREAM_UNMASK_N [n]) then s.setHealth n 1 0 else s
  else if errN ≠ 0 && bad ≥ errN then s.setHealth n 3 2
  else s

/-! ### Slots (R402 to R405, Table sns.2) -/

/-- The base of a stream's slot. -/
def State.slotBase (s : State) (n k : Nat) : Nat :=
  s.rd Reg.SNS_STREAM_RING_LO [n] * 2 ^ 12 + 2 ^ 32 * s.rd Reg.SNS_STREAM_RING_HI [n] + k * 2 ^ s.rd Reg.SNS_STREAM_SLOT_LOG2 [n]

/-- The sample time (R407). -/
def State.sampleTime (s : State) (n : Nat) (a : Sample) : Nat :=
  if s.isCamera n then wrapTo 64 ((a.stamp : Int) - 1000 * (bitsOf (s.rd Reg.SNS_STREAM_PARSE1 [n]) 16 16 : Nat)) else a.stamp

/-- The slot header of a sample. -/
def slotHeader (time q flags ctr len last : Nat) : List Byte :=
  leBytes 8 time ++ leBytes 1 q ++ leBytes 1 flags ++ leBytes 2 ctr ++ leBytes 4 len ++ leBytes 8 last ++ leBytes 40 0

/-! ### Lidar points (R407, R418, R422, Table sns.4) -/

/-- A coordinate of a record: INT32 in mm, or FP32 in m. -/
def coordAt (b : List Byte) (off : Nat) (float : Bool) : Nat :=
  let v := ofLeBytes ((b.drop off).take 4)
  if float then v else fdiv (Fl.ofInt (signedOf 32 v)).bits32 (Fl.ofInt 1000).bits32

/-- The points of a packet. -/
def State.pointsOf (s : State) (n : Nat) (a : Sample) : List LPoint :=
  let p0 := s.rd Reg.SNS_STREAM_PARSE0 [n]
  let p1 := s.rd Reg.SNS_STREAM_PARSE1 [n]
  let rec_ := bitsOf p0 8 6
  if rec_ = 0 then [] else
  let body := a.bytes.drop (bitsOf p0 0 8)
  ((groupsOf rec_ (body.length / rec_ + 1) body).filter (fun r => r.length = rec_)).map (fun r =>
    let off := bitsOf p0 14 6
    let fl := bitsOf p0 20 2 = 1
    let age := if bitAt p1 6 then ofLeBytes ((r.drop (bitsOf p1 0 6)).take 4) else 0
    { stream := n, time := wrapTo 64 ((a.stamp : Int) - age), q := a.q, x := coordAt r off fl, y := coordAt r (off + 4) fl,
      z := coordAt r (off + 8) fl, inten := ofLeBytes ((r.drop (bitsOf p0 22 6)).take 1) })

/-- A lidar's points enter its partition, as many as it holds (R422). -/
def State.storePoints (s : State) (n : Nat) (ps : List LPoint) : State :=
  let room := s.rd Reg.SNS_STREAM_PART [n] * 1024 - (s.sxt.points.filter (fun p => p.stream = n)).length
  let x := s.stream n
  let top := ps.foldl (fun m p => max m p.time) (x.maxT.getD 0)
  let s := s.setStream n { x with maxT := if ps.isEmpty then x.maxT else some top }
  if s.isMember n && s.flag Reg.SXT_CFG_ENABLE [] then (s.setSxt { s.sxt with points := s.sxt.points ++ ps.take room }).freePoints else s

/-- A partition has no room for the points of a packet. -/
def State.partitionFull (s : State) (n : Nat) (ps : List LPoint) : Bool :=
  s.isMember n && s.flag Reg.SXT_CFG_ENABLE []
    && s.rd Reg.SNS_STREAM_PART [n] * 1024 < (s.sxt.points.filter (fun p => p.stream = n)).length + ps.length

/-! ### Epochs (R417, R419 to R421) -/

/-- The stream that opens epochs: REF, or while REF is masked the lowest unmasked camera member. -/
def State.reference (s : State) : Option (Nat × Bool) :=
  let ref := s.rd Reg.SXT_CFG_REF []
  if s.health ref ≠ 3 then some (ref, false)
  else (s.members.find? (fun n => s.isCamera n && s.health n ≠ 3)).map (fun n => (n, true))

/-- A contribution that completes after its epoch's release counts in LATE_DROPS (R419). -/
def State.lateDrops (s : State) (n : Nat) : State :=
  let hit := s.sxt.lates.filter (fun e => e.2.2 = n && s.complete n e.2.1)
  if hit.isEmpty then s
  else (s.setSxt { s.sxt with lates := s.sxt.lates.filter (fun e => !hit.contains e) }).incSat Reg.SXT_STAT_LATE_DROPS [] hit.length

/-- The reference stream has completed a sample: an epoch opens (R417), and the oldest of four open ones is released (R420). -/
def State.openEpoch (s : State) (n tk q : Nat) : State :=
  match s.reference with
  | none => s
  | some (r, alt) =>
    if r ≠ n || !s.flag Reg.SXT_CFG_ENABLE [] then s
    else
      let s := match s.sxt.opened with
        | e :: rest => if rest.length ≥ 3 then s.release { e with forced := true } else s
        | [] => s
      let s := s.setSxt { s.sxt with opened := s.sxt.opened ++ [{ no := s.sxt.nextNo, tk := tk, q := q, altref := alt }]
                                     nextNo := s.sxt.nextNo + 1, newest := some tk }
      s.freePoints.wr Reg.SXT_STAT_OPEN [] s.sxt.opened.length

/-! ### Samples -/

/-- The data types that a camera port supports (R400): embedded data, YUV422 8-bit, RAW8, RAW10, RAW12 and RAW16; all but the first by their codes in CSI-2 (PRESUMED, log entry 17). -/
def csiTypes : List Nat := [0x12, 0x1E, 0x2A, 0x2B, 0x2C, 0x2E]

/-- The long packets of a frame that camera stream `n` takes: those of its virtual channel and of the data type of its PARSE0. Every other packet is discarded without a health fault (R400). -/
def State.csiTaken (s : State) (n : Nat) (a : Sample) : List CsiPacket :=
  a.packets.filter (fun p => p.vc = s.rd Reg.SNS_STREAM_VC [n] && p.dt = bitsOf (s.rd Reg.SNS_STREAM_PARSE0 [n]) 0 6 && csiTypes.contains p.dt)

/-- The payload of a sample as pieces with their offsets: a camera's lines at a pitch of LINE_BYTES, and any other payload as one (R402). -/
def State.payload (s : State) (n : Nat) (a : Sample) : List (Nat × List Byte) :=
  if s.isCamera n then
    let l := s.csiTaken n a
    (List.range l.length).zip l |>.map (fun e => (e.1 * bitsOf (s.rd Reg.SNS_STREAM_PARSE0 [n]) 6 16, e.2.data))
  else [(0, a.bytes)]

/-- The part of a payload that lies within `room` bytes of a slot, and within the `left` bytes that a full FIFO let through (R404, R405). -/
def fitPieces (room : Nat) : (left : Option Nat) → List (Nat × List Byte) → List (Nat × List Byte)
  | _, [] => []
  | left, (off, b) :: rest =>
    let b' := b.take (min (room - off) (left.getD b.length))
    (off, b') :: fitPieces room (left.map (· - b.length)) rest

/-- The bytes of a payload. -/
def pieceBytes (l : List (Nat × List Byte)) : Nat := sumSnd (l.map (fun e => (e.1, e.2.length)))

/-- The integrity faults of a camera sample: discarded headers, and long packets whose payload CRC fails (R409); of a wheel sample, a failed end-to-end check (R472). The other kinds have no integrity check (Table sns.1). -/
def State.integrityFaults (s : State) (n : Nat) (a : Sample) : Nat :=
  if s.isCamera n then a.lost + ((s.csiTaken n a).filter (fun p => p.crcBad)).length
  else if s.rd Reg.SNS_STREAM_KIND [n] = 4 && a.e2eBad then 1 else 0

/-- A sample as its port reads it: LEN bytes of an IMU (R401), and the nine bytes of a wheel sample (Table sns.1). -/
def State.clipSample (s : State) (n : Nat) (a : Sample) : Sample :=
  match s.rd Reg.SNS_STREAM_KIND [n] with
  | 3 => { a with bytes := a.bytes.take (bitsOf (s.rd Reg.SNS_STREAM_PARSE0 [n]) 8 5) }
  | 4 => { a with bytes := a.bytes.take 9 }
  | _ => a

/-- A sample reaches its stream: it is stamped, written into the next slot of its ring, checked, and offered to alignment (R402 to R411, R417 to R422). -/
def State.arrive (s : State) (n : Nat) (a : Sample) : State :=
  let a := s.clipSample n a
  let whole := s.payload n a
  let pieces := fitPieces (2 ^ s.rd Reg.SNS_STREAM_SLOT_LOG2 [n] - 64) a.kept whole
  let len := pieceBytes pieces
  let cut := len < pieceBytes whole
  let faults := s.integrityFaults n a
  let bad := faults ≠ 0
  let ps := if s.isLidar n then s.pointsOf n { a with bytes := a.bytes.take len } else []
  let ovf := cut || s.partitionFull n ps
  let gap := s.gapAt n a
  let ctr := s.counterOf n a
  let time := s.sampleTime n a
  let x := s.stream n
  let slot := x.slot % max 1 (s.rd Reg.SNS_STREAM_NBUF [n])
  let base := s.slotBase n slot
  let acc := ingestAccess (s.rd Reg.SNS_STREAM_XD [n])
  let flags := ofBits [cut || bad, gap, bad, ovf]
  let c := match ctr with | some (v, _) => v | none => if s.isCamera n then a.number % 2 ^ 16 else 0
  let s := (s.dmaWrite acc base (slotHeader 0 a.q flags c len s.epoch)).2
  let s := pieces.foldl (fun s p => (s.dmaWrite acc (base + 64 + p.1) p.2).2) s
  let s := (s.dmaWrite acc base (slotHeader time a.q flags c len s.epoch)).2
  let full := !(cut || bad)
  let s := s.setStream n { s.stream n with
    slot := slot + 1
    ctr := match ctr with | some (v, _) => some v | none => none
    at_ := some s.now
    bytes := if s.isCamera n || s.isLidar n then [] else a.bytes.take len
    shots := if s.isCamera n && full then ((time, slot, a.q) :: x.shots).take 15 else x.shots }
  let s := s.incWrap Reg.SNS_STREAM_SAMPLES [n] 1
  let s := if gap then s.incSat Reg.SNS_STREAM_GAP [n] 1 else s
  let s := if bad then s.incSat Reg.SNS_STREAM_CRC [n] faults else s
  let s := if cut then s.incSat Reg.SNS_STREAM_OVF [n] 1 else s
  let s := s.judgeSample n (gap || bad || ovf)
  let s := if n = s.rd Reg.SXT_EGO_WHEEL [] && s.rd Reg.SNS_STREAM_KIND [n] = 4 && (wheelRaw a.bytes).any (fun v => v ≠ 0) then
      s.setSxt { s.sxt with ego := { s.sxt.ego with still := false } } else s
  let s := (s.storePoints n ps).lateDrops n
  if full && s.isCamera n then s.openEpoch n time a.q else s

/-- The stream takes samples: it is enabled on a present XD, and its ingest is powered. -/
def State.takes (s : State) (n : Nat) : Bool := n < 128 && s.snsUp && s.flag Reg.SNS_STREAM_ENABLE [n]

/-- The A-PHY or IMU port of a stream is in the steps of a HANDOVER, and takes nothing (08, R260). -/
def State.portMoves (s : State) (n : Nat) : Bool :=
  let at_ := fun cls => s.rd Reg.ENC_OWN_STEP [ownIndex cls (s.rd Reg.SNS_STREAM_XD [n]) (s.rd Reg.SNS_STREAM_PORT [n])] ≠ 0
  match s.rd Reg.SNS_STREAM_KIND [n] with
  | 1 => at_ 5
  | 3 => at_ 4
  | _ => false

/-- SAMPLE_ARRIVAL: a sample of stream `n` (R402). -/
def execSampleArrival (n : Nat) (a : Sample) (s : State) : Host.Outcome State Fault Refusal :=
  if n ≥ 128 then .refused .illFormed else if s.takes n && !s.portMoves n then s.attempt (partyStream n) none (fun s => go (s.arrive n a)) else go s

/-- STREAM_TIMEOUT: no sample of stream `n` has started within TMO_US (R409). -/
def execStreamTimeout (n : Nat) (s : State) : Host.Outcome State Fault Refusal :=
  if n ≥ 128 then .refused .illFormed
  else if !s.takes n then go s
  else
    let s := s.incSat Reg.SNS_STREAM_TMO [n] 1
    if s.health n = 3 then go s else go ((s.setStream n { s.stream n with good := 0 }).setHealth n 3 1)

/-- A COMMIT stages CLR = 1 for a stream: one that is masked with WHY 3 is healthy again (R411). -/
def State.streamClr (s : State) (n : Nat) : State :=
  let s := s.wr Reg.SNS_STREAM_CLR [n] 0
  if s.health n = 3 && s.rd Reg.SNS_STREAM_WHY [n] = 3 then (s.setStream n { s.stream n with lies := 0 }).setHealth n 1 0 else s

/-- A COMMIT stages LIE = 1: the stream is masked with WHY 3 (R415). -/
def State.streamLie (s : State) (n : Nat) : State :=
  let s := s.wr Reg.SNS_STREAM_LIE [n] 0
  if s.flag Reg.SNS_STREAM_ENABLE [n] then s.setHealth n 3 3 else s

/-- A COMMIT changes ENABLE of a stream: it starts healthy with the first slot, or is off. -/
def State.streamEnable (s : State) (n : Nat) (on : Bool) : State :=
  let s := s.setStream n { at_ := none }
  (s.wr Reg.SNS_STREAM_STATE [n] (if on then 1 else 0)).wr Reg.SNS_STREAM_WHY [n] 0

end Sys2Proof.Machine
end

