-- ==== Sys2Proof/Machine/Routes.lean ====
section
/-! DEFINITION. The Gateway Engine's routing (14, R462, R463, R467 to R473): receive rings, routes, policing, end-to-end checks, signals, tunnels, wheel samples, and received Ethernet, CAN and LIN frames. -/

namespace Sys2Proof.Machine

/-! ### Receive rings (R463, Table net.3) -/

/-- What a ring record holds: KIND, source, E2E and MACsec flags, ingress time, SA and TA, and the payload. -/
structure RingRec where
  kind : Nat
  src : Nat
  e2e : Bool := false
  sec : Bool := false
  time : Nat
  sata : Nat := 0
  payload : List Byte
  deriving DecidableEq, Repr

/-- The header of a record (Table net.3). -/
def RingRec.header (r : RingRec) (time q seq len : Nat) (trunc : Bool) : List Byte :=
  leBytes 8 time ++ leBytes 1 (q % 8) ++ leBytes 1 r.kind ++ leBytes 1 r.src ++ leBytes 1 (ofBits [trunc, r.e2e, r.sec])
    ++ leBytes 2 len ++ leBytes 2 0 ++ leBytes 4 seq ++ leBytes 4 r.sata ++ leBytes 8 0

/-- A record goes into the next slot of a ring with the tag of its owner, TIME last; after every MSG_N records the owner is told (R444, R463). A ring whose MSG_N or SLOT_LOG2 is below its range is not enabled, and takes none. -/
def State.ringWrite (s : State) (n r : Nat) (x : RingRec) : State :=
  let log := s.rd Reg.NET_RING_SLOT_LOG2 [n, r]
  let every := s.rd Reg.NET_RING_MSG_N [n, r]
  if log < 6 || every = 0 then s
  else
    let owner := s.rd Reg.NET_RING_OWNER [n, r]
    let seq := s.rd Reg.NET_RING_SEQ [n, r]
    let slot := seq % (s.rd Reg.NET_RING_NBUF1 [n, r] + 1)
    let base := s.rd Reg.NET_RING_BASE_LO [n, r] * 2 ^ 12 + 2 ^ 32 * s.rd Reg.NET_RING_BASE_HI [n, r] + slot * 2 ^ log
    let len := min x.payload.length (2 ^ log - 32)
    let cut := x.payload.length > 2 ^ log - 32
    let q := s.quality
    let a : Access := { tag := owner, pid := 0, src := .xd n, kind := .write }
    let s := (s.dmaWrite a base (x.header 0 q seq len cut)).2
    let s := (s.dmaWrite a (base + 32) (x.payload.take len)).2
    let s := (s.dmaWrite a base (x.header x.time q seq len cut)).2
    let s := s.incWrap Reg.NET_RING_SEQ [n, r] 1
    if (seq + 1) % every = 0 then s.sendBehind n owner (s.rd Reg.NET_RING_VEC [n, r]) else s

/-! ### Controllers and tunnels as destinations (R468, R469, R473) -/

/-- A frame suits a controller: enabled, not quiesced by a HANDOVER (R260), its format within MODE, its data within MAX_LEN (0: the maximum of the format). -/
def State.canFits (s : State) (n c : Nat) (f : CanFrame) : Bool :=
  let len := s.rd Reg.CAN_CTL_MAX_LEN [n, c]
  let mode := s.rd Reg.CAN_CTL_MODE [n, c]
  s.canPowered n c && s.flag Reg.CAN_CTL_EN [n, c] && s.rd Reg.ENC_OWN_STEP [ownIndex 1 n c] = 0 && (len = 0 || f.data.length ≤ len)
    && (f.fmt = 0 || (f.fmt ≤ 2 && 1 ≤ mode) || (f.fmt = 3 && mode = 2))

/-- A frame of a route or a signal PDU is offered to a controller (R469). -/
def State.routeSend (s : State) (n c : Nat) (f : CanFrame) : State :=
  if !s.canFits n c f then s
  else match s.canOffer n c .main f with
    | (.full, t) => t.incSat Reg.NET_IDS_BUF_DROP [n] 1
    | (_, t) => t

/-- The `n` bytes of a number, the most significant first: the order of Ethernet and IEEE 1722. -/
def beBytes (n v : Nat) : List Byte := (leBytes n v).reverse

/-- The number that bytes spell, the most significant first. -/
def ofBeBytes (b : List Byte) : Nat := ofLeBytes b.reverse

/-- An ACF CAN or, with `brief`, ACF CAN Brief message of IEEE 1722-2016; `ts` is its message timestamp. -/
def acfMessage (brief : Bool) (bus ts : Nat) (f : CanFrame) : List Byte :=
  let pad := (4 - f.data.length % 4) % 4
  let quads := (if brief then 2 else 4) + (f.data.length + pad) / 4
  let flags := pad * 64 + ofBits [f.esi, f.fmt ≥ 1, f.fmt = 2, f.ide, f.rtr, false]
  beBytes 2 ((if brief then 2 else 1) * 512 + quads) ++ beBytes 1 flags ++ beBytes 1 (bus % 32)
    ++ (if brief then [] else beBytes 8 ts) ++ beBytes 4 f.id ++ f.data ++ List.replicate pad 0

/-- The 1722 frame of a tunnel template around one message: the source MAC, the low half of the stream identifier, NTSCF or TSCF, the sequence number and the timestamp are free (DESIGN CHOICE, log entry 18). -/
def State.tunnelFrame (s : State) (n t : Nat) (f : CanFrame) : List Byte :=
  let v := s.freeVal
  let msg := acfMessage (bitAt v 0) (s.rd Reg.NET_TPL_BUS [n, t]) (bitsOf v 128 64) f
  let sid := beBytes 4 (s.rd Reg.NET_TPL_SID_HI [n, t]) ++ beBytes 4 (bitsOf v 64 32)
  let seq := beBytes 1 (bitsOf v 8 8)
  let head := if bitAt v 1 then
      beBytes 1 0x05 ++ beBytes 1 0x80 ++ seq ++ beBytes 1 0 ++ sid ++ beBytes 4 (bitsOf v 96 32) ++ beBytes 4 0
        ++ beBytes 2 msg.length ++ beBytes 2 0
    else beBytes 1 0x82 ++ beBytes 2 (0x8000 + msg.length) ++ seq ++ sid
  leBytes 4 (s.rd Reg.NET_TPL_DMAC_LO [n, t]) ++ leBytes 2 (s.rd Reg.NET_TPL_DMAC_HI [n, t]) ++ beBytes 6 (bitsOf v 16 48)
    ++ beBytes 2 0x8100 ++ beBytes 2 (s.rd Reg.NET_TPL_PCP [n, t] * 2 ^ 13 + s.rd Reg.NET_TPL_VID [n, t]) ++ beBytes 2 0x22F0
    ++ head ++ msg

/-- A frame is tunnelled through a template; what is no Classical CAN or CAN FD frame is dropped and counted (R473). -/
def State.tunnel (s : State) (n t : Nat) (lin : Bool) (f : CanFrame) : State :=
  if lin || f.fmt = 3 then s.incSat Reg.NET_IDS_ACF_DROP [n] 1
  else
    let p := s.rd Reg.NET_TPL_PORT [n, t]
    if p ≥ 22 then s
    else s.drawn.enterSwitch n p (s.rd Reg.NET_TPL_PCP [n, t]) 38 .main (s.tunnelFrame n t f)

/-! ### Signals (R470, R471) -/

/-- Bits of a byte string, from bit `at_`: bit b is bit b mod 8 of byte b div 8. -/
def dataBits (b : List Byte) (at_ len : Nat) : Nat := bitsOf (ofLeBytes (b.take 64)) at_ len

/-- The signal entries of a route, in order. -/
def State.signalsOf (s : State) (n k : Nat) : List Nat :=
  (List.range 1024).filter (fun e => s.rd Reg.NET_SIG_SRT [n, e] = k)

/-- The value that a signal entry takes from a frame. -/
def State.signalValue (s : State) (n e : Nat) (data : List Byte) : Nat :=
  dataBits data (s.rd Reg.NET_SIG_SBIT [n, e]) (s.rd Reg.NET_SIG_LEN1 [n, e] + 1)

/-- The image of a PDU. -/
def State.pduImage (s : State) (n d : Nat) : Nat := ofLeBytes (tget [] s.net.images (128 * n + d))

/-- A PDU is sent on its controller. -/
def State.pduSend (s : State) (n d : Nat) : State :=
  let id := s.rd Reg.NET_PDU_ID [n, d]
  s.routeSend n (s.rd Reg.NET_PDU_CTL [n, d])
    { id := bitsOf id 0 29, ide := bitAt id 29, fmt := s.rd Reg.NET_PDU_FMT [n, d]
      data := leBytes (s.rd Reg.NET_PDU_DLEN [n, d]) (s.pduImage n d) }

/-- A signal entry is copied into the image of its PDU. -/
def State.copySignal (data : List Byte) (n : Nat) (s : State) (e : Nat) : State :=
  let d := s.rd Reg.NET_SIG_DPDU [n, e]
  let at_ := s.rd Reg.NET_SIG_DBIT [n, e]
  let len := s.rd Reg.NET_SIG_LEN1 [n, e] + 1
  let old := s.pduImage n d
  let new := old - bitsOf old at_ len * 2 ^ at_ + s.signalValue n e data * 2 ^ at_
  s.setNet { s.net with images := tput s.net.images (128 * n + d) (leBytes 64 new) }

/-- The signals of a route are extracted, and each PDU with ON_CHG whose bits have changed is sent (R470). -/
def State.extract (s : State) (n k : Nat) (data : List Byte) : State :=
  let es := s.signalsOf n k
  let pdus := (es.map (fun e => s.rd Reg.NET_SIG_DPDU [n, e])).eraseDups
  let t := es.foldl (State.copySignal data n) s
  (pdus.filter (fun d => s.flag Reg.NET_PDU_ON_CHG [n, d] && t.pduImage n d ≠ s.pduImage n d)).foldl (fun t d => t.pduSend n d) t

/-- One wheel speed: the raw value times FACTOR, rounded to an INT16 in 0.01 m/s (R471). -/
def State.wheelSpeed (s : State) (n e : Nat) (data : List Byte) : Nat :=
  let v := (flNat (s.signalValue n e data)).r32.mul32 (fp32.decode (s.rd Reg.NET_SIG_FACTOR [n, e] * 2 ^ 16))
  wrapTo 16 (v.toIntSat false (-32768) 32767)

/-- The wheel sample of a route's first five signal entries (R471); a failed end-to-end check marks it (R472). -/
def State.wheelSample (s : State) (n k time : Nat) (bad : Bool) (data : List Byte) : Sample :=
  let es := s.signalsOf n k
  let speeds := (es.take 4).map (fun e => s.wheelSpeed n e data)
  { stamp := time, q := s.quality, e2eBad := bad
    bytes := (speeds ++ List.replicate (4 - speeds.length) 0).flatMap (leBytes 2)
      ++ leBytes 1 (match es.drop 4 with | e :: _ => s.signalValue n e data | [] => 0) }

/-- A sample for the enabled streams of a kind on an XD that a test admits. -/
def State.arriveAt (s : State) (n kind : Nat) (p : Nat → Bool) (a : Sample) : State :=
  match (List.range 128).find? (fun k => s.takes k && s.rd Reg.SNS_STREAM_KIND [k] = kind && s.rd Reg.SNS_STREAM_XD [k] = n && p k) with
  | some k => s.arrive k a
  | none => s

/-! ### Routes (R468, R469, R472) -/

/-- CRC-8 with polynomial 0x1D over one byte. -/
def crc8Byte (c : Nat) (b : Byte) : Nat :=
  (List.range 8).foldl (fun c _ => if c ≥ 128 then ((c * 2) % 256) ^^^ 0x1D else c * 2) (c ^^^ b.toNat)

/-- CRC-8 of SAE J1850 (R472). -/
def crc8 (b : List Byte) : Nat := b.foldl crc8Byte 0xFF ^^^ 0xFF

/-- The end-to-end check of a route fails (R472). -/
def State.e2eFails (s : State) (n k : Nat) (data : List Byte) : Bool :=
  let at_ := s.rd Reg.NET_ROUTE_E2E_BYTE [n, k]
  s.flag Reg.NET_ROUTE_E2E [n, k] &&
    (match data[at_]? with
     | none => true
     | some b => crc8 (leBytes 2 (s.rd Reg.NET_ROUTE_E2E_ID [n, k]) ++ data.take at_ ++ data.drop (at_ + 1)) ≠ b.toNat)

/-- Policing by the token bucket of a route (R469): whether a token was there, and the bucket after it, in 10^-9 of a frame. A bucket that has not been used is full. -/
def State.police (s : State) (n k : Nat) : Bool × State :=
  let key := 1024 * n + k
  let burst := s.rd Reg.NET_ROUTE_BURST [n, k] * 10 ^ 9
  let (tok, at_) := tget (burst, s.now) s.net.buckets key
  let have_ := min burst (tok + s.rd Reg.NET_ROUTE_RATE [n, k] * (s.now - at_))
  let ok := have_ ≥ 10 ^ 9
  (ok, s.setNet { s.net with buckets := tput s.net.buckets key (if ok then have_ - 10 ^ 9 else have_, s.now) })

/-- The route that decides for an identifier from a source: the lowest-numbered valid one that matches. -/
def State.routeFor (s : State) (n src id : Nat) : Option Nat :=
  (List.range 1024).find? (fun k => s.flag Reg.NET_ROUTE_VALID [n, k] && s.rd Reg.NET_ROUTE_SRC [n, k] = src
    && id &&& s.rd Reg.NET_ROUTE_MASK [n, k] = s.rd Reg.NET_ROUTE_ID [n, k])

/-- The payload of a record of a frame: a CAN image, or a LIN frame. -/
def framePayload (lin : Bool) (f : CanFrame) : List Byte := if lin then leBytes 1 f.id ++ f.data else canImage f

/-- The actions of a route on a frame, in the order of R468. -/
def State.routeActs (s : State) (n k src time : Nat) (f : CanFrame) : State :=
  let lin := 16 ≤ src && src < 24
  let bad := s.e2eFails n k f.data
  let s := if bad then s.incSat Reg.NET_IDS_E2E_FAIL [n] 1 else s
  let s := if !bad && s.flag Reg.NET_ROUTE_DST_EN [n, k] then
      ((List.range 16).filter (fun c => bitAt (s.rd Reg.NET_ROUTE_DST [n, k]) c)).foldl (fun s c => s.routeSend n c f) s else s
  let s := if !bad && s.flag Reg.NET_ROUTE_TUN [n, k] then s.tunnel n (s.rd Reg.NET_ROUTE_TPL [n, k]) lin f else s
  let s := if s.flag Reg.NET_ROUTE_RING_EN [n, k] then
      s.ringWrite n (s.rd Reg.NET_ROUTE_RING [n, k])
        { kind := if lin then 3 else 2, src := src, e2e := bad, time := time, payload := framePayload lin f } else s
  let s := if s.flag Reg.NET_ROUTE_WHEEL [n, k] then s.arriveAt n 4 (fun _ => true) (s.wheelSample n k time bad f.data) else s
  if bad then s else s.extract n k f.data

/-- A frame from a route source of an XD is looked up in the routes (R468, R469). -/
def State.routeFrame (s : State) (n src time : Nat) (f : CanFrame) : State :=
  match s.routeFor n src f.id with
  | none => if src < 16 && s.flag Reg.CAN_CTL_STRICT [n, src] then s.incSat Reg.NET_IDS_UNKNOWN_ID [n] 1 else s
  | some k =>
    if s.flag Reg.NET_ROUTE_POL_EN [n, k] then
      match s.police n k with
      | (true, t) => t.routeActs n k src time f
      | (false, t) => t.incSat Reg.NET_IDS_POLICED [n] 1
    else s.routeActs n k src time f

/-! ### Tunnels inbound (R473) -/

/-- The messages of an ACF payload: type and bytes. -/
def acfMessages : (fuel : Nat) → List Byte → List (Nat × List Byte)
  | 0, _ => []
  | fuel + 1, b =>
    let h := ofBeBytes (b.take 2)
    let len := 4 * (h % 512)
    if b.length < 4 || len < 4 || len > b.length then [] else (h / 512, b.take len) :: acfMessages fuel (b.drop len)

/-- The bus and the frame of an ACF CAN or CAN Brief message. -/
def acfFrame (brief : Bool) (b : List Byte) : Nat × CanFrame :=
  let flags := ofBeBytes ((b.drop 2).take 1)
  let body := b.drop (if brief then 4 else 12)
  let data := body.drop 4
  (ofBeBytes ((b.drop 3).take 1) % 32,
   { id := ofBeBytes (body.take 4) % 2 ^ 29, ide := bitAt flags 3, rtr := bitAt flags 4, esi := bitAt flags 0
     fmt := if bitAt flags 1 then (if bitAt flags 2 then 2 else 1) else 0, data := data.take (data.length - flags / 64) })

/-- One ACF message: routed, or dropped and counted. -/
def State.acfOne (n time : Nat) (known : Bool) (s : State) (m : Nat × List Byte) : State :=
  if known && (m.1 = 1 || m.1 = 2) then
    let (bus, f) := acfFrame (m.1 = 2) m.2
    s.routeFrame n (32 + bus) time f
  else s.incSat Reg.NET_IDS_ACF_UNKNOWN [n] 1

/-- A received 1722 frame, from its AVTP header: NTSCF or TSCF, each message to routing. -/
def State.untunnel (s : State) (n time : Nat) (b : List Byte) : State :=
  let sub := ofBeBytes (b.take 1)
  let sid := ofBeBytes ((b.drop 4).take 4)
  let known := (List.range 16).any (fun t => s.rd Reg.NET_TPL_SID_HI [n, t] = sid)
  let body := if sub = 0x82 then (b.drop 12).take (ofBeBytes ((b.drop 1).take 2) % 2048)
    else if sub = 0x05 then (b.drop 24).take (ofBeBytes ((b.drop 20).take 2)) else []
  (acfMessages (body.length / 4 + 1) body).foldl (State.acfOne n time known) s

/-! ### Flows (R462) -/

/-- The VLAN identifier of a frame, its EtherType, and where its payload starts: behind one 802.1Q tag, if it has one. -/
def etherHead (b : List Byte) : Option Nat × Nat × Nat :=
  if ofBeBytes ((b.drop 12).take 2) = 0x8100 then
    (some (ofBeBytes ((b.drop 14).take 2) % 4096), ofBeBytes ((b.drop 16).take 2), 18)
  else (none, ofBeBytes ((b.drop 12).take 2), 14)

/-- A flow matches a frame on all its fields. -/
def State.flowHit (s : State) (n p : Nat) (b : List Byte) (f : Nat) : Bool :=
  let (vid, etype, _) := etherHead b
  let off := s.rd Reg.NET_FLOW_MOFF [n, f]
  let mask := s.rd Reg.NET_FLOW_MMASK [n, f]
  s.flag Reg.NET_FLOW_VALID [n, f] && (s.flag Reg.NET_FLOW_PANY [n, f] || s.rd Reg.NET_FLOW_PORT [n, f] = p)
    && (s.flag Reg.NET_FLOW_VANY [n, f] || vid = some (s.rd Reg.NET_FLOW_VID [n, f]))
    && s.rd Reg.NET_FLOW_ETYPE [n, f] = etype
    && (mask = 0 || off + 2 ≤ b.length) && ofBeBytes ((b.drop off).take 2) &&& mask = s.rd Reg.NET_FLOW_MVAL [n, f]

/-- A frame that the switch delivers to the Gateway Engine is classified (R462). -/
def State.classify (s : State) (n p time : Nat) (sec : Bool) (b : List Byte) : State :=
  match (List.range 256).find? (s.flowHit n p b) with
  | none => s.incSat Reg.NET_IDS_NOFLOW [n] 1
  | some f =>
    match s.rd Reg.NET_FLOW_ACT [n, f] with
    | 1 => s.ringWrite n (s.rd Reg.NET_FLOW_RING [n, f]) { kind := 1, src := p, sec := sec, time := time, payload := b }
    | 2 => s.arriveAt n 2 (fun k => bitsOf (s.rd Reg.SNS_STREAM_PARSE1 [k]) 24 8 = f)
        { stamp := time, q := s.quality, bytes := b }
    | 3 => if (etherHead b).2.1 = 0x22F0 then s.untunnel n time (b.drop (etherHead b).2.2) else s
    | _ => s

/-! ### The switch (R450) -/

/-- The source address of a frame is learned on its port, while the database has room. -/
def State.learn (s : State) (n p : Nat) (b : List Byte) : State :=
  let vid := (etherHead b).1.getD 0
  let sa := ofBeBytes ((b.drop 6).take 6)
  let rest := s.net.learned.filter (fun e => !(e.1 = n && e.2.1 = vid && e.2.2.1 = sa))
  if (rest.filter (fun e => e.1 = n)).length ≥ 8192 then s
  else s.setNet { s.net with learned := rest ++ [(n, vid, sa, p)] }

/-- The ports that a frame goes to, with its class at each: those that the switch's tables give, of them only the one at which its destination was learned. -/
def State.egressOf (s : State) (n p : Nat) (b : List Byte) (dst : List (Nat × Nat)) : List (Nat × Nat) :=
  let vid := (etherHead b).1.getD 0
  let da := ofBeBytes (b.take 6)
  let l := dst.filter (fun e => e.1 ≠ p && e.1 ≤ 22)
  match s.net.learned.find? (fun e => e.1 = n && e.2.1 = vid && e.2.2.1 = da) with
  | some e => l.filter (fun x => x.1 = e.2.2.2)
  | none => l

/-! ### Meanings -/

/-- ETHERNET_RX: a frame, without its FCS, is received at port `p` of XD `n` (R446, R447, R450, R453, R454, R456, R462). `fcsOk` is the FCS check; `passed` is the verdict of the switch's stream filters and sequence recovery; `sec` says that MACsec has verified the frame; `dst` names the egress ports, 22 the Gateway Engine's, and classes that the switch's tables give it. -/
def execEthernetRx (n p : Nat) (b : List Byte) (fcsOk passed sec : Bool) (dst : List (Nat × Nat)) (s : State) :
    Host.Outcome State Fault Refusal :=
  if n ≥ 4 || p ≥ 22 then .refused .illFormed
  else if !s.portOn n p || s.rd Reg.NET_PORT_STATE [n, p] = 0 then go s
  else if !fcsOk || b.length > 1522 then go (s.incSat Reg.NET_CNT_FCS_DROP [n, p] 1)
  else if b.length < 14 || !passed then go s
  else
    let time := wrapTo 64 ((s.epoch : Int) - s.rd Reg.NET_LAT_RX_LAT [n, p])
    let sec := sec && p < 18 && (List.range 36).any (fun k => 4 ≤ k && s.flag Reg.NET_MSA_VALID [n, 36 * p + k])
    s.attempt (partyNet n) none (fun s =>
      let s := s.learn n p b
      go ((s.egressOf n p b dst).foldl (fun s e =>
        if e.1 = 22 then s.classify n p time sec b else s.ethOffer n e.1 e.2 .main b) s))

/-- REC after a frame received without error (R465, ISO 11898-1): one less, and from above 127 a value from 119 to 127. -/
def State.recvCount (s : State) (n c : Nat) : State :=
  let rec_ := s.rd Reg.CAN_CTL_REC [n, c]
  let s := if rec_ > 127 then (s.wr Reg.CAN_CTL_REC [n, c] (119 + s.freeVal % 9)).drawn else s.wr Reg.CAN_CTL_REC [n, c] (rec_ - 1)
  if s.rd Reg.CAN_CTL_STATE [n, c] = 1 && s.rd Reg.CAN_CTL_TEC [n, c] < 128 then s.wr Reg.CAN_CTL_STATE [n, c] 0 else s

/-- A lone node is alone no more, and transmission resumes (R466). -/
def State.loneEnd (s : State) (n c : Nat) : State :=
  if s.flag Reg.CAN_CTL_LONE [n, c] then
    ((s.wr Reg.CAN_CTL_LONE [n, c] 0).setCan (16 * n + c) { s.can (16 * n + c) with ackRun := 0 }).canKick n c
  else s

/-- A responder hears a header. Whether its response table holds the identifier, and with which bytes, the spec leaves open with the table's form: what it sends is free (R467; DESIGN CHOICE, log entry 18). -/
def State.linAnswer (s : State) (k : Nat) : State :=
  let n := s.freeVal % 10
  if n = 0 then s.drawn else s.drawn.onWire 2 k (leBytes n (s.freeVal / 10))

/-- CAN_FRAME_RX: source `src` of XD `n` (0 to 15 a CAN controller, 16 to 23 a LIN controller) receives a valid frame whose start of frame fell at Epoch time `time` (R465 to R473). The Gateway Engine routes it while the main domain runs. A LIN responder answers a header without data (R467). -/
def execCanFrameRx (n src time : Nat) (f : CanFrame) (s : State) : Host.Outcome State Fault Refusal :=
  if n ≥ 4 || src ≥ 24 then .refused .illFormed
  else if src < 16 then
    if !s.canPowered n src || !s.flag Reg.CAN_CTL_EN [n, src] || s.rd Reg.CAN_CTL_STATE [n, src] = 2 then go s
    else s.attempt (partyNet n) none (fun s =>
      let s := (s.recvCount n src).loneEnd n src
      go (if s.boot.mainUp then s.routeFrame n src time f else s))
  else if n < s.fuses.variant.xds && s.boot.mainUp && s.flag Reg.CAN_LIN_EN [n, src - 16] && s.rd Reg.CAN_LIN_MODE [n, src - 16] ≠ 0 then
    if f.data.isEmpty && s.rd Reg.CAN_LIN_MODE [n, src - 16] = 2 then go (s.linAnswer (8 * n + (src - 16))) else
    s.attempt (partyNet n) none (fun s => go (s.routeFrame n src time { f with id := f.id % 64, ide := false, rtr := false, fmt := 0 }))
  else go s

/-- PDU_PERIOD: PERIOD_MS of PDU `d` has elapsed, and it is sent on its controller (R470). -/
def execPduPeriod (n d : Nat) (s : State) : Host.Outcome State Fault Refusal :=
  if n < s.fuses.variant.xds && d < 128 && s.boot.mainUp && s.rd Reg.NET_PDU_PERIOD_MS [n, d] ≠ 0 then go (s.pduSend n d) else go s

end Sys2Proof.Machine
end

