-- ==== Sys2Proof/Machine/TxJobs.lean ====
section
/-! DEFINITION. Transmit jobs and the controllers of the vehicle networks (14, R443, R459 to R461, R465 to R467, R474 to R478): entries, transmissions, lone nodes, bus-off, diagnostic sessions, LIN schedules, and changes of authority. -/

namespace Sys2Proof.Machine

/-! ### Entries (R459, Table net.1) -/

/-- A transmit entry as read: its number in the job, and its 256 bits. -/
structure TxEntry where
  k : Nat
  e : Nat
  deriving DecidableEq, Repr

def TxEntry.kind (x : TxEntry) : Nat := bitsOf x.e 0 4
def TxEntry.port (x : TxEntry) : Nat := bitsOf x.e 8 5
def TxEntry.tc (x : TxEntry) : Nat := bitsOf x.e 16 3
def TxEntry.len (x : TxEntry) : Nat := bitsOf x.e 32 16
def TxEntry.addr (x : TxEntry) : Nat := bitsOf x.e 64 48

/-- Every reserved field is 0 and every field is within its range (Table net.1). -/
def TxEntry.ok (x : TxEntry) : Bool :=
  bitsOf x.e 4 4 = 0 && bitsOf x.e 13 3 = 0 && bitsOf x.e 20 4 = 0 && bitsOf x.e 48 16 = 0 && bitsOf x.e 112 16 = 0
    && bitsOf x.e 224 32 = 0
    && (x.kind = 4 || bitsOf x.e 192 32 = 0) && (x.kind = 1 || x.tc = 0)
    && (match x.kind with
        | 1 => x.port ≤ 21 && 14 ≤ x.len && x.len ≤ 1522
        | 2 => x.port ≤ 15
        | 3 => x.port ≤ 7 && 1 ≤ x.len && x.len ≤ 9
        | 4 => x.port = 0 && 1 ≤ x.len && x.len ≤ 4096
        | _ => false)

/-- What the next entry of a job is: its job, its engine job and the entry, or the status with which its read failed. -/
inductive NextEntry where
  | none
  | failed (j : NetJob) (st : Status)
  | entry (j : NetJob) (g : Job) (x : TxEntry)
  deriving DecidableEq, Repr

/-- Read the next entry of job `u` with the job's tag. -/
def State.nextEntry (s : State) (u : Nat) : NextEntry × State :=
  match s.netJob u, s.jobOf u with
  | some j, some g =>
    if j.next ≥ j.count || !s.boot.mainUp then (.none, s)
    else
      match s.dmaNum (netAccess g.inst j.xd) (g.desc + 32 * j.next) 32 with
      | (st, e, t) => if st = .ok then (.entry j g ⟨j.next, e⟩, t) else (.failed j st, t)
  | _, _ => (.none, s)

/-- The entry is taken: the job goes on with the one after it. -/
def State.takeEntry (s : State) (j : NetJob) (x : TxEntry) : State :=
  s.setNetJob { j with next := x.k + 1, ts := if bitAt x.e 19 then j.ts ++ [x.k] else j.ts }

/-- The entry ends with a status. -/
def State.endEntry (s : State) (j : NetJob) (x : TxEntry) (st : Status) (stamp : Nat) : State :=
  (s.takeEntry j x).entryDone j.uid x.k st stamp

/-- What an entry's port or controller says of its instance (R443): ST_ABORTED while HANDOVER moves it (R461). -/
def State.entryOwner (s : State) (cls : Nat) (j : NetJob) (g : Job) (x : TxEntry) : Status :=
  let i := ownIndex cls j.xd x.port
  if s.rd Reg.ENC_OWN_STEP [i] ≠ 0 then .aborted
  else if s.rd Reg.ENC_OWN_OWNER [i] ≠ g.inst then .denied
  else .ok

/-- An Ethernet entry (R446, R449, R459): its bytes are charged when its frame, once read, enters the switch (R155). -/
def State.txEther (t : State) (j : NetJob) (g : Job) (x : TxEntry) : State :=
  if !x.ok then t.endEntry j x .denied 0 else
  match t.entryOwner 0 j g x with
  | .ok =>
    match t.dmaRead (netAccess g.inst j.xd) x.addr x.len with
    | (st, b, t) =>
      if st ≠ .ok then t.endEntry j x st 0 else (t.takeEntry j x).enterSwitch j.xd x.port x.tc g.inst (.entry j.uid x.k) b
  | st => t.endEntry j x st 0

/-- A CAN entry (R459, R476): it waits while the controller's buffers are full. -/
def State.txCan (t : State) (j : NetJob) (g : Job) (x : TxEntry) : State :=
  if !x.ok then t.endEntry j x .denied 0 else
  match t.entryOwner 1 j g x with
  | .ok =>
    match t.dmaRead (netAccess g.inst j.xd) x.addr x.len with
    | (st, b, t) =>
      let f := canOfImage b
      let maxLen := t.rd Reg.CAN_CTL_MAX_LEN [j.xd, x.port]
      if st ≠ .ok then t.endEntry j x st 0
      else if !canImageOk (t.rd Reg.CAN_CTL_MODE [j.xd, x.port]) b x.len || (maxLen ≠ 0 && f.data.length > maxLen) then
        t.endEntry j x .denied 0
      else if t.aasBlocks j.xd x.port (.entry j.uid x.k) f then (t.countBlock (.entry j.uid x.k)).endEntry j x .denied 0
      else if !t.canPowered j.xd x.port || !t.flag Reg.CAN_CTL_EN [j.xd, x.port] || t.rd Reg.CAN_CTL_STATE [j.xd, x.port] = 2 then
        t.endEntry j x .notReady 0
      else match (t.takeEntry j x).canOffer j.xd x.port (.entry j.uid x.k) f with
        | (.full, _) => t
        | (_, u) => u
  | st => t.endEntry j x st 0

/-- A LIN entry (R459, R467): LEN = 1 sends the header only. -/
def State.txLin (t : State) (j : NetJob) (g : Job) (x : TxEntry) : State :=
  if !x.ok then t.endEntry j x .denied 0 else
  match t.entryOwner 2 j g x with
  | .ok =>
    match t.dmaRead (netAccess g.inst j.xd) x.addr x.len with
    | (st, b, t) =>
      if st ≠ .ok then t.endEntry j x st 0
      else if !t.flag Reg.CAN_LIN_EN [j.xd, x.port] || t.rd Reg.CAN_LIN_MODE [j.xd, x.port] = 0 then t.endEntry j x .notReady 0
      else (t.onWire 2 (8 * j.xd + x.port) b).endEntry j x .ok t.epoch
  | st => t.endEntry j x st 0

/-- A session that passes a diagnostic payload, and the ring that takes it (R474). -/
def State.sessionFor (s : State) (n inst sa ta : Nat) : Option (Nat × Nat) :=
  (List.range 32).findSome? (fun j =>
    let tst := s.rd Reg.NET_DIAG_TST_RING [n, j]
    let tgt := s.rd Reg.NET_DIAG_TGT_RING [n, j]
    let tester := s.rd Reg.NET_DIAG_TESTER [n, j]
    let target := s.rd Reg.NET_DIAG_TARGET [n, j]
    if !s.flag Reg.NET_DIAG_ACTIVE [n, j] then none
    else if tester = sa && target = ta && s.rd Reg.NET_RING_OWNER [n, tst] = inst then some (j, tgt)
    else if target = sa && tester = ta && s.rd Reg.NET_RING_OWNER [n, tgt] = inst then some (j, tst)
    else none)

/-- A diagnostic entry (R474). -/
def State.txDiag (t : State) (j : NetJob) (g : Job) (x : TxEntry) : State :=
  if !x.ok then t.endEntry j x .denied 0 else
  match t.dmaRead (netAccess g.inst j.xd) x.addr x.len with
  | (st, b, t) =>
    if st ≠ .ok then t.endEntry j x st 0 else
    let deny := (t.incSat Reg.NET_IDS_DIAG_DENIED [j.xd] 1).endEntry j x .denied 0
    match t.sessionFor j.xd g.inst (bitsOf x.e 192 16) (bitsOf x.e 208 16) with
    | none => deny
    | some (d, ring) =>
      if t.dusk && t.flag Reg.NET_DIAG_ACT_BLOCK [j.xd, d] then deny
      else
        let r : RingRec := { kind := 4, src := t.freeVal % 256, time := t.epoch, sata := bitsOf x.e 192 32, payload := b }
        let t := t.drawn.ringWrite j.xd ring r
        let t := t.setNet { t.net with passed := tput t.net.passed (32 * j.xd + d) t.now }
        t.endEntry j x .ok t.epoch

/-! ### Meanings of the entries -/

/-- The next entry of job `u` is taken by a command, as an attempt of its XD's engine. -/
def State.tryEntry (s : State) (u : Nat) (f : NextEntry × State → State) : Host.Outcome State Fault Refusal :=
  match s.netJob u with
  | none => go s
  | some j => s.attempt (partyNet j.xd) (some u) (fun s => go (f (s.nextEntry u)))

/-- TX_ETHERNET: the next entry of job `u` is of KIND 1 (R459). An entry that cannot be read, and one of a KIND that Table net.1 lacks, end here too. -/
def execTxEthernet (u : Nat) (s : State) : Host.Outcome State Fault Refusal :=
  s.tryEntry u (fun
    | (.none, t) => t
    | (.failed j st, t) => t.endEntry j ⟨j.next, 0⟩ st 0
    | (.entry j g x, t) => if x.kind = 2 || x.kind = 3 || x.kind = 4 then t else t.txEther j g x)

/-- TX_CAN: the next entry of a job is of KIND 2 (R459), or the Safety Island sends a frame through its own buffers (R510). -/
def execTxCan (r : CanSend) (s : State) : Host.Outcome State Fault Refusal :=
  match r with
  | .entry u => s.tryEntry u (fun
    | (.entry j g x, t) => if x.kind = 2 then t.txCan j g x else t
    | (_, t) => t)
  | .island c f =>
    if c ≥ 4 then .refused .illFormed
    else if s.saf.islandRun && s.canFits 0 c f then go (s.canOffer 0 c .island f).2 else go s

/-- TX_LIN: the next entry of job `u` is of KIND 3 (R459). -/
def execTxLin (u : Nat) (s : State) : Host.Outcome State Fault Refusal :=
  s.tryEntry u (fun
    | (.entry j g x, t) => if x.kind = 3 then t.txLin j g x else t
    | (_, t) => t)

/-- TX_DIAGNOSTIC_MESSAGE: the next entry of job `u` is of KIND 4 (R474). -/
def execTxDiagnosticMessage (u : Nat) (s : State) : Host.Outcome State Fault Refusal :=
  s.tryEntry u (fun
    | (.entry j g x, t) => if x.kind = 4 then t.txDiag j g x else t
    | (_, t) => t)

/-- The status of a job whose entries are all decided (R460): that of the lowest-numbered entry that failed. -/
def NetJob.status (j : NetJob) : Status :=
  match (List.range j.count).findSome? (fun k => (j.done.find? (fun e => e.1 = k && e.2 ≠ .ok)).map (·.2)) with
  | some st => st
  | none => .ok

/-- TX_JOB_COMPLETE: every entry of job `u` has its status (R460). -/
def execTxJobComplete (u : Nat) (s : State) : Host.Outcome State Fault Refusal :=
  s.attempt (partyJob u) (some u) (fun s => match s.netJob u with
  | none => go s
  | some j =>
    if j.done.length < j.count then go s
    else go ((s.setNet { s.net with jobs := s.net.jobs.filter (fun x => x.uid ≠ u) }).endJob u j.status))

/-! ### CAN transmissions (R465, R466) -/

/-- TEC after a transmit error; above 255 the controller is in bus-off, and its entries end with ST_NOT_READY (R459, R465). -/
def State.txError (s : State) (n c : Nat) : State :=
  let tec := s.rd Reg.CAN_CTL_TEC [n, c] + 8
  let s := s.wr Reg.CAN_CTL_TEC [n, c] (satTo 8 tec)
  if tec > 255 then
    let s := s.wr Reg.CAN_CTL_STATE [n, c] 2
    let x := s.can (16 * n + c)
    let all := x.sending.toList ++ x.bufs
    let isEntry := fun (p : CanPend) => match p.src with | .entry _ _ => true | _ => false
    let s := s.setCan (16 * n + c) { x with sending := none, bufs := all.filter (fun p => !isEntry p) }
    (all.filter isEntry).foldl (fun s p => s.sentBy p.src .notReady 0) s
  else if tec > 127 then s.wr Reg.CAN_CTL_STATE [n, c] 1
  else s

/-- A transmission that met a transmit error goes back to the front of the buffers and is tried again. An actuation frame whose side has lost authority meanwhile waits no more (R478). -/
def State.canRetry (s : State) (n c : Nat) : State :=
  let x := s.can (16 * n + c)
  match x.sending with
  | none => s.canKick n c
  | some p =>
    if s.aasBlocks n c p.src p.frame then (((s.setCan (16 * n + c) { x with sending := none }).countBlock p.src).sentBy p.src .denied 0).canKick n c
    else (s.setCan (16 * n + c) { x with sending := none, bufs := p :: x.bufs }).canKick n c

/-- The controller finds itself alone (R466). -/
def State.loneBegin (s : State) (n c : Nat) : State :=
  let s := (s.wr Reg.CAN_CTL_LONE [n, c] 1).wr Reg.CAN_CTL_LAST [n, c] (statusCode .loneNode)
  let s := (s.incSat Reg.CAN_CTL_LONES [n, c] 1).record 0x51 34 (leBytes 1 n ++ leBytes 1 c ++ leBytes 1 (s.rd Reg.CAN_CTL_TEC [n, c]))
  let s := s.send (s.rd Reg.ENC_OWN_OWNER [ownIndex 1 n c]) (s.rd Reg.CAN_CTL_OWN_VEC [n, c])
  if s.flag Reg.CAN_CTL_LONE_STOP [n, c] then
    let x := s.can (16 * n + c)
    x.sending.toList.foldl (fun s p => s.sentBy p.src .loneNode 0) (s.setCan (16 * n + c) { x with sending := none })
  else s.canRetry n c

/-- A transmission that nobody acknowledged (R465, R466). -/
def State.ackError (s : State) (n c : Nat) : State :=
  let s := s.incSat Reg.CAN_CTL_ACKERR [n, c] 1
  let s := if s.rd Reg.CAN_CTL_TEC [n, c] < 128 then s.txError n c else s
  let x := s.can (16 * n + c)
  let s := s.setCan (16 * n + c) { x with ackRun := x.ackRun + 1 }
  let lim := s.rd Reg.CAN_CTL_ACK_N [n, c]
  if lim ≠ 0 && x.ackRun + 1 ≥ lim && !s.flag Reg.CAN_CTL_LONE [n, c] then s.loneBegin n c else s.canRetry n c

/-- A transmission that was acknowledged. -/
def State.acked (s : State) (n c : Nat) (p : CanPend) : State :=
  let x := s.can (16 * n + c)
  let tec := s.rd Reg.CAN_CTL_TEC [n, c] - 1
  let s := s.wr Reg.CAN_CTL_TEC [n, c] tec
  let s := if s.rd Reg.CAN_CTL_STATE [n, c] = 1 && tec < 128 && s.rd Reg.CAN_CTL_REC [n, c] < 128 then s.wr Reg.CAN_CTL_STATE [n, c] 0 else s
  let s := (s.setCan (16 * n + c) { x with sending := none, ackRun := 0 }).onWire 1 (16 * n + c) (canImage p.frame)
  (s.sentBy p.src .ok x.sof).canKick n c

/-- CAN_TX_DONE: the frame on the wire of a controller ends (R459, R465, R466). -/
def execCanTxDone (n c : Nat) (r : CanResult) (s : State) : Host.Outcome State Fault Refusal :=
  match (s.can (16 * n + c)).sending with
  | none => go s
  | some p => s.attempt (partyNet n) none (fun s =>
    match r with
    | .acked => go (s.acked n c p)
    | .ackError => go (s.ackError n c)
    | .error =>
      let s := s.setCan (16 * n + c) { s.can (16 * n + c) with ackRun := 0 }
      go ((s.txError n c).canRetry n c))

/-- A bus-off controller takes part again, with its error counts at 0 (R465). -/
def State.busOffEnd (s : State) (n c : Nat) : State :=
  (((s.wr Reg.CAN_CTL_STATE [n, c] 0).wr Reg.CAN_CTL_TEC [n, c] 0).wr Reg.CAN_CTL_REC [n, c] 0).canKick n c

/-- A COMMIT stages RESUME = 1 (R465, R466). -/
def State.canResume (s : State) (n c : Nat) : State :=
  let s := s.wr Reg.CAN_CTL_RESUME [n, c] 0
  let s := if s.rd Reg.CAN_CTL_STATE [n, c] = 2 then s.busOffEnd n c else s
  s.loneEnd n c

/-- BUS_OFF_RECOVERY: 128 × 11 recessive bits have passed, and a bus-off controller with AUTO_BOR recovers (R465). -/
def execBusOffRecovery (n c : Nat) (s : State) : Host.Outcome State Fault Refusal :=
  if n < 4 && c < 16 && s.rd Reg.CAN_CTL_STATE [n, c] = 2 && s.flag Reg.CAN_CTL_AUTO_BOR [n, c] then go (s.busOffEnd n c) else go s

/-! ### LIN schedules and diagnostic sessions -/

/-- LIN_SCHEDULE_SLOT: a commander reaches the next slot of its table and sends the slot's header (R467). The spec does not give the form of the table: the identifier is free (DESIGN CHOICE, log entry 18). -/
def execLinScheduleSlot (n l : Nat) (s : State) : Host.Outcome State Fault Refusal :=
  if n < s.fuses.variant.xds && l < 8 && s.boot.mainUp && s.flag Reg.CAN_LIN_EN [n, l] && s.rd Reg.CAN_LIN_MODE [n, l] = 1 then
    let k := 8 * n + l
    let s := s.setNet { s.net with linPos := tput s.net.linPos k ((tget 0 s.net.linPos k + 1) % 64) }
    go (s.drawn.onWire 2 k (leBytes 1 (s.freeVal % 64)))
  else go s

/-- DIAG_SESSION_IDLE: no payload has passed session `j` for IDLE_S seconds: ACTIVE clears, with an Almanac entry (R475), whose CODE the spec does not give (DESIGN CHOICE, log entry 18). -/
def execDiagSessionIdle (n j : Nat) (s : State) : Host.Outcome State Fault Refusal :=
  if n < s.fuses.variant.xds && j < 32 && s.boot.mainUp && s.flag Reg.NET_DIAG_ACTIVE [n, j]
      && tget 0 s.net.passed (32 * n + j) + s.rd Reg.NET_DIAG_IDLE_S [n, j] * 1000000000 ≤ s.now then
    go ((s.drawn.wr Reg.NET_DIAG_ACTIVE [n, j] 0).record (s.freeVal % 2 ^ 16) 38 [])
  else go s

/-! ### Authority (R476 to R478; 16, R518) -/

/-- AUTH changes: TAKEOVERS or RETURNS counts, every takeover clears REQ_MAIN (R518, R519), and the switch is to carry the change out. -/
def State.setAuth (s : State) (dusk : Bool) (cause : Nat) : State :=
  let s := if dusk then s.wr Reg.NET_AAS_REQ_MAIN [] 0 else s
  if s.dusk = dusk then s
  else
    let s := s.wr Reg.NET_AAS_AUTH [] (if dusk then 1 else 0)
    let s := if dusk then { s with saf := { s.saf with holdStart := s.now } } else s
    let s := if dusk then s.incSat Reg.SAF_STAT_TAKEOVERS [] 1 else s.incSat Reg.SAF_STAT_RETURNS [] 1
    (({ s with boot := { s.boot with switchBlock := s.boot.switchBlock && !dusk } }).setNet
      { s.net with moves := s.net.moves ++ [(dusk, cause)] })

/-- The actuation frames of the losing side that wait in a controller's buffers are removed, and their entries report ST_DENIED (R478). -/
def State.removeLosers (dusk : Bool) (s : State) (c : Nat) : State :=
  let x := s.can c
  let lost := x.bufs.filter (fun p => s.isActuation 0 c p.frame && (p.src = .island) == !dusk)
  let s := s.setCan c { x with bufs := x.bufs.filter (fun p => !(s.isActuation 0 c p.frame && (p.src = .island) == !dusk)) }
  lost.foldl (fun s p => (s.countBlock p.src).sentBy p.src .denied 0) s

/-- AUTH_CHANGE: the switch carries out a change of AUTH (R478): the losing side's frames, the Almanac entry, and AAS_VEC to I0 and to the owners of controllers 0 to 3. -/
def execAuthChange (s : State) : Host.Outcome State Fault Refusal :=
  match s.net.moves with
  | [] => go s
  | (dusk, cause) :: rest =>
    let s := s.setNet { s.net with moves := rest }
    let s := [0, 1, 2, 3].foldl (State.removeLosers dusk) s
    let s := s.record 0x41 33 (leBytes 1 (if dusk then 1 else 0) ++ leBytes 1 cause)
    let vec := s.rd Reg.NET_AAS_VEC []
    let owners := (0 :: [0, 1, 2, 3].map (fun c => s.rd Reg.ENC_OWN_OWNER [ownIndex 1 0 c])).eraseDups
    go (owners.foldl (fun s i => s.send i vec) s)

end Sys2Proof.Machine
end

