-- ==== Sys2Proof/Machine/Fcu.lean ====
section
/-! DEFINITION. The Fault Collection Unit and the Safety Island (16): latching, reactions, island failure, authority, the heartbeat, and the injections. -/

namespace Sys2Proof.Machine

/-! ### The island (Table saf.2, R510 to R512, R525) -/

/-- MAIN_STATE of Table saf.2. -/
def State.mainState (s : State) : Nat :=
  if s.flag Reg.SAF_RST_PARKED [] then 2 else if s.boot.warm then 1 else if s.boot.cold then 3 else 0

/-- Island failure (R525): FAULT_N goes low, HB_OUT stops, the switch blocks both sides through ISL_FAIL, and the island cores are held in reset. -/
def State.islandFail (s : State) : State :=
  let s := s.wr Reg.SAF_STAT_ISL_FAIL [] 1
  { s with saf := { s.saf with faultN := false, islandRun := false } }

/-- An event interrupts the island cores. -/
def State.islandInt (s : State) : State :=
  if s.saf.islandRun then { s with saf := { s.saf with islandIrq := s.saf.islandIrq + 1 } } else s

/-! ### Latching and reactions (R513 to R517, Table saf.3) -/

/-- REACT of an event. -/
def State.react (s : State) (e : Nat) : Nat := s.rd Reg.SAF_EVT_REACT [e]

/-- An event is latched. -/
def State.latched (s : State) (e : Nat) : Bool := s.flag Reg.SAF_EVT_LATCH [e]

/-- REACT 0: LATCH, COUNT, SAF.LAST and the Almanac entry (Table saf.3; 17, Table alm.2). -/
def State.reactRecord (s : State) (e : Nat) : State :=
  let s := (s.wr Reg.SAF_EVT_LATCH [e] 1).incSat Reg.SAF_EVT_COUNT [e] 1
  let s := (s.wr Reg.SAF_LAST_EVT [] e).wrPair Reg.SAF_LAST_TIME_LO Reg.SAF_LAST_TIME_HI [] s.epoch
  s.record 0x40 34 (leBytes 1 e ++ leBytes 1 (s.react e) ++ leBytes 2 (s.rd Reg.SAF_EVT_COUNT [e]))

/-- REACT 1: VEC to I0. The island interrupt of R517, or of EVT_MSG, comes with it. -/
def State.reactNotify (s : State) (e r : Nat) : State :=
  if r = 0 then s
  else
    let s := s.send 0 (s.rd Reg.SAF_CTRL_VEC [])
    if bitAt s.saf.evtMsg e || 2 ≤ r then s.islandInt else s

/-- REACT 2: the FCU sets AUTH = DUSK (R517), and the hold of R519 starts again. -/
def State.reactTakeover (s : State) (e r : Nat) : State :=
  if r < 2 then s
  else ({ s with saf := { s.saf with lastLatch := s.now } }).setAuth true e

/-- REACT 3: the warm reset of the main domain is to be asserted (R522), unless a warm restart is in progress (R523), the main domain is parked or in reset, or its boot has failed, which only a cold boot retries (R565). -/
def State.reactRestart (s : State) (e r : Nat) : State :=
  if r = 3 && s.boot.mainUp && !s.boot.warm && !s.boot.failed && s.saf.restart.isNone then
    { s with saf := { s.saf with restart := some e } }
  else s

/-- An FCU latch triggers the wreck buffers when its REACT is at least WREACT, for WREACT 1 to 4 (17, R543). -/
def State.reactWreck (s : State) (r : Nat) : State :=
  let w := s.rd Reg.ALM_CFG_WREACT []
  if 1 ≤ w && w ≤ 4 && w ≤ r then s.wreckTrigger 2 else s

/-- A fatal CMP fault: CMP_STATE is 2, every strand stops, and no context runs until the main domain restarts warm (R56; Table saf.4, event 20). -/
def State.cmpFatal (s : State) : State := (List.range 64).foldl State.releaseStrand { s with cmp := { s.cmp with state := 2 } }

/-- Event `e` latches, with its reaction (R515, Table saf.3). REACT 4 fails the island and leaves the main domain running (R525). -/
def State.latch (s : State) (e : Nat) : State :=
  let r := s.react e
  let s := if e = 20 then s.cmpFatal else s
  let s := (((s.reactRecord e).reactNotify e r).reactTakeover e r).reactRestart e r
  (if r = 4 then s.islandFail else s).reactWreck r

/-- The line of an event is taken from the FCU's inputs. -/
def State.dropLine (s : State) (e : Nat) : State :=
  { s with saf := { s.saf with lines := s.saf.lines.filter (· ≠ e) } }

/-- The events of checkers that watch what the model does not hold, so that their assertion comes with FCU_LATCH itself (Table saf.4): the island's lockstep and ECC, the FCU's rails, the two fault paths, Sextant's datapaths, the CMP's context store and the clusters' tags. -/
def outerEvents : List Nat := [0, 1, 2, 16, 19, 20, 21]

/-- The line of the checker of an event is asserted; the last three of them lie in the main domain, and raise nothing while it is in reset (R523). -/
def State.asserts (s : State) (e : Nat) : State :=
  if outerEvents.contains e && (e < 19 || s.boot.mainUp) && !s.saf.lines.contains e then { s with saf := { s.saf with lines := s.saf.lines ++ [e] } } else s

/-- FCU_LATCH: the FCU latches event `e`, whose checker has asserted (R513). A checker under injection waits for its re-sampling (R514); an event that is latched already stays so (R516). -/
def execFcuLatch (e : Nat) (s : State) : Host.Outcome State Fault Refusal :=
  let s := s.asserts e
  if !s.safeUp || !s.saf.lines.contains e || 28 ≤ e || s.saf.underInjection.contains e then go s
  else if s.latched e then go (s.dropLine e)
  else go ((s.dropLine e).latch e)

/-- INJECTION_RESAMPLE: 1 µs after the injection of the checker of event `e` has ended, its line is sampled again: while it is still asserted the event is real (R514). -/
def execInjectionResample (e : Nat) (still : Bool) (s : State) : Host.Outcome State Fault Refusal :=
  if !s.saf.underInjection.contains e then go s
  else
    let hit := s.saf.lines.contains e
    let s := { s with saf := { s.saf with underInjection := s.saf.underInjection.filter (· ≠ e) } }
    if !hit then go s
    else if still && !s.latched e then go ((s.dropLine e).latch e)
    else go (s.dropLine e)

/-- The condition that caused an event holds, for the events that a condition causes (R516): a shortfall (R175), DEGRADED, a code below QMIN, a link that is down, a freeze, CMP_STATE = 2, a critical temperature or a trip, and WARM_RST_N low. -/
def State.causeHolds (s : State) (e : Nat) : Bool :=
  if e = 5 then s.capacityShort
  else if e = 12 then s.flag Reg.CLK_REF_DEGRADED []
  else if e = 13 then s.quality < s.rd Reg.CLK_EPOCH_QMIN []
  else if e = 16 then (List.range s.fuses.variant.xds).any (fun n => s.rd Reg.MAT_LINK_STATE [n] ≠ 1)
  else if e = 17 then !s.fab.frozen.isEmpty
  else if e = 20 then s.cmp.state = 2
  else if e = 22 then
    s.rd Reg.PWR_THERM_LEVEL [] = 3 || s.rd Reg.PWR_THERM_HLEVEL [] = 3 || s.pwr.tripHold
  else if e = 24 then !s.pwr.warmRstN
  else false

/-- Context 0 commits CLR of event `e` (R516). -/
def State.eventClr (s : State) (e : Nat) : State :=
  if e ≤ 3 || e = 26 || !s.latched e then s
  else
    let s := s.wr Reg.SAF_EVT_LATCH [e] 0
    if s.causeHolds e then s.latch e else s

/-! ### Restart and parking (R522 to R524) -/

/-- The warm restarts that began within the last WIN_S seconds (R524). -/
def State.recentRestarts (s : State) : List Nat :=
  s.saf.restarts.filter (fun t => s.now - t < s.rd Reg.SAF_RST_WIN_S [] * 1000000000)

/-! ### Authority (R518 to R520) -/

/-- The conditions of R519 for a return of authority. -/
def State.mayReturn (s : State) : Bool :=
  s.dusk && s.flag Reg.NET_AAS_REQ_MAIN [] && s.flag Reg.SAF_STAT_CONSENT []
    && (List.range 28).all (fun e => !(s.latched e && 2 ≤ s.react e))
    && max s.saf.holdStart s.saf.lastLatch + s.rd Reg.SAF_RET_HYST_MS [] * 1000000 ≤ s.now
    && s.saf.mainInjected
    && (!s.flag Reg.SAF_HB_CFG_EN [] || 2 ≤ s.saf.hbCount)
    && !s.flag Reg.SAF_RST_PARKED [] && !s.flag Reg.SAF_STAT_ISL_FAIL []

/-- AUTHORITY_RETURN: at the first instant at which every condition of R519 holds, AUTH returns to MAIN, and the island clears REQ_MAIN and CONSENT. -/
def execAuthorityReturn (s : State) : Host.Outcome State Fault Refusal :=
  if s.mayReturn then
    go (((s.wr Reg.NET_AAS_REQ_MAIN [] 0).wr Reg.SAF_STAT_CONSENT [] 0).setAuth false 0x41)
  else go s

/-- The island writes TAKE = 1 (R518, Table saf.2). -/
def State.takeAuth (s : State) : State := if s.saf.islandRun then s.setAuth true 0x40 else s

/-- TAKE (R518). -/
def execTake (s : State) : Host.Outcome State Fault Refusal := go s.takeAuth

/-! ### The island's watchdog and control block (R512, Table saf.2) -/

/-- The island kicks its watchdog: a value one above the last kick is a correct one. -/
def State.kick (s : State) (v : Nat) : State :=
  if s.saf.islandRun && v % 2 ^ 16 = (s.saf.lastKick + 1) % 2 ^ 16 then
    { s with saf := { s.saf with kicked := true, lastKick := v % 2 ^ 16 } }
  else s

/-- WDOG_KICK (R512). The first kick is one above 0 (DEDUCED, log entry 21). -/
def execWdogKick (v : Nat) (s : State) : Host.Outcome State Fault Refusal := go (s.kick v)

/-- ISLAND_WATCHDOG_EXPIRY: no correct kick within WDOG_MS of the last one, or of the island's release (R512). -/
def execIslandWatchdogExpiry (s : State) : Host.Outcome State Fault Refusal :=
  if s.saf.islandRun then go (s.raise 3) else go s

/-- A write of the island cores to their control block (Table saf.2). One to the RO fields EVT_PEND and MAIN_STATE is ignored, with ST_DENIED (R10). WDOG_MS holds 1 to 100; what another value leaves in it is free (DEDUCED, log entry 21). -/
def State.islandWrite (s : State) (off v : Nat) : State :=
  if !s.saf.islandRun then s
  else if off = 0x04 then { s with saf := { s.saf with evtMsg := v % 2 ^ 32 } }
  else if off = 0x08 then (if bitAt v 0 then s.takeAuth else s)
  else if off = 0x0C then s.wr Reg.SAF_STAT_CONSENT [] (v % 2)
  else if off = 0x10 then s.kick v
  else if off = 0x14 then
    (if s.saf.kicked then s
     else if 1 ≤ v % 256 && v % 256 ≤ 100 then { s with saf := { s.saf with wdogMs := v % 256 } }
     else { s.drawn with saf := { s.saf with wdogMs := s.freeVal % 100 + 1 } })
  else if off = 0x00 || off = 0x18 then s.answer .denied 0
  else s

/-- REGISTER_WRITE: a write anywhere in the Command Port aperture (R9, R39, R40, R42), or by the island to its control block (Table saf.2). -/
def execRegisterWrite (w : RegWrite) (s : State) : Host.Outcome State Fault Refusal :=
  match w with
  | .port tag off size v => go (s.portWrite tag off size v)
  | .island off v => go (s.islandWrite off v)

/-! ### The main heartbeat (R521) -/

/-- A commit of HB.SEQ = `v`, where `last` is the last accepted value: accepted, or event 4. -/
def State.heartbeat (s : State) (last v : Nat) : State :=
  if !s.flag Reg.SAF_HB_CFG_EN [] then s
  else if s.saf.hbAny || (v = (last + 1) % 2 ^ 16 && s.saf.hbTime + s.rd Reg.SAF_HB_CFG_MIN_MS [] * 1000000 ≤ s.now) then
    { s.wr Reg.SAF_HB_SEQ [] v with saf := { s.saf with hbAny := false, hbTime := s.now, hbCount := s.saf.hbCount + 1 } }
  else s.raise 4

/-- HEARTBEAT_TIMEOUT: MAX_MS after the last accepted heartbeat, or 300 ms after a warm restart's start, without one (R521). A main domain in reset or parked makes no event. -/
def execHeartbeatTimeout (s : State) : Host.Outcome State Fault Refusal :=
  if s.flag Reg.SAF_HB_CFG_EN [] && s.boot.mainUp && !s.flag Reg.SAF_RST_PARKED [] then go (s.raise 4) else go s

/-! ### Injections (R528, R529) -/

/-- One checker group is injected: INJ[g] records the result. -/
def State.injectGroup (fails : List Nat) (s : State) (g : Nat) : State :=
  if fails.contains g then ((s.wr Reg.SAF_INJ_OK [g] 0).incSat Reg.SAF_INJ_FAILS [g] 1).wr Reg.SAF_STAT_INJ_FAIL [] 1
  else s.wr Reg.SAF_INJ_OK [g] 1

/-- STARTUP_INJECTION: the checkers of the listed groups are injected at a start: those of the main domain, or the island, FCU and switch checkers of a cold boot (R528). The latter pass once the island cores run Dusk: FAULT_N goes high and the island takes authority (R518, R526, R558). -/
def execStartupInjection (main : Bool) (groups fails : List Nat) (s : State) : Host.Outcome State Fault Refusal :=
  if !s.safeUp || (main && !s.boot.mainUp) || (!main && !s.saf.islandRun) then go s
  else
    let s := (groups.filter (· < 64)).foldl (State.injectGroup fails) s
    if groups.any fails.contains then go (s.raise (if main then 25 else 26))
    else if main then go ({ s.wr Reg.SAF_STAT_INJ_DONE [] 1 with saf := { s.saf with mainInjected := true } })
    else go (({ s with saf := { s.saf with faultN := true } }).setAuth true 0x42)

/-- RUNTIME_INJECTION: the FCU injects group `g`, whose checkers drive the events `evs` meanwhile; a group that fails records so and raises event 25, or 26 on the ASIL D path (R514, R529). -/
def execRuntimeInjection (g : Nat) (evs : List Nat) (ok asilD : Bool) (s : State) : Host.Outcome State Fault Refusal :=
  if !s.safeUp || 64 ≤ g then go s
  else
    let s := s.injectGroup (if ok then [] else [g]) g
    let s := { s with saf := { s.saf with underInjection := s.saf.underInjection ++ evs.filter (fun e => !s.saf.underInjection.contains e) } }
    go (if ok then s else s.raise (if asilD then 26 else 25))

/-- HB_OUT_TOGGLE: HB_OUT changes level every 1 ms while the island runs (R526; 21, R618). -/
def execHbOutToggle (s : State) : Host.Outcome State Fault Refusal :=
  if s.saf.islandRun && s.saf.faultN && !s.saf.lines.contains 3 then go { s with saf := { s.saf with hbOut := !s.saf.hbOut } } else go s

end Sys2Proof.Machine
end

