-- ==== Sys2Proof/Machine/Governor.lean ====
section
/-! DEFINITION. The bandwidth governor of the tiles (01, R25 to R32): the issue of held requests, and the meanings of its three commands. -/

namespace Sys2Proof.Machine

/-- A held request that the governor has admitted, as lines of its tile: it goes to its target, or back to the engine whose command made it. -/
def State.govIssue (s : State) (q : GovReq) : State :=
  match q.party, q.req.adm with
  | some p, _ => { s with orr := { s.orr with prepaid := addUnits s.orr.prepaid p [(govLine, q.lines)] } }
  | none, some m =>
    let (r, t) := s.busAct q.req m (s.targetOf m.pa q.req.size)
    t.busAnswer r
  | none, none => s

/-- Held requests are issued while the governor admits them. -/
def State.govDrain : (fuel : Nat) → State → State
  | 0, s => s
  | fuel + 1, s =>
    match s.inf.gov.nextHeld with
    | none => s
    | some q =>
      match s.inf.gov.takes q.tile q.lines with
      | none => s
      | some g => State.govDrain fuel ((s.setGov { g with held := g.held.erase q, rr := q.tile }).govIssue q)

/-- Every held request that the governor now admits is issued, unless the Main Matrix is frozen (R198). -/
def State.govRun (s : State) : State :=
  if s.fab.frozen.contains 0 then s else State.govDrain s.inf.gov.held.length s

/-- GOVERNOR_WINDOW_OPEN: a window opens (R25, R26, R31): SHARE takes effect, each active tile receives its quota, and the remainder forms the free pool. -/
def execGovernorWindowOpen (s : State) : Host.Outcome State Fault Refusal :=
  if !s.boot.mainUp then go s else
  let cap := governorCap s.fuses.variant.hbmStacks (s.rd Reg.INF_GOV_CTRL_SHARE [])
  let act := s.activeTiles
  let quota := if act.isEmpty then 0 else cap / act.length
  let g := { s.inf.gov with cap := cap, quota := quota, left := act.map (fun t => (t, quota)), active := act,
                            pool := cap - act.length * quota, issued := 0, released := false }
  go (((s.wr Reg.INF_GOV_CAP_LINES [] cap).setGov g).govRun)

/-- GOVERNOR_RELEASE_POINT: at INF cycle 1,125 all unused quota joins the free pool (R27). -/
def execGovernorReleasePoint (s : State) : Host.Outcome State Fault Refusal :=
  let g := s.inf.gov
  if g.released then go s
  else go ((s.setGov { g with left := [], pool := g.pool + sumSnd g.left, released := true }).govRun)

/-- TILE_HBM_REQUEST: logical tile `t` makes an HBM request within one line (R27 to R30): a request of that tile's port, which issues only when both the governor and Orrery allow it, and is held otherwise. -/
def execTileHbmRequest (t : Nat) (a : Access) (addr size : Nat) (w : List Byte) (e : RowError) (s : State) :
    Host.Outcome State Fault Refusal :=
  if a.gate || t ≥ s.fuses.variant.tiles || size = 0 || addr % 64 + size > 64 || a.src ≠ .tile (s.rd Reg.INF_TILE_PHYS [t])
      || (a.kind = .write && w.length ≠ size) then .refused .illFormed
  else if !s.tagFits a then go s
  else go (s.request { acc := a, addr := addr, size := size, bytes := w, err := e })

/-! ### Held time (R29, R33) -/

/-- The tile-time of one tick of a held tile, in INF cycles: 4 ns at 1.5 GHz. -/
def holdCycles : Nat := 6

/-- One tick while the governor holds requests: HOLD_CYCLES counts, and each held tile's time is charged to the activity of its request's instance (R29, R33). -/
def State.holdTick (s : State) : State :=
  if s.inf.gov.held.isEmpty then s else
  let firsts := (List.range 64).filterMap (fun t => s.inf.gov.held.find? (fun q => q.tile = t))
  firsts.foldl (fun s q => s.charge 22 q.req.acc.tag holdCycles) (s.incWrap Reg.INF_GOV_STAT_HOLD_CYCLES [] holdCycles)

end Sys2Proof.Machine
end

