-- ==== Sys2Proof/Machine/TileDesc.lean ====
section
/-! DEFINITION. Tile descriptors (10, Tables inf.1, inf.2 and inf.4): their fields, and the checks that R306 to R309 and R335 make before a descriptor executes. -/

namespace Sys2Proof.Machine

/-- A tensor reference (Table inf.2). -/
structure TRef where
  addr : Nat
  loc : Bool
  d0 : Nat
  d1 : Nat
  d2 : Nat
  d3 : Nat
  s1 : Nat
  s2 : Nat
  s3 : Nat
  deriving DecidableEq, Repr

/-- The reference at bit `lo` of a descriptor. -/
def refOf (v lo : Nat) : TRef where
  addr := bitsOf v lo 48
  loc := bitAt v (lo + 48)
  d0 := bitsOf v (lo + 64) 16
  d1 := bitsOf v (lo + 80) 16
  d2 := bitsOf v (lo + 96) 16
  d3 := bitsOf v (lo + 112) 16
  s1 := bitsOf v (lo + 128) 20
  s2 := bitsOf v (lo + 148) 20
  s3 := bitsOf v (lo + 168) 20

/-- The fields of a tile descriptor (Table inf.1). -/
structure Td where
  op : Nat
  tile : Nat
  tin : Nat
  tw : Nat
  tout : Nat
  zero : Bool
  sat : Bool
  sparse : Bool
  pid : Nat
  fuse : Nat
  next : Nat
  x : TRef
  w : TRef
  y : TRef
  p0 : Nat
  p1 : Nat
  p2 : Nat
  p3 : Nat
  p4 : Nat
  deriving DecidableEq, Repr

/-- The fields that the 1,024 bits of a descriptor spell. -/
def tdOf (v : Nat) : Td where
  op := bitsOf v 0 8
  tile := bitsOf v 8 6
  tin := bitsOf v 16 4
  tw := bitsOf v 20 4
  tout := bitsOf v 24 4
  zero := bitAt v 28
  sat := bitAt v 29
  sparse := bitAt v 31
  pid := bitsOf v 32 20
  fuse := bitsOf v 56 4
  next := bitsOf v 64 64
  x := refOf v 128
  w := refOf v 320
  y := refOf v 512
  p0 := bitsOf v 704 64
  p1 := bitsOf v 768 64
  p2 := bitsOf v 832 64
  p3 := bitsOf v 896 64
  p4 := bitsOf v 960 64

/-- Bytes of an element of a type (Table inf.3). -/
def typeSize (ty : Nat) : Nat := if ty ≤ 3 then 1 else if ty ≤ 5 then 2 else 4

/-- The reserved bits of a descriptor are 0. -/
def tdReserved (v : Nat) : Bool :=
  bitsOf v 14 2 = 0 && !bitAt v 30 && bitsOf v 52 4 = 0 && bitsOf v 60 4 = 0
    && [128, 320, 512].all (fun lo => bitsOf v (lo + 49) 15 = 0 && bitsOf v (lo + 188) 4 = 0)

/-- A used reference: dimensions of at least 1, an aligned LOC 1 address, and a LOC 0 tensor within the 2 MB of the tile's SRAM (R306, R307). -/
def TRef.ok (r : TRef) (ty : Nat) : Bool :=
  r.d0 ≠ 0 && r.d1 ≠ 0 && r.d2 ≠ 0 && r.d3 ≠ 0 &&
    (if r.loc then r.addr % typeSize ty = 0
     else r.addr + r.d0 * typeSize ty + 16 * ((r.d1 - 1) * r.s1 + (r.d2 - 1) * r.s2 + (r.d3 - 1) * r.s3) ≤ 2 ^ 21)

/-- The references of a descriptor: those that its operation uses keep R306 and R307, and the others are all zero. -/
def refsOk (v : Nat) (d : Td) : Bool :=
  let useX := d.op ≤ 0x16
  let useW := [0x01, 0x02, 0x03, 0x04, 0x06, 0x0B, 0x0C, 0x14, 0x15].contains d.op
  (if useX then d.x.ok d.tin else bitsOf v 128 192 = 0)
    && (if useW then d.w.ok d.tw else bitsOf v 320 192 = 0)
    && (if useX then d.y.ok d.tout else bitsOf v 512 192 = 0)

/-- The matrix operations (R309). -/
def isMatrix (op : Nat) : Bool := op = 0x01 || op = 0x02 || op = 0x03 || op = 0x04 || op = 0x15

/-- The type combinations of R309. -/
def typesOk (d : Td) : Bool :=
  d.tin ≤ 7 && d.tw ≤ 7 && d.tout ≤ 7 &&
    (!isMatrix d.op ||
      (d.tin ≤ 1 && d.tw ≤ 1 && [0, 1, 7, 4, 6].contains d.tout) ||
      ((d.tin = 2 || d.tin = 3) && (d.tw = 2 || d.tw = 3) && 2 ≤ d.tout && d.tout ≤ 6) ||
      (d.tin = d.tw && (d.tin = 4 || d.tin = 5) && 4 ≤ d.tout && d.tout ≤ 6))

/-- A new order that permutes the four dimensions. -/
def isOrder (v : Nat) : Bool := [0, 1, 2, 3].all (fun k => [0, 1, 2, 3].any (fun i => bitsOf v (2 * i) 2 = k))

/-- The parameters of an operation lie in their ranges, and their unlisted bits are 0 (Table inf.4; R325 to R327). -/
def paramsOk (d : Td) (mask : Nat) : Bool :=
  let only := fun (l : List Nat) => l.all (fun p => p = 0)
  let strides := bitsOf d.p2 8 4 ≠ 0 && bitsOf d.p2 12 4 ≠ 0
  match d.op with
  | 0x01 => d.p2 < 2 ^ 8 && only [d.p3, d.p4]
  | 0x02 | 0x03 | 0x04 => strides && bitsOf d.p2 32 4 ≠ 0 && bitsOf d.p2 36 4 ≠ 0 && d.p2 < 2 ^ 40 && only [d.p3, d.p4]
  | 0x05 => strides && bitsOf d.p2 0 4 ≠ 0 && bitsOf d.p2 4 4 ≠ 0 && d.p2 < 2 ^ 32 && d.p3 ≤ 1 && only [d.p0, d.p1, d.p4]
  | 0x06 => d.p3 ≤ 4 && only [d.p0, d.p1, d.p2, d.p4]
  | 0x07 => 1 ≤ d.p3 && d.p3 ≤ 8 && (if d.p3 = 3 then d.p4 < 2 ^ 32 else d.p4 = 0) && only [d.p0, d.p1, d.p2]
  | 0x08 => d.p3 ≤ 3 && d.p2 < 2 ^ 16 && d.p4 < 2 ^ 32
  | 0x0A => 1 ≤ d.p3 && d.p3 ≤ 1024 && only [d.p1, d.p2, d.p4]
  | 0x0B => d.p3 ≤ 3 && only [d.p0, d.p1, d.p2, d.p4]
  | 0x0C => d.p3 ≤ 3 && d.p4 ≤ 2 && only [d.p0, d.p1, d.p2]
  | 0x0D => d.p3 < 2 ^ 8 && isOrder d.p3 && only [d.p0, d.p1, d.p2, d.p4]
  | 0x0F | 0x10 => d.p2 < 2 ^ 8 && d.p3 ≤ 1 && only [d.p0, d.p4]
  | 0x11 => bitsOf d.p3 4 4 = 0 && d.p3 < 2 ^ 10 && only [d.p0, d.p1, d.p2, d.p4]
  | 0x13 => d.p3 ≤ 1 && only [d.p0, d.p1, d.p2, d.p4]
  | 0x15 => d.p4 < 2 ^ 32 && only [d.p2, d.p3]
  | 0x18 =>
    if d.p0 = 0 then d.p1 ≠ 0 && d.p1 &&& mask = d.p1 && only [d.p2, d.p3, d.p4]
    else if d.p0 = 1 then bitsOf d.p4 0 32 = 0 && d.p4 < 2 ^ 44 && d.p3 = 0
    else d.p0 = 2 && 1 ≤ d.p4 && d.p4 ≤ 100000
  | _ => only [d.p0, d.p1, d.p2, d.p3, d.p4]

/-- The checks of R308 but for the grant: operation, reserved fields, types, references, parameters, SPARSE and FUSE, and the tile. -/
def tdOk (v mask : Nat) : Bool :=
  let d := tdOf v
  1 ≤ d.op && d.op ≤ 0x18 && tdReserved v && typesOk d && refsOk v d && paramsOk d mask
    && (!d.sparse || d.op = 0x01 || d.op = 0x02 || d.op = 0x15) && d.fuse ≤ 8
    && ((d.op = 0x18 && d.p0 = 0) || bitAt mask d.tile)

/-- The descriptors that the Dusk inference unit executes (R335). -/
def duskOk (d : Td) : Bool :=
  [0, 1, 7].contains d.tin && [0, 1, 7].contains d.tw && [0, 1, 7].contains d.tout
    && [0x01, 0x02, 0x03, 0x05, 0x06, 0x07, 0x09, 0x12, 0x13, 0x16, 0x17, 0x18].contains d.op
    && (d.op ≠ 0x18 || d.p0 ≤ 1)

end Sys2Proof.Machine
end

