-- ==== Sys2Proof/Machine/Tensor.lean ====
section
/-! DEFINITION. What the 22 computing operations of the array do to memory (10, Tables inf.2 and inf.4; R305, R309 to R320): tensors read and written, and each operation over them. Where the spec states no result (shapes that do not fit each other, an index outside a tensor) the elements are free (DESIGN CHOICE, log entry 15). -/

namespace Sys2Proof.Machine

/-! ### Tensors in memory -/

/-- Where a unit's accesses go: its tag and process identifier for LOC 1, and the address at which byte 0 of its own SRAM is stored for LOC 0. -/
structure TileCtx where
  acc : Access
  base : Nat
  deriving DecidableEq, Repr

/-- A read by a unit (R305). -/
def State.tileRead (s : State) (u : TileCtx) (loc : Bool) (addr size : Nat) : Status × List Byte × State :=
  if loc then s.dmaRead u.acc addr size else (.ok, memBytes s.mem (u.base + addr) size, s)

/-- A write by a unit (R305). -/
def State.tileWrite (s : State) (u : TileCtx) (loc : Bool) (addr : Nat) (bytes : List Byte) : Status × State :=
  if loc then s.dmaWrite u.acc addr bytes else (.ok, { s with mem := memPutBytes s.mem (u.base + addr) bytes })

/-- The addresses of the packed rows of a tensor, D1 innermost. -/
def TRef.rows (r : TRef) : List Nat :=
  (List.range r.d3).flatMap (fun k => (List.range r.d2).flatMap (fun j => (List.range r.d1).map (fun i =>
    r.addr + 16 * (i * r.s1 + j * r.s2 + k * r.s3))))

/-- The elements that bytes spell. -/
def elemsOf (ty : Nat) (b : List Byte) : List Nat := (groupsOf (elemSize ty) (b.length + 1) b).map ofLeBytes

/-- The bytes of elements. -/
def elemBytes (ty : Nat) (l : List Nat) : List Byte := l.flatMap (leBytes (elemSize ty))

/-- Read the elements of a tensor, D0 innermost. -/
def State.readTensor (s : State) (u : TileCtx) (ty : Nat) (r : TRef) : Status × List Nat × State :=
  r.rows.foldl (fun (acc : Status × List Nat × State) a =>
    if acc.1 ≠ .ok then acc
    else match acc.2.2.tileRead u r.loc a (r.d0 * elemSize ty) with
      | (st, b, t) => (st, acc.2.1 ++ elemsOf ty b, t)) (.ok, [], s)

/-- Write the elements of a tensor, D0 innermost. -/
def State.writeTensor (s : State) (u : TileCtx) (ty : Nat) (r : TRef) (vals : List Nat) : Status × State :=
  let (st, _, s) := r.rows.foldl (fun (acc : Status × List Nat × State) a =>
    if acc.1 ≠ .ok then acc
    else match acc.2.2.tileWrite u r.loc a (elemBytes ty (acc.2.1.take r.d0)) with
      | (st, t) => (st, acc.2.1.drop r.d0, t)) (.ok, vals, s)
  (st, s)

/-- A packed list of `n` FP32 or INT32 values at an instance address. -/
def State.readWords (s : State) (u : TileCtx) (addr n : Nat) : Status × List Nat × State :=
  match s.dmaRead u.acc addr (4 * n) with
  | (st, b, t) => (st, elemsOf 6 b, t)

/-- The dimensions of a reference. -/
def TRef.dims (r : TRef) : List Nat := [r.d0, r.d1, r.d2, r.d3]

/-- The number of elements of a shape. -/
def countOf (dims : List Nat) : Nat := dims.foldl (· * ·) 1

/-- The flat index of a position, D0 innermost. -/
def flatIndex : List Nat → List Nat → Nat
  | d :: ds, i :: ix => i + d * flatIndex ds ix
  | _, _ => 0

/-- The positions of a shape in order, D0 innermost. -/
def positions : List Nat → List (List Nat)
  | [] => [[]]
  | d :: ds => (positions ds).flatMap (fun ix => (List.range d).map (fun i => i :: ix))

/-- A tensor's values with its dimensions. -/
structure Tn where
  dims : List Nat
  v : List Fl
  deriving DecidableEq, Repr

/-- An element of a tensor. -/
def Tn.at_ (t : Tn) (ix : List Nat) : Fl := t.v.getD (flatIndex t.dims ix) (.fin false 0 0)

/-- A position lies inside a shape. -/
def inside (dims ix : List Nat) : Bool := (dims.zip ix).all (fun p => p.2 < p.1)

/-- One component of a position. -/
def nth (ix : List Nat) (k : Nat) : Nat := ix.getD k 0

/-- A component of a position replaced. -/
def setNth (ix : List Nat) (k v : Nat) : List Nat := ix.set k v

/-- What an operation gives: a value for each element of Y, or nothing where the spec states no result. -/
abbrev Result := Option (List Fl)

/-! ### Output conversion (R316, R317, R319) -/

/-- The zero point in P2[7:0], signed for INT8. -/
def zeroPoint (ty p2 : Nat) : Fl := .ofInt (if ty = 0 then signedOf 8 p2 else (p2 % 256 : Nat))

/-- FUSE of a descriptor. -/
def Td.fused (d : Td) (v : Fl) : Fl := activate d.fuse (fp32.decode (Config.fuseSlope % 2 ^ 32)) v

/-- FUSE, bias, scale and zero point in FP32, and the rounding into TOUT. -/
def Td.out (d : Td) (bias scale : Option Fl) (zp : Fl) (v : Fl) : Nat :=
  let v := d.fused v.r32
  let v := match bias with | some b => v.add32 b | none => v
  let v := match scale with | some k => v.mul32 k | none => v
  elemEncode d.tout d.zero d.sat (if zp = .ofInt 0 then v else v.add32 zp)

/-- A move between integer types keeps its integers (R309). -/
def Td.move (d : Td) (v : Fl) : Nat :=
  if isIntType d.tin && isIntType d.tout && d.fuse = 0 then elemEncode d.tout d.zero d.sat v
  else d.out none none (.ofInt 0) v

/-- Free elements, where the spec states no result. -/
def State.freeElems (s : State) (n : Nat) : List Nat × State :=
  ((List.range n).map (fun k => Config.freeValue (s.free + k)), { s with free := s.free + n })

/-- Write a result into Y with a conversion; an unstated result writes free elements. -/
def State.putResult (s : State) (u : TileCtx) (d : Td) (f : Fl → Nat) (r : Result) : Status × State :=
  match r with
  | some l => s.writeTensor u d.tout d.y (l.map f)
  | none => let (l, s) := s.freeElems (countOf d.y.dims); s.writeTensor u d.tout d.y l

/-- Read X and go on with its values. -/
def State.withX (s : State) (u : TileCtx) (d : Td) (k : Tn → State → Status × State) : Status × State :=
  match s.readTensor u d.tin d.x with
  | (st, l, t) => if st = .ok then k ⟨d.x.dims, l.map (elemValue d.tin)⟩ t else (st, t)

/-- Read W and go on with its values. -/
def State.withW (s : State) (u : TileCtx) (d : Td) (k : Tn → State → Status × State) : Status × State :=
  match s.readTensor u d.tw d.w with
  | (st, l, t) => if st = .ok then k ⟨d.w.dims, l.map (elemValue d.tw)⟩ t else (st, t)

/-- Read an optional list of FP32 values (a bias, a scale, gamma, beta); address 0 is none. -/
def State.withList (s : State) (u : TileCtx) (addr n : Nat) (k : Option (List Fl) → State → Status × State) : Status × State :=
  if addr = 0 then k none s
  else match s.readWords u addr n with
    | (st, l, t) => if st = .ok then k (some (l.map fp32.decode)) t else (st, t)

/-- One element of an optional list. -/
def optAt (l : Option (List Fl)) (k : Nat) : Option Fl := l.map (fun l => l.getD k (.fin false 0 0))

/-! ### Structured sparsity (R312) -/

/-- Half of a dimension in groups of four, rounded up: the kept values along it. -/
def keptOf (n : Nat) : Nat := 2 * ((n + 3) / 4)

/-- The reference of the kept values: the dimension along K halved (D1 for GEMM, else D0). -/
def TRef.kept (r : TRef) (gemm : Bool) : TRef := if gemm then { r with d1 := keptOf r.d1 } else { r with d0 := keptOf r.d0 }

/-- The dense values of a sparse W from its kept values and their positions; none where a group names one position twice for two non-zero values. -/
def expandSparse (gemm : Bool) (dense kept : List Nat) (vals : List Fl) (pos : Nat → Nat) : Option (List Fl) :=
  let ax := if gemm then 1 else 0
  let kt : Tn := ⟨kept, vals⟩
  let cell := fun (ix : List Nat) (h : Nat) => setNth ix ax (2 * (nth ix ax / 4) + h)
  let hit := fun (ix : List Nat) (h : Nat) => pos (flatIndex kept (cell ix h)) = nth ix ax % 4
  let zero := fun (v : Fl) => match v with | .fin _ m _ => m = 0 | _ => false
  let clash := (positions dense).any (fun ix => hit ix 0 && hit ix 1 && !zero (kt.at_ (cell ix 0)) && !zero (kt.at_ (cell ix 1)))
  if clash then none
  else some ((positions dense).map (fun ix =>
    if hit ix 0 && !zero (kt.at_ (cell ix 0)) then kt.at_ (cell ix 0)
    else if hit ix 1 then kt.at_ (cell ix 1) else .fin false 0 0))

/-- The weights of a matrix operation: W as it is, or expanded from its kept values and the 2-bit positions that follow them. -/
def State.withWeights (s : State) (u : TileCtx) (d : Td) (k : Tn → State → Status × State) : Status × State :=
  if !d.sparse then s.withW u d k
  else
    let gemm : Bool := d.op = 0x01
    let r := d.w.kept gemm
    let n := countOf r.dims
    match s.readTensor u d.tw r with
    | (st, l, t) =>
      if st ≠ .ok then (st, t)
      else match t.tileRead u r.loc (r.rows.getLastD r.addr + r.d0 * elemSize d.tw) ((2 * n + 7) / 8) with
        | (st, b, t) =>
          if st ≠ .ok then (st, t)
          else match expandSparse gemm d.w.dims r.dims (l.map (elemValue d.tw)) (fun i => bitsOf (ofLeBytes b) (2 * i) 2) with
            | none => (.denied, t)
            | some v => k ⟨d.w.dims, v⟩ t

/-! ### Matrix operations (R309, R313, R314) -/

/-- The integer of a value. -/
def Fl.int (v : Fl) : Int := match v with | .fin s m e => signedM s (m <<< e.toNat) | _ => 0

/-- The accumulator of a list of factor pairs, by the types of X and W. -/
def Td.dot (d : Td) (ps : List (Fl × Fl)) : Fl :=
  if isIntType d.tin && isIntType d.tw then .ofInt (intDot (ps.map (fun p => (p.1.int, p.2.int)))) else floatDot ps

/-- The accumulator of INT32 outputs bypasses FP32 (R313). -/
def Td.bypass (d : Td) : Bool :=
  isIntType d.tin && isIntType d.tw && d.tout = 7 && d.p0 = 0 && d.p1 = 0 && d.p2 % 256 = 0 && d.fuse = 0

/-- Accumulators by output channel converted and written: bias and scale are those of the position's D0. -/
def State.putMatrix (s : State) (u : TileCtx) (d : Td) (r : Result) : Status × State :=
  s.withList u d.p0 d.y.d0 (fun bias s => s.withList u d.p1 d.y.d0 (fun scale s =>
    match r with
    | none => s.putResult u d (fun _ => 0) none
    | some l =>
      s.writeTensor u d.tout d.y (((positions d.y.dims).zip l).map (fun e =>
        if d.bypass then elemEncode 7 false false e.2
        else d.out (optAt bias (nth e.1 0)) (optAt scale (nth e.1 0)) (zeroPoint d.tout d.p2) e.2))))

/-- GEMM: Y[M, N] = X[M, K] · W[K, N]. -/
def gemm (d : Td) (x w : Tn) : Result :=
  let k := nth x.dims 0
  let m := nth x.dims 1
  let n := nth w.dims 0
  if nth w.dims 1 = k && d.y.dims = [n, m, 1, 1] && x.dims.drop 2 = [1, 1] && w.dims.drop 2 = [1, 1] then
    some ((positions d.y.dims).map (fun ix =>
      d.dot ((List.range k).map (fun q => (x.at_ [q, nth ix 1, 0, 0], w.at_ [nth ix 0, q, 0, 0])))))
  else none

/-- The window parameters in P2: stride x and y, pad top, bottom, left and right, dilation x and y. -/
structure Win where
  sx : Nat
  sy : Nat
  pt : Nat
  pb : Nat
  pl : Nat
  pr : Nat
  dx : Nat
  dy : Nat
  deriving DecidableEq, Repr

/-- The fields of P2 (Table inf.4). -/
def winOf (p : Nat) : Win :=
  ⟨bitsOf p 8 4, bitsOf p 12 4, bitsOf p 16 4, bitsOf p 20 4, bitsOf p 24 4, bitsOf p 28 4, bitsOf p 32 4, bitsOf p 36 4⟩

/-- The outputs of a window along one dimension. -/
def convOut (n k st p q dil : Nat) : Nat := if n + p + q < dil * (k - 1) + 1 then 0 else (n + p + q - dil * (k - 1) - 1) / st + 1

/-- The input position that an output position and a window position read; none in the padding. -/
def srcPos (o st k dil pad n : Nat) : Option Nat :=
  let i := o * st + k * dil
  if pad ≤ i && i - pad < n then some (i - pad) else none

/-- The window positions of a kernel, x innermost. -/
def taps (kw kh : Nat) : List (Nat × Nat) := (List.range kh).flatMap (fun ky => (List.range kw).map (fun kx => (kx, ky)))

/-- X at a window position of an output pixel; padding reads 0. -/
def tapAt (x : Tn) (g : Win) (ix : List Nat) (t : Nat × Nat) (c : Nat) : Fl :=
  match srcPos (nth ix 1) g.sx t.1 g.dx g.pl (nth x.dims 1), srcPos (nth ix 2) g.sy t.2 g.dy g.pt (nth x.dims 2) with
  | some a, some b => x.at_ [c, a, b, nth ix 3]
  | _, _ => .fin false 0 0

/-- CONV2D, NHWC, with K = Cin × kW × kH in ascending order. -/
def conv2d (d : Td) (x w : Tn) : Result :=
  let g := winOf d.p2
  let cin := nth w.dims 0
  let kw := nth w.dims 1
  let kh := nth w.dims 2
  if nth x.dims 0 = cin && d.y.dims = [nth w.dims 3, convOut (nth x.dims 1) kw g.sx g.pl g.pr g.dx,
      convOut (nth x.dims 2) kh g.sy g.pt g.pb g.dy, nth x.dims 3] then
    some ((positions d.y.dims).map (fun ix => d.dot ((taps kw kh).flatMap (fun t => (List.range cin).map (fun c =>
      (tapAt x g ix t c, w.at_ [c, t.1, t.2, nth ix 0]))))))
  else none

/-- DWCONV: one channel to one channel, W D0 = 1. -/
def dwconv (d : Td) (x w : Tn) : Result :=
  let g := winOf d.p2
  let kw := nth w.dims 1
  let kh := nth w.dims 2
  if nth w.dims 0 = 1 && nth x.dims 0 = nth w.dims 3 && d.y.dims = [nth w.dims 3, convOut (nth x.dims 1) kw g.sx g.pl g.pr g.dx,
      convOut (nth x.dims 2) kh g.sy g.pt g.pb g.dy, nth x.dims 3] then
    some ((positions d.y.dims).map (fun ix => d.dot ((taps kw kh).map (fun t =>
      (tapAt x g ix t (nth ix 0), w.at_ [0, t.1, t.2, nth ix 0])))))
  else none

/-- The input position whose product with window position `k` falls on output `o` of a transposed convolution. -/
def deconvPos (o st k dil pad n : Nat) : Option Nat :=
  if k * dil ≤ o + pad && (o + pad - k * dil) % st = 0 && (o + pad - k * dil) / st < n then some ((o + pad - k * dil) / st) else none

/-- DECONV: each input element spreads over the window at its strided place. -/
def deconv (d : Td) (x w : Tn) : Result :=
  let g := winOf d.p2
  let cin := nth w.dims 0
  let kw := nth w.dims 1
  let kh := nth w.dims 2
  let ow := (nth x.dims 1 - 1) * g.sx + g.dx * (kw - 1) + 1 - g.pl - g.pr
  let oh := (nth x.dims 2 - 1) * g.sy + g.dy * (kh - 1) + 1 - g.pt - g.pb
  if nth x.dims 0 = cin && d.y.dims = [nth w.dims 3, ow, oh, nth x.dims 3] then
    some ((positions d.y.dims).map (fun ix => d.dot ((taps kw kh).flatMap (fun t => (List.range cin).map (fun c =>
      ((match deconvPos (nth ix 1) g.sx t.1 g.dx g.pl (nth x.dims 1), deconvPos (nth ix 2) g.sy t.2 g.dy g.pt (nth x.dims 2) with
        | some a, some b => x.at_ [c, a, b, nth ix 3]
        | _, _ => .fin false 0 0), w.at_ [c, t.1, t.2, nth ix 0]))))))
  else none

/-! ### Vector operations (Table inf.4) -/

/-- The greatest value of a list; NaN where any is. -/
def flMax (l : List Fl) : Fl := match l with | [] => .nan | v :: vs => vs.foldl Fl.max2 v
/-- The least value of a list; NaN where any is. -/
def flMin (l : List Fl) : Fl := match l with | [] => .nan | v :: vs => vs.foldl Fl.min2 v

/-- The mean of a list in FP32. -/
def flMean (l : List Fl) : Fl := (sumAny l).div32 (flNat l.length)

/-- POOL: windowed maximum or average over D1 and D2, with pads excluded; the kernel lies in P2[7:0]. -/
def pool (d : Td) (x : Tn) : Result :=
  let g := winOf d.p2
  let kw := bitsOf d.p2 0 4
  let kh := bitsOf d.p2 4 4
  if d.y.dims = [nth x.dims 0, convOut (nth x.dims 1) kw g.sx g.pl g.pr 1, convOut (nth x.dims 2) kh g.sy g.pt g.pb 1, nth x.dims 3] then
    some ((positions d.y.dims).map (fun ix =>
      let l := (taps kw kh).filterMap (fun t =>
        match srcPos (nth ix 1) g.sx t.1 1 g.pl (nth x.dims 1), srcPos (nth ix 2) g.sy t.2 1 g.pt (nth x.dims 2) with
        | some a, some b => some (x.at_ [nth ix 0, a, b, nth ix 3]).r32
        | _, _ => none)
      if d.p3 = 0 then flMax l else flMean l))
  else none

/-- The binary operations of ELEMWISE by P3. -/
def binOp (k : Nat) (a b : Fl) : Fl :=
  match k with
  | 0 => a.add32 b
  | 1 => a.sub32 b
  | 2 => a.mul32 b
  | 3 => a.min2 b
  | _ => a.max2 b

/-- ELEMWISE: Y = X op W, W broadcast on dimensions of 1. -/
def elemwise (d : Td) (x w : Tn) : Result :=
  if d.y.dims = x.dims && (w.dims.zip x.dims).all (fun p => p.1 = 1 || p.1 = p.2) then
    some ((positions x.dims).map (fun ix =>
      binOp d.p3 (x.at_ ix).r32 (w.at_ ((ix.zip w.dims).map (fun p => if p.2 = 1 then 0 else p.1))).r32))
  else none

/-- The D0 rows of a tensor. -/
def Tn.rows (t : Tn) : List (List Fl) := groupsOf (nth t.dims 0) (t.v.length + 1) t.v

/-- Softmax of a row (R320): a row of −infinity throughout gives zeros. -/
def softmaxRow (l : List Fl) : List Fl :=
  if l.all (fun v => v = .inf true) then l.map (fun _ => .fin false 0 0)
  else
    let m := flMax l
    let e := l.map (fun v => fnOpen 9 (v.sub32 m))
    let z := sumAny e
    e.map (fun v => v.div32 z)

/-- SOFTMAX along D0. -/
def softmax (d : Td) (x : Tn) : Result :=
  if d.y.dims = x.dims then some ((x.rows.map (fun r => softmaxRow (r.map Fl.r32))).flatten) else none

/-- The index of the greatest value, ties to the lower index. -/
def argBest (l : List (Nat × Fl)) : Option (Nat × Fl) :=
  match l with
  | [] => none
  | e :: es => some (es.foldl (fun b c => if b.2.lt c.2 then c else b) e)

/-- The k greatest of a list with their indices, in descending order. -/
def topK : Nat → List (Nat × Fl) → List (Nat × Fl)
  | 0, _ => []
  | k + 1, l => match argBest l with
    | none => []
    | some b => b :: topK k (l.filter (fun e => e.1 ≠ b.1))

/-- TOPK along D0: the values, and their indices. -/
def topk (d : Td) (x : Tn) : Option (List (Nat × Fl)) :=
  if d.p3 ≤ nth x.dims 0 && d.y.dims = d.p3 :: x.dims.drop 1 then
    some ((x.rows.map (fun r => topK d.p3 ((List.range r.length).zip r))).flatten)
  else none

/-- ARGMAX along D0. -/
def argmax (d : Td) (x : Tn) : Result :=
  if d.y.dims = 1 :: x.dims.drop 1 then
    some (x.rows.map (fun r => match argBest ((List.range r.length).zip r) with | some b => flNat b.1 | none => .nan))
  else none

/-- REDUCE over the axes of a mask: sum, mean, maximum or minimum. -/
def reduce (d : Td) (x : Tn) : Result :=
  let on := fun k => bitAt d.p3 k
  let shape := (List.range 4).map (fun k => if on k then 1 else nth x.dims k)
  let span := (List.range 4).map (fun k => if on k then nth x.dims k else 1)
  if d.y.dims = shape then
    some ((positions shape).map (fun ix =>
      let l := (positions span).map (fun jx => (x.at_ ((ix.zip jx).map (fun p => p.1 + p.2))).r32)
      match bitsOf d.p3 8 2 with
      | 0 => sumAny l
      | 1 => flMean l
      | 2 => flMax l
      | _ => flMin l))
  else none

/-- The two neighbours of a half-pixel position along one dimension, and the fraction of the second, as numerator and denominator. -/
def halfPixel (o nin nout : Nat) : Nat × Nat × Nat × Nat :=
  let num : Int := (2 * o + 1) * nin - nout
  let den := 2 * nout
  let lo := num / (den : Int)
  let fr := (num % (den : Int)).toNat
  let clamp := fun (i : Int) => (max 0 (min ((nin : Int) - 1) i)).toNat
  (clamp lo, clamp (lo + 1), fr, den)

/-- A bilinear sample: exact where both fractions are 0. -/
def bilinear (v00 v01 v10 v11 : Fl) (fx fy : Nat × Nat) : Fl :=
  if fx.1 = 0 && fy.1 = 0 then v00
  else fp32.decode (Config.bilinear32 [v00.bits32, v01.bits32, v10.bits32, v11.bits32] fx fy % 2 ^ 32)

/-- RESIZE of D1 and D2, nearest or bilinear, with half-pixel centres. -/
def resize (d : Td) (x : Tn) : Result :=
  let w := nth x.dims 1
  let h := nth x.dims 2
  let ow := d.y.d1
  let oh := d.y.d2
  if d.y.d0 = nth x.dims 0 && d.y.d3 = nth x.dims 3 then
    some ((positions d.y.dims).map (fun ix =>
      if d.p3 = 0 then
        (x.at_ [nth ix 0, min (w - 1) ((2 * nth ix 1 + 1) * w / (2 * ow)), min (h - 1) ((2 * nth ix 2 + 1) * h / (2 * oh)), nth ix 3]).r32
      else
        let (a, b, fn, fd) := halfPixel (nth ix 1) w ow
        let (p, q, gn, gd) := halfPixel (nth ix 2) h oh
        let at_ := fun i j => (x.at_ [nth ix 0, i, j, nth ix 3]).r32
        bilinear (at_ a p) (at_ b p) (at_ a q) (at_ b q) (fn, fd) (gn, gd)))
  else none

/-- GRIDSAMPLE: X sampled at the coordinates in W. How a normalised coordinate maps to a position is not given, so that the sample is open. -/
def gridsample (d : Td) (x w : Tn) : Result :=
  if nth w.dims 0 = 2 && d.y.dims = [nth x.dims 0, nth w.dims 1, nth w.dims 2, nth x.dims 3] && nth w.dims 3 = nth x.dims 3 then
    some ((positions d.y.dims).map (fun ix =>
      let plane := (positions [nth x.dims 1, nth x.dims 2]).map (fun p => (x.at_ [nth ix 0, nth p 0, nth p 1, nth ix 3]).bits32)
      let c := fun k => (w.at_ [k, nth ix 1, nth ix 2, nth ix 3]).bits32
      fp32.decode (Config.grid32 plane (nth x.dims 1) (nth x.dims 2) (c 0) (c 1) % 2 ^ 32)))
  else none

/-! ### Moves -/

/-- The integer index that a value spells, when it lies below `n`. -/
def indexIn (v : Fl) (n : Nat) : Option Nat :=
  match v with
  | .fin s m e => let i := signedM s (m <<< e.toNat); if 0 ≤ i && i < (n : Int) then some i.toNat else none
  | _ => none

/-- GATHER along an axis: Y's position along the axis names an index of W. An index outside X states no result. -/
def gather (d : Td) (x w : Tn) : Result :=
  let ax := d.p3
  if d.y.dims = setNth x.dims ax w.v.length then
    (positions d.y.dims).foldr (fun ix acc =>
      match acc, indexIn (w.v.getD (nth ix ax) .nan) (nth x.dims ax) with
      | some l, some i => some (x.at_ (setNth ix ax i) :: l)
      | _, _ => none) (some [])
  else none

/-- How SCATTER combines (P4). -/
def scatterOp (ints : Bool) (k : Nat) (old new : Fl) : Fl :=
  match k with
  | 0 => new
  | 1 => if ints then old.add new else old.add32 new
  | _ => old.max2 new

/-- SCATTER along an axis, in the order of the index positions, so that the last one stands (R310); an index outside Y stores nothing. -/
def scatter (d : Td) (x w y : Tn) : Result :=
  let ax := d.p3
  if x.dims = setNth y.dims ax w.v.length then
    some ((positions x.dims).foldl (fun l ix =>
      match indexIn (w.v.getD (nth ix ax) .nan) (nth y.dims ax) with
      | some i =>
        let k := flatIndex y.dims (setNth ix ax i)
        l.set k (scatterOp (isIntType d.tin && isIntType d.tout) d.p4 (l.getD k .nan) (x.at_ ix))
      | none => l) y.v)
  else none

/-- TRANSPOSE: dimension k of Y is dimension P3[2k+1:2k] of X. -/
def transpose (d : Td) (x : Tn) : Result :=
  let p := fun k => bitsOf d.p3 (2 * k) 2
  if d.y.dims = [0, 1, 2, 3].map (fun k => nth x.dims (p k)) then
    some ((positions d.y.dims).map (fun ix =>
      x.at_ ([0, 1, 2, 3].map (fun q => (([0, 1, 2, 3].find? (fun k => p k = q)).map (nth ix)).getD 0))))
  else none

/-! ### Operations over the descriptor -/

/-- ATTENTION: softmax(X · Wᵀ × scale + mask) · V, V shaped as W at P0 (R320). -/
def State.attention (s : State) (u : TileCtx) (d : Td) : Status × State :=
  s.withX u d (fun x s => s.withWeights u d (fun w s =>
    match s.readTensor u d.tw { d.w with addr := d.p0 % 2 ^ 48, loc := true } with
    | (st, l, s) =>
      if st ≠ .ok then (st, s) else
      let v : Tn := ⟨d.w.dims, l.map (elemValue d.tw)⟩
      let q := nth x.dims 1
      let k := nth w.dims 1
      s.withList u d.p1 (k * q) (fun mask s =>
        let fits := nth x.dims 0 = nth w.dims 0 && x.dims.drop 2 = w.dims.drop 2 && d.y.dims = x.dims
        let res : Result := if !fits then none else
          some ((positions [q, nth x.dims 2, nth x.dims 3]).flatMap (fun ix =>
            let at3 := fun (t : Tn) c r => t.at_ [c, r, nth ix 1, nth ix 2]
            let row := (List.range k).map (fun j =>
              let a := (d.dot ((List.range (nth x.dims 0)).map (fun c => (at3 x c (nth ix 0), at3 w c j)))).r32
              let a := a.mul32 (fp32.decode (bitsOf d.p4 0 32))
              match optAt mask (j + k * nth ix 0) with | some m => a.add32 m | none => a)
            let p := softmaxRow row
            (List.range (nth x.dims 0)).map (fun c => floatDot ((p.zip (List.range k)).map (fun e => (e.1, at3 v c e.2))))))
        s.putResult u d (d.out none none (.ofInt 0)) res)))

/-- NORM over the tensor with gamma and beta of one D0 row; its result is open (DESIGN CHOICE, log entry 15). -/
def State.norm (s : State) (u : TileCtx) (d : Td) : Status × State :=
  s.withX u d (fun x s => s.withList u d.p0 (nth x.dims 0) (fun g s => s.withList u d.p1 (nth x.dims 0) (fun b s =>
    let bits := fun (l : Option (List Fl)) => (l.getD []).map Fl.bits32
    let r := Config.norm32 d.p3 d.p2 (bitsOf d.p4 0 32) x.dims (x.v.map Fl.bits32) (bits g) (bits b)
    s.putResult u d (d.out none none (.ofInt 0))
      (if d.y.dims = x.dims then some ((List.range x.v.length).map (fun k => fp32.decode (r.getD k 0 % 2 ^ 32))) else none))))

/-- QUANT: Y = round(X ÷ scale) + zero point. DEQUANT: Y = (X − zero point) × scale. The scale is per tensor or per D0 channel (R319). -/
def State.quant (s : State) (u : TileCtx) (d : Td) (de : Bool) : Status × State :=
  s.withX u d (fun x s => s.withList u d.p1 (if d.p3 = 0 then 1 else nth x.dims 0) (fun sc s =>
    if d.y.dims ≠ x.dims then s.putResult u d (fun _ => 0) none
    else s.writeTensor u d.tout d.y (((positions x.dims).zip x.v).map (fun e =>
      let k := (optAt sc (if d.p3 = 0 then 0 else nth e.1 0)).getD (flNat 1)
      if de then
        elemEncode d.tout d.zero d.sat (d.fused ((e.2.r32.sub32 (zeroPoint d.tin d.p2)).mul32 k))
      else
        let v := (d.fused e.2.r32).div32 k
        let r := match v with | .fin _ _ _ => Fl.ofInt (v.toIntSat d.zero (-(2 ^ 200)) (2 ^ 200)) | _ => v
        elemEncode d.tout d.zero d.sat (r.add32 (zeroPoint d.tout d.p2))))))

/-- TOPK, with the indices written at P0 as INT32. -/
def State.topkOp (s : State) (u : TileCtx) (d : Td) : Status × State :=
  s.withX u d (fun x s =>
    let n := countOf d.y.dims
    let (vals, idx, s) : List Nat × List Nat × State :=
      match topk d x with
      | some l => (l.map (fun e => d.out none none (.ofInt 0) e.2), l.map (·.1), s)
      | none => let (a, s) := s.freeElems n; let (b, s) := s.freeElems n; (a, b, s)
    let (st, s) := s.writeTensor u d.tout d.y vals
    if st ≠ .ok then (st, s) else s.dmaWrite u.acc (d.p0 % 2 ^ 48) (elemBytes 7 idx))

/-- One descriptor's operation, but for GOLDEN and SYNC: the status with which it retires. -/
def State.tileOp (s : State) (u : TileCtx) (d : Td) : Status × State :=
  let plain := d.out none none (.ofInt 0)
  match d.op with
  | 0x01 => s.withX u d (fun x s => s.withWeights u d (fun w s => s.putMatrix u d (gemm d x w)))
  | 0x02 => s.withX u d (fun x s => s.withWeights u d (fun w s => s.putMatrix u d (conv2d d x w)))
  | 0x03 => s.withX u d (fun x s => s.withWeights u d (fun w s => s.putMatrix u d (dwconv d x w)))
  | 0x04 => s.withX u d (fun x s => s.withWeights u d (fun w s => s.putMatrix u d (deconv d x w)))
  | 0x05 => s.withX u d (fun x s => s.putResult u d plain (pool d x))
  | 0x06 => s.withX u d (fun x s => s.withW u d (fun w s => s.putResult u d plain (elemwise d x w)))
  | 0x07 => s.withX u d (fun x s => s.putResult u d plain
      (if d.y.dims = x.dims then some (x.v.map (fun v => activate d.p3 (fp32.decode (bitsOf d.p4 0 32)) v.r32)) else none))
  | 0x08 => s.norm u d
  | 0x09 => s.withX u d (fun x s => s.putResult u d plain (softmax d x))
  | 0x0A => s.topkOp u d
  | 0x0B => s.withX u d (fun x s => s.withW u d (fun w s => s.putResult u d d.move (gather d x w)))
  | 0x0C => s.withX u d (fun x s => s.withW u d (fun w s =>
      match s.readTensor u d.tout d.y with
      | (st, l, s) => if st ≠ .ok then (st, s) else s.putResult u d d.move (scatter d x w ⟨d.y.dims, l.map (elemValue d.tout)⟩)))
  | 0x0D => s.withX u d (fun x s => s.putResult u d d.move (transpose d x))
  | 0x0E => s.withX u d (fun x s => s.putResult u d d.move (if countOf d.y.dims = x.v.length then some x.v else none))
  | 0x0F => s.quant u d false
  | 0x10 => s.quant u d true
  | 0x11 => s.withX u d (fun x s => s.putResult u d plain (reduce d x))
  | 0x12 => s.withX u d (fun x s => s.putResult u d d.move (argmax d x))
  | 0x13 => s.withX u d (fun x s => s.putResult u d plain (resize d x))
  | 0x14 => s.withX u d (fun x s => s.withW u d (fun w s => s.putResult u d plain (gridsample d x w)))
  | 0x15 => s.attention u d
  | 0x16 => s.withX u d (fun x s => s.putResult u d d.move (if d.y.dims = x.dims then some x.v else none))
  | _ => (.ok, s)

/-- The INF cycles of the matrix unit (R311); operand DMA and governor holds come on top. -/
def matrixCycles (d : Td) : Nat :=
  let half := if d.tin = 4 || d.tin = 5 then 2 else 1
  let per := if d.sparse then 64 else 32
  if d.op = 0x01 then d.x.d1 * ceilDiv d.x.d0 per * ceilDiv d.w.d0 64 * half
  else if d.op = 0x02 then
    d.y.d1 * d.y.d2 * d.y.d3 * ceilDiv (d.w.d0 * d.w.d1 * d.w.d2) per * ceilDiv d.w.d3 64 * half
  else 0

end Sys2Proof.Machine
end

