-- ==== Sys2Proof/Machine/Inf.lean ====
section
/-! DEFINITION. The Inference Array (10): grants and residents, chains and queues, the operations of tiles and of the Dusk inference unit, SYNC, GOLDEN, the spare swap and the rotating self-test. -/

namespace Sys2Proof.Machine

/-! ### Grants and queues (R295, R296, R301) -/

/-- The state with a tile's queue replaced. -/
def State.setTileQueue (s : State) (t : Nat) (l : List TileDesc) : State :=
  { s with inf := { s.inf with queues := if l.isEmpty then tdel s.inf.queues t else tput s.inf.queues t l } }

/-- A valid grant of a tile for an instance and a process identifier (R295). -/
def State.grantOf (s : State) (t inst pid : Nat) : Option Nat :=
  [0, 1, 2, 3].find? (fun g => s.flag Reg.INF_SLICE_VALID [t, g] && s.rd Reg.INF_SLICE_INST [t, g] = inst
    && s.rd Reg.INF_SLICE_PID [t, g] = pid)

/-- A job of the array by its number. -/
def State.infJob (s : State) (u : Nat) : Option InfJob := s.inf.jobs.find? (fun j => j.uid = u)

/-- The state with a job of the array replaced. -/
def State.setInfJob (s : State) (j : InfJob) : State :=
  { s with inf := { s.inf with jobs := s.inf.jobs.map (fun x => if x.uid = j.uid then j else x) } }

/-- The tag of a queued descriptor's job. -/
def State.descTag (s : State) (e : TileDesc) : Nat := match s.infJob e.uid with | some j => j.tag | none => 63

/-- A queued descriptor belongs to grant `g` of tile `t`. -/
def State.ofGrant (s : State) (t g : Nat) (e : TileDesc) : Bool :=
  s.descTag e = s.rd Reg.INF_SLICE_INST [t, g] && (tdOf e.desc).pid = s.rd Reg.INF_SLICE_PID [t, g]

/-- The descriptor that a grantee executes next on a tile. -/
def State.headOf (s : State) (t g : Nat) : Option TileDesc := (s.tileQueue t).find? (s.ofGrant t g)

/-- A grantee has a runnable descriptor on a tile; one that waits in SYNC is not runnable (R296). -/
def State.runnable (s : State) (t g : Nat) : Bool :=
  s.flag Reg.INF_SLICE_VALID [t, g] && (match s.headOf t g with | some e => !e.waits | none => false)

/-- The resident grant of a tile. -/
def State.resident (s : State) (t : Nat) : Option Nat :=
  if s.flag Reg.INF_TILE_RES_VALID [t] then some (s.rd Reg.INF_TILE_RES_G [t]) else none

/-- STATE of a tile in service: 0 idle, 1 with a descriptor, 3 while its resident waits in SYNC (Table inf.6). -/
def State.syncTile (s : State) (t : Nat) : State :=
  let st := s.rd Reg.INF_TILE_STATE [t]
  if st = 2 || st = 4 || st = 5 then s
  else
    let new := match s.resident t with
      | some g => (match s.headOf t g with | some e => if e.waits then 3 else 1 | none => 0)
      | none => 0
    s.wr Reg.INF_TILE_STATE [t] new

/-- A descriptor leaves the queue of a tile. -/
def State.popDesc (s : State) (t : Nat) (e : TileDesc) : State :=
  (s.setTileQueue t ((s.tileQueue t).filter (fun x => !(x.uid = e.uid && x.seq = e.seq)))).syncTile t

/-- Every queued descriptor of a job is dropped (R304, R323). -/
def State.dropJob (s : State) (u : Nat) : State :=
  (List.range 64).foldl (fun s t =>
    if (s.tileQueue t).any (fun e => e.uid = u) then (s.setTileQueue t ((s.tileQueue t).filter (fun e => e.uid ≠ u))).syncTile t else s)
    { s with inf := { s.inf with jobs := s.inf.jobs.filter (fun j => j.uid ≠ u) } }

/-! ### The end of a job (R303, R304) -/

/-- INF.TERR of an instance. -/
def State.tileError (s : State) (i addr t kind st frame : Nat) : State :=
  let s := s.wrPair Reg.INF_TERR_ADDR_LO Reg.INF_TERR_ADDR_HI [i] (addr % 2 ^ 48)
  let s := ((s.wr Reg.INF_TERR_TILE [i] t).wr Reg.INF_TERR_KIND [i] kind).incSat Reg.INF_TERR_COUNT [i] 1
  if kind = 0 then s.wr Reg.INF_TERR_STATUS [i] st else s.wr Reg.INF_TERR_FRAME [i] frame

/-- A job ends with a status. -/
def State.infEnd (s : State) (u : Nat) (st : Status) : State := (s.dropJob u).endJob u st

/-- A descriptor fails, and ends its job (R304). -/
def State.infFail (s : State) (u addr t : Nat) (st : Status) : State :=
  match s.infJob u with
  | none => s
  | some j => (s.tileError j.tag addr t 0 (statusCode st) 0).infEnd u st

/-! ### Chains (R301, R305, R308) -/

/-- The access of a tile for a tag and a process identifier. -/
def State.tileAccess (s : State) (t tag pid : Nat) : Access :=
  { tag := tag, pid := pid, src := .tile (s.rd Reg.INF_TILE_PHYS [t]), kind := .read }

/-- The tiles whose queues a descriptor enters: its TILE, or the tiles of a barrier (R301, R325). -/
def descTiles (v : Nat) : List Nat :=
  let d := tdOf v
  if d.op = 0x18 && d.p0 = 0 then (List.range 64).filter (fun t => bitAt d.p1 t) else [d.tile]

/-- The array reads the next descriptors of a job and appends them to the queues of their tiles, until a queue is full or the chain ends (R301). A descriptor that cannot be read, or that R308 rejects, ends the job. -/
def State.readChain : (fuel : Nat) → State → Nat → State
  | 0, s, _ => s
  | fuel + 1, s, u =>
    match s.infJob u with
    | none => s
    | some j =>
      if j.next = 0 then s
      else
        let t0 := ((List.range 64).find? (fun t => bitAt j.mask t)).getD 0
        match s.dmaRead (s.tileAccess t0 j.tag 0) j.next 128 with
        | (st, b, t) =>
          let v := ofLeBytes b
          let tiles := descTiles v
          if st ≠ .ok then t.infFail u j.next t0 st
          else if !tdOk v j.mask || (tdOf v).next % 128 ≠ 0 || j.next % 128 ≠ 0
              || tiles.any (fun k => (s.grantOf k j.tag (tdOf v).pid).isNone) then
            t.infFail u j.next (tdOf v).tile .denied
          else if tiles.any (fun k => (s.tileQueue k).length ≥ 64) then s
          else
            let t := tiles.foldl (fun x k => (x.setTileQueue k (x.tileQueue k ++ [⟨u, j.read, j.next, v, false⟩])).syncTile k) t
            State.readChain fuel (t.setInfJob { j with next := (tdOf v).next, read := j.read + 1 }) u

/-- Every chain that a full queue has stopped is read on. -/
def State.readChains (s : State) : State := s.inf.jobs.foldl (fun s j => State.readChain 4097 s j.uid) s

/-- A dispatched job enters the array (R300, R301). -/
def State.infAccept (s : State) (u tag mask desc : Nat) : State :=
  State.readChain 4097 { s with inf := { s.inf with jobs := s.inf.jobs ++ [⟨u, tag, mask, desc, 0⟩] } } u

/-! ### Execution on a tile (R296, R302, R304) -/

/-- The descriptor that tile `t` may execute now: the resident grantee's next one, in a tile that is neither switching, nor swapping, nor out of service. -/
def State.tileHead (s : State) (t : Nat) : Option TileDesc :=
  let st := s.rd Reg.INF_TILE_STATE [t]
  if !s.boot.mainUp || st = 2 || st = 4 || st = 5 then none
  else match s.resident t with
    | some g => if s.runnable t g then s.headOf t g else none
    | none => none

/-- A command of tile `t`, as an attempt of it for the job of its next descriptor (log entry 40). -/
def State.tileAttempt (s : State) (t : Nat) (f : State → State) : Host.Outcome State Fault Refusal :=
  if t ≥ s.fuses.variant.tiles then .refused .illFormed
  else s.attempt (partyTile t) ((s.tileHead t).map (fun e => e.uid)) (fun s => go (f s))

/-- The tile has executed a descriptor in this safety frame. -/
def State.markRan (s : State) (t : Nat) : State :=
  if s.inf.ran.contains t then s else { s with inf := { s.inf with ran := s.inf.ran ++ [t] } }

/-- A descriptor retires on its tile. -/
def State.retireDesc (s : State) (t : Nat) (e : TileDesc) : State := ((s.popDesc t e).markRan t).readChains

/-- A tile executes its next descriptor when that spells operation `op` (R302, R304, R305, R311): `cyc` INF cycles beyond those of the matrix unit are charged, and `dbe` says that it reads SRAM with a double-bit error (R294). -/
def State.tileRun (s : State) (t op cyc : Nat) (dbe : Bool) : State :=
  match s.tileHead t with
  | none => s
  | some e =>
    let d := tdOf e.desc
    if d.op ≠ op then s else
    let s := s.payJob e.uid 22 (matrixCycles d + cyc)
    if dbe then
      ((s.incSat Reg.INF_PHYS_SRAM_DBE [s.rd Reg.INF_TILE_PHYS [t]] 1).markRan t).infFail e.uid e.addr t .poison
    else
      let u : TileCtx := ⟨s.tileAccess t (s.descTag e) d.pid, 0x1_0000_0000 + t * 0x20_0000⟩
      let (st, s) := s.tileOp u d
      if st = .ok then s.retireDesc t e else (s.markRan t).infFail e.uid e.addr t st

/-- The base of the Safety Island's SRAM, which is LOC 0 of the Dusk inference unit (06, Table fab.4). -/
def islandSram : Nat := 0x3200_0000

/-- An access of the Dusk inference unit. -/
def duskAccess : Access := { tag := 33, pid := 0, src := .xd 0, kind := .read }

/-- The descriptor at an address of the island, with the checks of R308 and R335. -/
def State.duskFetch (s : State) (addr : Nat) : Status × Td × State :=
  let (st, b, s) : Status × List Byte × State :=
    if islandSram ≤ addr && addr + 128 ≤ islandSram + 0x40_0000 then (.ok, memBytes s.mem addr 128, s) else s.dmaRead duskAccess addr 128
  let v := ofLeBytes b
  let d := tdOf v
  (if st ≠ .ok then st else if tdOk v (2 ^ 64 - 1) && duskOk d then .ok else .denied, d, s)

/-- The Dusk inference unit executes the descriptor at an address of its island, when that spells what `what` names, by `act` (R335); the answer holds its status. -/
def State.duskDo (s : State) (addr : Nat) (what : Td → Bool) (act : State → Td → State) : State :=
  if !s.saf.islandRun then s else
  match s.duskFetch addr with
  | (st, d, t) => if st ≠ .ok then t.answer st 0 else if what d then act t d else s

/-- A command of the Dusk inference unit, as an attempt of it (log entry 40). -/
def State.duskAttempt (s : State) (addr : Nat) (what : Td → Bool) (act : State → Td → State) : Host.Outcome State Fault Refusal :=
  s.attempt partyDusk none (fun s => go (s.duskDo addr what act))

/-- A computing operation of the Dusk inference unit. -/
def State.duskRun (s : State) (addr op : Nat) : Host.Outcome State Fault Refusal :=
  s.duskAttempt addr (fun d => d.op = op) (fun s d => let (st, t) := s.tileOp ⟨duskAccess, islandSram⟩ d; t.answer st 0)

/-- An operation by a tile or by the Dusk inference unit. -/
def State.infOp (s : State) (u : InfUnit) (op cyc : Nat) (dbe : Bool) : Host.Outcome State Fault Refusal :=
  match u with
  | .tile t => s.tileAttempt t (fun s => s.tileRun t op cyc dbe)
  | .dusk a => s.duskRun a op

/-- GEMM (Table inf.4; R309, R311 to R318). -/
def execGemm (u : InfUnit) (cyc : Nat) (dbe : Bool) (s : State) : Host.Outcome State Fault Refusal := s.infOp u 0x01 cyc dbe
/-- CONV2D. -/
def execConv2d (u : InfUnit) (cyc : Nat) (dbe : Bool) (s : State) : Host.Outcome State Fault Refusal := s.infOp u 0x02 cyc dbe
/-- DWCONV. -/
def execDwconv (u : InfUnit) (cyc : Nat) (dbe : Bool) (s : State) : Host.Outcome State Fault Refusal := s.infOp u 0x03 cyc dbe
/-- DECONV. -/
def execDeconv (u : InfUnit) (cyc : Nat) (dbe : Bool) (s : State) : Host.Outcome State Fault Refusal := s.infOp u 0x04 cyc dbe
/-- POOL. -/
def execPool (u : InfUnit) (cyc : Nat) (dbe : Bool) (s : State) : Host.Outcome State Fault Refusal := s.infOp u 0x05 cyc dbe
/-- ELEMWISE. -/
def execElemwise (u : InfUnit) (cyc : Nat) (dbe : Bool) (s : State) : Host.Outcome State Fault Refusal := s.infOp u 0x06 cyc dbe
/-- ACTIVATE. -/
def execActivate (u : InfUnit) (cyc : Nat) (dbe : Bool) (s : State) : Host.Outcome State Fault Refusal := s.infOp u 0x07 cyc dbe
/-- NORM. -/
def execNorm (u : InfUnit) (cyc : Nat) (dbe : Bool) (s : State) : Host.Outcome State Fault Refusal := s.infOp u 0x08 cyc dbe
/-- SOFTMAX (R320). -/
def execSoftmax (u : InfUnit) (cyc : Nat) (dbe : Bool) (s : State) : Host.Outcome State Fault Refusal := s.infOp u 0x09 cyc dbe
/-- TOPK. -/
def execTopk (u : InfUnit) (cyc : Nat) (dbe : Bool) (s : State) : Host.Outcome State Fault Refusal := s.infOp u 0x0A cyc dbe
/-- GATHER. -/
def execGather (u : InfUnit) (cyc : Nat) (dbe : Bool) (s : State) : Host.Outcome State Fault Refusal := s.infOp u 0x0B cyc dbe
/-- SCATTER (R310). -/
def execScatter (u : InfUnit) (cyc : Nat) (dbe : Bool) (s : State) : Host.Outcome State Fault Refusal := s.infOp u 0x0C cyc dbe
/-- TRANSPOSE. -/
def execTranspose (u : InfUnit) (cyc : Nat) (dbe : Bool) (s : State) : Host.Outcome State Fault Refusal := s.infOp u 0x0D cyc dbe
/-- RESHAPE. -/
def execReshape (u : InfUnit) (cyc : Nat) (dbe : Bool) (s : State) : Host.Outcome State Fault Refusal := s.infOp u 0x0E cyc dbe
/-- QUANT (R319). -/
def execQuant (u : InfUnit) (cyc : Nat) (dbe : Bool) (s : State) : Host.Outcome State Fault Refusal := s.infOp u 0x0F cyc dbe
/-- DEQUANT (R319). -/
def execDequant (u : InfUnit) (cyc : Nat) (dbe : Bool) (s : State) : Host.Outcome State Fault Refusal := s.infOp u 0x10 cyc dbe
/-- REDUCE. -/
def execReduce (u : InfUnit) (cyc : Nat) (dbe : Bool) (s : State) : Host.Outcome State Fault Refusal := s.infOp u 0x11 cyc dbe
/-- ARGMAX. -/
def execArgmax (u : InfUnit) (cyc : Nat) (dbe : Bool) (s : State) : Host.Outcome State Fault Refusal := s.infOp u 0x12 cyc dbe
/-- RESIZE. -/
def execResize (u : InfUnit) (cyc : Nat) (dbe : Bool) (s : State) : Host.Outcome State Fault Refusal := s.infOp u 0x13 cyc dbe
/-- GRIDSAMPLE. -/
def execGridsample (u : InfUnit) (cyc : Nat) (dbe : Bool) (s : State) : Host.Outcome State Fault Refusal := s.infOp u 0x14 cyc dbe
/-- ATTENTION (R320). -/
def execAttention (u : InfUnit) (cyc : Nat) (dbe : Bool) (s : State) : Host.Outcome State Fault Refusal := s.infOp u 0x15 cyc dbe
/-- COPY. -/
def execCopy (u : InfUnit) (cyc : Nat) (dbe : Bool) (s : State) : Host.Outcome State Fault Refusal := s.infOp u 0x16 cyc dbe

/-! ### SYNC (R325 to R327) -/

/-- The SYNC descriptor of a mode that tile `t` has reached. -/
def State.syncHead (s : State) (t mode : Nat) : Option TileDesc :=
  match s.tileHead t with
  | some e => if (tdOf e.desc).op = 0x18 && (tdOf e.desc).p0 = mode then some e else none
  | none => none

/-- A tile waits in a SYNC. -/
def State.waitDesc (s : State) (t : Nat) (e : TileDesc) : State :=
  (s.setTileQueue t ((s.tileQueue t).map (fun x => if x.uid = e.uid && x.seq = e.seq then { x with waits := true } else x))).syncTile t

/-- Tile `t` reaches a barrier (R325); the tiles of P1 go on once every one has arrived and their earlier outputs are globally visible. -/
def State.syncArrive (s : State) (t : Nat) : State :=
  match s.syncHead t 0 with
  | none => s
  | some e =>
    let tiles := descTiles e.desc
    let s' := s.waitDesc t e
    if tiles.all (fun k => (s'.tileQueue k).any (fun x => x.uid = e.uid && x.seq = e.seq && x.waits)) then
      State.afterAll (tiles.map (fun k => s.tileAccess k 0 0)) s (fun s => (tiles.foldl (fun s k => (s.popDesc k e).markRan k) s).readChains)
    else s'

/-- SYNC_BARRIER: a SYNC of mode 0 (R325). The Dusk inference unit runs one descriptor at a time, so that a barrier holds nothing there (R335). -/
def execSyncBarrier (u : InfUnit) (s : State) : Host.Outcome State Fault Refusal :=
  match u with
  | .tile t => s.tileAttempt t (fun s => s.syncArrive t)
  | .dusk a => s.duskAttempt a (fun d => d.op = 0x18 && d.p0 = 0) (fun s _ => s.answer .ok 0)

/-- Tile `t` reaches a SYNC of mode 1 (R326): once its earlier outputs are globally visible, the event word is written, and the message of P4 goes out behind it. -/
def State.syncWrite (s : State) (t : Nat) : State :=
  match s.syncHead t 1 with
  | none => s
  | some e =>
    let d := tdOf e.desc
    let tag := s.descTag e
    let a := { s.tileAccess t tag d.pid with firm := true }
    s.afterWrites a (fun s =>
      let (st, s) := s.dmaWrite a d.p1 (leBytes 8 d.p2)
      if st ≠ .ok then (s.markRan t).infFail e.uid e.addr t st
      else (if bitAt d.p4 43 then s.send tag (bitsOf d.p4 32 11) else s).retireDesc t e)

/-- SYNC_SIGNAL: a SYNC of mode 1 (R326). A descriptor of the Dusk inference unit has the island's tag and no instance, so that no message follows the event word (R335). -/
def execSyncSignal (u : InfUnit) (s : State) : Host.Outcome State Fault Refusal :=
  match u with
  | .tile t => s.tileAttempt t (fun s => s.syncWrite t)
  | .dusk a => s.duskAttempt a (fun d => d.op = 0x18 && d.p0 = 1) (fun s d =>
      s.afterWrites duskAccess (fun s =>
        let (st, t) := s.dmaWrite { duskAccess with firm := true } d.p1 (leBytes 8 d.p2)
        t.answer st 0))

/-- A SYNC of mode 2 reads its event word: it goes on when the condition holds, else it waits; a failing read ends the job (R305, R327). -/
def State.syncRead (s : State) (t : Nat) (e : TileDesc) : State :=
  let d := tdOf e.desc
  match s.dmaNum (s.tileAccess t (s.descTag e) d.pid) d.p1 8 with
  | (st, v, s) =>
    if st ≠ .ok then (s.markRan t).infFail e.uid e.addr t st
    else if v &&& d.p3 = d.p2 then s.retireDesc t e
    else s.waitDesc t e

/-- SYNC_WAIT: tile `t` reaches a SYNC of mode 2 and reads the event word (R327). -/
def execSyncWait (t : Nat) (s : State) : Host.Outcome State Fault Refusal :=
  s.tileAttempt t (fun s => match s.syncHead t 2 with
    | none => s
    | some e => s.syncRead t e)

/-- The waiting SYNC of mode 2 of job `u` on tile `t`. -/
def State.syncWaiting (s : State) (t u : Nat) : Option TileDesc :=
  (s.tileQueue t).find? (fun e => e.uid = u && e.waits && (tdOf e.desc).op = 0x18 && (tdOf e.desc).p0 = 2)

/-- SYNC_WAIT_POLL: 1 µs has passed, and the waiting SYNC of job `u` on tile `t` reads its event word again (R327). -/
def execSyncWaitPoll (t u : Nat) (s : State) : Host.Outcome State Fault Refusal :=
  s.tileAttempt t (fun s => match s.syncWaiting t u with
    | none => s
    | some e => s.syncRead t e)

/-- SYNC_WAIT_TIMEOUT: the timeout of the waiting SYNC of job `u` on tile `t` has passed, and the job ends with ST_TIMEOUT (R327). -/
def execSyncWaitTimeout (t u : Nat) (s : State) : Host.Outcome State Fault Refusal :=
  s.tileAttempt t (fun s => match s.syncWaiting t u with
    | none => s
    | some e => (s.markRan t).infFail u e.addr t .timeout)

/-! ### Switching (R171, R172, R296 to R299) -/

/-- Zero bytes over a range of memory. -/
def State.zeroMem (s : State) (base size : Nat) : State :=
  { s with mem := s.mem.filter (fun e => !(base ≤ e.1 && e.1 < base + size)) }

/-- The grantee that a tile serves next, apart from the resident: in R163's order on resource 22. -/
def State.incoming (s : State) (t : Nat) : Option Nat :=
  let l := [0, 1, 2, 3].filter (fun g => s.resident t ≠ some g && s.runnable t g && s.mayServe 22 (s.rd Reg.INF_SLICE_INST [t, g]))
  let rank := fun g =>
    let i := s.rd Reg.INF_SLICE_INST [t, g]
    ((if s.allowance (activity 22 i) > 0 then 0 else 4) + s.classOf i) * 64 + rrDistance (tget 63 s.orr.ptr (4 * 22 + s.classOf i)) i
  l.foldl (fun (b : Option Nat) g => match b with | some h => if rank g < rank h then some g else b | none => some g) none

/-- The resident gives way to the incoming grantee (R171, R172, R296): it has nothing runnable; it runs from slack while an in-budget job waits; or its allowance is gone and it may not use slack. -/
def State.yields (s : State) (t g : Nat) : Bool :=
  match s.resident t with
  | none => true
  | some r =>
    let a := activity 22 (s.rd Reg.INF_SLICE_INST [t, r])
    !s.runnable t r || (s.allowance a = 0 && (s.allowance (activity 22 (s.rd Reg.INF_SLICE_INST [t, g])) > 0 || !s.slackEn a))

/-- The cycles of a save or a restore (R298), charged to the grantee and to its job's record. -/
def State.chargeSwitch (s : State) (t g : Nat) : State :=
  let n := (s.rd Reg.INF_SLICE_SAVE_64K [t, g] + 1) * 1024
  match s.headOf t g with
  | some e => s.chargeJob e.uid 22 n
  | none => s.charge 22 (s.rd Reg.INF_SLICE_INST [t, g]) n

/-- The jobs of a grantee on a tile end with a status (R299). -/
def State.endGrantee (s : State) (t g : Nat) (st : Status) : State :=
  ((s.tileQueue t).filter (s.ofGrant t g)).foldl (fun s e => s.infFail e.uid e.addr t st) s

/-- The save area of a grant, and its access. -/
def State.saveArea (s : State) (t g : Nat) : Nat := s.rd Reg.INF_SLICE_SAVE_BASE [t, g] * 0x10000

/-- The outgoing grantee's state is saved (R297 to R299); the layout of its first 64 KB is the tile's own, and its bytes are free. -/
def State.saveTile (s : State) (t g : Nat) : State :=
  let s := s.chargeSwitch t g
  let sram := memBytes s.mem (0x1_0000_0000 + t * 0x20_0000) (s.rd Reg.INF_SLICE_SAVE_64K [t, g] * 0x10000)
  let (st, s) := s.dmaWrite (s.tileAccess t (s.rd Reg.INF_SLICE_INST [t, g]) 0) (s.saveArea t g) (leBytes 0x10000 s.freeVal ++ sram)
  if st = .ok then ({ s with inf := { s.inf with saved := s.inf.saved ++ [(t, g)] } }).drawn else s.drawn.endGrantee t g st

/-- The incoming grantee's state is restored, and every other byte of the SRAM is zeroed (R297 to R299). A grantee that finds no resident, and that has never been saved, starts on a zeroed tile: nothing switches (DEDUCED, log entry 39). -/
def State.restoreTile (s : State) (t g : Nat) : State :=
  let first := (s.resident t).isNone && !s.inf.saved.contains (t, g)
  let s := { s with inf := { s.inf with saved := s.inf.saved.filter (· ≠ (t, g)) } }
  if first then ((s.zeroMem (0x1_0000_0000 + t * 0x20_0000) 0x20_0000).wr Reg.INF_TILE_RES_G [t] g).wr Reg.INF_TILE_RES_VALID [t] 1 else
  let s := s.chargeSwitch t g
  let n := s.rd Reg.INF_SLICE_SAVE_64K [t, g] * 0x10000
  let base := 0x1_0000_0000 + t * 0x20_0000
  let (st, b, s) := s.dmaRead (s.tileAccess t (s.rd Reg.INF_SLICE_INST [t, g]) 0) (s.saveArea t g) (0x10000 + n)
  let s := s.zeroMem base 0x20_0000
  let s := if st = .ok then { s with mem := memPutBytes s.mem base (b.drop 0x10000) } else s.endGrantee t g st
  (s.wr Reg.INF_TILE_RES_G [t] g).wr Reg.INF_TILE_RES_VALID [t] 1

/-- A switch at a boundary, where one is due (R296). -/
def State.switchTile (s : State) (t : Nat) : State :=
  let st := s.rd Reg.INF_TILE_STATE [t]
  if !s.boot.mainUp || st = 4 || st = 5 then s
  else match s.incoming t with
    | none => s
    | some g =>
      if !s.yields t g then s
      else
        let s := match s.resident t with | some r => s.saveTile t r | none => s
        (s.restoreTile t g).syncTile t

/-- TILE_SWITCH: tile `t` stands at a tile-operation boundary and switches between grantees, where R296 has it switch (R297). -/
def execTileSwitch (t : Nat) (s : State) : Host.Outcome State Fault Refusal :=
  s.tileAttempt t (fun s => s.switchTile t)

/-- The tiles of a job, as initiators. -/
def State.jobTiles (s : State) (j : InfJob) : List Access :=
  ((List.range 64).filter (fun t => bitAt j.mask t)).map (fun t => s.tileAccess t j.tag 0)

/-- INF_JOB_COMPLETE: every tile has finished the last descriptor of job `u`, and every output of it is globally visible (R303). -/
def execInfJobComplete (u : Nat) (s : State) : Host.Outcome State Fault Refusal :=
  s.attempt (partyJob u) (some u) (fun s => match s.infJob u with
  | none => go s
  | some j =>
    if j.next = 0 && (List.range 64).all (fun t => (s.tileQueue t).all (fun e => e.uid ≠ u)) then go (State.afterAll (s.jobTiles j) s (fun s => s.infEnd u .ok))
    else go s)

/-! ### GOLDEN and spares (R328 to R333) -/

/-- A physical tile is off with its half of the array, or has not yet passed LBIST since its half came on (20, R591). -/
def State.tileOff (s : State) (p : Nat) : Bool :=
  s.rd Reg.PWR_PD_STATE [4 + p / 36] ≠ 2 || s.inf.waking.contains p

/-- The ready spares: ROLE 1, and not the target of a swap. -/
def State.readySpares (s : State) : List Nat :=
  (List.range 72).filter (fun p => s.rd Reg.INF_PHYS_ROLE [p] = 1 && !s.tileOff p && !s.inf.swaps.any (fun w => w.2.1 = p))

/-- A spare for a logical tile; which of the ready ones is open. -/
def State.pickSpare (s : State) : Option Nat × State :=
  let l := s.readySpares
  if l.isEmpty then (none, s) else (l[s.freeVal % l.length]?, s.drawn)

/-- A golden-flagged frame in INF.TERR of each instance with a grant on the tile, with its message (R330). -/
def State.flagFrame (s : State) (t frame : Nat) : State :=
  let insts := ([0, 1, 2, 3].filter (fun g => s.flag Reg.INF_SLICE_VALID [t, g])).map (fun g => s.rd Reg.INF_SLICE_INST [t, g])
  insts.eraseDups.foldl (fun s i => (s.tileError i 0 t 1 0 frame).send i (s.rd Reg.TTU_INST_FLT_VEC [i])) s

/-- A logical tile goes out of service (R331): its jobs end with ST_NOT_READY, and cause bit 5 rises. -/
def State.loseTile (s : State) (t : Nat) : State :=
  let s := (s.tileQueue t).foldl (fun s e => s.infEnd e.uid .notReady) s
  let s := s.wr Reg.INF_TILE_STATE [t] 5
  ({ s with inf := { s.inf with lost := s.inf.lost ++ [t] } }).raiseCause 5

/-- A tile's GOLDEN has computed a CRC (R328, R330, R331). -/
def State.goldenResult (s : State) (t crc : Nat) : State :=
  if crc = s.rd Reg.INF_GOLD_SIG_LO [] + 2 ^ 32 * s.rd Reg.INF_GOLD_SIG_HI [] then s.wr Reg.INF_TILE_GOLD_OK [t] 1
  else
    let p := s.rd Reg.INF_TILE_PHYS [t]
    let frame := s.rd Reg.INF_GSTAT_FRAME_NO []
    let s := ((s.incSat Reg.INF_PHYS_SUSPECT [p] 1).incSat Reg.INF_GSTAT_MISMATCH [] 1).raise 6
    let s := ((s.wr Reg.INF_GFLAG_FRAME [] frame).wr Reg.INF_GFLAG_TILE [] t).wr Reg.INF_GFLAG_VALID [] 1
    match s.pickSpare with
    | (some q, s) =>
      let s := { s with inf := { s.inf with swaps := s.inf.swaps ++ [(t, q, some frame)] } }
      s.wr Reg.INF_TILE_STATE [t] 4
    | (none, s) => ((s.flagFrame t frame).wr Reg.INF_PHYS_ROLE [p] 2).loseTile t

/-- The units of the reads with which GOLDEN streams the first `lines` lines of the golden image (R328): the port, and the stacks; the Dusk inference unit's cross the link of its XD as well. -/
def State.goldenNeed (s : State) (a : Access) (lines : Nat) : List (Nat × Nat) :=
  let base := s.rd Reg.INF_GOLD_BASE_LO [] * 0x1000 + s.rd Reg.INF_GOLD_BASE_HI [] * 2 ^ 32
  let stack := fun k => ((List.range lines).filter (fun n => hbmStack s.fuses (base + 64 * n) = k)).length
  let link := match srcXd a.src with | some n => [(33 + n, lines)] | none => []
  ((6 + srcPort a.src, lines) :: link ++ (List.range s.fuses.variant.hbmStacks).map (fun k => (k, stack k))).filter (fun e => e.2 ≠ 0)

/-- GOLDEN: a tile executes a GOLDEN descriptor in `cyc` INF cycles with reads of `lines` lines of the golden image, and its CRC-64 over the internal results is `crc` (R328, R330); the descriptor retires in any case. On the Dusk inference unit the answer holds whether the CRC agrees (R335). -/
def execGolden (u : InfUnit) (cyc lines crc : Nat) (s : State) : Host.Outcome State Fault Refusal :=
  match u with
  | .tile t => s.tileAttempt t (fun s => match s.tileHead t with
    | none => s
    | some e =>
      if (tdOf e.desc).op ≠ 0x17 then s
      else
        let a := s.tileAccess t (s.descTag e) 0
        (((s.payJob e.uid 22 cyc).enginePay a.tag (s.goldenNeed a lines)).retireDesc t e).goldenResult t crc)
  | .dusk a => s.duskAttempt a (fun d => d.op = 0x17) (fun s _ =>
      (s.enginePay duskAccess.tag (s.goldenNeed duskAccess lines)).answer .ok (if crc = s.rd Reg.INF_GOLD_SIG_LO [] + 2 ^ 32 * s.rd Reg.INF_GOLD_SIG_HI [] then 0 else 1))

/-- SAFETY_FRAME_END: FRAME_MS has passed (R329). Each tile that ran in the frame without a passing GOLDEN runs a forced one in `cyc` cycles with reads of `lines` lines of the golden image, charged to its resident grantee (R328); `crcs` gives the CRC of those that mismatch. -/
def execSafetyFrameEnd (cyc lines : Nat) (crcs : List (Nat × Nat)) (s : State) : Host.Outcome State Fault Refusal :=
  if !s.boot.mainUp then go s else
  let late := s.inf.ran.filter (fun t => !s.flag Reg.INF_TILE_GOLD_OK [t] && s.rd Reg.INF_TILE_STATE [t] ≠ 5)
  let s := { s with inf := { s.inf with ran := [] } }
  let s := (List.range 64).foldl (fun s t => s.wr Reg.INF_TILE_GOLD_OK [t] 0) s
  let s := s.incWrap Reg.INF_GSTAT_FRAME_NO [] 1
  let sig := s.rd Reg.INF_GOLD_SIG_LO [] + 2 ^ 32 * s.rd Reg.INF_GOLD_SIG_HI []
  go (late.foldl (fun s t =>
    let s := match s.resident t with
      | some g =>
        let tag := s.rd Reg.INF_SLICE_INST [t, g]
        (s.charge 22 tag cyc).chargeAll tag (s.goldenNeed (s.tileAccess t tag 0) lines)
      | none => s
    ((s.incSat Reg.INF_GSTAT_FORCED [] 1).raise 7).goldenResult t (tget sig crcs t)) s)

/-- SPARE_SWAP_DONE: the copy to the spare of logical tile `t` ends (R24, R292, R330, R332): the spare serves the tile, and the outgoing physical tile goes to LBIST. -/
def execSpareSwapDone (t : Nat) (s : State) : Host.Outcome State Fault Refusal :=
  match s.inf.swaps.find? (fun w => w.1 = t) with
  | none => go s
  | some (_, q, frame) =>
    let old := s.rd Reg.INF_TILE_PHYS [t]
    let s := { s with inf := { s.inf with swaps := s.inf.swaps.filter (fun w => w.1 ≠ t) } }
    let s := ((s.wr Reg.INF_TILE_PHYS [t] q).wr Reg.INF_PHYS_ROLE [q] 0).wr Reg.INF_PHYS_LOG [q] t
    let s := ((s.wr Reg.INF_PHYS_ROLE [old] 2).wr Reg.INF_TILE_STATE [t] 0).syncTile t
    go (match frame with | some f => s.flagFrame t f | none => s)

/-- ROTATION_SWAP: a rotation interval has passed (R332, R333): the logical tile whose physical tile was tested longest ago moves to a ready spare for LBIST; with no ready spare, or a tile already under rotation, rotation waits. -/
def execRotationSwap (s : State) : Host.Outcome State Fault Refusal :=
  if !s.boot.mainUp || s.inf.rotating.isSome || s.readySpares.isEmpty then go s else
  let l := (List.range s.fuses.variant.tiles).filter (fun t => s.rd Reg.INF_TILE_STATE [t] ≠ 4 && s.rd Reg.INF_TILE_STATE [t] ≠ 5)
  let age : Nat → Nat := fun t => match s.inf.tested.findIdx? (fun p => p = s.rd Reg.INF_TILE_PHYS [t]) with | some k => k + 1 | none => 0
  match l.foldl (fun (b : Option Nat) t => match b with | some x => if age t < age x then some t else b | none => some t) none with
  | none => go s
  | some t =>
    match s.pickSpare with
    | (some q, s) =>
      let s := { s with inf := { s.inf with swaps := s.inf.swaps ++ [(t, q, none)], rotating := some (s.rd Reg.INF_TILE_PHYS [t]) } }
      go (s.wr Reg.INF_TILE_STATE [t] 4)
    | (none, s) => go s

/-- LBIST at the power-on of its half ends for a physical tile (20, R591): it serves its logical index again, unless that index is out of service for another reason. A tile that fails is retired, and its index stays out of service. -/
def State.wakeTile (s : State) (p : Nat) (pass : Bool) : State :=
  let s := { s with inf := { s.inf with waking := s.inf.waking.filter (· ≠ p) } }
  if pass then
    (if s.rd Reg.INF_PHYS_ROLE [p] = 0 then
      (let t := s.rd Reg.INF_PHYS_LOG [p]
       if s.inf.lost.contains t then s else s.wr Reg.INF_TILE_STATE [t] 0)
     else if s.rd Reg.INF_PHYS_ROLE [p] = 2 then s.wr Reg.INF_PHYS_ROLE [p] 1 else s)
  else
    let s := s.wr Reg.INF_PHYS_ROLE [p] 3
    ({ s with inf := { s.inf with retired := s.inf.retired ++ [p] } }).writeLog.checkSpares

/-- LBIST_DONE: LBIST of physical tile `p` ends (R330, R332, R334): a tile that passes is a spare; one that fails is retired, with a wear-log record, and cause bit 4 rises when the spares fall below TILE_MIN (R581). -/
def execLbistDone (p : Nat) (pass : Bool) (s : State) : Host.Outcome State Fault Refusal :=
  if p < 72 && s.inf.waking.contains p then go (s.wakeTile p pass)
  else if p ≥ 72 || s.rd Reg.INF_PHYS_ROLE [p] ≠ 2 then go s else
  let s := { s with inf := { s.inf with
    tested := s.inf.tested.filter (· ≠ p) ++ [p]
    rotating := if s.inf.rotating = some p then none else s.inf.rotating } }
  if pass then go (s.wr Reg.INF_PHYS_ROLE [p] 1)
  else
    let s := (s.wr Reg.INF_PHYS_ROLE [p] 3)
    go (({ s with inf := { s.inf with retired := s.inf.retired ++ [p] } }).writeLog.checkSpares)

end Sys2Proof.Machine
end

