-- ==== Sys2Proof/Machine/Power.lean ====
section
/-! DEFINITION. Power domains, frequency and voltage changes, the thermal levels and the trip (20; 15, R482), and boundary scan (21, R625). -/

namespace Sys2Proof.Machine

/-! ### Power domains (R589 to R592) -/

/-- The logical tiles that the physical tiles of an INF half serve (R591). -/
def State.halfTiles (s : State) (k : Nat) : List Nat :=
  (List.range s.fuses.variant.tiles).filter (fun t => s.rd Reg.INF_TILE_PHYS [t] / 36 = k - 4)

/-- A domain has gone off: with an INF half its logical tiles are out of service (R591). -/
def State.domainOff (s : State) (k : Nat) : State :=
  let s := s.wr Reg.PWR_PD_STATE [k] 0
  if k = 4 || k = 5 then (s.halfTiles k).foldl (fun s t => s.wr Reg.INF_TILE_STATE [t] 5) s else s

/-- A domain has come on: the tiles of an INF half run LBIST before they serve again (R591). -/
def State.domainUp (s : State) (k : Nat) : State :=
  let s := (s.wr Reg.PWR_PD_STATE [k] 2).incSat Reg.PWR_PD_ON_COUNT [k] 1
  if k = 4 || k = 5 then
    let ps := ((List.range 36).map (fun p => p + 36 * (k - 4))).filter (fun p => s.rd Reg.INF_PHYS_ROLE [p] ≠ 3)
    { s with inf := { s.inf with waking := s.inf.waking ++ ps.filter (fun p => !s.inf.waking.contains p) } }
  else s

/-- A committed REQ of a domain (R592): it starts the transition, or waits for the opposite one that runs. -/
def State.pdRequest (s : State) (k req : Nat) : State :=
  let st := s.rd Reg.PWR_PD_STATE [k]
  let wait := fun (s : State) => { s with pwr := { s.pwr with nextReq := tput s.pwr.nextReq k req } }
  let drop := fun (s : State) => { s with pwr := { s.pwr with nextReq := tdel s.pwr.nextReq k } }
  if req = 1 then
    (if st = 0 then s.wr Reg.PWR_PD_STATE [k] 1 else if st = 3 then wait s else drop s)
  else if st = 2 then s.wr Reg.PWR_PD_STATE [k] 3 else if st = 1 then wait s else drop s

/-- DOMAIN_TRANSITION_DONE: domain `k` reaches on or off, and a REQ committed meanwhile takes effect (R592). -/
def execDomainTransitionDone (k : Nat) (s : State) : Host.Outcome State Fault Refusal :=
  if k < 4 || 8 < k || !s.boot.mainUp then go s
  else
    let st := s.rd Reg.PWR_PD_STATE [k]
    if st = 0 || st = 2 then go s
    else
      let s := if st = 1 then s.domainUp k else s.domainOff k
      match s.pwr.nextReq.find? (fun e => e.1 = k) with
      | some (_, r) => go (({ s with pwr := { s.pwr with nextReq := tdel s.pwr.nextReq k } }).pdRequest k r)
      | none => go s

/-- RAIL_OUT_OF_RANGE: the voltage monitor of domain `k` reads outside ±6 % for 1 µs (R595). A domain that is off or in reset raises no event. -/
def execRailOutOfRange (k : Nat) (s : State) : Host.Outcome State Fault Refusal :=
  if k < 12 && s.safeUp && (k = 11 || s.boot.mainUp) && s.domainOn k then go (s.raise 23) else go s

/-! ### Frequency and voltage (15, R482; R596 to R598) -/

/-- FREQUENCY_CHANGE_DONE: the change of APC, or of GFX, completes (15, R482). -/
def execFrequencyChangeDone (gfx : Bool) (s : State) : Host.Outcome State Fault Refusal :=
  match (if gfx then s.clk.gfxGoal else s.clk.apcGoal) with
  | none => go s
  | some f =>
    let s := s.wr Reg.CLK_DOM_MHZ [if gfx then 6 else 2] f
    go { s with clk := if gfx then { s.clk with gfxGoal := none } else { s.clk with apcGoal := none } }

/-- The hottest logic sensor, in 1/8 °C. -/
def State.hottest (s : State) : Int :=
  (List.range s.fuses.variant.xds).foldl (fun m n => max m (signedOf 12 (s.rd Reg.PWR_TEMP [n + 1]))) (signedOf 12 (s.rd Reg.PWR_TEMP [0]))

/-- The frequency that a rail's target is for: on rail 1 the higher of APC's own and of its ceiling, so that the voltage comes before a rise and goes after a fall (R597), and on rail 0 that of INF and of the link adapters, 1.5 GHz, which no other of its domains exceeds (R596; 15, Table clk.1). -/
def State.railFreq (s : State) (rail : Nat) : Nat := if rail = 1 then max (s.rd Reg.CLK_DOM_MHZ [2]) s.apcCeil else 1500

/-- AVS_VOLTAGE_WRITE: the device sends a Voltage write for a rail (R596); after FAIL the rail stays where it is (R598). -/
def execAvsVoltageWrite (rail : Nat) (s : State) : Host.Outcome State Fault Refusal :=
  if 2 ≤ rail || !s.safeUp || s.flag Reg.PWR_AVS_FAIL [] then go s
  else
    let v := Config.avsTarget rail (s.railFreq rail) s.hottest % 2 ^ 10
    go { s with pwr := { s.pwr with avsGoal := tput s.pwr.avsGoal rail v } }

/-- A rise of a domain's frequency goes on once its rail has the voltage (R597). -/
def State.allowRise (s : State) (rail : Nat) : State :=
  if rail = 1 then
    (if s.rd Reg.CLK_DOM_MHZ [2] < s.apcCeil then { s with clk := { s.clk with apcGoal := some s.apcCeil } } else s)
  else if s.rd Reg.CLK_DOM_MHZ [6] < s.gfxCeil then { s with clk := { s.clk with gfxGoal := some s.gfxCeil } } else s

/-- AVS_ACKNOWLEDGE: the regulator acknowledges the write of a rail, or (`ok` false) the write fails through a missing acknowledgement or a status fault (R597). Three failures within 1 ms set FAIL (R598). -/
def execAvsAcknowledge (rail : Nat) (ok : Bool) (s : State) : Host.Outcome State Fault Refusal :=
  match s.pwr.avsGoal.find? (fun e => e.1 = rail) with
  | none => go s
  | some (_, v) =>
    let s := { s with pwr := { s.pwr with avsGoal := tdel s.pwr.avsGoal rail } }
    if ok then
      let s := s.wr (if rail = 1 then Reg.PWR_AVS_CPU else Reg.PWR_AVS_CORE) [] v
      go (({ s with pwr := { s.pwr with avsTries := s.pwr.avsTries.filter (fun e => e.1 ≠ rail) } }).allowRise rail)
    else
      let l := (rail, s.now) :: s.pwr.avsTries.filter (fun e => s.now < e.2 + 1000000)
      let s := { s with pwr := { s.pwr with avsTries := l } }
      go (if 3 ≤ (l.filter (fun e => e.1 = rail)).length then s.wr Reg.PWR_AVS_FAIL [] 1 else s)

/-! ### Thermal levels (R602 to R606, Table pwr.5) -/

/-- The thresholds of logic levels L1 to L3 and of stack levels H1 to H3, in °C. -/
def logicThresholds : List Int := [108, 111, 114]
def stackThresholds : List Int := [85, 95, 102]

/-- The level that a reading in 1/8 °C enters, with the thresholds lowered by OFFSET. -/
def levelOf (thr : List Int) (off : Nat) (x : Int) : Nat := (thr.filter (fun t => (t - off) * 8 ≤ x)).length

/-- The derates in force follow the logic level (R604). -/
def State.applyDerate (s : State) : State :=
  let d := [8, 8, 6, 4].getD (s.rd Reg.PWR_THERM_LEVEL []) 4
  (s.wr Reg.PWR_DERATE_TILE [] d).wr Reg.PWR_DERATE_LINK [] d

/-- The logic level becomes `l`: its ceilings, its derates, and event 22 on entry into L3. -/
def State.setLogicLevel (s : State) (l : Nat) : State :=
  let old := s.rd Reg.PWR_THERM_LEVEL []
  if l = old then s
  else
    let s := ((s.wr Reg.PWR_THERM_LEVEL [] l).applyDerate).applyCeilings
    if l = 3 && old < 3 then s.raise 22 else s

/-- The level of stack `k` becomes `l`; HLEVEL shows the worst stack, and event 22 comes with H3. -/
def State.setStackLevel (s : State) (k l : Nat) : State :=
  let old := s.rd Reg.PWR_HBMT_LEVEL [k]
  if l = old then s
  else
    let s := s.wr Reg.PWR_HBMT_LEVEL [k] l
    let s := s.wr Reg.PWR_THERM_HLEVEL [] ((List.range 6).foldl (fun m j => max m (s.rd Reg.PWR_HBMT_LEVEL [j])) 0)
    if l = 3 && old < 3 then s.raise 22 else s

/-- A trip (R606): TRIP and TRIPS, event 22, AUTH = DUSK, and the warm reset of the main domain, whatever the REACT; the reset holds until the readings fall. -/
def State.thermalTrip (s : State) : State :=
  if s.pwr.tripHold then s
  else
    let s := (s.wr Reg.PWR_THERM_TRIP [] 1).incSat Reg.PWR_TRIPS [] 1
    let s := { s with pwr := { s.pwr with tripHold := true } }
    let s := if s.latched 22 then s else s.latch 22
    let s := s.setAuth true 22
    if s.boot.mainUp then { s with saf := { s.saf with restart := some 22 } } else s

/-- A sample counts 0.1 ms at the level that held (Table pwr.7). -/
def State.countLevel (s : State) (l : Nat) : State :=
  if l = 0 then s
  else
    let n := tget 0 s.pwr.lvlTicks l + 1
    let s := { s with pwr := { s.pwr with lvlTicks := tput s.pwr.lvlTicks l (n % 10) } }
    if n = 10 then s.incSat Reg.PWR_LVLTIME [l - 1] 1 else s

/-- THERMAL_SAMPLE: the hottest sensor of each die and the reading of each stack, in 1/8 °C, every 100 µs (R602, R605, R606; 19, R575). -/
def execThermalSample (cd : Int) (xds hbmStacks : List Int) (s : State) : Host.Outcome State Fault Refusal :=
  if !s.safeUp then go s
  else
    let s := s.countLevel (s.rd Reg.PWR_THERM_LEVEL [])
    let temps := cd :: xds.take s.fuses.variant.xds
    let hbms := hbmStacks.take s.fuses.variant.hbmStacks
    let off := s.rd Reg.PWR_THERM_OFFSET []
    let s := temps.zipIdx.foldl (fun s e => (s.wr Reg.PWR_TEMP [e.2] (wrapTo 12 e.1)).feedCycle e.2 e.1) s
    let s := hbms.zipIdx.foldl (fun s e => s.wr Reg.PWR_HBMT_T [e.2] (wrapTo 12 e.1)) s
    let s := hbms.zipIdx.foldl (fun s e =>
      s.setStackLevel e.2 (max (s.rd Reg.PWR_HBMT_LEVEL [e.2]) (levelOf stackThresholds off e.1))) s
    let hot := temps.foldl max cd
    let s := s.setLogicLevel (max (s.rd Reg.PWR_THERM_LEVEL []) (levelOf logicThresholds off hot))
    go (if 960 ≤ hot || hbms.any (fun x => 856 ≤ x) then s.thermalTrip else s)

/-- A reading lies at least 5 K below the threshold of a level. -/
def coolEnough (thr : List Int) (off l : Nat) (x : Int) : Bool := l ≠ 0 && x ≤ (thr.getD (l - 1) 0 - off - 5) * 8

/-- THERMAL_LEVEL_FALL: the reading of the logic, or of a stack, has stayed at least 5 K below the threshold of its level for 100 ms (R602). -/
def execThermalLevelFall (stack : Option Nat) (s : State) : Host.Outcome State Fault Refusal :=
  let off := s.rd Reg.PWR_THERM_OFFSET []
  match stack with
  | none =>
    let l := s.rd Reg.PWR_THERM_LEVEL []
    if s.safeUp && coolEnough logicThresholds off l s.hottest then go (s.setLogicLevel (l - 1)) else go s
  | some k =>
    let l := s.rd Reg.PWR_HBMT_LEVEL [k]
    if s.safeUp && k < s.fuses.variant.hbmStacks && coolEnough stackThresholds off l (signedOf 12 (s.rd Reg.PWR_HBMT_T [k])) then
      go (s.setStackLevel k (l - 1))
    else go s

/-- THERMAL_TRIP_RELEASE: every logic sensor reads at most 100 °C and every stack at most 95 °C, and the hold of the trip ends (R606). -/
def execThermalTripRelease (s : State) : Host.Outcome State Fault Refusal :=
  if s.pwr.tripHold && s.hottest ≤ 800
      && (List.range s.fuses.variant.hbmStacks).all (fun k => signedOf 12 (s.rd Reg.PWR_HBMT_T [k]) ≤ 760) then
    go { s with pwr := { s.pwr with tripHold := false } }
  else go s

/-! ### Output pins (16, R526; 19, R584; 20, R605; 17, R540; 21, Table elec.6) -/

/-- TEMP_ALARM_N, while the device drives it. -/
def State.tempAlarmN (s : State) : Bool :=
  !s.safeUp || !(s.rd Reg.PWR_THERM_LEVEL [] = 3 || s.rd Reg.PWR_THERM_HLEVEL [] = 3 || s.pwr.tripHold)

/-- SVC_REQ_N is driven low (19, R584). -/
def State.svcReqLow (s : State) : Bool := s.safeUp && s.replaceActive

/-- WAKE_OUT. -/
def State.wakeOut (s : State) : Bool := s.now < s.alm.wakeEnd

/-! ### Boundary scan (21, R625; IEEE 1149.1) -/

/-- Boundary scan works only while PORST_N is low and PWR_GOOD is high. -/
def State.scanOn (s : State) : Bool := !s.pwr.porstN && s.pwr.pwrGood

/-- EXTEST: the chain captures the pins and shifts `bits` in, which the boundary-scan outputs then drive. -/
def execExtest (pins bits : List Bool) (s : State) : Host.Outcome State Fault Refusal :=
  if s.scanOn then go { s with pwr := { s.pwr with jtag := 3, tdo := pins, chain := bits, driven := some bits } } else go s

/-- SAMPLE/PRELOAD: the chain captures the pins and shifts `bits` in; no pin is driven by it. -/
def execSamplePreload (pins bits : List Bool) (s : State) : Host.Outcome State Fault Refusal :=
  if s.scanOn then go { s with pwr := { s.pwr with jtag := 2, tdo := pins, chain := bits, driven := none } } else go s

/-- BYPASS: one register, which captures 0, stands between TDI and TDO, so that `bits` leave one TCK later. -/
def execBypass (bits : List Bool) (s : State) : Host.Outcome State Fault Refusal :=
  if s.scanOn then
    go { s with pwr := { s.pwr with jtag := 0, tdo := (false :: bits).take bits.length, bypassBit := bits.getLastD false, driven := none } }
  else go s

/-- IDCODE: the 32 bits of the device identification, whose value the spec does not give, leave the low bit first (DESIGN CHOICE, log entry 25). -/
def execIdcode (s : State) : Host.Outcome State Fault Refusal :=
  if s.scanOn then
    go { s with pwr := { s.pwr with jtag := 1, tdo := (List.range 32).map (fun k => Config.idcode.getLsbD k), driven := none } }
  else go s

end Sys2Proof.Machine
end

