-- ==== Sys2Proof/Machine/Boot.lean ====
section
/-! DEFINITION. Boot images, cold boot, warm restart, power loss and the backup cell (18; 16, R522 to R524; 17, R535 to R537; 19, R580; 20, R607; 21, R617). -/

namespace Sys2Proof.Machine

/-! ### Boot images (R554 to R556, Tables boot.2 and boot.3) -/

/-- `n` bytes of an image from byte `lo`, as a number. -/
def field (b : List Byte) (lo n : Nat) : Nat := ofLeBytes ((b.drop lo).take n)

/-- LEN, SVN, LOAD, ENTRY and AUX of an image, and the digest of its trailer. -/
def imgLen (b : List Byte) : Nat := field b 0x10 8
def imgSvn (b : List Byte) : Nat := field b 0x0C 4
def imgLoad (b : List Byte) : Nat := field b 0x18 8
def imgEntry (b : List Byte) : Nat := field b 0x20 8
def imgAux (b : List Byte) : Nat := field b 0x28 8
def imgDigest (b : List Byte) : Nat := field b (0x80 + imgLen b) 48
def imgPayload (b : List Byte) : List Byte := (b.drop 0x80).take (imgLen b)

/-- The magic, the version and the zero fields are as in Table boot.2. -/
def imgForm (b : List Byte) : Bool :=
  let kind := field b 6 1
  field b 0 4 = 0x4C4E4349 && field b 4 2 = 1 && field b 9 3 = 0 && field b 0x30 80 = 0
    && (!(kind = 1 || kind = 5) || imgEntry b = 0) && (kind = 5 || imgAux b = 0)

/-- KIND, SIGNER, LEN and LOAD match Table boot.3. -/
def imgFits (fz : Fuses) (kind : Nat) (b : List Byte) : Bool :=
  let len := imgLen b
  let load := imgLoad b
  field b 6 1 = kind && field b 7 1 = [0, 1, 1, 1, 0, 0].getD kind 2
    && len ≤ [0, 320, 1044480, 3932160, 524288, 16777216].getD kind 0
    && (if kind = 2 then load = 0x1000
        else if kind = 3 then load + len ≤ 3840 * 1024
        else if kind = 5 then load % 4096 = 0 && isHbm fz load && isHbm fz (load + (len - 1))
        else load = 0)

/-- The fused hash of a signer's key; Kiltiost's are held in the boot ROM. -/
def keyHash (fz : Fuses) (signer key : Nat) : Option Nat :=
  if 4 ≤ key then none
  else if signer = 0 then some (Config.romKeyHash key)
  else (fz.keyHashes.find? (fun e => e.1 = signer && e.2.1 = key)).map (fun e => e.2.2)

/-- An image is valid (R555). -/
def imgValid (fz : Fuses) (kind : Nat) (b : List Byte) : Bool :=
  let len := imgLen b
  let key := field b (0x80 + len + 48) 96
  b.length = 0x80 + len + 240 && imgForm b && imgFits fz kind b
    && imgDigest b = Config.hash 0x11 (b.take (0x80 + len)) % 2 ^ 384
    && Config.verify 0x23 key ((b.drop (0x80 + len)).take 48) ((b.drop (0x80 + len + 144)).take 96)
    && (keyHash fz (field b 7 1) (field b 8 1)) = some (Config.hash 0x11 (leBytes 96 key) % 2 ^ 384)
    && !fz.revoked.contains (field b 7 1, field b 8 1)
    && fz.svnMin.getD (kind - 1) 0 ≤ imgSvn b && imgSvn b ≤ 63

/-- The boot image of a copy: its own length tells where it ends. -/
def bootImage (copy : List Byte) : List Byte := copy.take (0x80 + imgLen copy + 240)

/-- The directory entry of a kind: offset, length and digest (R556). -/
def dirEntry (copy : List Byte) (kind : Nat) : Option (Nat × Nat × Nat) :=
  let dir := imgPayload (bootImage copy)
  (((List.range 4).map (fun k => (dir.drop (80 * k)).take 80)).find? (fun e => field e 0 1 = kind)).map
    (fun e => (field e 8 8, field e 16 8, field e 32 48))

/-- A nested image of a copy. -/
def nested (copy : List Byte) (kind : Nat) : List Byte :=
  match dirEntry copy kind with
  | some (off, len, _) => (copy.drop off).take len
  | none => []

/-- A nested image is valid (R556). -/
def nestedValid (fz : Fuses) (copy : List Byte) (kind : Nat) : Bool :=
  match dirEntry copy kind with
  | some (off, len, dig) => off % 4096 = 0 && imgValid fz kind ((copy.drop off).take len) && imgDigest ((copy.drop off).take len) = dig
  | none => false

/-- A copy holds the boot image and every nested image that a reader needs. -/
def copyValid (fz : Fuses) (copy : List Byte) (needs : List Nat) : Bool :=
  imgValid fz 1 (bootImage copy) && needs.all (nestedValid fz copy)

/-- The copy that a reader takes: A first (R554); true for copy B. -/
def pickCopy (fz : Fuses) (f : Flash) (needs : List Nat) : Option Bool :=
  if !f.readable then none
  else if copyValid fz f.a needs then some false
  else if copyValid fz f.b needs then some true
  else none

/-- The flash offset of the image that fails in copy B, the last one tried. -/
def failOffset (fz : Fuses) (f : Flash) (needs : List Nat) : Nat :=
  if !imgValid fz 1 (bootImage f.b) then 0x0400_0000
  else match needs.find? (fun k => !nestedValid fz f.b k) with
    | some k => 0x0400_0000 + (match dirEntry f.b k with | some e => e.1 | none => 0)
    | none => 0x0400_0000

/-! ### What the resets keep (R572, Table boot.6; 22, Table index.1) -/

/-- The words of the always-on domain and the wear counters, which a cold boot keeps (16 to 19). -/
def coldKeeps (k : Nat) : Bool :=
  let sp := k / 2 ^ 17
  let w := k % 2 ^ 17
  if sp = 0x0F then 0x50 ≤ w && w ≤ 0x52
  else if sp = 0x12 then w = 2 || w = 3 || w = 4 || w = 5
  else if sp = 0x14 then
    w = 0 || (0x10 ≤ w && w ≤ 0x1C) || w = 0x20 || w = 0x21 || (0x30 ≤ w && w ≤ 0x3F) || w = 0x42
  else false

/-- The words that a warm restart keeps (Table index.1). -/
def warmKeeps (k : Nat) : Bool :=
  let sp := k / 2 ^ 17
  let w := k % 2 ^ 17
  if sp = 0x01 then 0x200 ≤ w && w ≤ 0x2FF
  else if sp = 0x03 then w = 1 || (0x4000 ≤ w && w ≤ 0x91FF)
  else if sp = 0x05 then (0x40 ≤ w && w ≤ 0xDF) || (0x140 ≤ w && w ≤ 0x17F) || (0x200 ≤ w && w ≤ 0x20B)
  else if sp = 0x06 then w = 0x200 || (0x210 ≤ w && w ≤ 0x26F)
  else if sp = 0x0D then w = 0x300 || 0x1C000 ≤ w
  else if sp = 0x0E then w < 32
  else if sp = 0x0F then w = 0 || (0x10 ≤ w && w ≤ 0x18) || w = 0x41 || w = 0x42 || (0x50 ≤ w && w ≤ 0x52)
  else if sp = 0x10 then
    w = 0x10 || w = 0x11 || (0x20 ≤ w && w ≤ 0x2D) || w = 0x40 || (0x51 ≤ w && w ≤ 0x54)
  else sp = 0x11 || sp = 0x12 || sp = 0x13 || sp = 0x14

/-- Every switched domain is in reset (R549, R551, R572): what the always-on domain, the fuses and the flash hold stays. -/
def State.coldReset (s : State) : State :=
  let t : State := { State.reset with
    fuses := s.fuses
    words := s.words.filter (fun e => coldKeeps e.1)
    mem := s.mem.filter (fun e => 0x3300_0000 ≤ e.1 && e.1 < 0x3304_0000)
    now := s.now
    free := s.free
    resp := s.resp
    hbm := { serials := s.hbm.serials, repaired := s.hbm.repaired, hard := s.hbm.hard }
    inf := { retired := s.inf.retired, lost := s.inf.lost }
    svc := { log := s.svc.log, tracks := s.svc.tracks, activeSec := s.svc.activeSec }
    alm := { chk := s.alm.chk, ringValid := s.alm.ringValid, bkLast := s.alm.bkLast, badSlots := s.alm.badSlots,
             wakeEnd := s.alm.wakeEnd, rtcDown := s.alm.rtcDown }
    clk := { rtcFrac := s.clk.rtcFrac }
    boot := { nextCause := s.boot.nextCause }
    pwr := { porstN := false, pwrGood := s.pwr.pwrGood, warmRstN := s.pwr.warmRstN, vbat := s.pwr.vbat,
             jtag := s.pwr.jtag, chain := s.pwr.chain, bypassBit := s.pwr.bypassBit, tdo := s.pwr.tdo }
    pending := s.pending }
  ((t.wr Reg.ALM_STAT_LOST [] 0).wr Reg.ALM_STAT_FRESH [] 0)

/-- A semaphore that is held at a warm restart is force-released: an Almanac entry, BROKEN set, and the semaphore free (03, R121, R122). The entry names the semaphore's OWNER, where the spec leaves open which party caused it (DESIGN CHOICE, log entry 47). -/
def State.breakSem (s : State) (k : Nat) : State :=
  let s := s.wr Reg.CMD_SEM_WAITERS [k] 0
  if s.flag Reg.CMD_SEM_HELD [k] then
    let s := s.record 0x13 (s.rd Reg.CMD_SEM_OWNER [k]) (leBytes 1 k ++ leBytes 1 (s.rd Reg.CMD_SEM_HOLDER_CTX [k]))
    (s.wr Reg.CMD_SEM_HELD [k] 0).wr Reg.CMD_SEM_BROKEN [k] 1
  else s

/-- The ranges of the enclave entries that are not FREE (08, R247). -/
def State.enclaveRanges (s : State) : List (Nat × Nat) :=
  ((List.range 64).filter (fun e => s.rd Reg.ENC_ERT_STATE [e] ≠ 0)).map (fun e => (s.ertBase e, s.ertBase e + 2 ^ s.rd Reg.ENC_ERT_SIZE [e]))

/-- The main domain enters warm reset (R567, R572, R638): its state is cleared but for what Table index.1 keeps; outstanding jobs end without a record (R74), and capturing wreck buffers freeze (17, R544). -/
def State.mainReset (s : State) : State :=
  let s := s.flushAll.freezeWrecks
  let s := (List.range 256).foldl State.breakSem s
  let can := s.net.can.filter (fun e => e.1 < 4)
  let fail := s.rd Reg.PWR_AVS_FAIL []
  let gen := s.rd Reg.ENC_MON_GEN []
  let restarts := s.rd Reg.ENC_MON_RESTARTS []
  let t : State := { s with
    words := s.words.filter (fun e => warmKeeps e.1)
    msgs := []
    cmp := { state := 3 }
    ttu := {}
    orr := {}
    fab := {}
    hbm := { lines := s.hbm.lines, serials := s.hbm.serials, keys := s.hbm.keys, repaired := s.hbm.repaired, hard := s.hbm.hard,
             blank := s.hbm.blank, groupUsed := s.hbm.groupUsed, doomed := s.hbm.doomed ++ s.enclaveRanges, further := s.hbm.further,
             unreported := s.hbm.unreported,
             spares := s.hbm.spares.map (fun e => (e.1, { e.2 with ready := false })) }
    apc := {}
    enc := { measures := s.enc.measures, firmware := s.enc.firmware }
    cry := {}
    inf := { retired := s.inf.retired, lost := s.inf.lost }
    gfx := {}
    dsp := []
    sxt := {}
    net := { can := can, moves := s.net.moves, wire := s.net.wire.filter (fun e => 1024 ≤ e.1 && e.1 < 1028) }
    saf := { s.saf with hbAny := true, hbCount := 0, mainInjected := false, restart := none }
    clk := { s.clk with apcGoal := none, gfxGoal := none }
    boot := { s.boot with mainUp := false, golden := none, released := []
                          wonce := s.boot.wonce.filter (fun k => k / 32 / 2 ^ 17 ≠ 0x04 && k / 32 / 2 ^ 17 ≠ 0x08) }
    pwr := { s.pwr with nextReq := [], avsTries := [], avsGoal := [] } }
  let t := { t with words := t.words.filter (fun e => e.1 ≠ wordKey 0x10 0x40 && e.1 ≠ wordKey 0x06 0x200) }
  let t := ((t.wr Reg.PWR_AVS_FAIL [] fail).wr Reg.ENC_MON_GEN [] gen).wr Reg.ENC_MON_RESTARTS [] restarts
  let t := (List.range 32).foldl (fun s i => s.wr Reg.BOOT_IRST_BUSY [i] 0) t
  t.wr Reg.BOOT_STAT_PHASE [] 0

/-! ### Bring-up of the main domain (10, R334; 18, R553 to R568) -/

/-- A retired physical tile at a reset (10, R334): the lowest-numbered ready spare serves its logical index, or the index is out of service. -/
def State.retireAtReset (s : State) (p : Nat) : State :=
  let serves := s.rd Reg.INF_PHYS_ROLE [p] = 0
  let t := s.rd Reg.INF_PHYS_LOG [p]
  let s := s.wr Reg.INF_PHYS_ROLE [p] 3
  if !serves || s.inf.lost.contains t then s
  else match (List.range 72).find? (fun q => s.rd Reg.INF_PHYS_ROLE [q] = 1 && !s.inf.retired.contains q) with
    | some q => ((s.wr Reg.INF_TILE_PHYS [t] q).wr Reg.INF_PHYS_ROLE [q] 0).wr Reg.INF_PHYS_LOG [q] t
    | none => s.wr Reg.INF_TILE_STATE [t] 5

/-- The tiles after a reset: fuses first, then the masks of R334. -/
def State.mapTiles (s : State) : State :=
  let s := s.inf.lost.foldl (fun s t => s.wr Reg.INF_TILE_STATE [t] 5) s
  ((List.range 72).filter s.inf.retired.contains).foldl State.retireAtReset s

/-- The boot fails (R565): CMP_STATE 2, the status and the flash offset in the fault registers, PHASE 6, and the CMP fatal event. -/
def State.bootFail (s : State) (st : Status) (off : Nat) : State :=
  let s := s.wr Reg.BOOT_STAT_PHASE [] 6
  let s := { s with cmp := { s.cmp with state := 2, faultCode := BitVec.ofNat 32 (statusCode st + 2 ^ 31), faultAddr := off }
                    boot := { s.boot with failed := true } }
  (s.wr Reg.APC_HART_RUN [0] 1).raise 20

/-- The SVN of the images of some kinds that this power cycle has booted (R557). -/
def State.noteSvn (s : State) (copy : List Byte) (kinds : List Nat) : State :=
  kinds.foldl (fun s k =>
    { s with boot := { s.boot with svn := tput s.boot.svn k (imgSvn (if k = 1 then bootImage copy else nested copy k)) } }) s

/-- Hart 0 and the boot chain load the main domain (R554, R561 to R563): first stage into boot SRAM, measurements, and the golden image as soon as HBM is reachable. -/
def State.loadMain (s : State) (f : Flash) (needs : List Nat) : State :=
  match pickCopy s.fuses f needs with
  | none => s.bootFail (if f.readable then .denied else .notReady) (if f.readable then failOffset s.fuses f needs else 0)
  | some b =>
    let copy := if b then f.b else f.a
    let stage := nested copy 2
    let gold := nested copy 5
    let s := (s.wr Reg.BOOT_STAT_COPY [] (if b || s.boot.islandB then 1 else 0)).noteSvn copy (1 :: needs)
    let s := { s with mem := memPutBytes s.mem (0x10_0000 + 0x1000) (imgPayload stage)
                      boot := { s.boot with entry := imgEntry stage
                                            golden := some (imgLoad gold, imgAux gold, imgPayload gold, imgDigest gold) } }
    ((s.extendMeas 0 (imgDigest (bootImage copy))).extendMeas 1 (imgDigest stage)).wr Reg.BOOT_STAT_PHASE [] 3

/-- The link of every XD of the variant trains when the main domain leaves reset (01, R18; 06, R193); one whose training fails goes down right after by LINK_DOWN. -/
def State.trainLinks (s : State) : State :=
  (List.range s.fuses.variant.xds).foldl (fun s n => s.wr Reg.MAT_LINK_STATE [n] 1) s

/-- The spare of every stack of the variant is trained and patrol-tested at every start (07, R216). -/
def State.spareStart (s : State) : State :=
  (List.range s.fuses.variant.hbmStacks).foldl (fun s k => s.setSpare k { s.spare k with ready := true }) s

/-- CAP of every resource in the first period, at the state that holds when the main domain leaves reset (05, R173). -/
def State.firstCaps (s : State) : State :=
  (presentRes s.fuses).foldl (fun s r => s.wr Reg.ORR_RES_CAP [r] (s.capFor (s.rd Reg.ORR_ACTIVE_PERIOD []) r)) s

/-- The main domain leaves reset: hart 0 starts at 0x0, the tiles are mapped, the links and the spares are trained, and the domains run at the ceilings and derates in force (07, R216; 10, R334; 18, R560; 20, Edges). -/
def State.releaseMain (s : State) : State :=
  let s := { s with boot := { s.boot with mainUp := true }, cmp := { s.cmp with state := 0 } }
  let s := (s.wr Reg.BOOT_STAT_PHASE [] 2).mapTiles.applyDerate
  let s := s.wr Reg.CLK_DOM_MHZ [2] (min s.apcCeil (s.rd Reg.CLK_DOM_MHZ [2]))
  let s := s.wr Reg.CLK_DOM_MHZ [6] (min s.gfxCeil (s.rd Reg.CLK_DOM_MHZ [6]))
  s.trainLinks.spareStart.firstCaps

/-- The island loads Dusk (R554, R558): its copy's image into island SRAM; with none valid, island failure. -/
def State.loadDusk (s : State) (f : Flash) : State :=
  match pickCopy s.fuses f [3] with
  | none => s.islandFail
  | some b =>
    let copy := if b then f.b else f.a
    let img := nested copy 3
    let s := s.noteSvn copy [3]
    let s := { s with mem := memPutBytes s.mem (0x3200_0000 + imgLoad img) (imgPayload img)
                      saf := { s.saf with islandRun := true }
                      boot := { s.boot with islandB := b } }
    (s.extendMeas 2 (imgDigest img)).wr Reg.BOOT_STAT_COPY [] (if b then 1 else 0)

/-- The Monitor starts at a cold boot from the firmware of hart 0's copy (08, R253). Firmware that fails verification in copy B, the last one tried, leaves it halted (R258). -/
def State.startMonitor (s : State) (f : Flash) : State :=
  match pickCopy s.fuses f [2, 4, 5] with
  | none => if f.readable && imgValid s.fuses 1 (bootImage f.b) && !nestedValid s.fuses f.b 4 then s.monHalt else s
  | some b => ({ s with enc := { s.enc with firmware := imgDigest (nested (if b then f.b else f.a) 4) } }).extendMmr 0

/-! ### The power-up record and the restored counters (17, R535, R537; 19, R580) -/

/-- A counter takes the larger of its two values. -/
def State.restore (s : State) (r : Row) (ix : List Nat) (v : Nat) : State := s.wr r ix (max v (s.rd r ix))

/-- Wear counters, cause bits and tile masks are restored from the retention SRAM and the wear log (R580). -/
def State.restoreWear (s : State) : State :=
  match s.svc.log with
  | none => s
  | some l =>
    let s := (List.range 5).foldl (fun s d => (s.restore Reg.SVC_EM [d] (l.em.getD d 0)).restore Reg.SVC_TCYC [d] (l.tcyc.getD d 0)) s
    let s := (s.restore Reg.SVC_HOURS_ACTIVE [] l.active).restore Reg.SVC_HOURS_STANDBY [] l.standby
    let s := (List.range 16).foldl (fun s m => s.restore Reg.SVC_AGE [m] (l.age.getD m 0)) s
    let c := l.cause ||| s.rd Reg.SVC_STAT_CAUSE []
    let s := (s.wr Reg.SVC_STAT_CAUSE [] c).wr Reg.SVC_STAT_REPLACE [] (if c = 0 then 0 else 1)
    let s := s.restore Reg.SVC_LOG_SEQ [] l.seq
    { s with inf := { s.inf with
      retired := s.inf.retired ++ l.retired.filter (fun p => !s.inf.retired.contains p)
      lost := s.inf.lost ++ l.outOfService.filter (fun t => !s.inf.lost.contains t) } }

/-- The first record of the power cycle, and a ring that was lost starts afresh (17, R535, R537). -/
def State.powerUpRecord (s : State) : State :=
  let fresh := !s.alm.ringValid
  let last := if fresh then 2 ^ 32 - 1 else (s.rd Reg.ALM_SEQ [] + 2 ^ 32 - 1) % 2 ^ 32
  let cause := if fresh then 2 else s.boot.nextCause
  let s : State := if fresh then
      (((({ s with alm := { s.alm with ringValid := true, chk := 0xFFFF, badSlots := [] } }).wr Reg.ALM_SEQ [] 0).wr Reg.ALM_HEAD [] 0).wr
        Reg.ALM_STAT_FRESH [] 1)
    else s.wr Reg.ALM_STAT_FRESH [] 0
  let s := s.wr Reg.BOOT_STAT_CAUSE [] cause
  s.record 0x01 34 (leBytes 1 cause ++ leBytes 1 (s.rd Reg.ALM_BK_LATCH []) ++ leBytes 4 last)

/-! ### Cold boot (R549 to R566, Table boot.4) -/

/-- Epoch time at a cold boot (15, R495): the RTC in ns when it is valid, else 0. -/
def State.startEpoch (s : State) : State :=
  let valid := s.flag Reg.CLK_RTC_VALID []
  let s := { s with clk := { s.clk with epoch := if valid then s.rtc * 1000000000 / 32768 else 0, unset := !valid } }
  s.wr Reg.CLK_EPOCH_Q [] s.qCode

/-- Every key slot takes a new key from the random source (07, R220), and every line of HBM fails its tag (R231). -/
def State.newKeys (s : State) : State :=
  (List.range 64).foldl (fun s k =>
    ({ s with hbm := { s.hbm with serials := tput s.hbm.serials k (s.serialOf k + 1)
                                  keys := tput s.hbm.keys k (s.freeVal % 2 ^ 128) } }).drawn)
    { s with hbm := { s.hbm with lines := [], cache := [] } }

/-- Training repairs every row of the hard-repair list for good, and the list is empty again (07, R233). -/
def State.hardRepair (s : State) : State :=
  { s with hbm := { s.hbm with hard := s.hbm.hard ++ s.hbm.repaired.filter (fun e => !s.hbm.hard.contains e), repaired := [] } }

/-- XSPI_RESET_N is high: PORST_N is, and has been for 100 µs (21, R624). -/
def State.xspiResetN (s : State) : Bool := s.pwr.porstN && s.pwr.porstAt + 100000 ≤ s.now

/-- A WARM_RST_N that is low when PORST_N rises is sensed as an assertion: event 24 follows once the main domain has left reset (21, Edges). -/
def State.senseWarmRst (s : State) : State := if s.pwr.warmRstN then s else s.raise 24

/-- COLD_BOOT: PORST_N rises while PWR_GOOD is high (R549). The island loads Dusk, and hart 0 and the boot chain bring up the main domain from the flash, up to the commits of step 9 of Table boot.4. -/
def execColdBoot (f : Flash) (s : State) : Host.Outcome State Fault Refusal :=
  if s.pwr.porstN || !s.pwr.pwrGood then go s
  else
    let s := { s with pwr := { s.pwr with porstN := true, porstAt := s.now, driven := none }, boot := { s.boot with cold := true } }
    let s := s.startEpoch.powerUpRecord
    let s := (s.wr Reg.BOOT_STAT_SLOW [] (if f.fast then 0 else 1)).wr Reg.BOOT_STAT_PHASE [] 1
    let s := s.restoreWear.hardRepair.newKeys.loadDusk f
    let s := (s.releaseMain.senseWarmRst.startMonitor f).loadMain f [2, 4, 5]
    go s.finishLoad

/-- SUPERVISOR_RUNNING: hart 0 executes the first instruction of the first stage (R564): a0, a1, PHASE 5, CMP_STATE 1, and the boot or the restart is over. -/
def execSupervisorRunning (s : State) : Host.Outcome State Fault Refusal :=
  if !s.boot.mainUp || s.rd Reg.BOOT_STAT_PHASE [] ≠ 4 then go s
  else
    let s := s.wr Reg.BOOT_STAT_PHASE [] 5
    let stat := s.word (Reg.BOOT_STAT_PHASE.key [])
    let s := { s with cmp := { s.cmp with state := 1 }, boot := { s.boot with cold := false, warm := false } }
    go (s.setHart 0 { s.hart 0 with x := [(10, stat.setWidth 64), (11, 0x1000)], pc := 0x1000 + s.boot.entry })

/-! ### Warm restart (16, R522 to R524; 18, R567; 20, R606; 21, R617) -/

/-- BOOT.STAT.CAUSE of a warm restart by event `e` (Table boot.7). -/
def State.warmCause (s : State) (e : Nat) : Nat := if e = 24 then 4 else if e = 22 && s.pwr.tripHold then 5 else 3

/-- WARM_RESET_ASSERT: the warm reset ordered by an event of REACT 3, by a trip or by the freeze limit is asserted, or the main domain is parked (16, R522 to R524). -/
def execWarmResetAssert (s : State) : Host.Outcome State Fault Refusal :=
  match s.saf.restart with
  | none => go s
  | some e =>
    let s := { s with saf := { s.saf with restart := none } }
    if !s.boot.mainUp then go s
    else
      let l := s.recentRestarts
      let s := { s with saf := { s.saf with restarts := l } }
      if s.rd Reg.SAF_RST_MAX [] < l.length + 1 then
        let s := ((s.record 0x03 34 (leBytes 1 e)).wr Reg.SAF_RST_PARKED [] 1).mainReset
        go { s with boot := { s.boot with warm := false, cold := false } }
      else
        let s := { s with saf := { s.saf with restarts := l ++ [s.now] } }
        let s := s.wr Reg.SAF_RST_COUNT [] (l.length + 1)
        let s := s.record 0x02 34 (leBytes 1 e ++ leBytes 1 (l.length + 1))
        let s := ((s.wr Reg.BOOT_STAT_CAUSE [] (s.warmCause e)).incSat Reg.BOOT_STAT_WARMS [] 1).mainReset
        go { s with boot := { s.boot with warm := true, cold := false } }

/-- The Monitor at a warm restart (R568), as under R255: a new generation from its retained SRAM, or halted when GEN is 7 already or the image there fails verification (08, R253, R258). -/
def State.rewakeMonitor (verified : Bool) (s : State) : State :=
  if s.rd Reg.ENC_MON_GEN [] = 7 then s.monHalt
  else
    let s := (s.wr Reg.ENC_MON_STATE [] 1).incSat Reg.ENC_MON_RESTARTS [] 1
    if !verified then s.monHalt else
    let s := s.incWrap Reg.ENC_MON_GEN [] 1
    (s.extendMmr (s.rd Reg.ENC_MON_GEN [])).record 0x70 35 (leBytes 1 1 ++ leBytes 1 (s.rd Reg.ENC_MON_GEN []))

/-- WARM_RESTART: the main domain is released on the warm path (R567), once no trip holds it and WARM_RST_N is high (20, R606; 21, R617); `verified` says whether the Monitor's firmware verifies (08, R253). HBM runs the verification pass of R238 before the golden image is written. -/
def execWarmRestart (f : Flash) (verified : Bool) (s : State) : Host.Outcome State Fault Refusal :=
  if !s.boot.warm || s.boot.mainUp || s.boot.failed || s.pwr.tripHold || !s.pwr.warmRstN || !s.safeUp then go s
  else
    let s := s.releaseMain
    let s := { s with hbm := { s.hbm with verifying := true } }
    let s := (s.wr Reg.BOOT_STAT_SLOW [] (if f.fast then 0 else 1)).rewakeMonitor verified
    go (s.loadMain f [2, 5])

/-- WARM_RST_N_ASSERT: a low level on WARM_RST_N has passed its filter (21, R617). While PORST_N or PWR_GOOD is low the pin is ignored, and only its level is there for the next cold boot to sense (21, Edges). -/
def execWarmRstNAssert (s : State) : Host.Outcome State Fault Refusal :=
  if !s.pwr.warmRstN then go s
  else
    let s := { s with pwr := { s.pwr with warmRstN := false } }
    if s.safeUp then go (s.raise 24) else go s

/-- WARM_RST_N_RELEASE: WARM_RST_N has been high for 1 µs (21, R617). -/
def execWarmRstNRelease (s : State) : Host.Outcome State Fault Refusal := go { s with pwr := { s.pwr with warmRstN := true } }

/-! ### Power (18, R551; 17, R637; 20, R607) -/

/-- VBAT_BKP falls to a level on the backup cell (R607): from 1 on the RTC stops, and it is no longer valid; at 2 the retention SRAM and everything with it is lost. -/
def State.vbatFall (s : State) (v : Nat) : State :=
  let s := { s with pwr := { s.pwr with vbat := v } }
  let s := if 1 ≤ v then s.wr Reg.CLK_RTC_VALID [] 0 else s
  if v < 2 then s
  else
    { s with
      words := s.words.filter (fun e => !coldKeeps e.1)
      mem := s.mem.filter (fun e => !(0x3300_0000 ≤ e.1 && e.1 < 0x3304_0000))
      hbm := { s.hbm with repaired := [] }
      inf := { s.inf with retired := [], lost := [] }
      svc := { log := s.svc.log }
      alm := { s.alm with ringValid := false, bkLast := [], badSlots := [] } }

/-- POWER_LOSS: PWR_GOOD falls (R551): the Almanac writes its intake (17, R637), every switched domain is held in reset, and the always-on domain runs from a backup cell at level `v`. PORST_N counts as low from here on, as R550 has it held. -/
def execPowerLoss (v : Nat) (s : State) : Host.Outcome State Fault Refusal :=
  if !s.pwr.pwrGood then go s
  else
    let s := if s.safeUp then s.flushIntake else s
    let s := { s with boot := { s.boot with nextCause := if s.pwr.porstN then 1 else s.boot.nextCause }
                      alm := { s.alm with rtcDown := s.rtc } }
    let s := s.coldReset
    go (({ s with pwr := { s.pwr with pwrGood := false, driven := none } }).vbatFall (min v 2))

/-- PORST_N_ASSERT: PORST_N falls while PWR_GOOD is high (R551): every switched domain is held in reset, and the next cold boot records cause 0. -/
def execPorstNAssert (s : State) : Host.Outcome State Fault Refusal :=
  if s.pwr.porstN && s.pwr.pwrGood then
    go (State.coldReset { s with boot := { s.boot with nextCause := 0 } })
  else go s

/-- PWR_GOOD_RISE: PWR_GOOD rises, and the always-on domain runs from the main supply (R607). -/
def execPwrGoodRise (s : State) : Host.Outcome State Fault Refusal :=
  if s.pwr.pwrGood then go s else go { s with pwr := { s.pwr with pwrGood := true } }

/-- VBAT_BKP_FALL: on the backup cell alone VBAT_BKP falls below 2.0 V or, with `lost`, below 1.6 V (R607). -/
def execVbatBkpFall (lost : Bool) (s : State) : Host.Outcome State Fault Refusal :=
  if s.pwr.pwrGood then go s else go (s.vbatFall (max s.pwr.vbat (if lost then 2 else 1)))

/-! ### What commits of the BOOT space do (R557, R560) -/

/-- SVN[k + 1].ADV raises MIN by fuse (R557); the word of MIN and ADV then reads as its fuses have it. -/
def State.svnAdv (s : State) (k v : Nat) : State :=
  { s with fuses := { s.fuses with svnMin := (List.range 5).map (fun j => if j = k then v else s.fuses.svnMin.getD j 0) }
           words := tdel s.words (Reg.BOOT_SVN_MIN.key [k]) }

/-- HART_GO: a bit that is set for a hart which is still in reset releases it, in M-mode at BOOT of its cluster (R560). -/
def State.hartGo (s : State) (h : Nat) : State :=
  if bitAt (s.rd Reg.BOOT_CTRL_HART_GO []) (h - 1) && !s.boot.released.contains h then
    ({ s with boot := { s.boot with released := s.boot.released ++ [h] } }).setHart h { pc := s.bootAddr (h / 4) }
  else s

/-- INSTANCE_RESET_DONE: every step of the reset of I`i` is done (R569). -/
def execInstanceResetDone (i : Nat) (s : State) : Host.Outcome State Fault Refusal :=
  if i < 32 && s.flag Reg.BOOT_IRST_BUSY [i] then
    go ((s.wr Reg.BOOT_IRST_BUSY [i] 0).incSat Reg.BOOT_IRST_COUNT [i] 1)
  else go s

end Sys2Proof.Machine
end

