-- ==== Sys2Proof/Machine/Crypto.lean ====
section
/-! DEFINITION. The Crypto Engines (08, R263 to R270): ranks and pre-emption, descriptors, operations, keys, and the end of a job. The algorithms are those of the standards that R263 names, and stand in Config (DESIGN CHOICE, log entry 13). -/

namespace Sys2Proof.Machine

/-! ### Engines and ranks (R267) -/

/-- The Crypto Engine of XD `n`. -/
def State.cryEngine (s : State) (n : Nat) : CryEngine := tget {} s.cry.engines n

/-- The state with a Crypto Engine replaced. -/
def State.setCryEngine (s : State) (n : Nat) (x : CryEngine) : State :=
  { s with cry := { s.cry with engines := tput s.cry.engines n x } }

/-- The rank of a job of a tag on engine `n`: the allowance group, then the class. Smaller ranks higher. -/
def State.cryRank (s : State) (n tag : Nat) : Nat :=
  (if s.allowance (activity (25 + n) tag) > 0 then 0 else 4) + s.classOf tag

/-- The first of the jobs that Orrery lets compete with the highest rank. -/
def State.cryBest (s : State) (n : Nat) : List CryJob → Option CryJob
  | [] => none
  | j :: js =>
    if !s.mayServe (25 + n) j.tag then s.cryBest n js
    else match s.cryBest n js with
      | none => some j
      | some k => if s.cryRank n j.tag ≤ s.cryRank n k.tag then some j else some k

/-- The job that engine `n` takes next: a pre-empted one goes before a waiting one of the same rank (R268). -/
def State.cryNext (s : State) (n : Nat) : Option CryJob :=
  s.cryBest n ((s.cryEngine n).saved ++ (s.cryEngine n).waiting)

/-- An access of engine `n` for a job of a tag (R148). -/
def cryAccess (n tag : Nat) : Access := { tag := tag, pid := 0, src := .xd n, kind := .read }

/-- The engine writes STATE and, where given, STATUS into a descriptor (Table enc.4). -/
def State.cryState (s : State) (n : Nat) (j : CryJob) (st : Nat) (code : Option Status) : State :=
  (s.dmaWrite (cryAccess n j.tag) (j.desc + 2)
    (leBytes 1 st ++ (match code with | some c => leBytes 1 (statusCode c) | none => []))).2

/-- A dispatched job enters engine `n`; where it cannot start at once it waits with STATE 0 and ST_QUEUED, and QUEUED counts it (R267). -/
def State.cryAccept (s : State) (n u tag desc : Nat) : State :=
  let x := s.cryEngine n
  let j : CryJob := { uid := u, tag := tag, desc := desc }
  let idle := x.running.isNone && x.saved.isEmpty && x.waiting.isEmpty && s.mayServe (25 + n) tag
  let s := s.setCryEngine n { x with waiting := x.waiting ++ [j] }
  if idle then s else (s.cryState n j 0 (some .queued)).incWrap Reg.CRY_CNT_QUEUED [n] 1

/-! ### Descriptors and keys (R264, R266, Tables enc.4 and enc.6) -/

/-- The operation codes of Table enc.4. -/
def cryOps : List Nat := [0x01, 0x02, 0x10, 0x11, 0x12, 0x18, 0x19, 0x1A, 0x20, 0x21, 0x22, 0x23, 0x30]

/-- The length of a key of a KIND; 0 for no kind (R266). -/
def keyLen (kind : Nat) : Nat := [0, 16, 32, 32, 64, 48, 96].getD kind 0

/-- The KINDs that fit an operation (R266): AES for GCM, a private key to sign, a public key to verify; none where the operation takes no key. -/
def opKinds (op : Nat) : List Nat :=
  if op ≤ 0x02 then [1, 2] else if op = 0x20 then [3] else if op = 0x21 then [4]
  else if op = 0x22 then [5] else if op = 0x23 then [6] else []

/-- The bytes of the digest of an operation: the output of a hash, or the LEN of ECDSA (DEDUCED, log entry 14). -/
def digestLen (op : Nat) : Nat :=
  if op = 0x10 || op = 0x18 || op = 0x20 || op = 0x21 then 32
  else if op = 0x11 || op = 0x19 || op = 0x22 || op = 0x23 then 48
  else 64

/-- A descriptor and slot that R264 and R266 take for instance `tag` on engine `n`. -/
def State.cryAdmits (s : State) (n tag v : Nat) : Bool :=
  let op := bitsOf v 0 8
  let slot := bitsOf v 8 5
  let kkind := bitsOf v 13 3
  let len := bitsOf v 32 32
  let owner := s.rd Reg.CRY_KEY_OWNER [n, slot]
  cryOps.contains op && bitsOf v 18 6 = 0 && bitsOf v 424 88 = 0
    && (if op = 0x30 then keyLen kkind ≠ 0 && len = keyLen kkind && owner = tag
        else kkind = 0
          && (op < 0x20 || len = digestLen op)
          && ((opKinds op).isEmpty || (owner = tag && (opKinds op).contains (s.rd Reg.CRY_KEY_KIND [n, slot]))))

/-- The key of a slot. -/
def State.cryKey (s : State) (n slot : Nat) : Nat := tget 0 s.cry.keys (32 * n + slot)

/-- CLEAR erases the key of a slot and sets KIND to 0 (Table enc.6). -/
def State.cryClear (s : State) (n slot : Nat) : State :=
  ({ s with cry := { s.cry with keys := tdel s.cry.keys (32 * n + slot) } }).wr Reg.CRY_KEY_KIND [n, slot] 0

/-! ### The operations (R263) -/

/-- Two byte strings, bit by bit. -/
def xorBytes (b : List Byte) (v : Nat) : List Byte := leBytes b.length (ofLeBytes b ^^^ v)

/-- The reads of an operation in turn, until one fails: source, IV or signature, additional data, tag. -/
def State.cryRead (s : State) (n tag : Nat) : List (Nat × Nat) → Status × List (List Byte) × State
  | [] => (.ok, [], s)
  | (a, len) :: rest =>
    let (st, b, s) := s.dmaRead (cryAccess n tag) a len
    if st ≠ .ok then (st, [], s)
    else let (st, l, s) := s.cryRead n tag rest; (st, b :: l, s)

/-- A job carries out its operation with the descriptor `v`, already admitted. -/
def State.cryCompute (s : State) (n v : Nat) (j : CryJob) : CryJob × State :=
  let op := bitsOf v 0 8
  let slot := bitsOf v 8 5
  let len := bitsOf v 32 32
  let kind := if op = 0x30 then bitsOf v 13 3 else s.rd Reg.CRY_KEY_KIND [n, slot]
  let keyB := leBytes (keyLen kind) (s.cryKey n slot)
  let j := { j with op := op, len := len, dst := bitsOf v 128 64, tagAddr := bitsOf v 352 64, slot := slot, kind := kind }
  let src := (bitsOf v 64 64, len)
  let iv := bitsOf v 192 64
  let aad := (bitsOf v 256 64, bitsOf v 320 32)
  let wants :=
    if op = 0x01 then [src, (iv, 12), aad]
    else if op = 0x02 then [src, (iv, 12), aad, (j.tagAddr, 16)]
    else if op = 0x21 then [src, (iv, 64)]
    else if op = 0x23 then [src, (iv, 96)]
    else [src]
  match s.cryRead n j.tag wants with
  | (st, l, s) =>
    let b := fun k => l.getD k []
    if st ≠ .ok then ({ j with failed := some st }, s)
    else if op ≤ 0x02 then
      let out := xorBytes (b 0) (Config.gcmStream keyB (b 1) len % 2 ^ (8 * len))
      let t := leBytes 16 (Config.gcmTag keyB (b 1) (b 2) (if op = 0x01 then out else b 0))
      if op = 0x01 then ({ j with out := out, tagOut := t }, s)
      else if t = b 3 then ({ j with out := out }, s)
      else ({ j with out := List.replicate len 0, bad := true }, s)
    else if op < 0x20 then ({ j with out := leBytes (digestLen op) (Config.hash op (b 0)) }, s)
    else if op = 0x20 || op = 0x22 then
      ({ j with out := leBytes (2 * digestLen op) (Config.sign op (ofLeBytes keyB) (b 0) s.freeVal) }, s.drawn)
    else if op = 0x30 then ({ j with out := b 0 }, s)
    else ({ j with bad := !Config.verify op (ofLeBytes keyB) (b 0) (b 1) }, s)

/-- The engine without a job. -/
def State.cryDrop (s : State) (n u : Nat) : State :=
  let x := s.cryEngine n
  s.setCryEngine n {
    running := if x.running.any (fun j => j.uid = u) then none else x.running
    saved := x.saved.filter (fun j => j.uid ≠ u)
    waiting := x.waiting.filter (fun j => j.uid ≠ u) }

/-- A job's record, the STATE and STATUS of its descriptor, and CNT.JOBS (R264; Tables enc.4 and enc.6). -/
def State.cryEnd (s : State) (n : Nat) (j : CryJob) (st : Status) : State :=
  let s := s.cryDrop n j.uid
  match s.jobOf j.uid with
  | none => s
  | some d =>
    let st := if d.abort then .aborted else st
    ((s.cryState n j 3 (some (s.finalStatus st (reportClass d.units d.cls)))).incWrap Reg.CRY_CNT_JOBS [n] 1).endJob j.uid st

/-- A job that R264 or R266 does not take ends with ST_DENIED and UNITS = 0, whatever a save has charged to it before. -/
def State.cryDeny (s : State) (n : Nat) (j : CryJob) : State :=
  match s.jobOf j.uid with
  | none => s
  | some d => (s.setJob { d with units := 0, cls := 2 }).cryEnd n j .denied

/-- Engine `n` starts the job that it takes next, when its descriptor spells operation `op`: a job that R264 or R266 does not take ends with ST_DENIED, one whose descriptor cannot be read ends with that status, and any other runs; it owes the engine-ns of its operation, which are charged as they pass (R264, R267, R269). -/
def State.cryStart (s : State) (n op : Nat) (j : CryJob) : State :=
  match s.dmaRead (cryAccess n j.tag) j.desc 64 with
  | (st, b, t) =>
    let v := ofLeBytes b
    if st ≠ .ok then t.cryEnd n j st
    else if !s.cryAdmits n j.tag v then t.cryDeny n j
    else if bitsOf v 0 8 ≠ op then s
    else
      let (j, t) := (t.cryState n j 1 none).cryCompute n v { j with owed := Config.cryptoNs op (bitsOf v 32 32) (bitsOf v 320 32) }
      (t.cryDrop n j.uid).setCryEngine n { (t.cryDrop n j.uid).cryEngine n with running := some j }

/-- The job that engine `n` can start: it is idle, and the next job is no saved one. -/
def State.cryStarts (s : State) (n : Nat) : Option CryJob :=
  let x := s.cryEngine n
  if x.running.isSome then none
  else match s.cryNext n with
    | some j => if x.saved.any (fun k => k.uid = j.uid) then none else some j
    | none => none

/-- The running job of an engine is charged engine-ns that have passed (R267): at the instant at which its allowance runs out it is served from slack. -/
def State.cryPass (s : State) (n ns : Nat) : State :=
  let x := s.cryEngine n
  match x.running with
  | some j =>
    let u := min ns j.owed
    (s.setCryEngine n { x with running := some { j with owed := j.owed - u } }).chargeJob j.uid (25 + n) u
  | none => s

/-- One tick of the engines that run. -/
def State.cryTick (s : State) (ns : Nat) : State := s.cry.engines.foldl (fun s e => s.cryPass e.1 ns) s

/-- The start of a job, as the meaning of an operation. -/
def State.cryOp (s : State) (n op : Nat) : Host.Outcome State Fault Refusal :=
  if n ≥ 4 then .refused .illFormed
  else match s.cryStarts n with
    | none => go s
    | some j => s.attempt (partyJob j.uid) (some j.uid) (fun s => go (s.cryStart n op j))

/-! ### Meanings -/

/-- GCM_ENCRYPT: engine `n` starts an AES-GCM encryption (R263). -/
def execGcmEncrypt (n : Nat) (s : State) : Host.Outcome State Fault Refusal := s.cryOp n 0x01
/-- GCM_DECRYPT: engine `n` starts an AES-GCM decryption (R263, R265). -/
def execGcmDecrypt (n : Nat) (s : State) : Host.Outcome State Fault Refusal := s.cryOp n 0x02
/-- SHA_256 on engine `n` (R263). -/
def execSha256 (n : Nat) (s : State) : Host.Outcome State Fault Refusal := s.cryOp n 0x10
/-- SHA_384 on engine `n` (R263). -/
def execSha384 (n : Nat) (s : State) : Host.Outcome State Fault Refusal := s.cryOp n 0x11
/-- SHA_512 on engine `n` (R263). -/
def execSha512 (n : Nat) (s : State) : Host.Outcome State Fault Refusal := s.cryOp n 0x12
/-- SHA3_256 on engine `n` (R263). -/
def execSha3256 (n : Nat) (s : State) : Host.Outcome State Fault Refusal := s.cryOp n 0x18
/-- SHA3_384 on engine `n` (R263). -/
def execSha3384 (n : Nat) (s : State) : Host.Outcome State Fault Refusal := s.cryOp n 0x19
/-- SHA3_512 on engine `n` (R263). -/
def execSha3512 (n : Nat) (s : State) : Host.Outcome State Fault Refusal := s.cryOp n 0x1A
/-- P256_SIGN on engine `n`, with the nonce of its DRBG free (R263). -/
def execP256Sign (n : Nat) (s : State) : Host.Outcome State Fault Refusal := s.cryOp n 0x20
/-- P256_VERIFY on engine `n` (R263, R264). -/
def execP256Verify (n : Nat) (s : State) : Host.Outcome State Fault Refusal := s.cryOp n 0x21
/-- P384_SIGN on engine `n`, with the nonce of its DRBG free (R263). -/
def execP384Sign (n : Nat) (s : State) : Host.Outcome State Fault Refusal := s.cryOp n 0x22
/-- P384_VERIFY on engine `n` (R263, R264). -/
def execP384Verify (n : Nat) (s : State) : Host.Outcome State Fault Refusal := s.cryOp n 0x23
/-- KEYLOAD on engine `n` (R266); the slot takes the key when the job is done. -/
def execKeyload (n : Nat) (s : State) : Host.Outcome State Fault Refusal := s.cryOp n 0x30

/-- An abort at a switch boundary (R265, R270): how many whole 64-byte blocks of the output have been written is open; a decryption zeroes them. -/
def State.cryAbort (s : State) (n : Nat) (j : CryJob) : State :=
  if j.op = 0x01 || j.op = 0x02 then
    let k := min (64 * (s.freeVal % (j.len / 64 + 2))) j.len
    (s.drawn.dmaWrite (cryAccess n j.tag) j.dst (if j.op = 0x02 then List.replicate k 0 else j.out.take k)).2
  else s

/-- An abort of a job is accepted (R112). -/
def State.cryAborting (s : State) (j : CryJob) : Bool := (s.jobOf j.uid).any (fun d => d.abort)

/-- CRYPTO_PREEMPT: the running job of engine `n` reaches a switch boundary: it ends there if an abort of it is accepted (R270); while a job of higher rank competes, its state is saved in `save` engine-ns, which the incoming job pays (R267, R268). -/
def execCryptoPreempt (n save : Nat) (s : State) : Host.Outcome State Fault Refusal :=
  if n ≥ 4 || save > 200 then .refused .illFormed else
  match (s.cryEngine n).running with
  | none => go s
  | some j => s.attempt (partyJob j.uid) (some j.uid) (fun s =>
    if s.cryAborting j then go ((s.cryAbort n j).cryEnd n j .aborted)
    else match s.cryNext n with
      | some k =>
        if s.cryRank n k.tag < s.cryRank n j.tag then
          let x := s.cryEngine n
          let s := s.setCryEngine n { x with running := none, saved := x.saved ++ [j] }
          go (((s.cryState n j 2 (some .preempted)).incWrap Reg.CRY_CNT_PREEMPT [n] 1).chargeJob k.uid (25 + n) save)
        else go s
      | none => go s)

/-- CRYPTO_RESUME: a pre-empted job of engine `n` goes on, when no job of higher rank competes; its state is restored in `restore` engine-ns (R268). -/
def execCryptoResume (n restore : Nat) (s : State) : Host.Outcome State Fault Refusal :=
  if n ≥ 4 || restore > 200 then .refused .illFormed else
  match (s.cryEngine n).running, s.cryNext n with
  | none, some j =>
    if (s.cryEngine n).saved.any (fun k => k.uid = j.uid) then s.attempt (partyJob j.uid) (some j.uid) (fun s =>
      let x := s.cryEngine n
      let s := s.setCryEngine n { x with running := some j, saved := x.saved.filter (fun k => k.uid ≠ j.uid) }
      go ((s.cryState n j 1 none).chargeJob j.uid (25 + n) restore))
    else go s
  | _, _ => go s

/-- What a finished job leaves behind: the key of a KEYLOAD, or the output, the tag and RESULT (R263, R265, R266). -/
def State.cryFinish (s : State) (n : Nat) (j : CryJob) : Status × State :=
  if j.op = 0x30 then
    (.ok, ({ s with cry := { s.cry with keys := tput s.cry.keys (32 * n + j.slot) (ofLeBytes j.out) } }).wr
      Reg.CRY_KEY_KIND [n, j.slot] j.kind)
  else
    let a := cryAccess n j.tag
    let (st, s) := s.dmaWrite a j.dst j.out
    if st ≠ .ok then (st, s) else
    let (st, s) := if j.op = 0x01 then s.dmaWrite a j.tagAddr j.tagOut else (.ok, s)
    if st ≠ .ok then (st, s) else s.dmaWrite a (j.desc + 52) [if j.bad then 1 else 0]

/-- The running job of engine `n` ends at its completion point: what it still owes is charged, its output written, and its record follows (R264, R265). -/
def State.cryDone (s : State) (n : Nat) (j : CryJob) : State :=
  let s := s.payJob j.uid (25 + n) j.owed
  match j.failed with
  | some st => s.cryEnd n j st
  | none => let (st, t) := s.cryFinish n j; t.cryEnd n j st

/-- CRYPTO_JOB_DONE: the running job of engine `n` is done, or reaches its abort boundary; its record is written (R264, R265, R270). With no job running, a next job whose descriptor spells no operation ends with ST_DENIED. -/
def execCryptoJobDone (n : Nat) (s : State) : Host.Outcome State Fault Refusal :=
  if n ≥ 4 then .refused .illFormed else
  match (s.cryEngine n).running with
  | none => s.cryOp n 0x100
  | some j => s.attempt (partyJob j.uid) (some j.uid) (fun s =>
    if s.cryAborting j then go ((s.cryAbort n j).cryEnd n j .aborted) else go (s.cryDone n j))

end Sys2Proof.Machine
end

