-- ==== Sys2Proof/Machine/Gfx.lean ====
section
/-! DEFINITION. Graphics (11): packet streams, render passes, binning and its overflow, compute jobs, and the slices of the shader clusters. What shader threads compute stands in Shader.lean; the outputs of vertex shading and the coverage that rasterisation gives come with the DRAW command (DESIGN CHOICE, log entry 16). -/

namespace Sys2Proof.Machine

/-! ### Jobs -/

/-- A graphics stream and a compute job by number. -/
def State.gfxJob (s : State) (u : Nat) : Option GfxJob := s.gfx.jobs.find? (fun j => j.uid = u)
def State.compJob (s : State) (u : Nat) : Option CompJob := s.gfx.comps.find? (fun j => j.uid = u)

/-- The state with the graphics state replaced. -/
def State.setGfx (s : State) (g : Gfx) : State := { s with gfx := g }

/-- The state with a stream, or a compute job, replaced. -/
def State.setGfxJob (s : State) (j : GfxJob) : State :=
  s.setGfx { s.gfx with jobs := s.gfx.jobs.map (fun x => if x.uid = j.uid then j else x) }
def State.setCompJob (s : State) (j : CompJob) : State :=
  s.setGfx { s.gfx with comps := s.gfx.comps.map (fun x => if x.uid = j.uid then j else x) }

/-- An access of the graphics block for an instance and a process identifier (R130). -/
def gfxAccess (tag pid : Nat) : Access := { tag := tag, pid := pid, src := .gfx, kind := .read }

/-- The fields of a compute descriptor (Table gfx.7). -/
def compPid (v : Nat) : Nat := bitsOf v 192 20
def compThreads (v : Nat) : Nat := if bitsOf v 176 6 = 0 then 64 else bitsOf v 176 6
def compGroups (v : Nat) : Nat := bitsOf v 128 16 * bitsOf v 144 16 * bitsOf v 160 16

/-- A compute descriptor keeps Table gfx.7 (R358). -/
def compOk (v : Nat) : Bool :=
  v % 4 = 0 && bitsOf v 48 16 = 0 && bitsOf v 112 16 = 0 && bitsOf v 182 10 = 0 && bitsOf v 212 12 = 0 && bitsOf v 272 16 = 0
    && bitsOf v 444 4 = 0 && compGroups v ≠ 0 && bitsOf v 224 3 = 0
    && (bitsOf v 224 48 = 0 || (1 ≤ bitsOf v 352 32 && bitsOf v 352 32 ≤ 100000))

/-! ### Clusters (R361, Table gfx.10) -/

/-- The resident grant of a cluster. -/
def State.clResident (s : State) (c : Nat) : Option Nat :=
  if s.flag Reg.GFX_CL_RES_VALID [c] then some (s.rd Reg.GFX_CL_RES_G [c]) else none

/-- A valid grant of a cluster for an instance and a process identifier. -/
def State.clGrant (s : State) (c inst pid : Nat) : Option Nat :=
  [0, 1, 2, 3].find? (fun g => s.flag Reg.GFX_SLICE_VALID [c, g] && s.rd Reg.GFX_SLICE_INST [c, g] = inst
    && s.rd Reg.GFX_SLICE_PID [c, g] = pid)

/-- A stream, or a compute job, has work that cluster `c` does for grant `g`; a stream that waits and one with a pending grow fault has none (R348, R352). -/
def State.streamOn (s : State) (c g : Nat) (j : GfxJob) : Bool :=
  bitAt j.mask c && j.inst = s.rd Reg.GFX_SLICE_INST [c, g] && j.pid = s.rd Reg.GFX_SLICE_PID [c, g]
    && !j.waits && !j.ended && !s.flag Reg.GFX_GCTX_PEND [j.gctx]
def State.compOn (s : State) (c g : Nat) (j : CompJob) : Bool :=
  bitAt j.mask c && j.inst = s.rd Reg.GFX_SLICE_INST [c, g] && compPid j.desc = s.rd Reg.GFX_SLICE_PID [c, g] && j.started

/-- R363 keeps compute of an instance from cluster `c`: the cluster is held for a context of another instance, and the class is C2 or C3. -/
def State.heldFor (s : State) (c inst : Nat) : Bool :=
  2 ≤ s.classOf inst && s.gfx.holds.any (fun h => h.1 = c && s.rd Reg.GFX_GCTX_INST [h.2] ≠ inst)

/-- A grantee has work that may run on cluster `c` now. -/
def State.clRunnable (s : State) (c g : Nat) : Bool :=
  s.flag Reg.GFX_SLICE_VALID [c, g] && (s.gfx.jobs.any (s.streamOn c g)
    || (s.gfx.comps.any (s.compOn c g) && !s.heldFor c (s.rd Reg.GFX_SLICE_INST [c, g])))

/-- CL[c].STATE: what the resident runs, or a hold under R363. -/
def State.syncCluster (s : State) (c : Nat) : State :=
  let st := match s.clResident c with
    | some g =>
      if s.gfx.jobs.any (s.streamOn c g) then 1
      else if s.clRunnable c g then 2 else 0
    | none => 0
  s.wr Reg.GFX_CL_STATE [c] (if st ≠ 1 && s.gfx.holds.any (fun h => h.1 = c) then 4 else st)

/-- CL.STATE of every cluster follows the work. -/
def State.syncClusters (s : State) : State := (List.range 8).foldl State.syncCluster s

/-- The next state of a graphics command. -/
abbrev goG (s : State) : Host.Outcome State Fault Refusal := go s.syncClusters

/-- A command of stream or compute job `u`, as an attempt of its engine (log entry 40). -/
def State.jobRun (s : State) (u : Nat) (f : State → State) : Host.Outcome State Fault Refusal :=
  s.attempt (partyJob u) (some u) (fun s => goG (f s))

/-- Some cluster of a mask has the grantee resident, so that its work runs. -/
def State.runsOn (s : State) (mask inst pid : Nat) : Bool :=
  (List.range 8).any (fun c => bitAt mask c && (match s.clResident c with
    | some g => s.rd Reg.GFX_SLICE_INST [c, g] = inst && s.rd Reg.GFX_SLICE_PID [c, g] = pid && s.clRunnable c g
    | none => false))

/-! ### The end of a job -/

/-- A stream ends with a status (R347, R351, R366): PEND clears, the bin pages are released, and the hold of R363 ends. -/
def State.gfxEnd (s : State) (u : Nat) (st : Status) : State :=
  match s.gfxJob u with
  | none => s
  | some j =>
    let s := s.setGfx { s.gfx with
      jobs := s.gfx.jobs.filter (fun x => x.uid ≠ u)
      threads := s.gfx.threads.filter (fun t => t.id.uid ≠ u)
      holds := s.gfx.holds.filter (fun h => h.2 ≠ j.gctx) }
    (((s.wr Reg.GFX_GCTX_PEND [j.gctx] 0).wr Reg.GFX_GCTX_PAGES [j.gctx] 0).endJob u st).syncClusters

/-- A compute job ends with a status. -/
def State.compEnd (s : State) (u : Nat) (st : Status) : State :=
  ((s.setGfx { s.gfx with comps := s.gfx.comps.filter (fun x => x.uid ≠ u)
                          threads := s.gfx.threads.filter (fun t => t.id.uid ≠ u) }).endJob u st).syncClusters

/-- A dispatched stream and a dispatched compute job (R346, R358). -/
def State.gfxAccept (s : State) (j : GfxJob) : State := (s.setGfx { s.gfx with jobs := s.gfx.jobs ++ [j] }).syncClusters
def State.compAccept (s : State) (j : CompJob) : State :=
  let s := s.setGfx { s.gfx with comps := s.gfx.comps ++ [j] }
  if compOk j.desc then s else s.compEnd j.uid .denied

/-! ### Packets (R346, R347, Table gfx.3) -/

/-- LEN of each packet type, in words. -/
def packetLen (ty : Nat) : Nat := [1, 6, 1, 2, 2, 4, 4, 3, 2].getD ty 0

/-- A packet's words that R347 admits: LEN, the reserved fields, and the ranges of Table gfx.3. -/
def packetOk (h : Nat) (w : List Nat) : Bool :=
  let ty := h % 256
  ty ≤ 8 && bitsOf h 8 8 = 0 && bitsOf h 16 16 = packetLen ty && (if ty = 7 then bitsOf h 44 20 = 0 else bitsOf h 32 32 = 0)
    && (match ty, w with
      | 1, [a, b, _, d, e] => bitsOf a 34 2 = 0 && bitsOf a 41 23 = 0 && bitsOf b 20 44 = 0 && d % 8 = 0 && bitsOf e 16 48 = 0
      | 3, [a] => a % 64 = 0
      | 4, [a] => a % 64 = 0
      | 5, [_, b, _] => bitsOf b 34 30 = 0 && bitsOf b 32 2 ≠ 3
      | 6, [_, _, c] => bitsOf c 32 32 = 0 && 1 ≤ c && c ≤ 100000
      | 8, [a] => a % 8 = 0
      | _, _ => true)

/-- A packet type may stand where the stream is: inside a pass or outside it (R347). -/
def packetPlace (ty : Nat) (inPass : Bool) : Bool :=
  if ty = 3 || ty = 4 || ty = 5 then inPass
  else if ty = 1 || ty = 6 || ty = 7 then !inPass
  else true

/-- The words of the packet at an address, header first, with the status of the reads; a header of an undefined type comes alone. -/
def State.packetWords (s : State) (inst addr : Nat) : Status × List Nat × State :=
  let a := gfxAccess inst 0
  match s.dmaNum a addr 8 with
  | (st, h, s) =>
    if st ≠ .ok then (st, [], s)
    else
      let n := packetLen (h % 256)
      match s.dmaRead a (addr + 8) (8 * (n - 1)) with
      | (st, b, s) => (st, h :: (groupsOf 8 n b).map ofLeBytes, s)

/-- The front end reads the next packet of stream `u`; where it spells type `ty`, `k` is its effect. A packet that cannot be read or that R347 rejects ends the stream, whatever the command. -/
def State.packet (s : State) (u ty : Nat) (k : GfxJob → Nat → List Nat → State → State) : State :=
  match s.gfxJob u with
  | none => s
  | some j =>
    if j.ended || !s.boot.mainUp || s.flag Reg.GFX_GCTX_PEND [j.gctx] then s else
    match s.packetWords j.inst j.pc with
    | (st, w, s) =>
      if st ≠ .ok then s.gfxEnd u st
      else
        let h := w.headD 0
        if !packetOk h w.tail || !packetPlace (h % 256) j.pass.isSome then s.gfxEnd u .denied
        else if h % 256 ≠ ty then s
        else k j h w.tail s

/-- The stream goes on behind its packet. -/
def GfxJob.past (j : GfxJob) (ty : Nat) : GfxJob := { j with pc := j.pc + 8 * packetLen ty, waits := false }

/-- PACKET_END: the stream of job `u` has ended; a pass that is open is dropped. -/
def execPacketEnd (u : Nat) (s : State) : Host.Outcome State Fault Refusal :=
  s.jobRun u (fun s => s.packet u 0 (fun j _ _ s => s.setGfxJob { j.past 0 with ended := true, pass := none }))

/-- JUMP: the next packet is at the address given. -/
def execJump (u : Nat) (s : State) : Host.Outcome State Fault Refusal :=
  s.jobRun u (fun s => s.packet u 8 (fun j _ w s => s.setGfxJob { j with pc := w.headD 0 }))

/-- PIPE: the pass is bound to a pipeline state block. -/
def execPipe (u : Nat) (s : State) : Host.Outcome State Fault Refusal :=
  s.jobRun u (fun s => s.packet u 3 (fun j _ w s => s.setGfxJob { j.past 3 with pass := j.pass.map (fun p => { p with pipe := w.headD 0 }) }))

/-- BIND: the pass is bound to a descriptor table. -/
def execBind (u : Nat) (s : State) : Host.Outcome State Fault Refusal :=
  s.jobRun u (fun s => s.packet u 4 (fun j _ w s => s.setGfxJob { j.past 4 with pass := j.pass.map (fun p => { p with bind := w.headD 0 }) }))

/-! ### WAIT and SIGNAL (R348) -/

/-- PACKET_WAIT: the stream reaches a WAIT, or 1 µs has passed in one, and it reads its event word; it goes on where the low 32 bits under the mask equal the value. -/
def execPacketWait (u : Nat) (s : State) : Host.Outcome State Fault Refusal :=
  s.jobRun u (fun s => s.packet u 6 (fun j _ w s =>
    match s.dmaNum (gfxAccess j.inst j.pid) (w.getD 0 0) 8 with
    | (st, v, s) =>
      if st ≠ .ok then s.gfxEnd u st
      else if v % 2 ^ 32 &&& bitsOf (w.getD 1 0) 32 32 = w.getD 1 0 % 2 ^ 32 then s.setGfxJob (j.past 6)
      else s.setGfxJob { j with waits := true }))

/-- PACKET_WAIT_TIMEOUT: the timeout of a WAIT has passed, and the stream ends with ST_TIMEOUT. -/
def execPacketWaitTimeout (u : Nat) (s : State) : Host.Outcome State Fault Refusal :=
  s.jobRun u (fun s => match s.gfxJob u with
  | some j => if j.waits then s.gfxEnd u .timeout else s
  | none => s)

/-- PACKET_SIGNAL: the event is written, every earlier pass having stored its tiles, and the message of the header goes out behind it. -/
def execPacketSignal (u : Nat) (s : State) : Host.Outcome State Fault Refusal :=
  s.jobRun u (fun s => s.packet u 7 (fun j h w s =>
    let a := { gfxAccess j.inst j.pid with firm := true }
    s.afterWrites a (fun s => match s.dmaWrite a (w.getD 0 0) (leBytes 8 (w.getD 1 0)) with
    | (st, s) =>
      if st ≠ .ok then s.gfxEnd u st
      else (if bitAt h 43 then s.send j.inst (bitsOf h 32 11) else s).setGfxJob (j.past 7))))

/-! ### Passes (R349, Table gfx.4) -/

/-- Bytes of a pixel or sample of an attachment format; 0 for no attachment format. -/
def fmtBytes (f : Nat) : Nat :=
  if f = 0x10 || f = 0x11 then 4 else [0, 1, 2, 4, 4, 4, 2, 8, 4, 8, 16].getD f 0

/-- The attachment that a 32-byte entry spells. -/
def attOf (v : Nat) : Att :=
  { addr := bitsOf v 0 64, spill := bitsOf v 64 64, fmt := bitsOf v 128 8, load := bitsOf v 136 8, store := bitsOf v 144 8,
    pitch := bitsOf v 160 32, clear := bitsOf v 192 64 }

/-- The bins of a pass. -/
def Pass.binCount (p : Pass) : Nat := ceilDiv p.width 32 * ceilDiv p.height 32

/-- The entries of PASS_BEGIN that R349 admits: formats and operations, the bytes of a tile, the pages, and the spill addresses in flush mode. -/
def Pass.ok (p : Pass) (flush : Bool) (pages : Nat) : Bool :=
  1 ≤ p.width && p.width ≤ 8192 && 1 ≤ p.height && p.height ≤ 8192
    && p.atts.all (fun a => fmtBytes a.fmt ≠ 0 && a.load ≤ 2 && a.store ≤ 2)
    && p.samples * sumSnd (p.atts.map (fun a => (0, fmtBytes a.fmt))) ≤ 256
    && ceilDiv (p.binCount * 256) 65536 + 1 ≤ pages
    && (!flush || p.atts.all (fun a => a.spill ≠ 0 || (p.samples = 1 && a.store ≠ 2)))

/-- A list of bin pages; none where an entry is not 64 KB-aligned. -/
def pageList (b : List Byte) (n : Nat) : Option (List Nat) :=
  let l := (groupsOf 8 (n + 1) b).map ofLeBytes
  if l.all (fun a => a % 0x10000 = 0) then some l else none

/-- PASS_BEGIN checks its fields, its attachment table and its bin page list, and opens the pass (R349). -/
def State.passBegin (s : State) (u : Nat) (j : GfxJob) (w : List Nat) : State :=
  let w1 := w.getD 0 0
  let ncol := bitsOf w1 36 4
  let n := ncol + bitsOf w1 40 1
  let pid := w.getD 1 0 % 2 ^ 20
  let pages := w.getD 4 0
  if ncol > 8 then s.gfxEnd u .denied else
  match s.dmaRead (gfxAccess j.inst pid) (w.getD 2 0) (32 * n) with
  | (st, b, s) =>
    if st ≠ .ok then s.gfxEnd u st else
    let p : Pass := { width := w1 % 2 ^ 16, height := bitsOf w1 16 16, samples := 2 ^ bitsOf w1 32 2, pid := pid,
                      atts := (groupsOf 32 (n + 1) b).map (fun e => attOf (ofLeBytes e)), depth := bitAt w1 40, pages := [] }
    if !p.ok (!s.flag Reg.GFX_GCTX_MODE [j.gctx]) pages then s.gfxEnd u .denied else
    match s.dmaRead (gfxAccess j.inst pid) (w.getD 3 0) (8 * pages) with
    | (st, b, s) =>
      if st ≠ .ok then s.gfxEnd u st
      else match pageList b pages with
        | none => s.gfxEnd u .denied
        | some l => s.setGfxJob { j.past 1 with pid := pid, pass := some { p with pages := l } }

/-- PASS_BEGIN, once the tile stores of earlier passes are globally visible (R351). -/
def execPassBegin (u : Nat) (s : State) : Host.Outcome State Fault Refusal :=
  s.jobRun u (fun s => s.packet u 1 (fun j _ w s => s.afterWrites (gfxAccess j.inst j.pid) (fun s => s.passBegin u j w)))

/-! ### Tile memory and tile stores (R343, R350, R353) -/

/-- The key of a sample in tile memory. -/
def pxKey (att k x y : Nat) : Nat := 2 ^ 35 * (8 * att + k) + 2 ^ 16 * y + x

/-- The address of a sample in an attachment that keeps `n` samples. -/
def Att.at_ (a : Att) (base n x y k : Nat) : Nat :=
  if n = 1 then base + a.pitch * y + fmtBytes a.fmt * x
  else base + Config.sampleOffset n a.pitch (fmtBytes a.fmt) x y k % 2 ^ 48

/-- The address at which a flush keeps the samples of an attachment (R353). -/
def Att.flushBase (a : Att) : Nat := if a.store = 1 || a.spill = 0 then a.addr else a.spill

/-- The bin of a pixel. -/
def Pass.binOf (p : Pass) (x y : Nat) : Nat := y / 32 * ceilDiv p.width 32 + x / 32

/-- The raw bits of a sample: what was written in this pass since the last flush of its bin, what that flush stored (R353), else the load operation: clear, load, or undefined (Table gfx.4). -/
def State.pixel (s : State) (j : GfxJob) (p : Pass) (i : Nat) (a : Att) (x y k : Nat) : Status × Nat × State :=
  match p.px.find? (fun e => e.1 = pxKey i k x y) with
  | some e => (.ok, e.2, s)
  | none =>
    if p.flushed.contains (p.binOf x y) then s.dmaNum (gfxAccess j.inst p.pid) (a.at_ a.flushBase p.samples x y k) (fmtBytes a.fmt)
    else if a.load = 0 then (.ok, a.clear % 2 ^ (8 * fmtBytes a.fmt), s)
    else if a.load = 1 then s.dmaNum (gfxAccess j.inst p.pid) (a.at_ a.addr p.samples x y k) (fmtBytes a.fmt)
    else (.ok, s.freeVal % 2 ^ (8 * fmtBytes a.fmt), s.drawn)

/-- The samples of a pixel. -/
def State.pixelAll (s : State) (j : GfxJob) (p : Pass) (i : Nat) (a : Att) (x y : Nat) : Status × List Nat × State :=
  (List.range p.samples).foldl (fun (acc : Status × List Nat × State) k =>
    if acc.1 ≠ .ok then acc
    else match acc.2.2.pixel j p i a x y k with
      | (st, v, t) => (st, acc.2.1 ++ [v], t)) (.ok, [], s)

/-- One pixel of an attachment is stored: resolved to its address, or with all samples to a base address. -/
def State.storePixel (s : State) (j : GfxJob) (p : Pass) (i : Nat) (a : Att) (flush : Bool) (x y : Nat) : Status × State :=
  if !flush && a.store = 2 then (.ok, s) else
  match s.pixelAll j p i a x y with
  | (st, l, s) =>
    let n := fmtBytes a.fmt
    let acc := gfxAccess j.inst p.pid
    if st ≠ .ok then (st, s)
    else if !flush && a.store = 0 then
      s.dmaWrite acc (a.at_ a.addr 1 x y 0) (leBytes n (match l with | [v] => v | _ => Config.resolve a.fmt l))
    else
      ((List.range p.samples).zip l).foldl (fun (acc' : Status × State) e =>
        if acc'.1 ≠ .ok then acc' else acc'.2.dmaWrite acc (a.at_ a.flushBase p.samples x y e.1) (leBytes n e.2)) (.ok, s)

/-- The pixels of a bin, inside the render size. -/
def Pass.binPixels (p : Pass) (b : Nat) : List (Nat × Nat) :=
  let cols := ceilDiv p.width 32
  ((List.range 1024).map (fun k => (b % cols * 32 + k % 32, b / cols * 32 + k / 32))).filter (fun e => e.1 < p.width && e.2 < p.height)

/-- The tiles of bins are stored; the first failing access decides the status. -/
def State.storeBins (s : State) (j : GfxJob) (p : Pass) (flush : Bool) (bins : List Nat) : Status × State :=
  bins.foldl (fun (acc : Status × State) b =>
    (p.binPixels b).foldl (fun (acc : Status × State) e =>
      ((List.range p.atts.length).zip p.atts).foldl (fun (acc : Status × State) a =>
        if acc.1 ≠ .ok then acc else acc.2.storePixel j p a.1 a.2 flush e.1 e.2) acc) acc) (.ok, s)

/-! ### Binning (R350, R352, R353) -/

/-- The references of a bin. -/
def Pass.refs (p : Pass) (b : Nat) : Nat := tget 0 p.bins b

/-- A 16-byte reference is appended to a bin, in its present chunk or in a new one; none where the pool has no chunk left. Which chunk a bin takes is the device's: they are taken in order. -/
def Pass.addRef (p : Pass) (b : Nat) : Option Pass :=
  let p' := { p with bins := tput p.bins b (p.refs b + 1) }
  if p.refs b % 16 ≠ 0 then
    let c := tget 0 p.cur b
    some { p' with fresh := if p.fresh.contains c then p.fresh else p.fresh ++ [c] }
  else if p.chunks < 256 * p.pages.length then
    some { p' with chunks := p.chunks + 1, cur := tput p.cur b p.chunks, fresh := p.fresh ++ [p.chunks] }
  else none

/-- The address of a chunk of 256 bytes in the bin pages. -/
def Pass.chunkAddr (p : Pass) (c : Nat) : Nat := p.pages.getD (c / 256) 0 + c % 256 * 256

/-- The chunks to which references have been appended are written to the bin pages, whole (DESIGN CHOICE, log entry 16); the bytes of a reference are the device's, and free. -/
def State.writeRefs (s : State) (j : GfxJob) (p : Pass) : Status × State :=
  p.fresh.foldl (fun (acc : Status × State) c =>
    if acc.1 ≠ .ok then acc
    else acc.2.drawn.dmaWrite (gfxAccess j.inst p.pid) (p.chunkAddr c) (leBytes 256 acc.2.freeVal)) (.ok, s)

/-- The references of the chunks in use are read back, to be resolved. -/
def State.readRefs (s : State) (j : GfxJob) (p : Pass) : Status × State :=
  (List.range p.chunks).foldl (fun (acc : Status × State) c =>
    if acc.1 ≠ .ok then acc
    else match acc.2.dmaRead (gfxAccess j.inst p.pid) (p.chunkAddr c) 256 with
      | (st, _, t) => (st, t)) (.ok, s)

/-- The bins of a primitive in turn: the pass, and the bins left where the pool ran out. -/
def Pass.addRefs (p : Pass) : List Nat → Pass × List Nat
  | [] => (p, [])
  | b :: bs => match p.addRef b with
    | some q => q.addRefs bs
    | none => (p, b :: bs)

/-- The samples of a fragment block as (pixel, sample), those of the coverage only. -/
def fragSamples (f : Frag) (n : Nat) : List (Nat × Nat) :=
  ((List.range 16).flatMap (fun e => (List.range n).map (fun k => (e, k)))).filter (fun z => bitAt f.cov (8 * z.1 + z.2))

/-- The position of element `e` of a 4 × 4 block: quads in the order of their pixels (Table gfx.1). -/
def elemX (bx e : Nat) : Nat := 4 * bx + 2 * (e / 4 % 2) + e % 2
def elemY (by_ e : Nat) : Nat := 4 * by_ + 2 * (e / 8) + e / 2 % 2

/-- The depth and stencil of one covered sample, from the former ones of its attachment, which is the last (R350). -/
def State.depthSample (s : State) (j : GfxJob) (p : Pass) (pipe : Nat) (q : Prim) (f : Frag) (z : Nat × Nat) : Status × Pass × State :=
  let x := elemX f.x z.1
  let y := elemY f.y z.1
  let i := p.atts.length - 1
  match p.atts.getLast? with
  | none => (.ok, p, s)
  | some a => match s.pixel j p i a x y z.2 with
    | (st, v, s) => (st, if st = .ok then { p with px := tput p.px (pxKey i z.2 x y) (Config.fragDepth pipe q.verts v x y z.2 % 2 ^ 32) } else p, s)

/-- The depth and stencil of a primitive's covered samples, where the pipeline writes them. -/
def State.depthWrites (s : State) (j : GfxJob) (p : Pass) (pipe : Nat) (q : Prim) : Status × Pass × State :=
  if !p.depth || !(bitAt pipe (8 * 0x1B + 3) || bitAt pipe (8 * 0x1B + 4)) then (.ok, p, s)
  else (q.frags.flatMap (fun f => (fragSamples f p.samples).map (fun z => (f, z)))).foldl (fun (acc : Status × Pass × State) e =>
    if acc.1 ≠ .ok then acc else acc.2.2.depthSample j acc.2.1 pipe q e.1 e.2) (.ok, p, s)

/-- Primitives are binned in order until the pool runs out: the pass with those left, and the status of the accesses to depth. A primitive whose last bins are left stays in front with them. -/
def State.binPrims (s : State) (j : GfxJob) (p : Pass) (pipe : Nat) : List Prim → Status × Pass × State
  | [] => (.ok, { p with left := [] }, s)
  | q :: qs => match p.addRefs q.bins with
    | (p, []) => match s.depthWrites j p pipe q with
      | (st, p, s) => if st ≠ .ok then (st, p, s) else s.binPrims j { p with prims := p.prims ++ [q] } pipe qs
    | (p, bs) => (.ok, { p with left := { q with bins := bs } :: qs }, s)

/-- The references to the primitives of bins are read, and the bins' tiles stored. -/
def State.resolveBins (s : State) (j : GfxJob) (p : Pass) (flush : Bool) (bins : List Nat) : Status × State :=
  match s.readRefs j p with
  | (st, s) => if st ≠ .ok then (st, s) else s.storeBins j p flush bins

/-- PASS_END: every tile of the pass is resolved and stored (R350), for `cyc` cluster-cycles; the pass is over, its pages are released, and the hold of R363 ends. -/
def State.passEnd (s : State) (u cyc : Nat) (j : GfxJob) : State :=
  match j.pass with
  | none => s.setGfxJob (j.past 2)
  | some p =>
    if !s.runsOn j.mask j.inst j.pid then s else
    match (s.payJob u 23 cyc).resolveBins j p false (List.range p.binCount) with
    | (st, s) =>
      if st ≠ .ok then s.gfxEnd u st
      else
        let s := s.setGfx { s.gfx with threads := s.gfx.threads.filter (fun t => t.id.uid ≠ u)
                                       holds := s.gfx.holds.filter (fun h => h.2 ≠ j.gctx) }
        (s.setGfxJob { j.past 2 with pass := none }).wr Reg.GFX_GCTX_PAGES [j.gctx] 0

/-- PASS_END. -/
def execPassEnd (u cyc : Nat) (s : State) : Host.Outcome State Fault Refusal :=
  s.jobRun u (fun s => s.packet u 2 (fun j _ _ s => s.passEnd u cyc j))

/-- The pass of a stream after binning: the stream goes on where nothing is left; a shortage stops binning with a grow fault in grow mode (R352), and starts a flush in flush mode (R353). -/
def State.binned (s : State) (j : GfxJob) (p : Pass) : State :=
  let (st, s) := s.writeRefs j p
  if st ≠ .ok then s.gfxEnd j.uid st else
  let p := { p with fresh := [] }
  let s := s.wr Reg.GFX_GCTX_PAGES [j.gctx] (ceilDiv p.chunks 256)
  if p.left.isEmpty then s.setGfxJob { j.past 5 with pass := some { p with flush := false } }
  else if s.flag Reg.GFX_GCTX_MODE [j.gctx] then
    ((s.setGfxJob { j with pass := some p }).wr Reg.GFX_GCTX_PEND [j.gctx] 1).send j.inst (s.rd Reg.GFX_GCTX_BIN_VEC [j.gctx])
  else s.setGfxJob { j with pass := some { p with flush := true } }

/-- Primitives are binned, and the stream goes on; a failed access to depth ends it. -/
def State.binAll (s : State) (j : GfxJob) (p : Pass) (pipe : Nat) (prims : List Prim) : State :=
  match s.binPrims j p pipe prims with
  | (st, p, s) => if st ≠ .ok then s.gfxEnd j.uid st else s.binned j p

/-- The pass behind a flush of bins: their samples are in memory, and every chunk is free. -/
def Pass.flushedTo (p : Pass) (bins : List Nat) : Pass :=
  { p with bins := [], chunks := 0, cur := [], flush := false, flushed := (p.flushed ++ bins).eraseDups
           px := p.px.filter (fun e => !bins.contains (p.binOf (e.1 % 2 ^ 16) (e.1 / 2 ^ 16 % 2 ^ 19))) }

/-- A flush (R353): every bin with references is resolved and stored with all samples, the chunks are freed, FLUSHES counts, and binning resumes. -/
def State.flushPass (s : State) (u : Nat) (j : GfxJob) (p : Pass) (pipe : Nat) : State :=
  let bins := (List.range p.binCount).filter (fun b => p.refs b ≠ 0)
  match s.resolveBins j p true bins with
  | (st, s) =>
    if st ≠ .ok then s.gfxEnd u st
    else (s.incWrap Reg.GFX_GCTX_FLUSHES [j.gctx] 1).binAll j (p.flushedTo bins) pipe p.left

/-- The bytes of the indices that a DRAW fetches (Table gfx.3). -/
def indexBytes (w : List Nat) : Nat := w.headD 0 % 2 ^ 32 * [0, 2, 4].getD (bitsOf (w.getD 1 0) 32 2) 0

/-- DRAW: indices are fetched, vertices are shaded and primitives binned, for `cyc` cluster-cycles (R350). The primitives that vertex shading and rasterisation give are `prims`. Where a flush resolves the bins first, the command comes again when the fragment threads have run. -/
def State.draw (s : State) (u cyc : Nat) (prims : List Prim) (j : GfxJob) (w : List Nat) : State :=
  match j.pass with
  | none => s
  | some p =>
    if !s.runsOn j.mask j.inst j.pid then s else
    match (s.payJob u 23 cyc).dmaNum (gfxAccess j.inst p.pid) p.pipe 64 with
    | (st, pipe, s) =>
      if st ≠ .ok then s.gfxEnd u st
      else if p.flush then s.flushPass u j p pipe
      else if w.headD 0 % 2 ^ 32 = 0 || bitsOf (w.headD 0) 32 32 = 0 then s.setGfxJob (j.past 5)
      else match s.dmaRead (gfxAccess j.inst p.pid) (w.getD 2 0) (indexBytes w) with
        | (st, _, s) => if st ≠ .ok then s.gfxEnd u st else s.binAll j p pipe prims

/-- DRAW. A primitive with a bin outside the pass is no primitive of it. -/
def execDraw (u cyc : Nat) (prims : List Prim) (s : State) : Host.Outcome State Fault Refusal :=
  if prims.any (fun q => q.bins.any (fun b => match s.gfxJob u with
      | some j => (match j.pass with | some p => b ≥ p.binCount | none => false)
      | none => false)) then .refused .illFormed
  else s.jobRun u (fun s => s.packet u 5 (fun j _ w s => s.draw u cyc prims j w))

/-- A commit of GROW_COUNT (R352): the pages of the further list join the pool, PEND clears, and binning resumes. Without an open pass it has no effect. -/
def State.binGrow (s : State) (n : Nat) : State :=
  let count := s.rd Reg.GFX_GCTX_GROW_COUNT [n]
  let addr := s.rdPair Reg.GFX_GCTX_GROW_ADDR_LO Reg.GFX_GCTX_GROW_ADDR_HI [n]
  let s := s.wr Reg.GFX_GCTX_GROW_COUNT [n] 0
  match s.gfx.jobs.find? (fun j => j.gctx = n) with
  | none => s
  | some j =>
    match j.pass with
    | none => s
    | some p =>
      match s.dmaRead (gfxAccess j.inst p.pid) addr (8 * count) with
      | (st, b, s) =>
        if st ≠ .ok then s.gfxEnd j.uid st else
        match pageList b count with
        | none => s.gfxEnd j.uid .denied
        | some l =>
          let p := { p with pages := p.pages ++ l }
          if !s.flag Reg.GFX_GCTX_PEND [n] then s.setGfxJob { j with pass := some p }
          else
            match s.dmaNum (gfxAccess j.inst p.pid) p.pipe 64 with
            | (st, pipe, s) =>
              if st ≠ .ok then s.gfxEnd j.uid st
              else ((s.wr Reg.GFX_GCTX_PEND [n] 0).binAll j p pipe p.left).syncClusters

/-- BIN_GROW_TIMEOUT: BIN_TMO ms have passed with PEND of context `n` set, and its stream ends with ST_TIMEOUT (R352). -/
def execBinGrowTimeout (n : Nat) (s : State) : Host.Outcome State Fault Refusal :=
  if n ≥ 32 then .refused .illFormed
  else if !s.flag Reg.GFX_GCTX_PEND [n] then go s
  else match s.gfx.jobs.find? (fun j => j.gctx = n) with
    | some j => s.jobRun j.uid (fun s => s.gfxEnd j.uid .timeout)
    | none => go s

/-- GFX_STREAM_COMPLETE: the stream of job `u` has ended and stored every tile; its record is written (R351, R360). -/
def execGfxStreamComplete (u : Nat) (s : State) : Host.Outcome State Fault Refusal :=
  s.jobRun u (fun s => match s.gfxJob u with
  | some j => if j.ended then s.afterWrites (gfxAccess j.inst j.pid) (fun s => s.gfxEnd u .ok) else s
  | none => s)

/-! ### Compute jobs (R359) -/

/-- COMPUTE_JOB_START: the job reads its wait word, on acceptance or 1 µs later, and starts when the condition holds. -/
def execComputeJobStart (u : Nat) (s : State) : Host.Outcome State Fault Refusal :=
  s.jobRun u (fun s => match s.compJob u with
  | none => s
  | some j =>
    if j.started || !s.boot.mainUp then s
    else if bitsOf j.desc 224 48 = 0 then s.setCompJob { j with started := true }
    else
      match s.dmaNum (gfxAccess j.inst (compPid j.desc)) (bitsOf j.desc 224 48) 8 with
      | (st, v, s) =>
        if st ≠ .ok then s.compEnd u st
        else if v % 2 ^ 32 &&& bitsOf j.desc 320 32 = bitsOf j.desc 288 32 then s.setCompJob { j with started := true }
        else s)

/-- COMPUTE_WAIT_TIMEOUT: WAIT_TMO has passed before the job started. -/
def execComputeWaitTimeout (u : Nat) (s : State) : Host.Outcome State Fault Refusal :=
  s.jobRun u (fun s => match s.compJob u with
  | none => s
  | some j => if j.started || bitsOf j.desc 224 48 = 0 then s else s.compEnd u .timeout)

/-- SIG_VAL is written to the event word of a compute job, where it has one. -/
def State.compSignal (s : State) (j : CompJob) : Status × State :=
  if bitsOf j.desc 384 48 = 0 then (.ok, s)
  else s.dmaWrite { gfxAccess j.inst (compPid j.desc) with firm := true } (bitsOf j.desc 384 48) (leBytes 8 (bitsOf j.desc 448 64))

/-- COMPUTE_JOB_COMPLETE: every thread of every workgroup has ended, after `cyc` cluster-cycles, of which those that have passed in ticks are charged already (R172): SIG_VAL is written, then the message goes out, then the record (R359, R360). -/
def execComputeJobComplete (u cyc : Nat) (s : State) : Host.Outcome State Fault Refusal :=
  s.jobRun u (fun s => match s.compJob u with
  | none => s
  | some j =>
    if !j.started || j.ended < compGroups j.desc * compThreads j.desc then s
    else (s.payJob u 23 (cyc - j.ran)).afterWrites (gfxAccess j.inst 0) (fun s => match s.compSignal j with
      | (st, s) =>
        if st ≠ .ok then s.compEnd u st
        else (if bitAt j.desc 432 then s.send j.inst (bitsOf j.desc 433 11) else s).compEnd u .ok))

/-! ### Switching and pre-emption (R171, R172, R296, R361 to R366) -/

/-- The job of a grantee on a cluster that is charged for a save or restore. -/
def State.clJob (s : State) (c g : Nat) : Option Nat :=
  match s.gfx.jobs.find? (s.streamOn c g) with
  | some j => some j.uid
  | none => (s.gfx.comps.find? (s.compOn c g)).map (fun j => j.uid)

/-- The grantee is in a pass on the cluster, so that tile memory belongs to its state. -/
def State.clInPass (s : State) (c g : Nat) : Bool := s.gfx.jobs.any (fun j => s.streamOn c g j && j.pass.isSome)

/-- Cluster-cycles of a save or restore, charged to the grantee and its job. -/
def State.chargeCluster (s : State) (c g n : Nat) : State :=
  match s.clJob c g with
  | some u => s.chargeJob u 23 n
  | none => s.charge 23 (s.rd Reg.GFX_SLICE_INST [c, g]) n

/-- The jobs of a grantee on a cluster end with a status (R299, R361). -/
def State.endClGrantee (s : State) (c g : Nat) (st : Status) : State :=
  let js := (s.gfx.jobs.filter (s.streamOn c g)).map (fun j => j.uid)
  let cs := (s.gfx.comps.filter (s.compOn c g)).map (fun j => j.uid)
  cs.foldl (fun s u => s.compEnd u st) (js.foldl (fun s u => s.gfxEnd u st) s)

/-- The save of a grantee: hart state, and tile memory in a pass; the layout is the device's, and the bytes are free. -/
def State.saveCluster (s : State) (c g : Nat) : State :=
  let pass := s.clInPass c g
  let s := s.chargeCluster c g (if pass then 16384 else 4096)
  let (st, s) := s.dmaWrite (gfxAccess (s.rd Reg.GFX_SLICE_INST [c, g]) 0) (s.rd Reg.GFX_SLICE_SAVE_BASE [c, g] * 0x10000)
    (leBytes (if pass then 0x10_0000 else 0x4_0000) s.freeVal)
  let s := s.drawn
  if st = .ok then s.setGfx { s.gfx with saved := (s.gfx.saved.filter (fun e => !(e.1 = c && e.2.1 = g))) ++ [(c, g, pass)] }
  else s.endClGrantee c g st

/-- The restore of a grantee, or the zeroing of the cluster where it has no saved state. -/
def State.restoreCluster (s : State) (c g : Nat) : State :=
  let s : State := match s.gfx.saved.find? (fun e => e.1 = c && e.2.1 = g) with
    | none => s.chargeCluster c g 1024
    | some e =>
      let s := (s.chargeCluster c g (if e.2.2 then 16384 else 4096)).setGfx { s.gfx with saved := s.gfx.saved.filter (fun x => x ≠ e) }
      match s.dmaRead (gfxAccess (s.rd Reg.GFX_SLICE_INST [c, g]) 0) (s.rd Reg.GFX_SLICE_SAVE_BASE [c, g] * 0x10000)
        (if e.2.2 then 0x10_0000 else 0x4_0000) with
      | (st, _, s) => if st = Status.ok then s else s.endClGrantee c g st
  (s.wr Reg.GFX_CL_RES_G [c] g).wr Reg.GFX_CL_RES_VALID [c] 1

/-- The grantee that a cluster serves next, in R163's order on resource 23. -/
def State.clIncoming (s : State) (c : Nat) : Option Nat :=
  let l := [0, 1, 2, 3].filter (fun g => s.clResident c ≠ some g && s.clRunnable c g && s.mayServe 23 (s.rd Reg.GFX_SLICE_INST [c, g]))
  let rank := fun g =>
    let i := s.rd Reg.GFX_SLICE_INST [c, g]
    ((if s.allowance (activity 23 i) > 0 then 0 else 4) + s.classOf i) * 64 + rrDistance (tget 63 s.orr.ptr (4 * 23 + s.classOf i)) i
  l.foldl (fun (b : Option Nat) g => match b with | some h => if rank g < rank h then some g else b | none => some g) none

/-- The resident of a cluster runs without allowance while the incoming grantee may displace it (R171, R172). -/
def State.clPreempted (s : State) (c g r : Nat) : Bool :=
  let a := activity 23 (s.rd Reg.GFX_SLICE_INST [c, r])
  s.clRunnable c r && s.allowance a = 0 && (s.allowance (activity 23 (s.rd Reg.GFX_SLICE_INST [c, g])) > 0 || !s.slackEn a)

/-- A compute job that its allowance no longer carries is pre-empted and waits, whether or not another grantee waits (R172). -/
def State.clSpent (s : State) (c r : Nat) : Bool :=
  s.clRunnable c r && !s.mayServe 23 (s.rd Reg.GFX_SLICE_INST [c, r])
    && (match s.clJob c r with | some u => (s.compJob u).isSome | none => false)

/-- The resident of a cluster is pre-empted: counted and saved. -/
def State.clEvict (s : State) (c r : Nat) : State :=
  (s.incSat Reg.GFX_CSTAT_SLICE_PREEMPT [s.rd Reg.GFX_SLICE_INST [c, r]] 1).saveCluster c r

/-- A switch of a cluster at an instruction boundary, where one is due (R171, R172, R296, R361, R363). -/
def State.switchCluster (s : State) (c : Nat) : State :=
  if !s.boot.mainUp then s else
  match s.clResident c, s.clIncoming c with
  | none, none => s
  | none, some g => (s.restoreCluster c g).syncClusters
  | some r, none => if s.clSpent c r then ((s.clEvict c r).wr Reg.GFX_CL_RES_VALID [c] 0).syncClusters else s
  | some r, some g =>
    if s.clPreempted c g r || s.clSpent c r then ((s.clEvict c r).restoreCluster c g).syncClusters
    else if s.clRunnable c r then s
    else ((s.saveCluster c r).restoreCluster c g).syncClusters

/-- CLUSTER_SWITCH: cluster `c` stands at an instruction boundary and switches, where one is due (R361). -/
def execClusterSwitch (c : Nat) (s : State) : Host.Outcome State Fault Refusal :=
  if c ≥ 8 then .refused .illFormed else s.attempt (partyCluster c) none (fun s => go (s.switchCluster c))

/-- The GFX cycles of `ns` nanoseconds that end at time `t`. -/
def gfxCycles (mhz t ns : Nat) : Nat := t * mhz / 1000 - (t - ns) * mhz / 1000

/-- The compute job that cluster `c` runs is charged the cycles that have passed (R172): at the instant at which its allowance runs out it goes on from slack. -/
def State.clPass (s : State) (c ns : Nat) : State :=
  match s.clResident c with
  | none => s
  | some g =>
    if !s.clRunnable c g then s else
    match s.clJob c g with
    | none => s
    | some u => match s.compJob u with
      | none => s
      | some j =>
        let n := gfxCycles (s.rd Reg.CLK_DOM_MHZ [6]) s.now ns
        (s.setCompJob { j with ran := j.ran + n }).chargeJob u 23 n

/-- One tick of the clusters. -/
def State.gfxTick (s : State) (ns : Nat) : State :=
  if s.gfx.comps.isEmpty then s else (List.range 8).foldl (fun s c => s.clPass c ns) s

/-- DEADLINE_PREEMPT: the instant T_late + 1 ms before the vsync of display pipe `d` (R363): the clusters of the streams that feed it are held, and each C2 or C3 compute job of another instance that they run is pre-empted and counted. The switch itself is CLUSTER_SWITCH. -/
def execDeadlinePreempt (d : Nat) (s : State) : Host.Outcome State Fault Refusal :=
  if d ≥ 4 then .refused .illFormed else
  let js := s.gfx.jobs.filter (fun j => s.rd Reg.GFX_GCTX_DL_PIPE [j.gctx] = d + 1)
  let holds := js.flatMap (fun j => ((List.range 8).filter (fun c => bitAt j.mask c)).map (fun c => (c, j.gctx)))
  let hit := s.gfx.comps.filter (fun k => holds.any (fun h =>
    s.rd Reg.GFX_GCTX_INST [h.2] ≠ k.inst && 2 ≤ s.classOf k.inst && !s.heldFor h.1 k.inst
      && (match s.clResident h.1 with | some g => s.compOn h.1 g k | none => false)))
  let s := hit.foldl (fun s k => s.incSat Reg.GFX_CSTAT_DL_PREEMPT [k.inst] 1) s
  goG (s.setGfx { s.gfx with holds := (s.gfx.holds ++ holds).eraseDups })

/-- The holds of R363 for display pipe `d` end with its vsync. -/
def State.endHolds (s : State) (d : Nat) : State :=
  (s.setGfx { s.gfx with holds := s.gfx.holds.filter (fun h => s.rd Reg.GFX_GCTX_DL_PIPE [h.2] ≠ d + 1) }).syncClusters

end Sys2Proof.Machine
end

