-- ==== Sys2Proof/Machine/Shader.lean ====
section
/-! DEFINITION. Shader threads (11, R337 to R345, R355 to R357): the Xkgfx instructions, ECALL and exceptions. The base instructions of a thread are no commands of the block. -/

namespace Sys2Proof.Machine

/-! ### Threads -/

/-- What a thread's job gives it: instance, process identifier, the pass it shades, the graphics stream, and the descriptor table. -/
structure ShEnv where
  inst : Nat
  pid : Nat
  mask : Nat
  job : Option GfxJob
  pass : Option Pass
  table : Nat
  deriving DecidableEq, Repr

/-- The environment of a thread that its job runs now (R338, Table gfx.1): vertex and fragment threads of an open pass, compute threads of a started job. A fragment thread names a block of a binned primitive. -/
def State.shEnv (s : State) (t : ShId) : Option ShEnv :=
  if t.kind ≤ 1 then
    match s.gfxJob t.uid with
    | some j =>
      match j.pass with
      | some p =>
        if t.kind = 0 || (p.prims.getD t.b ⟨[], [], []⟩).frags.any (fun f => f.x + 2 ^ 16 * f.y = t.a) then
          some ⟨j.inst, p.pid, j.mask, some j, some p, p.bind⟩
        else none
      | none => none
    | none => none
  else if t.kind = 2 then
    match s.compJob t.uid with
    | some j =>
      let d := j.desc
      if j.started && t.b < compThreads d && bitsOf t.a 0 16 < bitsOf d 128 16 && bitsOf t.a 16 16 < bitsOf d 144 16
          && bitsOf t.a 32 16 < bitsOf d 160 16 && t.a < 2 ^ 48 then
        some ⟨j.inst, compPid d, j.mask, none, none, bitsOf d 64 48⟩
      else none
    | none => none
  else none

/-- The coverage with which a fragment thread starts. -/
def ShEnv.coverage (v : ShEnv) (t : ShId) : Nat :=
  match v.pass with
  | some p => match ((p.prims.getD t.b ⟨[], [], []⟩).frags.find? (fun f => f.x + 2 ^ 16 * f.y = t.a)) with
    | some f => f.cov
    | none => 0
  | none => 0

/-- A thread; one not yet seen is as at its start. -/
def State.thread (s : State) (v : ShEnv) (t : ShId) : ShThread :=
  match s.gfx.threads.find? (fun x => x.id = t) with
  | some x => x
  | none => { id := t, cov := if t.kind = 1 then v.coverage t else 0 }

/-- The state with a thread replaced. -/
def State.setThread (s : State) (x : ShThread) : State :=
  s.setGfx { s.gfx with threads := s.gfx.threads.filter (fun y => y.id ≠ x.id) ++ [x] }

/-- The job of a thread ends with a status. -/
def State.shEnd (s : State) (t : ShId) (st : Status) : State := if t.kind = 2 then s.compEnd t.uid st else s.gfxEnd t.uid st

/-- An exception ends the job, and GFX.SERR records it (R338). -/
def State.shFault (s : State) (inst : Nat) (t : ShId) (pc cause : Nat) (st : Status) : State :=
  let s := s.wrPair Reg.GFX_SERR_PC_LO Reg.GFX_SERR_PC_HI [inst] (pc % 2 ^ 48)
  let s := ((s.wr Reg.GFX_SERR_CAUSE [inst] cause).wr Reg.GFX_SERR_STATUS [inst] (statusCode st)).incSat Reg.GFX_SERR_COUNT [inst] 1
  s.shEnd t st

/-- A thread that its cluster runs now: its environment and itself. A compute job without allowance or slack waits (R172). -/
def State.running (s : State) (t : ShId) : Option (ShEnv × ShThread) :=
  match s.shEnv t with
  | none => none
  | some v =>
    let x := s.thread v t
    if !s.boot.mainUp || x.ended || x.atBar || !s.runsOn v.mask v.inst v.pid || (t.kind = 2 && !s.mayServe 23 v.inst) then none
    else some (v, x)

/-! ### Encodings (Table gfx.2, R340) -/

/-- The fields of an Xkgfx word. -/
def xF7 (w : Nat) : Nat := bitsOf w 25 7
def xVs2 (w : Nat) : Nat := bitsOf w 20 5
def xRs1 (w : Nat) : Nat := bitsOf w 15 5
def xF3 (w : Nat) : Nat := bitsOf w 12 3
def xVd (w : Nat) : Nat := bitsOf w 7 5

/-- A word that raises illegal instruction (R340), with SEW, LMUL and vl, in a thread of a kind. -/
def xIllegal (i : ShIssue) : Bool :=
  let w := i.w
  let f3 := xF3 w
  let frag := i.th.kind = 1
  (6 ≤ f3)
    || (f3 = 0 && 1 < xF7 w) || (f3 = 1 && (2 < xF7 w || xVs2 w ≠ 0)) || (f3 = 2 && (xF7 w ≠ 0 || xVs2 w ≠ 0))
    || (f3 = 3 && (1 < xF7 w || xVd w ≠ 0)) || (f3 = 4 && (1 < xF7 w || xVs2 w ≠ 0 || xRs1 w ≠ 0 || (xF7 w = 1 && xVd w ≠ 0)))
    || (f3 = 5 && (xF7 w ≠ 0 || xVs2 w ≠ 0 || xRs1 w ≠ 0 || xVd w ≠ 0))
    || (f3 ≤ 4 && (i.sew ≠ 32 || i.lmul ≠ 1 || 16 < i.vl || xVd w % 4 ≠ 0 || ((f3 = 0 || f3 = 3) && xVs2 w % 4 ≠ 0)))
    || (f3 ≤ 4 && !frag && !(f3 = 0 && xF7 w = 1))

/-- An Xkgfx instruction of a running thread: an illegal one ends the job; `body` is the effect of one with the given funct3, as an attempt of its job (log entry 40). A word that spells another Xkgfx instruction, or none, is no such command. -/
def State.shader (s : State) (i : ShIssue) (f3 : Nat) (f7 : Nat → Bool) (body : State → ShEnv → ShThread → State) :
    Host.Outcome State Fault Refusal :=
  if i.w ≥ 2 ^ 32 || i.w % 128 ≠ 0x2B || (!xIllegal i && (xF3 i.w ≠ f3 || !f7 (xF7 i.w))) then .refused .illFormed
  else s.attempt (partyJob i.th.uid) (some i.th.uid) (fun s => match s.running i.th with
    | none => go s
    | some (v, x) => if xIllegal i then go (s.shFault v.inst i.th i.pc 2 .denied) else go (body s v x))

/-! ### Vector registers -/

/-- Element `e` of a vector register. -/
def lane (v e : Nat) : Nat := bitsOf v (32 * e) 32

/-- The elements of a register from a list, in place of its first elements. -/
def packLanes : List Nat → Nat
  | [] => 0
  | x :: xs => x % 2 ^ 32 + 2 ^ 32 * packLanes xs

/-- A register with its first `vl` elements replaced. -/
def setLanes (old vl : Nat) (l : List Nat) : Nat :=
  old / 2 ^ (32 * vl) * 2 ^ (32 * vl) + packLanes (l.take vl)

/-- The four registers from vd written, by a function of register and element. -/
def ShThread.write4 (x : ShThread) (vd vl : Nat) (f : Nat → Nat → Nat) : ShThread :=
  { x with v := (List.range 4).foldl (fun m c => tput m (vd + c) (setLanes (tget 0 m (vd + c)) vl ((List.range vl).map (f c)))) x.v }

/-! ### Texels, samples and attributes -/

/-- A channel as FP32 bits (R341, R343): exact for the floating-point formats, open for the others. -/
def channel (fmt raw pos c : Nat) : Nat :=
  match fmt, c with
  | 0x06, 0 => (fp16.decode raw).bits32
  | 0x07, c => if c < 4 then (fp16.decode (bitsOf raw (16 * c) 16)).bits32 else Config.unpack fmt raw pos c
  | 0x08, 0 => raw % 2 ^ 32
  | 0x09, c => if c < 2 then bitsOf raw (32 * c) 32 else Config.unpack fmt raw pos c
  | 0x0A, c => bitsOf raw (32 * c) 32
  | 0x10, 0 => raw % 2 ^ 32
  | f, c => Config.unpack f raw pos c % 2 ^ 32

/-- The raw bits of four FP32 channels: exact where the format holds FP32, open for the others. -/
def packChannels (fmt : Nat) (l : List Nat) : Nat :=
  match fmt with
  | 0x08 => l.headD 0 % 2 ^ 32
  | 0x09 => packLanes (l.take 2)
  | 0x0A => packLanes (l.take 4)
  | 0x10 => l.headD 0 % 2 ^ 32
  | f => Config.pack f l % 2 ^ (8 * fmtBytes f)

/-- Bytes and side of a texel block of a format (Table gfx.6). -/
def texBlock (f : Nat) : Nat × Nat :=
  if f = 0x18 then (8, 4) else if f = 0x19 || f = 0x1A then (16, 4) else if f = 0x1B then (16, 8) else (fmtBytes f, 1)

/-- A texture descriptor keeps Table gfx.6. -/
def texOk (d : Nat) : Bool :=
  let f := bitsOf d 48 8
  let w := bitsOf d 64 16
  let h := bitsOf d 80 16
  (texBlock f).1 ≠ 0 && bitsOf d 56 8 = 0 && 1 ≤ w && w ≤ 16384 && 1 ≤ h && h ≤ 16384 && bitsOf d 96 4 ≠ 0
    && bitsOf d 101 3 ≤ 4 && 1 ≤ bitsOf d 104 5 && bitsOf d 104 5 ≤ 16 && bitsOf d 109 2 ≤ 2 && bitsOf d 111 2 ≤ 2
    && bitsOf d 113 7 = 0 && bitsOf d 184 328 = 0
    && (!bitAt d 100 || (bitsOf d 0 16 = 0 && bitsOf d 128 3 = 0))

/-- The size of a level. -/
def levelSize (n l : Nat) : Nat := max 1 (n >>> l)

/-- The pitch of a level, and its bytes. -/
def levelPitch (d l : Nat) : Nat :=
  let (b, side) := texBlock (bitsOf d 48 8)
  ceilDiv (ceilDiv (levelSize (bitsOf d 64 16) l) side * b) 256 * 256
def levelBytes (d l : Nat) : Nat :=
  levelPitch d l * ceilDiv (levelSize (bitsOf d 80 16) l) (texBlock (bitsOf d 48 8)).2

/-- Where a level begins: the first 64 KB boundary at or after the end of the one before. -/
def levelAddr (d : Nat) : Nat → Nat
  | 0 => bitsOf d 0 48
  | l + 1 => ceilDiv (levelAddr d l + levelBytes d l) 0x10000 * 0x10000

/-- The levels and texels of a sample, kept inside the texture; no level below MIN_LOD is taken. -/
def texTaps (d : Nat) (uvl quad : List Nat) : List (Nat × Nat × Nat) :=
  (Config.texTaps d uvl quad).map (fun t =>
    let l := min (bitsOf d 96 4 - 1) (max t.1 (bitsOf d 124 4))
    (l, t.2.1 % levelSize (bitsOf d 64 16) l, t.2.2 % levelSize (bitsOf d 80 16) l))

/-- The address of a texel's block, and the position of the texel in it. -/
def texelAt (d : Nat) (t : Nat × Nat × Nat) : Nat × Nat :=
  let (b, side) := texBlock (bitsOf d 48 8)
  (levelAddr d t.1 + levelPitch d t.1 * (t.2.2 / side) + b * (t.2.1 / side), t.2.2 % side * side + t.2.1 % side)

/-- What sampling one element gives: four channels and whether a tap was non-resident, or a failing status. -/
inductive Sampled where
  | value (l : List Nat) (miss : Bool)
  | failed (st : Status)
  deriving DecidableEq, Repr

/-- The tile that holds a byte is resident, by the map (R356). -/
def State.residentAt (s : State) (a : Access) (d addr : Nat) : Status × Bool × State :=
  if !bitAt d 100 then (.ok, true, s) else
  let k := (addr - bitsOf d 0 48) / 65536
  match s.dmaNum a (bitsOf d 128 48 + k / 64 * 8) 8 with
  | (st, v, s) => (st, bitAt v (k % 64), s)

/-- Every tap lies in a resident tile; the first failing map read decides the status. -/
def State.allResident (s : State) (a : Access) (d : Nat) (taps : List (Nat × Nat × Nat)) : Status × Bool × State :=
  taps.foldl (fun (acc : Status × Bool × State) t =>
    if acc.1 ≠ .ok then acc
    else match acc.2.2.residentAt a d (texelAt d t).1 with
      | (st, r, s) => (st, acc.2.1 && r, s)) (.ok, true, s)

/-- The raw blocks of the taps, with the position of each texel. -/
def State.readTaps (s : State) (a : Access) (d : Nat) (taps : List (Nat × Nat × Nat)) : Status × List (Nat × Nat) × State :=
  taps.foldl (fun (acc : Status × List (Nat × Nat) × State) t =>
    if acc.1 ≠ .ok then acc
    else match acc.2.2.dmaNum a (texelAt d t).1 (texBlock (bitsOf d 48 8)).1 with
      | (st, v, s) => (st, acc.2.1 ++ [(v, (texelAt d t).2)], s)) (.ok, [], s)

/-- One element of a sample (R341, R355, R356). -/
def State.sampleOne (s : State) (a : Access) (d : Nat) (uvl quad : List Nat) : Sampled × State :=
  let taps := texTaps d uvl quad
  match s.allResident a d taps with
  | (st, r, s) =>
    if st ≠ .ok then (.failed st, s)
    else if !r then (.value [0, 0, 0, 0] true, s)
    else match s.readTaps a d taps with
      | (st, raws, s) =>
        if st ≠ .ok then (.failed st, s)
        else (.value ([0, 1, 2, 3].map (fun c =>
          Config.texFilter d uvl (raws.map (fun r => channel (bitsOf d 48 8) r.1 r.2 c)) % 2 ^ 32)) false, s)

/-- The elements of a sample in turn. -/
def State.sampleAll (s : State) (a : Access) (d : Nat) (lod : Bool) (vs : List Nat) (vl : Nat) :
    Status × List (List Nat × Bool) × State :=
  (List.range vl).foldl (fun (acc : Status × List (List Nat × Bool) × State) e =>
    if acc.1 ≠ .ok then acc
    else
      let at_ := fun k e => lane (vs.getD k 0) e
      let uvl := if lod then [at_ 0 e, at_ 1 e, at_ 2 e] else [at_ 0 e, at_ 1 e]
      let quad := if lod then [] else (List.range 4).flatMap (fun q => [at_ 0 (e / 4 * 4 + q), at_ 1 (e / 4 * 4 + q)])
      match acc.2.2.sampleOne a d uvl quad with
      | (.failed st, s) => (st, acc.2.1, s)
      | (.value l m, s) => (.ok, acc.2.1 ++ [(l, m)], s)) (.ok, [], s)

/-! ### Meanings -/

/-- TEX_SAMPLE (R341, R355 to R357): the descriptor at the index in rs1 is read and checked, and each element sampled. -/
def execTexSample (i : ShIssue) (s : State) : Host.Outcome State Fault Refusal :=
  s.shader i 0 (fun _ => true) (fun s v x =>
    let a := gfxAccess v.inst v.pid
    match s.dmaNum a (v.table + 64 * (i.rs1 % 2 ^ 16)) 64 with
    | (st, d, s) =>
      if st ≠ .ok then s.shFault v.inst i.th i.pc 5 st
      else if !texOk d then s.drawn.shFault v.inst i.th i.pc (s.freeVal % 256) .denied
      else match s.sampleAll a d (xF7 i.w = 1) i.vs i.vl with
        | (st, l, s) =>
          if st ≠ .ok then s.shFault v.inst i.th i.pc 5 st
          else
            let x := x.write4 (xVd i.w) i.vl (fun c e => ((l.getD e ([], false)).1).getD c 0)
            s.setThread { x with gkres := ofBits (l.map (fun e => e.2)) })

/-- INTERP (R342): flat attributes take the value of the first vertex; perspective and linear ones are open to the last bit. -/
def interpLane (p : Pass) (t : ShId) (mode attr c e : Nat) : Nat :=
  let q := p.prims.getD t.b ⟨[], [], []⟩
  if mode = 2 then (q.verts.headD []).getD (4 * (attr + 1) + c) 0
  else Config.interp mode q.verts attr c (elemX (t.a % 2 ^ 16) e) (elemY (t.a / 2 ^ 16) e)

/-- INTERP. -/
def execInterp (i : ShIssue) (s : State) : Host.Outcome State Fault Refusal :=
  s.shader i 1 (fun _ => true) (fun s v x =>
    match v.pass with
    | none => s
    | some p => s.setThread (x.write4 (xVd i.w) i.vl (interpLane p i.th (xF7 i.w) (i.rs1 % 16))))

/-- The attachment that rs1[3:0] names: 0 to 7 colour, 8 depth-stencil. -/
def Pass.attachment (p : Pass) (k : Nat) : Option (Nat × Att) :=
  let ncol := p.atts.length - (if p.depth then 1 else 0)
  let idx := if k < 8 then (if k < ncol then some k else none) else if k = 8 && p.depth then some ncol else none
  match idx with
  | some n => (p.atts[n]?).map (fun a => (n, a))
  | none => none

/-- TB_LD (R343): the samples of the thread's pixels; an attachment or a sample that the pass does not have gives free values. -/
def State.tbLd (s : State) (i : ShIssue) (v : ShEnv) (x : ShThread) : State :=
  match v.job, v.pass with
  | some j, some p =>
    let k := bitsOf i.rs1 4 3
    match (if k < p.samples then p.attachment (i.rs1 % 16) else none) with
    | none => s.drawn.setThread (x.write4 (xVd i.w) i.vl (fun c e => bitsOf s.freeVal (32 * (16 * c + e)) 32))
    | some (n, a) =>
      let r := (List.range i.vl).foldl (fun (acc : Status × List Nat × State) e =>
        if acc.1 ≠ .ok then acc
        else match acc.2.2.pixel j p n a (elemX (i.th.a % 2 ^ 16) e) (elemY (i.th.a / 2 ^ 16) e) k with
          | (st, w, s) => (st, acc.2.1 ++ [w], s)) (.ok, [], s)
      if r.1 ≠ .ok then r.2.2.shFault v.inst i.th i.pc 5 r.1
      else r.2.2.setThread (x.write4 (xVd i.w) i.vl (fun c e => channel a.fmt (r.2.1.getD e 0) 0 c))
  | _, _ => s

/-- TB_LD. -/
def execTbLd (i : ShIssue) (s : State) : Host.Outcome State Fault Refusal := s.shader i 2 (fun _ => true) (fun s => s.tbLd i)

/-- The value that TB_ST stores: the channels in the format, or blended where the pipeline state enables blending for the attachment (Table gfx.5). -/
def tbValue (a : Att) (pipe n old : Nat) (l : List Nat) : Nat :=
  let b := bitsOf pipe (8 * (0x20 + 4 * n)) 32
  if n < 8 && b % 256 ≠ 0 then Config.blend b a.fmt old l % 2 ^ (8 * fmtBytes a.fmt) else packChannels a.fmt l

/-- The pass with a sample written. -/
def Pass.setPx (p : Pass) (k v : Nat) : Pass := { p with px := tput p.px k v }

/-- TB_ST (R343): the samples of covered pixels, and with funct7[0] only those whose v0 bit is set. Where the pass has no such attachment or sample, nothing is there to write. -/
def State.tbSt (s : State) (i : ShIssue) (v : ShEnv) (x : ShThread) : State :=
  match v.job, v.pass with
  | some j, some p =>
    let k := bitsOf i.rs1 4 3
    match (if k < p.samples then p.attachment (i.rs1 % 16) else none) with
    | none => s
    | some (n, a) =>
      match s.dmaNum (gfxAccess v.inst v.pid) p.pipe 64 with
      | (st, pipe, s) =>
        if st ≠ .ok then s.shFault v.inst i.th i.pc 7 st else
        let es := (List.range i.vl).filter (fun e => bitAt x.cov (8 * e + k) && (xF7 i.w = 0 || bitAt i.v0 e))
        let r := es.foldl (fun (acc : Status × Pass × State) e =>
          if acc.1 ≠ .ok then acc
          else
            let px := elemX (i.th.a % 2 ^ 16) e
            let py := elemY (i.th.a / 2 ^ 16) e
            match acc.2.2.pixel j acc.2.1 n a px py k with
            | (st, old, s) =>
              let w := tbValue a (if i.rs1 % 16 = 8 then 0 else pipe) n old ([0, 1, 2, 3].map (fun c => lane (i.vs.getD c 0) e))
              (st, acc.2.1.setPx (pxKey n k px py) w, s)) (.ok, p, s)
        if r.1 ≠ .ok then r.2.2.shFault v.inst i.th i.pc 7 r.1
        else (r.2.2.setGfxJob { j with pass := some r.2.1 }).setThread x
  | _, _ => s

/-- TB_ST. -/
def execTbSt (i : ShIssue) (s : State) : Host.Outcome State Fault Refusal := s.shader i 3 (fun _ => true) (fun s => s.tbSt i)

/-- COV_READ (R344): one bit per pixel, set when any sample is covered. -/
def execCovRead (i : ShIssue) (s : State) : Host.Outcome State Fault Refusal :=
  s.shader i 4 (fun f => f = 0) (fun s _ x =>
    let vd := xVd i.w
    let m := ofBits ((List.range i.vl).map (fun e => bitsOf x.cov (8 * e) 8 ≠ 0))
    s.setThread { x with v := tput x.v vd (tget 0 x.v vd / 2 ^ i.vl * 2 ^ i.vl + m) })

/-- COV_DISCARD (R344): the coverage of every pixel whose v0 bit is set is cleared. -/
def execCovDiscard (i : ShIssue) (s : State) : Host.Outcome State Fault Refusal :=
  s.shader i 4 (fun f => f = 1) (fun s _ x =>
    s.setThread { x with cov := packBytes ((List.range 16).map (fun e =>
      if e < i.vl && bitAt i.v0 e then 0 else bitsOf x.cov (8 * e) 8)) })
where
  /-- Eight bits of coverage for each pixel. -/
  packBytes : List Nat → Nat
    | [] => 0
    | b :: bs => b % 256 + 256 * packBytes bs

/-- The threads of a compute thread's workgroup. -/
def State.groupMates (s : State) (t : ShId) : List ShThread := s.gfx.threads.filter (fun x => x.id.uid = t.uid && x.id.kind = 2 && x.id.a = t.a)

/-- BAR (R345): a compute thread waits until every thread of its workgroup has come; any other thread is its own workgroup. -/
def execBar (i : ShIssue) (s : State) : Host.Outcome State Fault Refusal :=
  s.shader i 5 (fun _ => true) (fun s _ x =>
    if i.th.kind ≠ 2 then s
    else match s.compJob i.th.uid with
      | none => s
      | some j =>
        let s := s.setThread { x with atBar := true }
        if ((s.groupMates i.th).filter (fun y => y.atBar)).length = compThreads j.desc then
          s.setGfx { s.gfx with threads := s.gfx.threads.map (fun y =>
            if y.id.uid = i.th.uid && y.id.kind = 2 && y.id.a = i.th.a then { y with atBar := false } else y) }
        else s)

/-- A status for an exception whose status the spec does not give. -/
def freeStatus (v : Nat) : Status := (statusOf (v % 18)).getD .denied

/-- SHADER_ECALL: a thread at `pc` executes ECALL with `a7`; 0 ends the thread, any other value is an exception, cause 8, whose status the spec does not give (R338). -/
def execShaderEcall (th : ShId) (pc a7 : Nat) (s : State) : Host.Outcome State Fault Refusal :=
  s.attempt (partyJob th.uid) (some th.uid) (fun s => match s.running th with
  | none => go s
  | some (v, x) =>
    if a7 % 2 ^ 64 ≠ 0 then go (s.drawn.shFault v.inst th pc 8 (freeStatus s.freeVal))
    else
      let s := s.setThread { x with ended := true }
      match s.compJob th.uid with
      | some j => if th.kind = 2 then goG (s.setCompJob { j with ended := j.ended + 1 }) else go s
      | none => go s)

/-- SHADER_EXCEPTION: an exception of a thread at `pc` with a RISC-V cause; a failing access gives the status `st`, an illegal instruction ST_DENIED, and for any other cause the spec gives none (R338). -/
def execShaderException (th : ShId) (pc cause : Nat) (st : Status) (s : State) : Host.Outcome State Fault Refusal :=
  if [1, 5, 7].contains cause && !statusFails st then .refused .illFormed
  else s.attempt (partyJob th.uid) (some th.uid) (fun s => match s.running th with
  | none => go s
  | some (v, _) =>
    if cause = 2 then go (s.shFault v.inst th pc 2 .denied)
    else if [1, 5, 7].contains cause then go (s.shFault v.inst th pc cause st)
    else go (s.drawn.shFault v.inst th pc cause (freeStatus s.freeVal)))

end Sys2Proof.Machine
end

