-- ==== Sys2Proof/Machine/Budget.lean ====
section
/-! DEFINITION. The commands of Orrery (05): the period boundary with the deferral of waiting contexts and jobs, an arbitration instant, and the pre-emption of slice work. -/

namespace Sys2Proof.Machine

/-- A tile job waits for a slice: on some tile its grantee has its next descriptor runnable and is not resident. -/
def State.infWaits (s : State) (u : Nat) : Bool :=
  (List.range s.fuses.variant.tiles).any (fun t => [0, 1, 2, 3].any (fun g =>
    s.resident t ≠ some g && s.runnable t g && (match s.headOf t g with | some e => e.uid = u | none => false)))

/-- A stream or compute job waits for a cluster. -/
def State.gfxWaits (s : State) (u : Nat) : Bool :=
  (match s.gfxJob u with
    | some j => !j.waits && !j.ended && !s.flag Reg.GFX_GCTX_PEND [j.gctx] && !s.runsOn j.mask j.inst j.pid
    | none => false)
  || (match s.compJob u with
    | some j => j.started && !s.runsOn j.mask j.inst (compPid j.desc)
    | none => false)

/-- A crypto job waits for its engine or is saved (R267). -/
def State.cryWaits (s : State) (u : Nat) : Bool :=
  s.cry.engines.any (fun e => e.2.waiting.any (fun j => j.uid = u) || e.2.saved.any (fun j => j.uid = u))

/-- An activity is deferred at a boundary: DEFERRED and LAST (R165, R170). -/
def State.deferActivity (s : State) (r t : Nat) : State :=
  (s.incWrap Reg.ORR_CNT_DEFERRED [activity r t] 1).wr Reg.ORR_BUDGET_LAST [activity r t] (statusCode .deferred)

/-- An engine job that waits for its primary resource, and has no request in Orrery's own list, is deferred (R165). -/
def State.deferJob (s : State) (j : Job) : State :=
  if s.orr.waiting.any (fun q => q.job = some j.uid) then s
  else if (j.engine = 1 && s.infWaits j.uid) || (j.engine = 2 || j.engine = 3) && s.gfxWaits j.uid || (j.engine = 6 && s.cryWaits j.uid) then
    (s.deferActivity j.unitRes j.inst).setJob { j with defer := true }
  else s

/-- A READY context whose instance has no CMP cycles left is deferred (R55, R165). -/
def State.deferCtx (s : State) (n : Nat) : State :=
  let c := s.ctx n
  if c.run = .ready && c.wait.isNone && c.prog.isSome && !s.mayServe 24 (s.ctxInst n) then
    (s.deferActivity 24 (s.ctxInst n)).setCtx n { c with prog := c.prog.map (fun p => { p with defer := true }) }
  else s

/-- PERIOD_BOUNDARY (R157 to R160, R165, R173 to R176): what waits is deferred, CAP and EFF are computed, allowances are reset, and PERIOD_NO counts. -/
def execPeriodBoundary (s : State) : Host.Outcome State Fault Refusal :=
  if !s.boot.mainUp then go s else
  let s := s.cmp.jobs.foldl State.deferJob s
  let s := (List.range 64).foldl State.deferCtx s
  go (s.boundary.schedule)

/-- ORRERY_ARBITRATION: one arbitration instant of resource `r` (R163, R164); an access that every resource has granted is issued. -/
def execOrreryArbitration (r : Nat) (s : State) : Host.Outcome State Fault Refusal :=
  if !(presentRes s.fuses).contains r then .refused .illFormed
  else if !s.boot.mainUp then go s
  else go (((s.arbitrate r).issueGranted).schedule)

/-- The resident of a tile runs without allowance while another grantee may displace it (R171, R172). -/
def State.tilePreempted (s : State) (t : Nat) : Bool :=
  match s.resident t, s.incoming t with
  | some r, some g => s.runnable t r && s.yields t g
  | _, _ => false

/-- SLICE_PREEMPT: slice `k`, a tile or, with `cluster`, a shader cluster, stands at a boundary, and its job gives way to one that R171 or R172 puts before it. -/
def execSlicePreempt (cluster : Bool) (k : Nat) (s : State) : Host.Outcome State Fault Refusal :=
  if cluster then
    if k ≥ 8 then .refused .illFormed
    else s.attempt (partyCluster k) none (fun s => match s.clResident k with
      | some r =>
        if s.clSpent k r || (match s.clIncoming k with | some g => s.clPreempted k g r | none => false) then go (s.switchCluster k) else go s
      | none => go s)
  else if k ≥ s.fuses.variant.tiles then .refused .illFormed
  else s.attempt (partyTile k) none (fun s => if s.tilePreempted k then go (s.switchTile k) else go s)

end Sys2Proof.Machine
end

