-- ==== Sys2Proof/Machine/Fusion.lean ====
section
/-! DEFINITION. Fusion jobs (13, R435 to R440): the track table, the association of detections with tracks, and the object list. The filter's FP32 values are open to the last bit (DESIGN CHOICE, log entry 17). -/

namespace Sys2Proof.Machine

/-- A track (R435): x, y, vx, vy and the ten values of P, then ID, STATUS, CLASS, HITS, MISSES and SCORE. -/
structure Track where
  st : List Nat
  id : Nat
  status : Nat
  cls : Nat
  hits : Nat
  misses : Nat
  score : Nat
  deriving DecidableEq, Repr

/-- A detection: x, y, vxx, vyy, vxy, and CLASS, SCORE and SRC. -/
structure Detection where
  v : List Nat
  cls : Nat
  score : Nat
  src : Nat
  deriving DecidableEq, Repr

/-- A track of 64 bytes, and its bytes. -/
def trackOf (b : List Byte) : Track :=
  let n := ofLeBytes b
  let at_ := fun k => bitsOf n (8 * k) 8
  { st := (List.range 14).map (fun k => bitsOf n (32 * k) 32), id := bitsOf n (8 * 0x38) 16, status := at_ 0x3A, cls := at_ 0x3B,
    hits := at_ 0x3C, misses := at_ 0x3D, score := at_ 0x3E }
def Track.bytes (t : Track) : List Byte :=
  t.st.flatMap (leBytes 4) ++ leBytes 2 t.id ++ leBytes 1 t.status ++ leBytes 1 t.cls ++ leBytes 1 t.hits ++ leBytes 1 t.misses
    ++ leBytes 1 t.score ++ leBytes 1 0

/-- A detection of 32 bytes. -/
def detectionOf (b : List Byte) : Detection :=
  let n := ofLeBytes b
  { v := (List.range 5).map (fun k => bitsOf n (32 * k) 32), cls := bitsOf n (8 * 0x14) 8, score := bitsOf n (8 * 0x15) 8, src := bitsOf n (8 * 0x16) 8 }

/-- A fusion descriptor that keeps its reserved fields and its ranges (R436, Table sxt.5). -/
def fusOk (d : Nat) : Bool :=
  bitsOf d 45 19 = 0 && bitsOf d 344 168 = 0 && bitsOf d 32 12 ≤ 2048 && bitsOf d 320 8 ≠ 0 && bitsOf d 328 8 ≠ 0 && bitsOf d 336 8 ≠ 0

/-- A pair of a track and a detection with its d². -/
structure Pairing where
  d2 : Nat
  track : Nat
  det : Nat
  deriving DecidableEq, Repr

/-- The order of pairs: ascending d², then the lower track, then the lower detection. -/
def Pairing.before (a b : Pairing) : Bool :=
  (fp32.decode a.d2).lt (fp32.decode b.d2)
    || (!(fp32.decode b.d2).lt (fp32.decode a.d2) && (a.track < b.track || (a.track = b.track && a.det < b.det)))

/-- A pair put in its place. -/
def insertPair (a : Pairing) : List Pairing → List Pairing
  | [] => [a]
  | b :: bs => if a.before b then a :: b :: bs else b :: insertPair a bs

/-- Pairs in order, each taken where neither its track nor its detection is. -/
def takePairs : List Pairing → List (Nat × Nat) → List (Nat × Nat)
  | [], acc => acc
  | p :: ps, acc => takePairs ps (if acc.any (fun e => e.1 = p.track || e.2 = p.det) then acc else acc ++ [(p.track, p.det)])

/-- What a job works on: the tracks, the detections that are not dropped with their places, and the parameters. -/
structure FusIn where
  tracks : List Track
  dets : List (Nat × Detection)
  desc : Nat
  deriving DecidableEq, Repr

/-- The pairs that are taken (R438). -/
def FusIn.taken (f : FusIn) : List (Nat × Nat) :=
  let gate := fp32.decode (bitsOf f.desc 256 32)
  let live := ((List.range f.tracks.length).zip f.tracks).filter (fun t => t.2.status ≠ 0)
  let pairs := live.flatMap (fun t => f.dets.filterMap (fun d =>
    let q := Config.fusD2 t.2.st d.2.v % 2 ^ 32
    if (fp32.decode q).lt gate then some (⟨q, t.1, d.1⟩ : Pairing) else none))
  takePairs (pairs.foldl (fun l p => insertPair p l) []) []

/-- A track after association: updated, freed, or missed (R438). -/
def FusIn.associate (f : FusIn) (tk : List (Nat × Nat)) (k : Nat) (t : Track) : Track :=
  if t.status = 0 then t
  else match tk.find? (fun e => e.1 = k) with
    | some e => match f.dets.find? (fun d => d.1 = e.2) with
      | some d => { t with st := ((List.range 14).map (fun i => (Config.fusUpdate t.st d.2.v).getD i 0 % 2 ^ 32)),
                           hits := min 255 (t.hits + 1), misses := 0, cls := d.2.cls, score := d.2.score }
      | none => t
    | none =>
      if t.status = 1 then { t with status := 0 }
      else if t.misses + 1 ≥ bitsOf f.desc 320 8 then { t with status := 0, misses := t.misses + 1 }
      else { t with misses := t.misses + 1 }

/-- The identifier that NEXT_ID gives, skipping 0, and the next one. -/
def nextId (n : Nat) : Nat × Nat := let i := if n % 2 ^ 16 = 0 then 1 else n % 2 ^ 16; (i, if i = 0xFFFF then 1 else i + 1)

/-- Tracks, NEXT_ID, BIRTH_DROPS and the state, in the course of births. -/
structure Births where
  tracks : List Track
  next : Nat
  drops : Nat
  deriving DecidableEq, Repr

/-- A birth from an untaken detection (R438). HITS, MISSES, CLASS and SCORE of a new track are not stated: free values. -/
def Births.add (b : Births) (v : Nat) (d : Detection) : Births :=
  match b.tracks.findIdx? (fun t => t.status = 0) with
  | none => { b with drops := b.drops + 1 }
  | some k =>
    let c := fun i => d.v.getD i 0
    let hundred := (Fl.ofInt 100).bits32
    let (id, nx) := nextId b.next
    { b with tracks := b.tracks.set k { st := [c 0, c 1, 0, 0, c 2, c 4, 0, 0, c 3, 0, 0, hundred, 0, hundred], id := id, status := 1,
                                        cls := bitsOf v 0 8, hits := bitsOf v 8 8, misses := bitsOf v 16 8, score := bitsOf v 24 8 }
             next := nx }

/-- The births of a job, each with a free value of its own. -/
def State.births (s : State) (b : Births) : List Detection → Births × State
  | [] => (b, s)
  | d :: ds => s.drawn.births (b.add s.freeVal d) ds

/-- A track predicted to T_VALID (R438). -/
def predict (poses : List Nat × List Nat) (dt : Int) (q : Nat) (t : Track) : Track :=
  if t.status = 0 then t
  else { t with st := (List.range 14).map (fun i => (Config.fusPredict poses.1 poses.2 dt q t.st).getD i 0 % 2 ^ 32) }

/-- The access of a fusion job (R435). -/
def fusAccess (inst : Nat) : Access := { tag := inst, pid := 0, src := .sextant, kind := .read }

/-- The job leaves Sextant and ends. -/
def State.fusEnd (s : State) (u : Nat) (st : Status) : State :=
  (s.setSxt { s.sxt with jobs := s.sxt.jobs.filter (fun j => j.uid ≠ u) }).endJob u st

/-- Writes in turn until one fails. -/
def State.dmaWrites (s : State) (a : Access) : List (Nat × List Byte) → Status × State
  | [] => (.ok, s)
  | (addr, b) :: rest =>
    match s.dmaWrite a addr b with
    | (st, t) => if st ≠ .ok then (st, t) else t.dmaWrites a rest

/-- The job computes and writes its results (R438, R439). -/
def State.fuse (s : State) (j : FusJob) (d : Nat) (table hdr dets : List Byte) : State :=
  let reset := bitAt d 44
  let h := ofLeBytes hdr
  let tvalid := bitsOf h (8 * 8) 64
  let mask := bitsOf h (8 * 0x20) 128
  let thead := ofLeBytes (table.take 64)
  let tlast := if reset then 0 else bitsOf thead 0 64
  let elast := if reset then 0 else bitsOf thead 64 32
  let all := (groupsOf 64 1025 (table.drop 64)).map trackOf
  let tracks := if reset then all.map (fun t => { t with status := 0 }) else all
  let dt : Int := if elast = 0 then 0 else (tvalid : Int) - tlast
  let poses : Option (List Nat × List Nat) := match s.poseQuery tlast, s.poseQuery tvalid with
    | some a, some b => some (a.comps, b.comps)
    | _, _ => none
  let nocomp := poses.isNone && tracks.any (fun t => t.status ≠ 0)
  let tracks := tracks.map (predict (poses.getD ([], [])) dt (bitsOf d 288 32))
  let every := (List.range (bitsOf d 32 12)).zip ((groupsOf 32 2049 dets).map detectionOf)
  let kept := every.filter (fun e => e.2.src < 128 && bitAt mask e.2.src)
  let f : FusIn := ⟨tracks, kept, d⟩
  let tk := f.taken
  let after := (List.range tracks.length).zip tracks |>.map (fun e => f.associate tk e.1 e.2)
  let fresh := (kept.filter (fun e => !tk.any (fun p => p.2 = e.1) && bitsOf d 336 8 ≤ e.2.score)).map (fun e => e.2)
  let (b, s) := s.births ⟨after, bitsOf thead 96 16, 0⟩ fresh
  let final := b.tracks.map (fun t => if t.status = 1 && bitsOf d 328 8 ≤ t.hits then { t with status := 2 } else t)
  let conf := final.filter (fun t => t.status = 2)
  let oldest := match s.sxt.oldest.find? (fun e => e.1 = bitsOf d 0 32) with | some e => e.2 | none => tvalid
  let age := min (2 ^ 32 - 1) ((s.epoch - oldest) / 1000)
  let flags := bitsOf h (8 * 0x1D) 8 / 2 * 2 + (if nocomp then 1 else 0)
  let out := hdr.take 4 ++ leBytes 1 1 ++ (hdr.drop 5).take 11 ++ leBytes 8 s.epoch ++ leBytes 4 age ++ (hdr.drop 0x1C).take 1
    ++ leBytes 1 flags ++ hdr.drop 0x1E
  let trk := bitsOf d 128 64
  let addr := bitsOf d 192 64
  match s.dmaWrites (fusAccess j.inst)
      [(trk + 64, final.flatMap Track.bytes),
       (trk, leBytes 8 tvalid ++ leBytes 4 (bitsOf d 0 32) ++ leBytes 2 b.next ++ leBytes 50 0),
       (addr + 0x60, leBytes 4 conf.length ++ leBytes 2 (every.length - kept.length) ++ leBytes 2 b.drops ++ conf.flatMap Track.bytes),
       (addr, out)] with
  | (st, s) => s.fusEnd j.uid st

/-- Epoch `no` of the running numbering has been released; epochs are released in number order (R419, R437). -/
def State.epochReleased (s : State) (no : Nat) : Bool := s.sxt.oldest.any (fun e => no ≤ e.1)

/-- A job whose descriptor is `d`: its table, its epoch and its detections are read and checked in turn (R436, R437). -/
def State.fusRun (s : State) (j : FusJob) (d : Nat) : State :=
  let a := fusAccess j.inst
  match s.dmaRead a (bitsOf d 128 64) (64 + 65536) with
  | (st, table, s) =>
    if st ≠ .ok then s.fusEnd j.uid st else
    let elast := if bitAt d 44 then 0 else bitsOf (ofLeBytes (table.take 64)) 64 32
    let no := bitsOf d 0 32
    if no ≤ elast then s.fusEnd j.uid .denied
    else if !s.epochReleased no then s
    else
      match s.dmaRead sextantAccess (s.epochSlot no) 96 with
      | (st, hdr, s) =>
        if st ≠ .ok then s.fusEnd j.uid st
        else if ofLeBytes (hdr.take 4) ≠ no then s.fusEnd j.uid .decode
        else
          match s.dmaRead a (bitsOf d 64 64) (32 * bitsOf d 32 12) with
          | (st, dets, s) => if st ≠ .ok then s.fusEnd j.uid st else s.fuse j d table hdr dets

/-- FUSION_JOB: the oldest fusion job runs; it waits while its epoch is not released (R435 to R439). -/
def execFusionJob (s : State) : Host.Outcome State Fault Refusal :=
  s.sextantRun (fun s => match s.sxt.jobs with
    | [] => s
    | j :: _ =>
      match s.dmaNum (fusAccess j.inst) j.desc 64 with
      | (st, d, s) =>
        if st ≠ .ok then s.fusEnd j.uid st
        else if !fusOk d then s.fusEnd j.uid .denied
        else s.fusRun j d)

/-- FUSION_EPOCH_TIMEOUT: 200 ms after acceptance the epoch of job `u` is not released (R436). -/
def execFusionEpochTimeout (u : Nat) (s : State) : Host.Outcome State Fault Refusal :=
  s.attempt partySextant (some u) (fun s => if s.sxt.jobs.any (fun j => j.uid = u) then go (s.fusEnd u .timeout) else go s)

end Sys2Proof.Machine
end

