-- ==== Sys2Proof/Machine/Display.lean ====
section
/-! DEFINITION. Display pipes and late reprojection (12): submissions, the decision instant, band production and the late switch, the safety region, and the frame status word. -/

namespace Sys2Proof.Machine

/-! ### Pipes -/

/-- A display pipe; an unlisted one is idle. -/
def State.pipe (s : State) (d : Nat) : Pipe := tget {} s.dsp d

/-- QUEUE and SHOWN of a pipe follow its queue (Table dsp.3). -/
def State.syncPipe (s : State) (d : Nat) : State :=
  let p := s.pipe d
  let s := s.wr Reg.DSP_PIPE_QUEUE [d] p.queue.length
  s.wr Reg.DSP_PIPE_SHOWN [d] (match p.shown with
    | some u => (match p.queue.find? (fun f => f.uid = u) with | some f => f.id | none => 0)
    | none => 0)

/-- The state with a pipe replaced. -/
def State.setPipe (s : State) (d : Nat) (p : Pipe) : State := ({ s with dsp := tput s.dsp d p }).syncPipe d

/-- The governing fields of a pipe as its registers give them. -/
def State.pipeSet (s : State) (d : Nat) : PipeSet :=
  { warp := s.rd Reg.DSP_PIPE_WARP_MODE [d], crc := s.flag Reg.DSP_PIPE_CRC_EN [d], vsMsg := s.flag Reg.DSP_PIPE_VS_MSG [d],
    bpc := s.flag Reg.DSP_PIPE_BPC [d], evt := s.rd Reg.DSP_PIPE_EVT_VEC [d], tlate := s.rd Reg.DSP_PIPE_TLATE [d],
    staleN := s.rd Reg.DSP_PIPE_STALE_N [d], fx := s.rd Reg.DSP_PIPE_FX [d], fy := s.rd Reg.DSP_PIPE_FY [d],
    cx := s.rd Reg.DSP_PIPE_CX [d], cy := s.rd Reg.DSP_PIPE_CY [d], plane := s.rd Reg.DSP_PIPE_PLANE_MM [d], fill := s.rd Reg.DSP_PIPE_FILL [d] }

/-- The registers govern the pipe from now on (R372). -/
def State.latchPipe (s : State) (d : Nat) : State := s.setPipe d { s.pipe d with set := s.pipeSet d }

/-- A pipe runs. -/
def State.pipeOn (s : State) (d : Nat) : Bool := d < 4 && s.boot.mainUp && s.flag Reg.DSP_PIPE_ENABLE [d]

/-- Accesses of a pipe: the descriptor and event words for the instance, scanout and status with tag 36 (R376 to R378, R397). -/
def pipeAccess (inst : Nat) : Access := { tag := inst, pid := 0, src := .display, kind := .read }
def scanAccess : Access := { tag := 36, pid := 0, src := .display, kind := .read }

/-! ### Descriptors (R376, Table dsp.1) -/

/-- Fields of a frame descriptor. -/
def fdOffset (v : Nat) : Nat := bitsOf v 0 36
def fdFormat (v : Nat) : Nat := bitsOf v 40 8
def fdPitch (v : Nat) : Nat := bitsOf v 64 32
def fdPoseT (v : Nat) : Nat := bitsOf v 128 64
def fdReady (v : Nat) : Nat := bitsOf v 192 48
def fdX (v : Nat) : Nat := bitsOf v 384 16
def fdY (v : Nat) : Nat := bitsOf v 400 16
def fdW (v : Nat) : Nat := bitsOf v 416 16
def fdH (v : Nat) : Nat := bitsOf v 432 16

/-- A frame has a safety region. -/
def hasRegion (v : Nat) : Bool := fdW v ≠ 0 && fdH v ≠ 0

/-- Bytes of a pixel. -/
def fdBpp (v : Nat) : Nat := if fdFormat v = 0x07 then 8 else 4

/-- A descriptor that R376 admits on pipe `d`; one whose OFFSET or READY_ADDR is not aligned as Table dsp.1 gives it is denied as well (DESIGN CHOICE, log entry 17). -/
def State.frameOk (s : State) (d v : Nat) : Bool :=
  let w := s.rd Reg.DSP_PIPE_HACT [d]
  let h := s.rd Reg.DSP_PIPE_VACT [d]
  let row := w * fdBpp v
  bitsOf v 36 4 = 0 && bitsOf v 48 16 = 0 && bitsOf v 96 32 = 0 && bitsOf v 240 16 = 0 && bitsOf v 352 32 = 0 && bitsOf v 480 32 = 0
    && fdOffset v % 256 = 0 && [0x03, 0x04, 0x05, 0x07].contains (fdFormat v)
    && fdPitch v % 256 = 0 && row ≤ fdPitch v
    && fdOffset v + fdPitch v * (h - 1) + row ≤ 2 ^ s.rd Reg.DSP_PIPE_FB_LOG2 [d]
    && (!hasRegion v || (fdX v + fdW v ≤ w && fdY v + fdH v ≤ h))
    && fdReady v % 8 = 0 && (fdReady v = 0 || (1 ≤ bitsOf v 320 32 && bitsOf v 320 32 ≤ 100000))

/-- A command of pipe `d`, as an attempt of it (log entry 40). -/
def State.pipeRun (s : State) (d : Nat) (f : State → State) : Host.Outcome State Fault Refusal :=
  if d ≥ 4 then .refused .illFormed else s.attempt (partyPipe d) none (fun s => go (f s))

/-! ### Submissions (R375 to R378) -/

/-- A frame leaves its pipe, and its job ends with a status. -/
def State.frameEnd (s : State) (d u : Nat) (st : Status) : State :=
  let p := s.pipe d
  (s.setPipe d { p with queue := p.queue.filter (fun f => f.uid ≠ u), old := p.old.filter (fun f => f.uid ≠ u),
                        shown := if p.shown = some u then none else p.shown }).endJob u st

/-- The pipe reads the event word of its oldest incomplete submission (R378). -/
def State.pollReady (s : State) (d : Nat) : State :=
  let p := s.pipe d
  match p.queue.find? (fun f => !f.ready) with
  | none => s
  | some f =>
    match s.dmaNum (pipeAccess (s.rd Reg.DSP_PIPE_INST [d])) (fdReady f.desc) 8 with
    | (st, v, s) =>
      if st ≠ .ok then s.frameEnd d f.uid st
      else if v % 2 ^ 32 &&& bitsOf f.desc 288 32 = bitsOf f.desc 256 32 then
        s.setPipe d { p with queue := p.queue.map (fun x => if x.uid = f.uid then { x with ready := true } else x) }
      else s

/-- A dispatched frame enters the queue of its pipe (R375, R376). -/
def State.dspAccept (s : State) (d u id inst addr : Nat) : State :=
  match s.dmaNum (pipeAccess inst) addr 64 with
  | (st, v, s) =>
    if st ≠ .ok then s.endJob u st
    else if !s.frameOk d v then s.endJob u .denied
    else
      let p := s.pipe d
      let first := p.queue.all (fun f => f.ready)
      let s := s.setPipe d { p with queue := p.queue ++ [⟨u, id, v, fdReady v = 0⟩] }
      if first && fdReady v ≠ 0 then s.pollReady d else s

/-- FRAME_READY_POLL: 50 µs have passed, and pipe `d` reads the event word again (R378). -/
def execFrameReadyPoll (d : Nat) (s : State) : Host.Outcome State Fault Refusal :=
  s.pipeRun d (fun s => if s.pipeOn d then s.pollReady d else s)

/-- FRAME_READY_TIMEOUT: READY_TMO of submission `u` has passed before it was complete (R378). -/
def execFrameReadyTimeout (d u : Nat) (s : State) : Host.Outcome State Fault Refusal :=
  s.pipeRun d (fun s => if (s.pipe d).queue.any (fun f => f.uid = u && !f.ready) then s.frameEnd d u .timeout else s)

/-! ### The decision (R379, R380, R385) -/

/-- The submission behind a frame; the first one behind no frame, or behind one that has left the queue. -/
def Pipe.successor (p : Pipe) (u : Option Nat) : Option Frame :=
  match p.queue.dropWhile (fun f => some f.uid ≠ u) with
  | _ :: rest => rest.head?
  | [] => p.queue.head?

/-- The shown frame becomes another, or none; the former one waits for its record (R384). -/
def Pipe.supersede (p : Pipe) (next : Option Nat) : Pipe :=
  match p.shown with
  | none => { p with shown := next }
  | some u => { p with queue := p.queue.filter (fun f => f.uid ≠ u), old := p.old ++ p.queue.filter (fun f => f.uid = u), shown := next }

/-- DISPLAY_DECISION_INSTANT: pipe `d` takes its governing fields (R372) and chooses the frame of its next vsync (R380); an aborted shown frame is retired first (R385). -/
def execDisplayDecisionInstant (d : Nat) (s : State) : Host.Outcome State Fault Refusal :=
  if d ≥ 4 then .refused .illFormed
  else if !s.pipeOn d then go s
  else
    let s := s.latchPipe d
    let p := s.pipe d
    let gone := match p.shown with
      | some u => (match s.jobOf u with | some j => j.abort | none => false)
      | none => false
    match p.successor p.shown with
    | some f =>
      if f.ready then go ((s.setPipe d (p.supersede (some f.uid))).slotFree.schedule)
      else if gone then go ((s.setPipe d (p.supersede none)).slotFree.schedule)
      else go s
    | none => if gone then go ((s.setPipe d (p.supersede none)).slotFree.schedule) else go s

/-! ### Pixels (R377, R388 to R393, R396) -/

/-- A value of 0 to 1 in FP16, clamped, scaled by 1,023 and rounded to nearest, ties to even (R393). -/
def tenOfHalf (v : Nat) : Nat :=
  let x := ((fp16.decode v).max2 (flNat 0)).min2 (flNat 1)
  ((x.mul (flNat 1023)).toIntSat false 0 1023).toNat

/-- A channel in 10 bits, with its two low bits cleared at 8 bits per component. -/
def tenOf (bpc : Bool) (v : Nat) : Nat := if bpc then v else v / 4 * 4

/-- A pixel of a format as the 30 bits of R392. -/
def pixelOut (fmt : Nat) (bpc : Bool) (v : Nat) : Nat :=
  let c : Nat → Nat := fun k =>
    if fmt = 0x05 then bitsOf v (10 * k) 10
    else if fmt = 0x07 then tenOfHalf (bitsOf v (16 * k) 16)
    else let b := bitsOf v (8 * k) 8; b * 4 + b / 64
  tenOf bpc (c 0) + 2 ^ 10 * tenOf bpc (c 1) + 2 ^ 20 * tenOf bpc (c 2)

/-- Scanout of a row: each byte, or none where its read failed with one of the statuses of R396. -/
def State.scanRow (s : State) (addr n : Nat) : List (Option Byte) × State :=
  (linePieces (n / 64 + 2) addr n).foldl (fun (acc : List (Option Byte) × State) p =>
    match acc.2.dmaRead scanAccess p.1 p.2 with
    | (st, b, t) => (acc.1 ++ (if st = .ok then b.map some else List.replicate p.2 none), t)) ([], s)

/-- The pixels of a row: FILL where a byte is missing. -/
def rowPixels (fmt bpp : Nat) (bpc : Bool) (fill : Nat) (l : List (Option Byte)) (n : Nat) : List Nat :=
  (groupsOf bpp (n + 1) l).map (fun g =>
    if g.all (fun b => b.isSome) then pixelOut fmt bpc (ofLeBytes (g.map (fun b => b.getD 0))) else fill)

/-- The warp of a band: none, POSE_BAD, or warped by the delta of two poses (R386 to R389). -/
inductive Warp where
  | off | bad
  | on (a b : Kept)
  deriving DecidableEq, Repr

/-- The translation of a pose delta exceeds 2 m. -/
def translationExceeds (a b : Kept) : Bool :=
  let sq : Nat → Nat → Fl := fun x y => let d := (fp32.decode y).add (fp32.decode x).neg; d.mul d
  (flNat 4).lt (((sq a.x b.x).add (sq a.y b.y)).add (sq a.z b.z))

/-- Whether a band of a frame is warped. -/
def State.warpOf (s : State) (d v mid : Nat) : Warp :=
  if (s.pipe d).set.warp = 0 then .off
  else if fdPoseT v = 0 then .bad
  else match s.poseQuery (fdPoseT v), s.poseQuery mid with
    | some a, some b => if Config.rotationExceeds a.comps b.comps || translationExceeds a b then .bad else .on a b
    | _, _ => .bad

/-- A row of a frame: its pixels, and whether a read of it failed. -/
def State.sourceRow (s : State) (d v y : Nat) : List Nat × Bool × State :=
  let n := s.rd Reg.DSP_PIPE_HACT [d]
  let base := s.rdPair Reg.DSP_PIPE_FB_BASE_LO Reg.DSP_PIPE_FB_BASE_HI [d] + fdOffset v + fdPitch v * y
  let (raw, s) := s.scanRow base (n * fdBpp v)
  (rowPixels (fdFormat v) (fdBpp v) (s.pipe d).set.bpc (s.pipe d).set.fill raw n, raw.any (fun b => b.isNone), s)

/-- Rows of a frame by their lines, with whether any read failed. -/
def State.sourceRows (s : State) (d v : Nat) : List Nat → List (Nat × List Nat) × Bool × State
  | [] => ([], false, s)
  | y :: ys =>
    let (px, bad, s) := s.sourceRow d v y
    let (rest, bad', s) := s.sourceRows d v ys
    ((y, px) :: rest, bad || bad', s)

/-- A pixel lies in the safety region of a frame. -/
def inRegion (v x y : Nat) : Bool := hasRegion v && fdX v ≤ x && x < fdX v + fdW v && fdY v ≤ y && y < fdY v + fdH v

/-- What fixes H for a band: the mode, the plane, the intrinsics, and the two poses (R386 to R388). -/
def State.warpInputs (s : State) (d : Nat) (a b : Kept) : List Nat :=
  let p := (s.pipe d).set
  [p.warp, p.plane, p.fx, p.fy, p.cx, p.cy] ++ a.comps ++ b.comps

/-- The four taps of an output pixel lie in the source, whose size is `w` × `h` (R388). -/
def tapsInside (w h : Nat) (t : Int × Int) : Bool := 0 ≤ t.1 && 0 ≤ t.2 && t.1 + 1 < w && t.2 + 1 < h

/-- An output pixel of a warped band: copied in the safety region, FILL where a tap falls outside the source, else the four taps blended (R388, R390). -/
def warpPixel (inp : List Nat) (v w h fill : Nat) (rows : List (Nat × List Nat)) (x y : Nat) : Nat :=
  let at_ : Nat → Nat → Nat := fun x y => (tget [] rows y).getD x fill
  if inRegion v x y then at_ x y
  else
    let t := Config.warpAt inp x y
    if !tapsInside w h t then fill
    else
      let c := t.1.toNat
      let r := t.2.toNat
      Config.warpMix inp x y [at_ c r, at_ (c + 1) r, at_ c (r + 1), at_ (c + 1) (r + 1)] % 2 ^ 30

/-- The source lines that a warped band reads: those of its taps, and its own where the safety region crosses them. -/
def warpLines (inp : List Nat) (v w h : Nat) (lines : List Nat) : List Nat :=
  (lines.flatMap (fun y => (List.range w).flatMap (fun x =>
    if inRegion v x y then [y]
    else
      let t := Config.warpAt inp x y
      if tapsInside w h t then [t.2.toNat, t.2.toNat + 1] else []))).eraseDups

/-- The rows of a band, with whether a read failed: the frame's own pixels, or warped ones. -/
def State.bandRows (s : State) (d v : Nat) (w : Warp) (lines : List Nat) : List (List Nat) × Bool × State :=
  let n := s.rd Reg.DSP_PIPE_HACT [d]
  let h := s.rd Reg.DSP_PIPE_VACT [d]
  match w with
  | .on a b =>
    let inp := s.warpInputs d a b
    let fill := (s.pipe d).set.fill
    let (rows, bad, s) := s.sourceRows d v (warpLines inp v n h lines)
    (lines.map (fun y => (List.range n).map (fun x => warpPixel inp v n h fill rows x y)), bad, s)
  | _ =>
    let (rows, bad, s) := s.sourceRows d v lines
    (rows.map (fun r => r.2), bad, s)

/-- The part of a row that lies in the safety region. -/
def regionPart (v : Nat) (row : List Nat) : List Nat := (row.drop (fdX v)).take (fdW v)

/-! ### Periods and the late switch (R381 to R384) -/

/-- Bands of a frame, and the lines of a band (R371). -/
def State.bandCount (s : State) (d : Nat) : Nat := ceilDiv (s.rd Reg.DSP_PIPE_VACT [d]) 32
def State.bandLines (s : State) (d b : Nat) : List Nat :=
  (List.range 32).map (fun k => 32 * b + k) |>.filter (fun y => y < s.rd Reg.DSP_PIPE_VACT [d])

/-- A frame of the pipe by its job. -/
def Pipe.frame (p : Pipe) (u : Option Nat) : Option Frame := (p.queue ++ p.old).find? (fun f => some f.uid = u)

/-- The job id of a frame; 0 for none. -/
def Pipe.idOf (p : Pipe) (u : Option Nat) : Nat := match p.frame u with | some f => f.id | none => 0

/-- The age in µs of a pose time, of 32 bits; the spec states none for a time that lies ahead (free), nor for BLANK, which reads as POSE_T = 0. -/
def State.poseAge (s : State) (f : Option Frame) : Nat × State :=
  match f with
  | none => (2 ^ 32 - 1, s)
  | some f =>
    if fdPoseT f.desc = 0 then (2 ^ 32 - 1, s)
    else if fdPoseT f.desc ≤ s.epoch then ((s.epoch - fdPoseT f.desc) / 1000 % 2 ^ 32, s)
    else (s.freeVal % 2 ^ 32, s.drawn)

/-- Band 0 begins a new period with the chosen frame: NEW where it is another one than before, else REPROJECTED, or BLANK. -/
def State.newPeriod (s : State) (d : Nat) : State :=
  let p := s.pipe d
  let before := match p.period with | some q => q.cur | none => none
  let f := p.frame p.shown
  let kind := match p.shown with | none => 3 | some u => if before = some u then 1 else 0
  let (age, s) := s.poseAge f
  let id := p.idOf p.shown
  s.setPipe d { p with done := match p.period with | some q => if q.told then p.done else some q | none => none, period := some { kind := kind, jobA := id, jobB := id, cur := p.shown, age := age } }

/-- The switch of R382 at band `b`, with the rule of R383 for a safety region. A frame that it supersedes frees its slot (R111). -/
def State.lateSwitch (s : State) (d b : Nat) : State :=
  let p := s.pipe d
  match p.period, p.successor (match p.period with | some q => q.cur | none => none) with
  | some q, some f =>
    if !f.ready || !(q.kind = 1 || q.kind = 3) then s
    else
      let blocked := match p.frame q.cur with
        | some o => hasRegion o.desc && fdY o.desc ≤ 32 * b && 32 * b < fdY o.desc + fdH o.desc
        | none => false
      if blocked && !(p.force && b = 0) then
        let later : Bool := match p.frame q.cur with
          | some o => decide (fdY o.desc + fdH o.desc ≤ 32 * (s.bandCount d - 1))
          | none => true
        if later then s else s.setPipe d { p with force := true }
      else
        let q' : Period := if b = 0 then { q with kind := 0, jobA := f.id, jobB := f.id, cur := some f.uid }
          else { q with kind := 2, jobB := f.id, switchLine := 32 * b, cur := some f.uid }
        if p.shown = q.cur then (s.setPipe d { p.supersede (some f.uid) with period := some q', force := false }).slotFree
        else s.setPipe d { p with period := some q', force := false }
  | _, _ => s

/-- START of a frame whose first line a later band brings: the band is scanned out one band-time after its production begins (R381, R385). -/
def State.stampStart (s : State) (u : Option Nat) (t : Nat) : State :=
  match u with
  | none => s
  | some u => match s.jobOf u with
    | some j => if j.start.isNone then s.setJob { j with start := some t } else s
    | none => s

/-- One band-time in ns. -/
def State.bandTime (s : State) (d : Nat) : Nat := 32 * s.rd Reg.DSP_PIPE_HTOT [d] * 1000000 / max 1 (s.rd Reg.DSP_PIPE_KHZ [d])

/-- Pixels that the FIFO cannot supply are output as FILL (R396). -/
def withUnder (fill : Nat) (under : List Nat) (l : List Nat) : List Nat :=
  ((List.range l.length).zip l).map (fun e => if under.contains e.1 then fill else e.2)

/-- The region's pixels of a band join those of its frame; they start with the region's first row. -/
def Period.addRegion (q : Period) (f : Frame) (rows : List (Nat × List Nat)) : Period :=
  if !hasRegion f.desc then q else
  rows.foldl (fun q r =>
    if fdY f.desc ≤ r.1 && r.1 < fdY f.desc + fdH f.desc then
      if r.1 = fdY f.desc then { q with rgn := some f.uid, rgnPix := regionPart f.desc r.2, rgnSize := fdW f.desc * fdH f.desc,
                                        rgnCrc := bitsOf f.desc 448 32 }
      else if q.rgn = some f.uid then { q with rgnPix := q.rgnPix ++ regionPart f.desc r.2 }
      else q
    else q) q

/-- One band is produced (R381, R382, R387 to R391, R396). -/
def State.produceBand (s : State) (d mid : Nat) (under : List Nat) : State :=
  let p := s.pipe d
  match p.period with
  | none => s
  | some q =>
    let b := q.band
    let lines := s.bandLines d b
    let n := s.rd Reg.DSP_PIPE_HACT [d]
    let fill := (s.pipe d).set.fill
    match p.frame q.cur with
    | none => s.setPipe d { p with period := some { q with band := b + 1 }, band := List.replicate (n * lines.length) fill }
    | some f =>
      let w := s.warpOf d f.desc mid
      let (rows, bad, s) := s.bandRows d f.desc w lines
      let flat := withUnder fill under (rows.flatMap (fun r => r))
      let rows := groupsOf (max 1 n) (lines.length + 1) flat
      let q := q.addRegion f (lines.zip rows)
      let s := if q.kind = 2 && q.switchLine = 32 * b then s.stampStart q.cur (s.epoch + s.bandTime d) else s
      s.setPipe d { p with band := flat, period := some { q with
        band := b + 1, warp := q.warp || (w ≠ .off && w ≠ .bad), poseBad := q.poseBad || w = .bad,
        underflow := q.underflow || under.any (fun k => k < flat.length), poison := q.poison || bad } }

/-- The first band of a period decides its late switch: the mark of a frame that must be shown anew is dropped with it (R380). -/
def State.dropForce (s : State) (d b : Nat) : State := if b = 0 then s.setPipe d { s.pipe d with force := false } else s

/-- BAND_PRODUCTION: production of the next band of pipe `d` begins (R378, R381 to R383, R387). `mid` is the Epoch time of the band's mid-scanout, and `under` names the pixels of the band that the scanout FIFO cannot supply in time (R396). -/
def execBandProduction (d mid : Nat) (under : List Nat) (s : State) : Host.Outcome State Fault Refusal :=
  s.pipeRun d (fun s =>
    if !s.pipeOn d then s
    else
      let s := s.pollReady d
      let fresh := match (s.pipe d).period with | none => true | some q => s.bandCount d ≤ q.band
      let s := if fresh then s.newPeriod d else s
      let b := match (s.pipe d).period with | some q => q.band | none => 0
      (((s.lateSwitch d b).dropForce d b).produceBand d mid under).schedule)

/-- VSYNC: the first active line of pipe `d` starts scanout (R371, R373): the vsync is stamped, VSYNC_NO counts, a frame that is new at line 0 takes its START, and a hold of R363 ends. -/
def execVsync (d : Nat) (s : State) : Host.Outcome State Fault Refusal :=
  if d ≥ 4 then .refused .illFormed
  else
    let s := s.endHolds d
    if !s.pipeOn d then go s
    else
      let s := s.incWrap Reg.DSP_PIPE_VSYNC_NO [d] 1
      let p := s.pipe d
      match p.period with
      | none => go s
      | some q => go ((s.setPipe d { p with period := some { q with vsync := s.epoch } }).stampStart (if q.kind = 0 then q.cur else none) s.epoch)

/-- FRAME_RETIRE: the last framebuffer read of the superseded frame `u` has returned, and its record is written (R384, R385). -/
def execFrameRetire (d u : Nat) (s : State) : Host.Outcome State Fault Refusal :=
  s.pipeRun d (fun s =>
    let p := s.pipe d
    let busy := match p.period with | some q => q.cur = some u && q.band < s.bandCount d | none => false
    if p.old.any (fun f => f.uid = u) && !busy then s.frameEnd d u .ok else s)

/-! ### The safety region (R392, R394) -/

/-- One step of the reflected CRC-32. -/
def crc32Bit (c : Nat) : Nat := if c % 2 = 1 then c / 2 ^^^ 0xEDB88320 else c / 2

/-- The CRC-32 of IEEE 802.3 over bytes. -/
def crc32 (b : List Byte) : Nat :=
  b.foldl (fun c x => crc32Bit (crc32Bit (crc32Bit (crc32Bit (crc32Bit (crc32Bit (crc32Bit (crc32Bit (c ^^^ x.toNat))))))))) 0xFFFFFFFF ^^^ 0xFFFFFFFF

/-- A message EVT_VEC to the instance of a pipe. -/
def State.pipeEvent (s : State) (d : Nat) : State := s.send (s.rd Reg.DSP_PIPE_INST [d]) (s.pipe d).set.evt

/-- The region of a period is checked once it is complete. -/
def State.checkRegion (s : State) (d : Nat) (q : Period) : Period × State :=
  if q.crcChecked || q.rgn.isNone || q.rgnPix.length < q.rgnSize then (q, s)
  else if crc32 (q.rgnPix.flatMap (leBytes 4)) = q.rgnCrc then ({ q with crcChecked := true }, s)
  else ({ q with crcChecked := true, crcFail := true }, (((s.incSat Reg.DSP_PIPE_CRC_FAILS [d] 1).raise 8).pipeEvent d))

/-- REGION_CRC_CHECK: the CRC of the safety region is compared, after the region's last line (R394). -/
def execRegionCrcCheck (d : Nat) (s : State) : Host.Outcome State Fault Refusal :=
  if d ≥ 4 then .refused .illFormed
  else if !s.pipeOn d || !(s.pipe d).set.crc then go s
  else
    let p := s.pipe d
    match p.done with
    | some q =>
      let (q, s) := s.checkRegion d q
      go (s.setPipe d { p with done := some q })
    | none => match p.period with
      | some q =>
        let (q, s) := s.checkRegion d q
        go (s.setPipe d { p with period := some q })
      | none => go s

/-! ### The status word (R395, R397, Table dsp.2) -/

/-- The 32 bytes of a status word. -/
def statusWord (q : Period) (vno : Nat) (link stale : Bool) : List Byte :=
  leBytes 8 q.vsync ++ leBytes 4 vno ++ leBytes 4 q.jobA ++ leBytes 4 q.jobB ++ leBytes 1 q.kind
    ++ leBytes 1 (ofBits [q.warp, q.poseBad, q.crcChecked, q.crcFail, q.underflow, q.poison, link, stale])
    ++ leBytes 2 q.switchLine ++ leBytes 4 q.age ++ leBytes 4 0

/-- A frame period ends: staleness, counters, the status word and its message (R395, R397). -/
def State.endPeriod (s : State) (d : Nat) (q : Period) : State :=
  let p := s.pipe d
  let n := p.set.staleN
  let run := if q.kind = 1 || q.kind = 3 then p.stale + 1 else 0
  let hit := n ≠ 0 && run ≠ 0 && run % n = 0
  let s := s.setPipe d { p with stale := run }
  let s := if hit then ((s.incSat Reg.DSP_PIPE_STALES [d] 1).raise 9).pipeEvent d else s
  let s := if q.kind = 1 then s.incSat Reg.DSP_PIPE_REPROJ [d] 1 else if q.kind = 2 then s.incSat Reg.DSP_PIPE_MIXED [d] 1 else s
  let s := if q.underflow then s.incSat Reg.DSP_PIPE_UNDERRUNS [d] 1 else s
  let s := if q.poseBad then s.incSat Reg.DSP_PIPE_POSE_BADS [d] 1 else s
  let vno := s.rd Reg.DSP_PIPE_VSYNC_NO [d]
  let addr := s.rdPair Reg.DSP_PIPE_RING_LO Reg.DSP_PIPE_RING_HI [d] + 32 * (vno % 2 ^ s.rd Reg.DSP_PIPE_RING_LOG2 [d])
  let s := (s.dmaWrite scanAccess addr (statusWord q vno (s.rd Reg.DSP_PIPE_STATE [d] ≠ 2) (n ≠ 0 && n ≤ run))).2
  if p.set.vsMsg then s.pipeEvent d else s

/-- FRAME_STATUS_WRITE: the last active line of a frame period of pipe `d` has ended (R395, R397). -/
def execFrameStatusWrite (d : Nat) (s : State) : Host.Outcome State Fault Refusal :=
  s.pipeRun d (fun s =>
    if !s.pipeOn d then s
    else
      let p := s.pipe d
      match p.done with
      | some q => (s.setPipe d { p with done := none }).endPeriod d q
      | none => match p.period with
        | some q =>
          if q.band < s.bandCount d || q.told then s
          else (s.setPipe d { p with period := some { q with told := true } }).endPeriod d q
        | none => s)

/-! ### Links, enable and disable (R374, R398) -/

/-- DISPLAY_LINK_DOWN: the output link of pipe `d` is lost; retraining starts, and the pipe goes on (R374). -/
def execDisplayLinkDown (d : Nat) (s : State) : Host.Outcome State Fault Refusal :=
  if d ≥ 4 then .refused .illFormed
  else if s.pipeOn d && s.rd Reg.DSP_PIPE_STATE [d] = 2 then go (s.wr Reg.DSP_PIPE_STATE [d] 3) else go s

/-- DISPLAY_LINK_TRAINED: the output link of pipe `d` is trained (R374). -/
def execDisplayLinkTrained (d : Nat) (s : State) : Host.Outcome State Fault Refusal :=
  if d ≥ 4 then .refused .illFormed
  else if s.pipeOn d then go (s.wr Reg.DSP_PIPE_STATE [d] 2) else go s

/-- A COMMIT sets ENABLE: the pipe starts with nothing shown under the fields committed, and its link trains. -/
def State.pipeEnable (s : State) (d : Nat) : State :=
  ((s.setPipe d { set := s.pipeSet d }).wr Reg.DSP_PIPE_STATE [d] 1).wr Reg.DSP_PIPE_VSYNC_NO [d] 0

/-- A COMMIT clears ENABLE (R398): queued and shown frames end with ST_ABORTED, and superseded ones as they would. -/
def State.pipeDisable (s : State) (d : Nat) : State :=
  let p := s.pipe d
  let s := p.old.foldl (fun s f => s.frameEnd d f.uid .ok) s
  let s := p.queue.foldl (fun s f => s.frameEnd d f.uid .aborted) s
  (s.setPipe d {}).wr Reg.DSP_PIPE_STATE [d] 0

/-- An abort of a frame: a queued one leaves the queue, a shown one goes at the next decision instant (R385). -/
def State.frameAbort (s : State) (u : Nat) : State :=
  match s.dsp.find? (fun e => e.2.queue.any (fun f => f.uid = u)) with
  | some (d, p) => if p.shown = some u then s else s.frameEnd d u .aborted
  | none => s

end Sys2Proof.Machine
end

