-- ==== Sys2Proof/Machine/Engines.lean ====
section
/-! DEFINITION. Engine jobs as contexts see them (03, R109 to R112; R74 to R77): DISPATCH with the admission of each engine, the wait for a slot, and ABORT. -/

namespace Sys2Proof.Machine

/-! ### Admission (R111 and the engines' home chapters) -/

/-- What an engine answers to a DISPATCH: a status without a job; its queue is full; a job that ends at once with a status; or a job, with its primary resource (Table orr.3) and what the admission has read: the process identifier of a stream, the descriptor of a compute job. -/
inductive Admit where
  | no (st : Status)
  | full
  | ends (st : Status)
  | yes (res : Option Nat) (aux : Nat)
  deriving DecidableEq, Repr

/-- The tiles of a mask, and the clusters of a mask. -/
def maskBits64 (m : Nat) : List Nat := (List.range 64).filter (bitAt m)

/-- A tile descriptor chain (R300); the array holds 256 accepted jobs. -/
def State.admitInf (s : State) (inst mask : Nat) : Admit :=
  if mask = 0 || (maskBits64 mask).any (fun t => t ≥ s.fuses.variant.tiles) then .no .decode
  else if (maskBits64 mask).any (fun t => !([0, 1, 2, 3].any (fun g => s.flag Reg.INF_SLICE_VALID [t, g] && s.rd Reg.INF_SLICE_INST [t, g] = inst))) then
    .no .denied
  else if s.inf.jobs.length ≥ 256 then .full
  else .yes (some 22) 0

/-- The process identifier of the first PASS_BEGIN of a stream, as far as `fuel` packets (R346); a stream without one has 0. -/
def State.streamPid : (fuel : Nat) → State → (inst addr : Nat) → Nat × State
  | 0, s, _, _ => (0, s)
  | fuel + 1, s, inst, addr =>
    match s.packetWords inst addr with
    | (st, w, t) =>
      let ty := w.headD 0 % 256
      if st ≠ .ok || !packetOk (w.headD 0) w.tail || ty = 0 then (0, t)
      else if ty = 1 then (w.getD 2 0 % 2 ^ 20, t)
      else State.streamPid fuel t inst (if ty = 8 then w.getD 1 0 else addr + 8 * packetLen ty)

/-- Every cluster of a mask holds a valid grant for an instance and a process identifier. -/
def State.clustersGrant (s : State) (mask inst pid : Nat) : Bool :=
  (List.range 8).all (fun c => !bitAt mask c || (s.clGrant c inst pid).isSome)

/-- A graphics packet stream (R346). -/
def State.admitGfx (s : State) (inst desc ext2 : Nat) : Admit × State :=
  let g := ext2 % 32
  let mask := bitsOf ext2 8 8
  if mask = 0 then (.no .decode, s)
  else if bitsOf ext2 5 3 ≠ 0 || ext2 / 2 ^ 16 ≠ 0 || !s.flag Reg.GFX_GCTX_ENABLE [g] || s.rd Reg.GFX_GCTX_INST [g] ≠ inst
      || s.gfx.jobs.any (fun j => j.gctx = g) then (.no .denied, s)
  else
    match State.streamPid 4096 s inst desc with
    | (pid, t) => (if t.clustersGrant mask inst pid then .yes (some 23) pid else .no .denied, t)

/-- A compute job (R358). A descriptor that cannot be read ends the job with that status. -/
def State.admitComp (s : State) (inst desc ext2 : Nat) : Admit × State :=
  if ext2 % 256 = 0 then (.no .decode, s)
  else if ext2 / 256 ≠ 0 then (.no .denied, s)
  else
    match s.dmaNum (gfxAccess inst 0) desc 64 with
    | (st, d, t) =>
      if st ≠ .ok then (.ends st, t)
      else (if t.clustersGrant (ext2 % 256) inst (compPid d) then .yes (some 23) d else .no .denied, t)

/-- A frame submission (R375). -/
def State.admitFrame (s : State) (inst ext2 : Nat) : Admit :=
  let d := ext2 % 4
  if ext2 / 4 ≠ 0 || !s.flag Reg.DSP_PIPE_ENABLE [d] || s.rd Reg.DSP_PIPE_INST [d] ≠ inst then .no .denied
  else if (s.pipe d).queue.length ≥ 4 then .full
  else .yes none 0

/-- A Crypto Engine job (08, The Crypto Engine; Table enc.6). -/
def State.admitCry (s : State) (inst ext2 : Nat) : Admit :=
  if ext2 % 4 ≥ s.fuses.variant.xds then .no .decode
  else if ext2 / 4 ≠ 0 || !bitAt (s.rd Reg.CRY_GRANT [ext2 % 4]) inst then .no .denied
  else .yes (some (25 + ext2 % 4)) 0

/-- A Gateway Engine job (14, Transmit jobs). -/
def State.admitNet (s : State) (ext2 : Nat) : Admit :=
  if ext2 % 4 ≥ s.fuses.variant.xds then .no .decode
  else if ext2 ≠ ext2 % 4 + bitsOf ext2 8 7 * 256 || bitsOf ext2 8 7 = 0 || bitsOf ext2 8 7 > 64 then .no .denied
  else .yes none 0

/-- The admission of a job by the engine that X8 names (R111, Table isa.6). -/
def State.admitJob (s : State) (inst kind desc ext2 : Nat) : Admit × State :=
  match kind with
  | 1 => (s.admitInf inst ext2, s)
  | 2 => s.admitGfx inst desc ext2
  | 3 => s.admitComp inst desc ext2
  | 4 => (s.admitFrame inst ext2, s)
  | 5 => (if ext2 ≠ 0 || s.rd Reg.SXT_CFG_INST [] ≠ inst then .no .denied else .yes none 0, s)
  | 6 => (s.admitCry inst ext2, s)
  | 7 => (s.admitNet ext2, s)
  | _ => (.no .decode, s)

/-! ### DISPATCH (R109 to R111) -/

/-- An admitted job enters its engine. -/
def State.enterEngine (s : State) (u inst kind desc id ext2 aux : Nat) : State :=
  match kind with
  | 1 => s.infAccept u inst ext2 desc
  | 2 => s.gfxAccept { uid := u, gctx := ext2 % 32, inst := inst, mask := bitsOf ext2 8 8, pc := desc, pid := aux }
  | 3 => s.compAccept { uid := u, inst := inst, mask := ext2 % 256, desc := aux }
  | 4 => s.dspAccept (ext2 % 4) u id inst desc
  | 5 => s.setSxt { s.sxt with jobs := s.sxt.jobs ++ [⟨u, inst, desc⟩] }
  | 6 => s.cryAccept (ext2 % 4) u inst desc
  | _ => s.setNet { s.net with jobs := s.net.jobs ++ [{ uid := u, xd := ext2 % 4, count := bitsOf ext2 8 7 }] }

/-- A job becomes outstanding (R111): the state with it, and its number. -/
def State.newJob (s : State) (n kind id desc record param : Nat) (res : Option Nat) : Nat × State :=
  let u := s.cmp.nextUid
  let j : Job := { uid := u, ctx := n, engine := kind, id := id, desc := desc, record := record, param := param,
                   inst := s.ctxInst n, unitRes := res.getD 0xFF }
  (u, { s with cmp := { s.cmp with jobs := s.cmp.jobs ++ [j], nextUid := u + 1 } })

/-- A job that is admitted: one whose instance has no budget for its primary resource is refused in its record (R167); any other enters its engine. -/
def State.acceptJob (s : State) (n kind id desc record param : Nat) (res : Option Nat) (aux : Nat) : State :=
  let (u, t) := s.newJob n kind id desc record param res
  match res with
  | some r =>
    if s.noBudget r (s.ctxInst n) then (t.refuseActivity r (s.ctxInst n)).endJob u .refused
    else t.enterEngine u (s.ctxInst n) kind desc id param aux
  | none => t.enterEngine u (s.ctxInst n) kind desc id param aux

/-- The jobs that a context holds outstanding. -/
def State.jobsOf (s : State) (n : Nat) : List Job := s.cmp.jobs.filter (fun j => j.ctx = n)

/-- DISPATCH hands the job at KA to the engine in X8, or waits for a slot (R109 to R111). The spec gives no order between its checks: the engine's own ST_DECODE or ST_DENIED is judged first, then an id that is outstanding, then the wait at 64 jobs (DESIGN CHOICE, log entry 47). -/
def execDispatch (i : Issue) (s : State) : Host.Outcome State Fault Refusal :=
  s.attempt (partyCtx i.ctx) none (fun s => s.issue i 0x50 (fun a c =>
    let n := i.ctx
    let kind := a.x8.toNat
    let id := a.i32.toNat
    let desc := (c.ka a).toNat
    let inst := s.ctxInst n
    let wait (t : State) : State :=
      (t.spend n i.cyc).suspend n (.slot kind id desc i.e1.toNat i.e2.toNat) a.c 3
    match s.admitJob inst kind desc i.e2.toNat with
    | (.no st, t) => t.retire n i.cyc a.c 3 st (fun c => c)
    | (adm, t) =>
      if t.outstanding n id then t.retire n i.cyc a.c 3 .denied (fun c => c)
      else if (t.jobsOf n).length ≥ 64 then wait t
      else match adm with
        | .yes res aux => (t.acceptJob n kind id desc i.e1.toNat i.e2.toNat res aux).retire n i.cyc a.c 3 .ok (fun c => c)
        | .ends st =>
          let (u, t) := t.newJob n kind id desc i.e1.toNat i.e2.toNat (some 23)
          (t.endJob u st).retire n i.cyc a.c 3 .ok (fun c => c)
        | _ => wait t))

/-- DISPATCH_SLOT_TIMEOUT: 100 µs of waiting for a slot have passed (R111). -/
def execDispatchSlotTimeout (n : Nat) (s : State) : Host.Outcome State Fault Refusal :=
  match (s.ctx n).wait with
  | some (.slot _ _ _ _ _) => go (s.retireWait n .timeout id)
  | _ => go s

/-! ### ABORT (R74 to R77, R112) -/

/-- A job is past its completion point while its record is still to be written (R76, R303, R351, R384, R460). -/
def State.jobDone (s : State) (j : Job) : Bool :=
  match j.phase with
  | .complete _ => true
  | _ =>
    match j.engine with
    | 1 => (match s.infJob j.uid with
        | some x => x.next = 0 && (List.range 64).all (fun t => (s.tileQueue t).all (fun e => e.uid ≠ j.uid))
        | none => false)
    | 2 => (match s.gfxJob j.uid with | some x => x.ended | none => false)
    | 4 => (s.pipe (j.param % 4)).old.any (fun f => f.uid = j.uid)
    | 7 => (match s.netJob j.uid with | some x => x.done.length ≥ x.count | none => false)
    | _ => false

/-- The job of a Crypto Engine by its number. -/
def CryEngine.job (x : CryEngine) (u : Nat) : Option CryJob := (x.saved ++ x.waiting).find? (fun j => j.uid = u)

/-- An abort reaches the unit of an outstanding engine job: past its completion point its record reports ST_COMPLETED_BEFORE_ABORT; before it the job stops at its engine's boundary (R75, R76, R270, R323, R366, R385, R440, R461). -/
def State.abortJob (s : State) (j : Job) : State :=
  if j.abort then s
  else if s.jobDone j then s.setJob { j with phase := .complete .completedBeforeAbort }
  else
    match j.engine with
    | 1 => s.infEnd j.uid .aborted
    | 2 => s.gfxEnd j.uid .aborted
    | 3 => s.compEnd j.uid .aborted
    | 4 => (s.setJob { j with abort := true }).frameAbort j.uid
    | 5 => s.fusEnd j.uid .aborted
    | 6 =>
      match (s.cryEngine (j.param % 4)).job j.uid with
      | some x => (s.cryAbort (j.param % 4) x).cryEnd (j.param % 4) x .aborted
      | none => s.setJob { j with abort := true }
    | _ => (s.setJob { j with abort := true }).netAbort j.uid

/-- The program of another context is aborted at its instruction boundary; once its status is decided the abort comes too late, but a program that an earlier ABORT has stopped keeps ST_ABORTED (R75, R76). -/
def State.abortProgram (s : State) (m : Nat) (p : Prog) : State :=
  match p.ending with
  | some .aborted => s
  | some _ => s.setCtx m { s.ctx m with prog := some { p with ending := some .completedBeforeAbort } }
  | none => (s.leaveQueues m).endWith m .aborted

/-- What ABORT of job `id` of kind `kind` in context `m` does, and its status (R112). A kind that Table isa.6 reserves names no engine: the spec gives no status for it, and it is ST_DECODE, even where the id is in the history (DESIGN CHOICE, log entry 47). -/
def State.abort (s : State) (n kind id m : Nat) : Status × State :=
  if n ≠ 0 && s.ctxInst m ≠ s.ctxInst n then (.denied, s.violation (s.ctxInst n))
  else
    let past := (s.ctx m).history.any (fun e => e.1 = id)
    if kind = 0 then
      match (s.ctx m).prog with
      | some p =>
        if p.jobId = id then (if m = n then (.denied, s) else (.ok, s.abortProgram m p))
        else (if past then .completedBeforeAbort else .decode, s)
      | none => (if past then .completedBeforeAbort else .decode, s)
    else
      match s.cmp.jobs.find? (fun j => j.ctx = m && j.id = id && j.engine = kind) with
      | some j => (.ok, s.abortJob j)
      | none => (if kind ≤ 7 && past then .completedBeforeAbort else .decode, s)

/-- ABORT delivers an abort to the unit that runs the named job (R112). -/
def execAbort (i : Issue) (s : State) : Host.Outcome State Fault Refusal :=
  s.attempt (partyCtx i.ctx) none (fun s => s.issue i 0x51 (fun a c =>
    match s.abort i.ctx a.x8.toNat ((c.ka a).toNat % 2 ^ 32) ((c.kb a).toNat % 64) with
    | (st, t) => t.retire i.ctx i.cyc a.c 1 st (fun c => c)))

end Sys2Proof.Machine
end

