-- ==== Sys2Proof/Machine/Staging.lean ====
section
/-! DEFINITION. Staging and fetching state (02, R58 to R61; 03, R99, R100, R107, R108, R178): which fields a context may reach, the staging buffers and the space locks, what FETCH reads, and the meanings of STAGE, STAGEI, DISCARD and FETCH. -/

namespace Sys2Proof.Machine

/-! ### Entries and the fields that they cover -/

/-- A field at its indices. -/
abbrev FieldAt := Row × List Nat

/-- The fields of a word that the bits [lo + width - 1 : lo] touch. -/
def coveredAt (space word lo width : Nat) : List FieldAt :=
  (liveFields space word).filter (fun f => f.1.lo < lo + width && lo < f.1.lo + f.1.width)

/-- The fields that an entry covers. -/
def Staged.covers (e : Staged) : List FieldAt := coveredAt e.space e.word e.lo e.width

/-- The entry that stages a value into a whole field. -/
def stageOf (r : Row) (ix : List Nat) (v : Nat) : Staged := ⟨r.space, r.base + joinOffset r.dims ix, r.lo, r.width, v % 2 ^ r.width⟩

/-! ### Ownership (R58) -/

/-- The resource number that decides who owns a field of a port, a controller or an interrupt source (R259). -/
def portRes (r : Row) (ix : List Nat) : Nat :=
  if r.space = 0x0D then ownIndex 0 (ix.getD 0 0) (ix.getD 1 0)
  else if r.space = 0x0E then ownIndex 1 (ix.getD 0 0) (ix.getD 1 0)
  else ownIndex 7 (srcDie (ix.getD 0 0)) (ix.getD 1 0)

/-- An instance owns a field at its indices: the resource that the field belongs to is granted to it. -/
def State.ownsField (s : State) (inst : Nat) (f : FieldAt) : Bool :=
  let k := f.2.getD 0 0
  match f.1.owns with
  | .none => false
  | .inst => k = inst
  | .every => true
  | .port => s.rd Reg.ENC_OWN_OWNER [portRes f.1 f.2] = inst
  | .ert => s.rd Reg.ENC_ERT_INST [k] = inst
  | .gctx => s.rd Reg.GFX_GCTX_INST [k] = inst
  | .pipe => s.rd Reg.DSP_PIPE_INST [k] = inst
  | .stream => s.rd Reg.SNS_STREAM_OWNER [k] = inst
  | .fusion => s.rd Reg.SXT_CFG_INST [] = inst
  | .cryKey => s.rd Reg.CRY_KEY_OWNER f.2 = inst
  | .budget => k % 64 = inst
  | .ownWord => s.rd Reg.ENC_OWN_OWNER [k] = inst

/-- Context `n` may reach the bits of a word (R58): context 0 reaches all; a tenant context the fields of its instance, and bits that are reserved only where it may reach some field of the word. -/
def State.mayReach (s : State) (n : Nat) (fetch : Bool) (space word lo width : Nat) : Bool :=
  if n = 0 then true else
  let ok (f : FieldAt) : Bool := s.ownsField (s.ctxInst n) f && (fetch || !f.1.fetchOnly)
  match coveredAt space word lo width with
  | [] => (liveFields space word).any ok
  | c => c.all ok

/-- What STAGE finds wrong with an entry before it takes the lock: a space or word that does not exist (R99), or a field that the context may not reach (R58). -/
def State.stageStatus (s : State) (n : Nat) (e : Staged) : Status :=
  if !wordDecoded e.space e.word then .decode
  else if !s.mayReach n false e.space e.word e.lo e.width then .denied
  else .ok

/-! ### Staging (R59 to R61, R100) -/

/-- The first STAGE opens a sequence (R59). -/
def State.openSeq (s : State) (n : Nat) : State := s.setCtx n { s.ctx n with seqOpen := true }

/-- Context `n` may take, or holds, the sequence lock of a space: a lock that is free goes to the first waiter (R61). -/
def State.lockFree (s : State) (space n : Nat) : Bool :=
  match s.cmp.locks.find? (fun e => e.1 = space) with
  | some e => e.2 = n
  | none => !s.cmp.lockQ.any (fun e => e.1 = space)

/-- An entry joins the staging buffer, and the sequence holds the lock of its space. -/
def State.addStaged (s : State) (n : Nat) (e : Staged) : State :=
  let s := s.setCtx n { s.ctx n with staged := (s.ctx n).staged ++ [e] }
  if s.cmp.locks.any (fun l => l.1 = e.space) then s else { s with cmp := { s.cmp with locks := s.cmp.locks ++ [(e.space, n)] } }

/-- The word that a STAGE or FETCH names: I32[15:0] plus KA[15:0] (03, Table isa.5). -/
def fieldWord (a : AWord) (c : Ctx) : Nat := bitsOf a.i32.toNat 0 16 + (c.ka a).toNat % 2 ^ 16

/-- STAGE and STAGEI of a value, taking `adv` words (R59 to R61, R99, R100). -/
def State.stage (s : State) (i : Issue) (a : AWord) (c : Ctx) (v : DWord) (adv : Nat) : State :=
  let n := i.ctx
  let e : Staged := ⟨a.x8.toNat, fieldWord a c, bitsOf a.i32.toNat 16 5, bitsOf a.i32.toNat 21 5 + 1, v.toNat % 2 ^ 32⟩
  let s := s.openSeq n
  if c.seqFailed then s.retire n i.cyc a.c adv .refused id
  else if c.staged.length ≥ 256 then (s.setCtx n { s.ctx n with seqFailed := true }).retire n i.cyc a.c adv .refused id
  else
    match s.stageStatus n e with
    | .denied => (s.violation (s.ctxInst n)).retire n i.cyc a.c adv .denied id
    | .decode => s.retire n i.cyc a.c adv .decode id
    | _ =>
      if s.lockFree e.space n then (s.addStaged n e).retire n i.cyc a.c adv .ok id
      else
        let s := { s with cmp := { s.cmp with lockQ := s.cmp.lockQ ++ [(e.space, n)] } }
        (s.spend n i.cyc).suspend n (.spaceLock e) a.c adv

/-- STAGE places KB into the staging buffer (R100). -/
def execStage (i : Issue) (s : State) : Host.Outcome State Fault Refusal :=
  s.issue i 0x40 (fun a c => s.stage i a c (c.kb a) 1)

/-- STAGEI places its extension word into the staging buffer (R100). -/
def execStagei (i : Issue) (s : State) : Host.Outcome State Fault Refusal :=
  s.issue i 0x41 (fun a c => s.stage i a c i.e1 2)

/-- SPACE_LOCK_GRANT: the lock of a space is free, and the first context that waits for it takes it (R61). -/
def execSpaceLockGrant (space : Nat) (s : State) : Host.Outcome State Fault Refusal :=
  if s.cmp.locks.any (fun e => e.1 = space) then go s else
  match s.cmp.lockQ.find? (fun e => e.1 = space) with
  | none => go s
  | some (_, n) =>
    match (s.ctx n).wait with
    | some (.spaceLock e) => go (((s.leaveQueues n).addStaged n e).retireWait n .ok id)
    | _ => go s

/-- SPACE_LOCK_TIMEOUT: a STAGE of context `n` has waited 100 µs (R61). The rest of its sequence stays. -/
def execSpaceLockTimeout (n : Nat) (s : State) : Host.Outcome State Fault Refusal :=
  match (s.ctx n).wait with
  | some (.spaceLock _) => go ((s.leaveQueues n).retireWait n .timeout id)
  | _ => go s

/-- DISCARD drops the open sequence and its locks (R108). -/
def execDiscard (i : Issue) (s : State) : Host.Outcome State Fault Refusal :=
  s.issue i 0x43 (fun a _ => (s.discardSeq i.ctx).retire i.ctx i.cyc a.c 1 .ok id)

/-! ### What FETCH reads (R107, R178) -/

/-- CMD.CTX[n].STAT.STATE (02, Table cmd.9): 0 idle, 1 ready, 2 running, 3 waiting, 4 deferred, while the instance has no budget (R55, R165). -/
def State.ctxState (s : State) (n : Nat) : Nat :=
  match (s.ctx n).run with
  | .idle => 0
  | .ready => match (s.ctx n).wait with
    | some .budget => 4
    | some _ => 3
    | none => if s.mayServe 24 (s.ctxInst n) then 1 else 4
  | .running _ => 2
  | .waiting => 3

/-- CLK.DOM[d] as it reads (15, Table clk.1): a domain that is off reads 0, and the pixel clock reads that of the fastest enabled pipe. -/
def State.domMhz (s : State) (d : Nat) : Nat :=
  let off : Bool :=
    if d = 2 then [0, 1, 2, 3].all (fun c => s.rd Reg.APC_CL_STATE [c] = 2)
    else if d = 3 then s.rd Reg.PWR_PD_STATE [4] ≠ 2 && s.rd Reg.PWR_PD_STATE [5] ≠ 2
    else if d = 6 then s.rd Reg.PWR_PD_STATE [6] ≠ 2
    else if d = 8 then s.rd Reg.PWR_PD_STATE [8] ≠ 2
    else false
  if d = 7 then
    (([0, 1, 2, 3].filter (fun p => s.flag Reg.DSP_PIPE_ENABLE [p])).map (fun p => s.rd Reg.DSP_PIPE_KHZ [p])).foldl max 0 / 1000
  else if off then 0 else s.rd Reg.CLK_DOM_MHZ [d]

/-- The value that FETCH shows for a field: the stored one, or one that the device computes. -/
def State.view (s : State) (f : FieldAt) : Nat :=
  let k := f.2.getD 0 0
  if f.1 = Reg.CMD_CTX_STATE then s.ctxState k
  else if f.1 = Reg.CMD_CTX_SEQ_OPEN then (if (s.ctx k).seqOpen then 1 else 0)
  else if f.1 = Reg.CMD_CTX_SEQ_FAILED then (if (s.ctx k).seqFailed then 1 else 0)
  else if f.1 = Reg.CMD_CTX_STAGED then (s.ctx k).staged.length
  else if f.1 = Reg.CMD_CTX_SPEC_CANCEL then (s.ctx k).specCancel
  else if f.1 = Reg.CMD_SEM_WAITERS then (s.cmp.semQ.filter (fun e => e.1 = k)).length
  else if f.1 = Reg.ORR_RES_RESERVED then sumSnd (s.tokensOf k)
  else if f.1 = Reg.SAF_RST_COUNT then s.recentRestarts.length
  else if f.1 = Reg.CLK_DOM_MHZ then s.domMhz k
  else if f.1 = Reg.ALM_WRECK_STATE then (if (dies s.fuses).contains k then s.rd f.1 f.2 else 3)
  else s.rd f.1 f.2

/-- The word that FETCH reads; its reserved bits read 0 (R9). -/
def State.viewWord (s : State) (space word : Nat) : Word :=
  (liveFields space word).foldl (fun w f => setBits w f.1.lo f.1.width (s.view f)) 0

/-- The ORR.CNT latch of a context (R178): the word that FETCH returns, and the latch afterwards. -/
def State.latchWord (s : State) (n word : Nat) (cov : List FieldAt) : Word × Option (Nat × Nat) :=
  let old := (s.ctx n).cntLatch
  if cov.any (fun f => f.1 = Reg.ORR_CNT_SERVED_LO || f.1 = Reg.ORR_CNT_SLACK_LO) then
    (s.viewWord 0x03 word, some (word, (s.viewWord 0x03 (word + 1)).toNat))
  else if cov.any (fun f => f.1 = Reg.ORR_CNT_SERVED_HI || f.1 = Reg.ORR_CNT_SLACK_HI) then
    match old with
    | some (w, v) => (if w + 1 = word then BitVec.ofNat 32 v else s.viewWord 0x03 word, old)
    | none => (s.viewWord 0x03 word, old)
  else (s.viewWord 0x03 word, old)

/-- FETCH writes the committed value of a field into KD (R58, R99, R107). The spec gives no order between its statuses: the space and the word are judged first (ST_DECODE), then ownership (ST_DENIED), then whether the resource is present (ST_DECODE; DESIGN CHOICE, log entry 47). -/
def execFetch (i : Issue) (s : State) : Host.Outcome State Fault Refusal :=
  s.issue i 0x44 (fun a c =>
    let n := i.ctx
    let space := a.x8.toNat
    let w := fieldWord a c
    let lo := bitsOf a.i32.toNat 16 5
    let width := bitsOf a.i32.toNat 21 5 + 1
    if !wordDecoded space w then s.retire n i.cyc a.c 1 .decode id
    else if !s.mayReach n true space w lo width then (s.violation (s.ctxInst n)).retire n i.cyc a.c 1 .denied id
    else if wordAbsent s.fuses space w then s.retire n i.cyc a.c 1 .decode id
    else
      let r : Word × Option (Nat × Nat) :=
        if space = 0x03 then s.latchWord n w (coveredAt space w lo width) else (s.viewWord space w, c.cntLatch)
      s.retire n i.cyc a.c 1 .ok (fun c => { c.setK a.kd.toNat (BitVec.ofNat 64 (getBits r.1 lo width)) with cntLatch := r.2 }))

end Sys2Proof.Machine
end

