-- ==== Sys2Proof/Machine/Admission.lean ====
section
/-! DEFINITION. The checks of COMMIT (02, R62, R65; 03, R102 to R105): the words as the commit would leave them, and what the home chapters refuse, in the order ST_DENIED, ST_LOCKED, ST_DECODE, ST_REFUSED. -/

namespace Sys2Proof.Machine

/-! ### The image (R101, R102) -/

/-- The bits of a word that staging changes: those of its SO and WONCE fields. -/
def stageMask (space word : Nat) : Word :=
  (liveFields space word).foldl (fun m f => if f.1.acc = .ro then m else m ||| maskBits f.1.lo f.1.width) 0

/-- The words with one entry applied. -/
def State.applyEntry (s : State) (e : Staged) : State :=
  let m := maskBits e.lo e.width &&& stageMask e.space e.word
  let k := wordKey e.space e.word
  s.setWord k ((s.word k &&& ~~~ m) ||| ((BitVec.ofNat 32 e.value <<< e.lo) &&& m))

/-- The words as the entries leave them, in staging order. -/
def State.image (s : State) (es : List Staged) : State := es.foldl State.applyEntry s

/-- What a commit is judged on: the state before it, the state with its words, its entries, and the fields that they cover. -/
structure Judge where
  s : State
  t : State
  es : List Staged
  c : List FieldAt
  deriving DecidableEq, Repr

/-- The judgement of a list of entries. -/
def State.judge (s : State) (es : List Staged) : Judge := ⟨s, s.image es, es, (es.flatMap Staged.covers).eraseDups⟩

/-- What one of the entries is judged on: its own fields, in the words as the whole commit would leave them (R62). -/
def Judge.only (j : Judge) (e : Staged) : Judge := { j with es := [e], c := e.covers.eraseDups }

/-- The indices at which one of the rows is covered. -/
def Judge.at_ (j : Judge) (rs : List Row) : List (List Nat) :=
  (j.c.filterMap (fun f => if rs.contains f.1 then some f.2 else none)).eraseDups

/-- The first indices at which one of the rows is covered. -/
def Judge.keys (j : Judge) (rs : List Row) : List Nat := ((j.at_ rs).map (fun ix => ix.getD 0 0)).eraseDups

/-- The first indices at which a field of a space that a test accepts is covered. -/
def Judge.keysIn (j : Judge) (rs : List Row) (p : Row → Bool) : List Nat := j.keys (rs.filter p)

/-- The commit changes a field. -/
def Judge.changes (j : Judge) (r : Row) (ix : List Nat) : Bool := j.s.rd r ix ≠ j.t.rd r ix

/-- The commit changes one of the fields. -/
def Judge.changesAny (j : Judge) (rs : List Row) (ix : List Nat) : Bool := rs.any (fun r => j.changes r ix)

/-- A number appears twice in a list. -/
def repeats (l : List Nat) : Bool := l.eraseDups.length ≠ l.length

/-- Two ranges, as first address and end, overlap. -/
def meets (a b : Nat × Nat) : Bool := a.1 < b.2 && b.1 < a.2

/-- Some two ranges of a list overlap. -/
def anyMeet : List (Nat × Nat) → Bool
  | [] => false
  | a :: l => l.any (meets a) || anyMeet l

/-- A range lies in the variant's HBM. -/
def inHbm (fz : Fuses) (a : Nat × Nat) : Bool := hbmBase ≤ a.1 && a.2 ≤ hbmEnd fz

/-! ### ST_DENIED: access codes, fixed fields and ranges (R14, R102 to R104) -/

/-- A field that is fixed for its index (R103). -/
def fixedField (f : FieldAt) : Bool :=
  let k := f.2.getD 0 0
  ([Reg.CMD_CTX_INST, Reg.CMD_CTX_ENABLE, Reg.TTU_INST_ENABLE, Reg.TTU_INST_CLASS].contains f.1 && k = 0)
    || (f.1 = Reg.CMD_SEM_OWNER && k < 64)

/-- A value lies in the range that its home chapter states for the field (R104; R504 for FILT). -/
def rngOk (f : FieldAt) (v : Nat) : Bool :=
  match f.1.rng with
  | .any => true
  | .within a b => a ≤ v && v ≤ b
  | .oneOf l => l.contains v
  | .padFilter => v ≤ (if f.2.getD 0 0 = 2 || f.2.getD 0 0 = 4 then 3 else 15)

/-- An entry stages a budget of a reserved tag (R14). -/
def namesReservedTag (e : Staged) : Bool :=
  e.space = 0x03 && wordReserved e.space e.word &&
    (fieldsAt e.space e.word).any (fun f => f.1.acc = .so && f.1.lo < e.lo + e.width && e.lo < f.1.lo + f.1.width)

/-- An RO field, a fixed field, a value out of range, or a reserved tag. -/
def Judge.deniedFields (j : Judge) : Bool :=
  j.c.any (fun f => f.1.acc = .ro || fixedField f || !rngOk f (j.t.rd f.1 f.2)) || j.es.any namesReservedTag

/-! ### ST_DENIED: contexts, instances and windows (R53, R115, R132, R145) -/

def Judge.deniedCmd (j : Judge) : Bool :=
  (j.at_ [Reg.CMD_CTX_INST]).any (fun ix => j.s.flag Reg.CMD_CTX_ENABLE ix && j.changes Reg.CMD_CTX_INST ix)
    || (j.at_ [Reg.CMD_SEM_OWNER]).any (fun ix => j.s.flag Reg.CMD_SEM_HELD ix)

/-- A context that is bound to the instance is enabled before the commit. -/
def State.ctxEnabledFor (s : State) (i : Nat) : Bool :=
  (List.range 64).any (fun n => s.flag Reg.CMD_CTX_ENABLE [n] && s.ctxInst n = i)

/-- An enabled window that R145 refuses. -/
def State.badWindow (s : State) (w : Nat) : Bool :=
  let size := s.rd Reg.TTU_WIN_SIZE [w]
  s.flag Reg.TTU_WIN_VALID [w] &&
    (size < 12 || 48 < size || s.winBase w % 2 ^ size ≠ 0 || s.rd Reg.TTU_WIN_MEMTYPE [w] = 3)

def Judge.deniedTtu (j : Judge) : Bool :=
  (j.keys [Reg.TTU_INST_ENABLE]).any (fun i => j.s.flag Reg.TTU_INST_ENABLE [i] && !j.t.flag Reg.TTU_INST_ENABLE [i] && j.s.ctxEnabledFor i)
    || (j.keys [Reg.TTU_INST_CLASS]).any (fun i => j.s.flag Reg.TTU_INST_ENABLE [i] && j.changes Reg.TTU_INST_CLASS [i])
    || (j.keysIn Reg.rowsTTU (fun r => 0x100 ≤ r.base && r.base < 0x104)).any j.t.badWindow

/-! ### ST_DENIED: PCIe and memory (R239, Table fab.7) -/

/-- The PCIe port of an XD is quiesced by HANDOVER: a HANDOVER of it is past its first step, or one has been done and no access to the port is in flight. -/
def State.pcieQuiet (s : State) (n : Nat) : Bool :=
  let x := ownIndex 3 n 0
  s.rd Reg.ENC_OWN_STEP [x] ≠ 0 || (s.rd Reg.ENC_OWN_GEN [x] ≠ 0 && s.rd Reg.MAT_TRK_INFLIGHT [11 + n] = 0)

def Judge.deniedMat (j : Judge) : Bool :=
  (j.keys [Reg.MAT_PCIE_MODE]).any (fun n => j.changes Reg.MAT_PCIE_MODE [n] && !j.s.pcieQuiet n)
    || (j.keys [Reg.MAT_PCIE_BAR2_LOG2, Reg.MAT_PCIE_BAR2_LO, Reg.MAT_PCIE_BAR2_HI]).any (fun n =>
        j.t.rdPair Reg.MAT_PCIE_BAR2_LO Reg.MAT_PCIE_BAR2_HI [n] % 2 ^ j.t.rd Reg.MAT_PCIE_BAR2_LOG2 [n] ≠ 0)

def Judge.deniedMem (j : Judge) : Bool :=
  !(j.keysIn Reg.rowsMEM (fun r => 0xC0 ≤ r.base && r.base < 0xE0)).isEmpty &&
    (let l := ((List.range 16).filterMap j.t.retained).map (fun r => (r.1, r.2.1))
     l.any (fun r => r.1 = r.2 || !inHbm j.t.fuses r) || anyMeet l)

/-! ### ST_DENIED: enclave ranges (R241, R245) -/

/-- The range of an entry. -/
def State.ertRange (s : State) (e : Nat) : Nat × Nat := (s.ertBase e, s.ertBase e + 2 ^ s.rd Reg.ENC_ERT_SIZE [e])

/-- The entries that a commit leaves outside FREE, or on their way out of it. -/
def Judge.ertUsed (j : Judge) : List Nat :=
  let create := (j.keys [Reg.ENC_ERT_REQ]).filter (fun e => j.t.rd Reg.ENC_ERT_REQ [e] = 1)
  (List.range 64).filter (fun e => j.s.rd Reg.ENC_ERT_STATE [e] ≠ 0 || j.s.enc.held.contains (e, 1) || create.contains e)

/-- The range of an entry keeps R241. -/
def State.ertRangeOk (s : State) (e : Nat) : Bool :=
  let size := s.rd Reg.ENC_ERT_SIZE [e]
  17 ≤ size && size ≤ 30 && s.ertBase e % 2 ^ size = 0 && inHbm s.fuses (s.ertRange e)

def Judge.deniedEnc (j : Judge) : Bool :=
  let reqs := (j.keys [Reg.ENC_ERT_REQ]).filter (fun e => j.t.rd Reg.ENC_ERT_REQ [e] ≠ 0)
  reqs.any (fun e => !j.s.ertLegal e (j.t.rd Reg.ENC_ERT_REQ [e]))
    || (!(j.keys [Reg.ENC_ERT_REQ, Reg.ENC_ERT_SIZE, Reg.ENC_ERT_BASE_LO, Reg.ENC_ERT_BASE_HI]).isEmpty &&
        (j.ertUsed.any (fun e => !j.t.ertRangeOk e) || anyMeet (j.ertUsed.map j.t.ertRange)))

/-! ### ST_DENIED: interrupt routes and clusters (R283, R289) -/

/-- A valid route has a FILE that R283 admits. -/
def State.badRoute (s : State) (i : Nat) : Bool :=
  let f := s.rd Reg.APC_IRQ_FILE [i]
  s.flag Reg.APC_IRQ_VALID [i] && !(2 ≤ f && f ≤ 6) && !(f = 1 && i = 0)

def Judge.deniedApc (j : Judge) : Bool :=
  (j.keys [Reg.APC_IRQ_HART, Reg.APC_IRQ_FILE, Reg.APC_IRQ_VALID]).any j.t.badRoute
    || (j.keys [Reg.APC_CL_REQ]).any (fun c => j.t.rd Reg.APC_CL_REQ [c] = 2 &&
        (List.range 32).any (fun i => j.t.flag Reg.APC_IRQ_VALID [i] && j.t.rd Reg.APC_IRQ_HART [i] / 4 = c))

/-! ### ST_DENIED: grants of tiles and clusters (R31, R295, R354, R591) -/

/-- The instance and the process identifier of a grant as one number. -/
def State.infGrantee (s : State) (t g : Nat) : Nat := s.rd Reg.INF_SLICE_INST [t, g] * 2 ^ 20 + s.rd Reg.INF_SLICE_PID [t, g]
def State.gfxGrantee (s : State) (c g : Nat) : Nat := s.rd Reg.GFX_SLICE_INST [c, g] * 2 ^ 20 + s.rd Reg.GFX_SLICE_PID [c, g]

/-- The fields of a grant of a tile. -/
def infSlice : List Row :=
  [Reg.INF_SLICE_INST, Reg.INF_SLICE_VALID, Reg.INF_SLICE_SAVE_64K, Reg.INF_SLICE_PID, Reg.INF_SLICE_SAVE_BASE]

/-- The fields of a grant of a cluster. -/
def gfxSlice : List Row := [Reg.GFX_SLICE_INST, Reg.GFX_SLICE_VALID, Reg.GFX_SLICE_PID, Reg.GFX_SLICE_SAVE_BASE]

/-- The commit changes or clears a valid grant of a tile whose grantee has descriptors there. -/
def Judge.infTaken (j : Judge) (t g : Nat) : Bool :=
  j.s.flag Reg.INF_SLICE_VALID [t, g] && j.changesAny infSlice [t, g] && (j.s.tileQueue t).any (j.s.ofGrant t g)

def Judge.deniedInf (j : Judge) : Bool :=
  (!(j.at_ [Reg.INF_GOV_CTRL_SHARE]).isEmpty &&
      (let v := j.t.rd Reg.INF_GOV_CTRL_SHARE []; v = 0 || j.t.rd Reg.BOOT_ID1_GOV_CEIL [] < v))
    || (j.keys infSlice).any (fun t =>
        repeats (([0, 1, 2, 3].filter (fun g => j.t.flag Reg.INF_SLICE_VALID [t, g])).map (j.t.infGrantee t))
          || [0, 1, 2, 3].any (j.infTaken t) || j.s.tileOff (j.s.rd Reg.INF_TILE_PHYS [t]))

/-- A grantee of a cluster has an outstanding stream or compute job there. -/
def State.clusterWork (s : State) (c g : Nat) : Bool :=
  let inst := s.rd Reg.GFX_SLICE_INST [c, g]
  let pid := s.rd Reg.GFX_SLICE_PID [c, g]
  s.gfx.jobs.any (fun x => bitAt x.mask c && x.inst = inst && x.pid = pid)
    || s.gfx.comps.any (fun x => bitAt x.mask c && x.inst = inst && compPid x.desc = pid)

/-- The commit changes or clears a valid grant of a cluster whose grantee has work there. -/
def Judge.gfxTaken (j : Judge) (c g : Nat) : Bool :=
  j.s.flag Reg.GFX_SLICE_VALID [c, g] && j.changesAny gfxSlice [c, g] && j.s.clusterWork c g

/-- An enabled context in grow mode is bound to an instance of class C2 (R354). -/
def State.badGctx (s : State) (n : Nat) : Bool :=
  s.flag Reg.GFX_GCTX_ENABLE [n] && s.flag Reg.GFX_GCTX_MODE [n] && s.rd Reg.TTU_INST_CLASS [s.rd Reg.GFX_GCTX_INST [n]] = 2

def Judge.deniedGfx (j : Judge) : Bool :=
  (!(j.at_ [Reg.GFX_GCTX_INST, Reg.GFX_GCTX_MODE, Reg.GFX_GCTX_ENABLE, Reg.TTU_INST_CLASS]).isEmpty && (List.range 32).any j.t.badGctx)
    || (j.keys gfxSlice).any (fun c =>
        repeats (([0, 1, 2, 3].filter (fun g => j.t.flag Reg.GFX_SLICE_VALID [c, g])).map (j.t.gfxGrantee c))
          || [0, 1, 2, 3].any (j.gfxTaken c))

/-! ### ST_DENIED: display pipes (R367, R370, R372, R386) -/

/-- The timing of a pipe keeps the limits of R370. -/
def State.timingOk (s : State) (d : Nat) : Bool :=
  let hact := s.rd Reg.DSP_PIPE_HACT [d]
  let vact := s.rd Reg.DSP_PIPE_VACT [d]
  let khz := s.rd Reg.DSP_PIPE_KHZ [d]
  let total := s.rd Reg.DSP_PIPE_HTOT [d] * s.rd Reg.DSP_PIPE_VTOT [d]
  64 ≤ hact && hact ≤ 4096 && 64 ≤ vact && vact ≤ 2304 && 25000 ≤ khz && khz ≤ 600000
    && total ≠ 0 && 24 * total ≤ khz * 1000 && khz * 1000 ≤ 120 * total

/-- The output of a pipe. -/
def State.pipeOut (s : State) (d : Nat) : Nat := 4 * s.rd Reg.DSP_PIPE_OUT_XD [d] + s.rd Reg.DSP_PIPE_OUT_PORT [d]

/-- What an enabled pipe may not be left as (R367, R370). The spec gives no field for the rate of a link, so the greatest pixel clock that it carries is open (DEDUCED, log entry 32). -/
def State.badPipe (s : State) (d : Nat) : Bool :=
  s.flag Reg.DSP_PIPE_ENABLE [d] &&
    ([0, 1, 2, 3].any (fun e => e ≠ d && s.flag Reg.DSP_PIPE_ENABLE [e] && s.pipeOut e = s.pipeOut d)
      || (s.rd Reg.DSP_PIPE_OUT_PORT [d] = 2 &&
          s.rd Reg.ENC_OWN_OWNER [ownIndex 6 (s.rd Reg.DSP_PIPE_OUT_XD [d]) 0] ≠ s.rd Reg.DSP_PIPE_INST [d])
      || !s.timingOk d || Config.linkKhz (s.pipeOut d) (s.rd Reg.DSP_PIPE_BPC [d]) < s.rd Reg.DSP_PIPE_KHZ [d] || s.rd Reg.DSP_PIPE_FB_LOG2 [d] < 20 || 34 < s.rd Reg.DSP_PIPE_FB_LOG2 [d])

/-- The fields that R372 holds while a pipe is enabled. -/
def pipeHeld : List Row :=
  [Reg.DSP_PIPE_INST, Reg.DSP_PIPE_OUT_XD, Reg.DSP_PIPE_OUT_PORT, Reg.DSP_PIPE_HACT, Reg.DSP_PIPE_HTOT, Reg.DSP_PIPE_HFP,
   Reg.DSP_PIPE_HSW, Reg.DSP_PIPE_VACT, Reg.DSP_PIPE_VTOT, Reg.DSP_PIPE_VFP, Reg.DSP_PIPE_VSW, Reg.DSP_PIPE_KHZ, Reg.DSP_PIPE_HPOL,
   Reg.DSP_PIPE_VPOL, Reg.DSP_PIPE_FB_BASE_LO, Reg.DSP_PIPE_FB_BASE_HI, Reg.DSP_PIPE_FB_LOG2, Reg.DSP_PIPE_RING_LO,
   Reg.DSP_PIPE_RING_HI, Reg.DSP_PIPE_RING_LOG2]

def Judge.deniedDsp (j : Judge) : Bool :=
  (j.keys Reg.rowsDSP).any (fun d =>
    j.t.badPipe d || (j.s.flag Reg.DSP_PIPE_ENABLE [d] && j.changesAny pipeHeld [d])
      || (j.t.rd Reg.DSP_PIPE_WARP_MODE [d] = 2 && j.t.rd Reg.DSP_PIPE_PLANE_MM [d] = 0))

/-! ### ST_DENIED: streams and Sextant (R399, R416, R441, Tables sns.3, sns.4, sxt.6) -/

/-- The source of a stream: KIND, XD, and PORT and VC, FLOW or PORT (Table sns.1). -/
def State.sourceOf (s : State) (n : Nat) : List Nat :=
  let kind := s.rd Reg.SNS_STREAM_KIND [n]
  let port := s.rd Reg.SNS_STREAM_PORT [n]
  [kind, s.rd Reg.SNS_STREAM_XD [n]] ++
    (if kind = 1 then [port, s.rd Reg.SNS_STREAM_VC [n]]
     else if kind = 2 then [bitsOf (s.rd Reg.SNS_STREAM_PARSE1 [n]) 24 8]
     else if kind = 3 then [port] else [])

/-- The streams that are enabled on a source. -/
def State.liveStreams (s : State) : List Nat :=
  (List.range 128).filter (fun n => s.flag Reg.SNS_STREAM_ENABLE [n] && s.rd Reg.SNS_STREAM_KIND [n] ≠ 0)

/-- The index of a source lies in its range, and the PARSE words in theirs. -/
def State.streamForm (s : State) (n : Nat) : Bool :=
  let kind := s.rd Reg.SNS_STREAM_KIND [n]
  let p0 := s.rd Reg.SNS_STREAM_PARSE0 [n]
  let p1 := s.rd Reg.SNS_STREAM_PARSE1 [n]
  if kind = 1 then s.rd Reg.SNS_STREAM_PORT [n] ≤ 15
  else if kind = 2 then 4 ≤ bitsOf p0 8 6
  else if kind = 3 then s.rd Reg.SNS_STREAM_PORT [n] ≤ 3 && 12 ≤ bitsOf p0 8 5 && 1 ≤ bitsOf p1 1 5 && bitsOf p1 1 5 ≤ 20
  else true

/-- What an enabled stream may not be left as: two streams on one source, where KIND names one, and ranges that hold whatever KIND is (R104). -/
def State.badStream (s : State) (n : Nat) : Bool :=
  let live := s.liveStreams
  s.flag Reg.SNS_STREAM_ENABLE [n] &&
    ((live.contains n && live.any (fun m => m ≠ n && s.sourceOf m = s.sourceOf n)) || !s.streamForm n
      || s.rd Reg.SNS_STREAM_NBUF [n] = 0 || s.rd Reg.SNS_STREAM_SLOT_LOG2 [n] < 6 || 28 < s.rd Reg.SNS_STREAM_SLOT_LOG2 [n]
      || s.rd Reg.SNS_STREAM_TMO_US [n] = 0 || 1000000 < s.rd Reg.SNS_STREAM_TMO_US [n])

def Judge.deniedSns (j : Judge) : Bool :=
  (j.keys Reg.rowsSNS).any j.t.badStream
    || (j.s.flag Reg.SXT_CFG_ENABLE [] && (j.at_ [Reg.SNS_STREAM_PART]).any (j.changes Reg.SNS_STREAM_PART))

/-- The fields of SXT that R441 holds while Sextant is enabled. -/
def sxtHeld : List Row :=
  [Reg.SXT_CFG_REF, Reg.SXT_RING_LO, Reg.SXT_RING_HI, Reg.SXT_RING_LOG2, Reg.SXT_SLOT_LOG2, Reg.SXT_EGO_RING_LO, Reg.SXT_EGO_RING_HI,
   Reg.SXT_EGO_EGO_LOG2]

/-- Only cameras and lidars are members, and REF names a camera member (R416). -/
def State.badMembers (s : State) : Bool :=
  let ref := s.rd Reg.SXT_CFG_REF []
  s.members.any (fun n => !(s.isCamera n || s.isLidar n))
    || ((!s.members.isEmpty || s.flag Reg.SXT_CFG_ENABLE []) && !(s.isMember ref && s.isCamera ref))

def Judge.deniedSxt (j : Judge) : Bool :=
  (j.s.flag Reg.SXT_CFG_ENABLE [] && (j.changesAny sxtHeld [] || (j.at_ [Reg.SXT_MEMBER]).any (j.changes Reg.SXT_MEMBER)))
    || (!(j.at_ [Reg.SXT_MEMBER, Reg.SXT_CFG_REF, Reg.SXT_CFG_ENABLE, Reg.SNS_STREAM_KIND]).isEmpty && j.t.badMembers)
    || (!(j.at_ Reg.rowsSXT).isEmpty && j.t.flag Reg.SXT_CFG_ENABLE [] &&
        (3 < j.t.rd Reg.SXT_RING_LOG2 [] || j.t.rd Reg.SXT_SLOT_LOG2 [] < 20 || 28 < j.t.rd Reg.SXT_SLOT_LOG2 []))

/-! ### ST_DENIED: networks, clocks and the rest (R457, R492, R499, R515, R547, R548, R557, R571, R587, R589, R590) -/

/-- An SA of a port that names a key which R457 refuses. -/
def State.badSa (s : State) (ix : List Nat) : Bool :=
  let n := ix.getD 0 0
  let slot := s.rd Reg.NET_MSA_SLOT ix
  let kind := s.rd Reg.CRY_KEY_KIND [n, slot]
  s.flag Reg.NET_MSA_VALID ix &&
    (!(kind = 1 || kind = 2) || s.rd Reg.CRY_KEY_OWNER [n, slot] ≠ s.rd Reg.ENC_OWN_OWNER [ownIndex 0 n (ix.getD 1 0 / 36)])

def Judge.deniedNet (j : Judge) : Bool :=
  (j.at_ [Reg.NET_MSA_SLOT, Reg.NET_MSA_SUITE, Reg.NET_MSA_OFFSET, Reg.NET_MSA_VALID]).any j.t.badSa

def Judge.deniedClk (j : Judge) : Bool :=
  (!(j.at_ [Reg.CLK_REF_SEL]).isEmpty &&
      (let v := j.t.rd Reg.CLK_REF_SEL []; v ≠ j.s.rd Reg.CLK_REF_ACTIVE [] && !j.s.refOk (v = 1)))
    || (!(j.at_ [Reg.CLK_EPOCH_GO]).isEmpty && j.t.flag Reg.CLK_EPOCH_GO [] && j.t.rd Reg.NET_GPTP_ROLE [] = 2)

def Judge.deniedSaf (j : Judge) : Bool :=
  (j.keys [Reg.SAF_EVT_REACT]).any (fun e => j.t.rd Reg.SAF_EVT_REACT [e] < j.t.rd Reg.SAF_EVT_MIN [e])
    || (!(j.at_ [Reg.SAF_HB_CFG_MIN_MS, Reg.SAF_HB_CFG_MAX_MS]).isEmpty &&
        j.t.rd Reg.SAF_HB_CFG_MAX_MS [] ≤ j.t.rd Reg.SAF_HB_CFG_MIN_MS [])

/-- The die whose dump runs. -/
def State.dumpDie (s : State) : Option Nat := s.alm.dump.map (fun d => d.1)

def Judge.deniedAlm (j : Judge) : Bool :=
  let die := j.t.rd Reg.ALM_DUMP_DIE []
  (!(j.at_ [Reg.ALM_DUMP_DIE]).isEmpty && 4 < die)
    || (!(j.at_ [Reg.ALM_DUMP_GO]).isEmpty && j.t.flag Reg.ALM_DUMP_GO [] &&
      (!(dies j.s.fuses).contains die || j.s.rd Reg.ALM_WRECK_STATE [die] ≠ 2 || j.s.alm.dump.isSome))
    || (!(j.at_ [Reg.ALM_WRECK_REARM]).isEmpty &&
        (match j.s.dumpDie with | some d => bitAt (j.t.rd Reg.ALM_WRECK_REARM []) d | none => false))

def Judge.deniedBoot (j : Judge) : Bool :=
  (j.keys [Reg.BOOT_SVN_ADV]).any (fun k =>
      let v := j.t.rd Reg.BOOT_SVN_ADV [k]
      v ≤ j.s.rd Reg.BOOT_SVN_MIN [k] || tget 0 j.s.boot.svn (k + 1) < v)
    || (j.keys [Reg.BOOT_IRST_REQ]).any (fun i => i = 0 || j.s.flag Reg.BOOT_IRST_BUSY [i])

/-- The diagnostic frame has the identifier of an actuation frame of its controller (R587). -/
def State.frameActs (s : State) : Bool :=
  let c := s.rd Reg.SVC_CFG_FRAME_CTL []
  c < 4 && bitAt (s.rd Reg.NET_AAS_ACT_EN []) c &&
    (List.range 64).any (fun m => s.flag Reg.NET_ACTID_VALID [m] && s.rd Reg.NET_ACTID_ID [m] = s.rd Reg.SVC_FRAME_ID []
      && s.rd Reg.NET_ACTID_IDE [m] = s.rd Reg.SVC_FRAME_IDE [])

def Judge.deniedSvc (j : Judge) : Bool :=
  !(j.at_ [Reg.SVC_CFG_FRAME_CTL, Reg.SVC_FRAME_ID, Reg.SVC_FRAME_IDE, Reg.NET_AAS_ACT_EN, Reg.NET_ACTID_ID, Reg.NET_ACTID_IDE,
      Reg.NET_ACTID_VALID]).isEmpty && j.t.frameActs

/-- A domain is in use (R590). -/
def State.domainUsed (s : State) (k : Nat) : Bool :=
  if k = 4 || k = 5 then
    (s.halfTiles k).any (fun t => [0, 1, 2, 3].any (fun g => s.flag Reg.INF_SLICE_VALID [t, g]) || !(s.tileQueue t).isEmpty)
  else if k = 6 then
    (List.range 8).any (fun c => [0, 1, 2, 3].any (fun g => s.flag Reg.GFX_SLICE_VALID [c, g]))
      || (List.range 32).any (fun n => s.flag Reg.GFX_GCTX_ENABLE [n])
  else if k = 7 then [0, 1, 2, 3].any (fun d => s.flag Reg.DSP_PIPE_ENABLE [d])
  else (List.range 128).any (fun n => s.flag Reg.SNS_STREAM_ENABLE [n]) || s.flag Reg.SXT_CFG_ENABLE []

def Judge.deniedPwr (j : Judge) : Bool :=
  (j.keys [Reg.PWR_PD_REQ]).any (fun k => k < 4 || 8 < k || (!j.t.flag Reg.PWR_PD_REQ [k] && j.t.domainUsed k))

/-- Every ground for ST_DENIED but ownership. -/
def Judge.denied (j : Judge) : Bool :=
  j.deniedFields || j.deniedCmd || j.deniedTtu || j.deniedMat || j.deniedMem || j.deniedEnc || j.deniedApc || j.deniedInf || j.deniedGfx
    || j.deniedDsp || j.deniedSns || j.deniedSxt || j.deniedNet || j.deniedClk || j.deniedSaf || j.deniedAlm || j.deniedBoot
    || j.deniedSvc || j.deniedPwr

/-! ### ST_LOCKED (R65, R105, R200, R245, R480, R515) -/

/-- The key of a write-once field. -/
def onceKey (f : FieldAt) : Nat := 32 * f.1.key f.2 + f.1.lo

/-- A field is locked against this commit. -/
def Judge.locked (j : Judge) (f : FieldAt) : Bool :=
  (f.1.acc = .wonce && j.s.boot.wonce.contains (onceKey f))
    || ([Reg.ENC_ERT_SIZE, Reg.ENC_ERT_BASE_LO, Reg.ENC_ERT_BASE_HI, Reg.ENC_ERT_INST].contains f.1 && j.s.rd Reg.ENC_ERT_STATE [f.2.getD 0 0] ≠ 0)
    || ([Reg.SAF_EVT_REACT, Reg.SAF_HB_CFG_MIN_MS, Reg.SAF_HB_CFG_MAX_MS, Reg.SAF_HB_CFG_EN, Reg.SAF_RET_HYST_MS, Reg.SAF_RST_MAX,
         Reg.SAF_RST_WIN_S, Reg.SAF_XCH].contains f.1 && j.s.flag Reg.SAF_CTRL_LOCK [])
    || ([Reg.NET_ACTID_ID, Reg.NET_ACTID_IDE, Reg.NET_ACTID_VALID, Reg.NET_AAS_ACT_EN].contains f.1 && j.s.flag Reg.NET_AAS_LIST_LOCK [])
    || ([Reg.MAT_DECODE_MODE, Reg.MAT_DECODE_PB_MODE].contains f.1 && j.s.flag Reg.MAT_FREEZE_PROD [] && j.t.flag f.1 f.2)

/-! ### ST_DECODE (R37, R153, R634) -/

/-- An entry names a resource of an absent XD by its value (R37). -/
def Judge.absent (j : Judge) : Bool :=
  let xds := j.s.fuses.variant.xds
  let gone (n : Nat) : Bool := xds ≤ n && n < 4
  (j.keys [Reg.DSP_PIPE_OUT_XD]).any (fun d => gone (j.t.rd Reg.DSP_PIPE_OUT_XD [d]))
    || (j.keys [Reg.SNS_STREAM_XD]).any (fun n => gone (j.t.rd Reg.SNS_STREAM_XD [n]))
    || (!(j.at_ [Reg.ALM_DUMP_DIE]).isEmpty && [0, 1, 2, 3].any (fun n => gone n && j.t.rd Reg.ALM_DUMP_DIE [] = n + 1))
    || (!(j.at_ [Reg.ALM_WRECK_REARM]).isEmpty && [0, 1, 2, 3].any (fun n => gone n && bitAt (j.t.rd Reg.ALM_WRECK_REARM []) (n + 1)))

/-! ### ST_REFUSED (R161, R422, R590) -/

/-- TOKENS of an activity above CAP, or a sum that rises above it (R161). -/
def Judge.overBudget (j : Judge) : Bool :=
  (j.keys [Reg.ORR_BUDGET_TOKENS]).any (fun a =>
    let r := a / 64
    let cap := j.s.rd Reg.ORR_RES_CAP [r]
    cap < j.t.rd Reg.ORR_BUDGET_TOKENS [a]
      || (cap < sumSnd (j.t.tokensOf r) && sumSnd (j.s.tokensOf r) < sumSnd (j.t.tokensOf r)))

/-- The partitions of the enabled streams exceed the alignment buffer (R422). -/
def Judge.overParts (j : Judge) : Bool :=
  !(j.at_ [Reg.SNS_STREAM_PART, Reg.SNS_STREAM_ENABLE]).isEmpty &&
    512 < ((List.range 128).filter (fun n => j.t.flag Reg.SNS_STREAM_ENABLE [n])).foldl (fun v n => v + j.t.rd Reg.SNS_STREAM_PART [n]) 0

/-- The tile-time CAP once the halves of a list are off (R173, R590). -/
def State.tileCapWithout (s : State) (off : List Nat) : Nat :=
  let left := (List.range s.fuses.variant.tiles).filter (fun t =>
    s.rd Reg.INF_TILE_STATE [t] ≠ 5 && !off.contains (4 + s.rd Reg.INF_TILE_PHYS [t] / 36))
  1500 * left.length * s.rd Reg.PWR_DERATE_TILE [] * 2 * ((s.rd Reg.ORR_CFG_PERIOD [] + 1) * 250) / 16

/-- The reserved tile-time exceeds what a power-off leaves (R590): the halves that the commit leaves without a request are off. -/
def Judge.overTiles (j : Judge) : Bool :=
  (j.keys [Reg.PWR_PD_REQ]).any (fun k => (k = 4 || k = 5) && !j.t.flag Reg.PWR_PD_REQ [k])
    && j.t.tileCapWithout ([4, 5].filter (fun k => !j.t.flag Reg.PWR_PD_REQ [k])) < sumSnd (j.t.tokensOf 22)

def Judge.refused (j : Judge) : Bool := j.overBudget || j.overParts || j.overTiles

/-! ### The verdict (R62) -/

/-- A tenant commit that covers INVAL.CMD for another instance (R142). -/
def Judge.foreignInval (j : Judge) (inst : Nat) : Bool :=
  !(j.at_ [Reg.TTU_INVAL_SCOPE, Reg.TTU_INVAL_INST, Reg.TTU_INVAL_PID]).isEmpty && j.t.rd Reg.TTU_INVAL_INST [] ≠ inst

/-- What COMMIT finds. -/
inductive Verdict where
  | ok
  | denied (violation : Bool)
  | locked (e : Staged)
  | decode
  | refused
  deriving DecidableEq, Repr

/-- What is wrong with one entry of a commit of context `n`, in the order of R62. An entry that the context may not reach is denied whatever its word; a word of an absent resource has no fields that could be refused otherwise (R37, R634). -/
def Judge.entryVerdict (j : Judge) (n : Nat) (e : Staged) : Verdict :=
  let k := j.only e
  if n ≠ 0 && k.foreignInval (j.s.ctxInst n) then .denied true
  else if !j.s.mayReach n false e.space e.word e.lo e.width then .denied false
  else if wordAbsent j.s.fuses e.space e.word then .decode
  else if k.denied then .denied false
  else if k.c.any j.locked then .locked e
  else if k.absent then .decode
  else if k.refused then .refused
  else .ok

/-- The verdict on a commit of context `n`: that on the first entry, in staging order, with which something is wrong (R62). -/
def Judge.verdict (j : Judge) (n : Nat) : Verdict := ((j.es.map (j.entryVerdict n)).find? (· ≠ .ok)).getD .ok

end Sys2Proof.Machine
end

