-- ==== Sys2Proof/Machine/Effects.lean ====
section
/-! DEFINITION. What a successful COMMIT does beside writing its words (02, R63): the actions that each home chapter gives to a committed field. -/

namespace Sys2Proof.Machine

/-- An action for each number of a list. -/
def State.each {α : Type} (s : State) (l : List α) (f : State → α → State) : State := l.foldl f s

/-- A one-bit field that the commit raises from 0 to 1, and one that it clears. -/
def Judge.rises (j : Judge) (r : Row) (ix : List Nat) : Bool := !j.s.flag r ix && j.t.flag r ix
def Judge.falls (j : Judge) (r : Row) (ix : List Nat) : Bool := j.s.flag r ix && !j.t.flag r ix

/-- The indices at which a one-bit trigger is staged as 1. -/
def Judge.fired (j : Judge) (r : Row) : List (List Nat) := (j.at_ [r]).filter (j.t.flag r)

/-! ### Translation and instances (R121, R131, R141, R142, R240) -/

/-- The entries of an instance leave the translation cache. -/
def State.dropTag (s : State) (i : Nat) : State :=
  { s with ttu := { s.ttu with tlb := s.ttu.tlb.filter (fun e => e.tag ≠ i) } }

/-- An address lies in the same leaf of a size, as a power of two, as another. -/
def sameLeaf (a b size : Nat) : Bool := a / 2 ^ size = b / 2 ^ size

/-- The invalidation of R142 covers an entry: SCOPE 0 the instance, 1 a process, 2 an address of the instance, 3 an address of a process (04, Table ttu.5). An entry covers every address of the leaf that gave it; an entry of a process also covers the leaf of the instance address that its first stage gave (DEDUCED, log entry 43). -/
def State.invalCovers (s : State) (e : TlbEntry) : Bool :=
  let scope := s.rd Reg.TTU_INVAL_SCOPE []
  let a := s.rdPair Reg.TTU_INVAL_ADDR_LO Reg.TTU_INVAL_ADDR_HI []
  e.tag = s.rd Reg.TTU_INVAL_INST []
    && (scope % 2 = 0 || e.pid = s.rd Reg.TTU_INVAL_PID [])
    && (scope < 2 || sameLeaf a (e.vpn * 4096) e.size1 || (e.pid ≠ 0 && sameLeaf a e.ia e.size2))

/-- The open transactions of an instance that have passed the TTU: they may have used a dropped entry. -/
def State.admittedOf (s : State) (i : Nat) : List Nat :=
  (s.fab.open_.filter (fun t => t.tag = i && !t.expired && (match t.req with | some q => q.adm.isSome | none => t.walk.isNone))).map (·.id)
    ++ (s.fab.posted.filter (fun p => p.acc.tag = i)).map (·.id)

/-- One invalidation (R142). -/
def State.invalidate (s : State) : State :=
  let gone := s.ttu.tlb.any s.invalCovers
  let used := if gone then s.admittedOf (s.rd Reg.TTU_INVAL_INST []) else []
  ({ s with ttu := { s.ttu with tlb := s.ttu.tlb.filter (fun e => !s.invalCovers e), drains := s.ttu.drains ++ [used] } }).incWrap
    Reg.TTU_INVAL_STAT_ISSUED [] 1

def Judge.doTtu (j : Judge) (s : State) : State :=
  let s := s.each (j.keys [Reg.CMD_CTX_ENABLE]) (fun s n => if j.falls Reg.CMD_CTX_ENABLE [n] then s.disableContext n else s)
  let s := s.each (j.keys [Reg.TTU_INST_ENABLE]) (fun s i =>
    if j.rises Reg.TTU_INST_ENABLE [i] then s.tellErrors
    else if j.falls Reg.TTU_INST_ENABLE [i] then s.dropTag i else s)
  if (j.at_ [Reg.TTU_INVAL_SCOPE, Reg.TTU_INVAL_INST, Reg.TTU_INVAL_PID]).isEmpty then s else s.invalidate

/-! ### Keys and enclaves (R220, R245, R266) -/

def Judge.doKeys (j : Judge) (s : State) : State :=
  let s := s.each (j.fired Reg.MEM_KEY_REKEY) (fun s ix => (s.wr Reg.MEM_KEY_REKEY ix 0).newKey (ix.getD 0 0))
  let s := s.each (j.keys [Reg.ENC_ERT_REQ]) (fun s e =>
    let req := j.t.rd Reg.ENC_ERT_REQ [e]
    let s := s.wr Reg.ENC_ERT_REQ [e] 0
    if req = 0 then s else s.ertRequest e req)
  s.each (j.fired Reg.CRY_KEY_CLEAR) (fun s ix => (s.wr Reg.CRY_KEY_CLEAR ix 0).cryClear (ix.getD 0 0) (ix.getD 1 0))

/-! ### Application cores (R284, R285, R289) -/

def Judge.doApc (j : Judge) (s : State) : State :=
  let s := s.each (j.fired Reg.APC_IRQ_VALID) (fun s ix => s.flushIpend (ix.getD 0 0))
  let s := s.each (j.keys [Reg.APC_CL_REQ]) (fun s c => if j.t.rd Reg.APC_CL_REQ [c] = 0 then s.clusterRun c else s)
  s.each (j.fired Reg.APC_SRC_ACK) (fun s ix => (s.wr Reg.APC_SRC_ACK ix 0).sourceAck (ix.getD 0 0) (ix.getD 1 0))

/-! ### Grants (R295, R297, R361), and bin pages (R352) -/

/-- A tile whose resident grant has changed holds no resident, and a changed grant has no saved state. -/
def Judge.doTile (j : Judge) (s : State) (t : Nat) : State :=
  let gone : Bool := match j.s.resident t with
    | some g => [Reg.INF_SLICE_INST, Reg.INF_SLICE_VALID, Reg.INF_SLICE_PID].any (fun r => j.changes r [t, g])
    | none => false
  let new := fun g => [Reg.INF_SLICE_INST, Reg.INF_SLICE_VALID, Reg.INF_SLICE_PID].any (fun r => j.changes r [t, g])
  let s := { s with inf := { s.inf with saved := s.inf.saved.filter (fun e => !(e.1 = t && new e.2)) } }
  (if gone then s.wr Reg.INF_TILE_RES_VALID [t] 0 else s).syncTile t

/-- The grant of a cluster has changed its grantee. -/
def Judge.newGrantee (j : Judge) (c g : Nat) : Bool :=
  [Reg.GFX_SLICE_INST, Reg.GFX_SLICE_VALID, Reg.GFX_SLICE_PID].any (fun r => j.changes r [c, g])

/-- A cluster whose resident grant has changed holds no resident, and state saved for a changed grant is dropped. -/
def Judge.doCluster (j : Judge) (s : State) (c : Nat) : State :=
  let gone : Bool := match j.s.clResident c with | some g => j.newGrantee c g | none => false
  let s := if gone then s.wr Reg.GFX_CL_RES_VALID [c] 0 else s
  { s with gfx := { s.gfx with saved := s.gfx.saved.filter (fun e => !(e.1 = c && j.newGrantee c e.2.1)) } }

def Judge.doGrants (j : Judge) (s : State) : State :=
  let s := s.each (j.keys infSlice) j.doTile
  let cs := j.keys gfxSlice
  let s := s.each cs j.doCluster
  let s := if cs.isEmpty then s else s.syncClusters
  s.each (j.keys [Reg.GFX_GCTX_GROW_COUNT]) State.binGrow

/-! ### Display, streams and Sextant (R398, R409, R411, R415, R437, R441) -/

/-- Sextant is enabled, with epochs numbered from 1, or disabled, with every open epoch discarded (R417, R441). -/
def Judge.doSextant (j : Judge) (s : State) : State :=
  if j.rises Reg.SXT_CFG_ENABLE [] then { s with sxt := { s.sxt with opened := [], nextNo := 1, lates := [], oldest := [], grid := [], gridT := none } }
  else if j.falls Reg.SXT_CFG_ENABLE [] then ({ s with sxt := { s.sxt with opened := [] } }).wr Reg.SXT_STAT_OPEN [] 0
  else s

def Judge.doSensors (j : Judge) (s : State) : State :=
  let s := s.each (j.keys [Reg.DSP_PIPE_ENABLE]) (fun s d =>
    if j.rises Reg.DSP_PIPE_ENABLE [d] then s.pipeEnable d
    else if j.falls Reg.DSP_PIPE_ENABLE [d] then s.pipeDisable d else s)
  let s := s.each (j.keys [Reg.SNS_STREAM_ENABLE]) (fun s n =>
    if j.changes Reg.SNS_STREAM_ENABLE [n] then s.streamEnable n (j.t.flag Reg.SNS_STREAM_ENABLE [n]) else s)
  let s := s.each (j.fired Reg.SNS_STREAM_CLR) (fun s ix => s.streamClr (ix.getD 0 0))
  let s := s.each (j.fired Reg.SNS_STREAM_LIE) (fun s ix => s.streamLie (ix.getD 0 0))
  j.doSextant s

/-! ### Networks (R457, R458, R465 to R467, R470, R475; 14, Tables net.4 and net.9) -/

/-- A committed SA: its key is copied from the slot, or erased; a transmit SA is in use from now on (R457, R458). -/
def Judge.doSa (j : Judge) (s : State) (ix : List Nat) : State :=
  let n := ix.getD 0 0
  let m := ix.getD 1 0
  let port := 32 * n + m / 36
  let sa := m % 36
  if j.t.flag Reg.NET_MSA_VALID ix then
    let key := s.cryKey n (j.t.rd Reg.NET_MSA_SLOT ix)
    let s := s.setNet { s.net with keys := tput s.net.keys (648 * n + m) key }
    if sa < 4 then s.setEthPort port { s.ethPort port with txSa := some sa, sent := 0, told := false } else s
  else
    let s := s.setNet { s.net with keys := tdel s.net.keys (648 * n + m) }
    if sa < 4 && (s.ethPort port).txSa = some sa then s.setEthPort port { s.ethPort port with txSa := none } else s

def Judge.doNet (j : Judge) (s : State) : State :=
  let s := s.each (j.at_ [Reg.NET_PORT_EN]) (fun s ix =>
    if j.rises Reg.NET_PORT_EN ix then s.wr Reg.NET_PORT_STATE ix 1
    else if j.falls Reg.NET_PORT_EN ix then s.wr Reg.NET_PORT_STATE ix 0 else s)
  let s := s.each (j.at_ [Reg.NET_RING_MSG_N]) (fun s ix => if j.s.rd Reg.NET_RING_MSG_N ix = 0 then s.wr Reg.NET_RING_SEQ ix 0 else s)
  let s := s.each (j.at_ [Reg.NET_MSA_SLOT, Reg.NET_MSA_SUITE, Reg.NET_MSA_OFFSET, Reg.NET_MSA_VALID]) j.doSa
  let s := s.each (j.at_ [Reg.NET_ROUTE_RATE, Reg.NET_ROUTE_BURST]) (fun s ix =>
    s.setNet { s.net with buckets := tdel s.net.buckets (1024 * ix.getD 0 0 + ix.getD 1 0) })
  let s := s.each (j.fired Reg.NET_DIAG_ACTIVE) (fun s ix =>
    s.setNet { s.net with passed := tput s.net.passed (32 * ix.getD 0 0 + ix.getD 1 0) s.now })
  let s := s.each (j.at_ [Reg.CAN_LIN_EN]) (fun s ix =>
    if j.rises Reg.CAN_LIN_EN ix then s.setNet { s.net with linPos := tdel s.net.linPos (8 * ix.getD 0 0 + ix.getD 1 0) } else s)
  let s := s.each (j.at_ [Reg.CAN_CTL_EN]) (fun s ix =>
    if j.rises Reg.CAN_CTL_EN ix then s.canKick (ix.getD 0 0) (ix.getD 1 0) else s)
  s.each (j.fired Reg.CAN_CTL_RESUME) (fun s ix => s.canResume (ix.getD 0 0) (ix.getD 1 0))

/-! ### Clocks and power (R492, R495 to R497, R499, R592) -/

def Judge.doClk (j : Judge) (s : State) : State :=
  let s := if (j.at_ [Reg.NET_GPTP_ROLE]).isEmpty then s else s.roleSet
  let s := s.each (j.fired Reg.CLK_EPOCH_GO) (fun s ix => (s.wr Reg.CLK_EPOCH_GO ix 0).epochGo 0)
  let s := s.each (j.fired Reg.CLK_RTC_SYNC) (fun s ix => (s.wr Reg.CLK_RTC_SYNC ix 0).rtcSync)
  let s := if (j.at_ [Reg.CLK_REF_SEL]).isEmpty then s else s.refSel 0
  let s := if (j.at_ Reg.rowsCLK).isEmpty then s else s.updateQ
  s.each (j.keys [Reg.PWR_PD_REQ]) (fun s k => s.pdRequest k (j.t.rd Reg.PWR_PD_REQ [k]))

/-! ### Safety and the Almanac (R516, R521, R542, R543, R547, R548) -/

/-- A committed HB.SEQ: while EN is 1 the word keeps the last accepted value until the new one is judged (R521). -/
def Judge.doHeartbeat (j : Judge) (s : State) : State :=
  let s := if j.rises Reg.SAF_HB_CFG_EN [] then { s with saf := { s.saf with hbAny := true } } else s
  if (j.at_ [Reg.SAF_HB_SEQ]).isEmpty || !j.t.flag Reg.SAF_HB_CFG_EN [] then s
  else
    let old := j.s.rd Reg.SAF_HB_SEQ []
    (s.wr Reg.SAF_HB_SEQ [] old).heartbeat old (j.t.rd Reg.SAF_HB_SEQ [])

def Judge.doSafety (j : Judge) (s : State) : State :=
  let s := j.doHeartbeat s
  let s := s.each (j.fired Reg.SAF_EVT_CLR) (fun s ix => (s.wr Reg.SAF_EVT_CLR ix 0).eventClr (ix.getD 0 0))
  let s := if (j.at_ [Reg.ALM_CTRL_VEC]).isEmpty then s else s.bkTell
  let s := s.each (j.fired Reg.ALM_BK_ACK) (fun s ix => (s.wr Reg.ALM_BK_ACK ix 0).bkAck)
  let s := s.each (j.fired Reg.ALM_WRECK_SW) (fun s ix => (s.wr Reg.ALM_WRECK_SW ix 0).wreckTrigger 3)
  let s := s.each (j.at_ [Reg.ALM_WRECK_REARM]) (fun s ix =>
    (s.wr Reg.ALM_WRECK_REARM ix 0).each ([0, 1, 2, 3, 4].filter (bitAt (j.t.rd Reg.ALM_WRECK_REARM ix))) State.wreckRearm)
  s.each (j.fired Reg.ALM_DUMP_GO) (fun s ix => (s.wr Reg.ALM_DUMP_GO ix 0).dumpGo)

/-! ### Boot and service (R557, R560, R569, R570, R581) -/

/-- The reset of an instance (R569): its contexts, its engine jobs, its requests in Orrery, its translations, and its pending identities. -/
def State.instanceReset (s : State) (i : Nat) : State :=
  let s := s.wr Reg.BOOT_IRST_BUSY [i] 1
  let s := s.each ((List.range 64).filter (fun n => s.ctxInst n = i)) State.resetContext
  let s := s.each (s.cmp.jobs.filter (fun x => x.inst = i)) State.abortJob
  let s := { s with orr := { s.orr with waiting := s.orr.waiting.filter (fun q => q.tag ≠ i) } }
  let s := s.dropTag i
  s.each (List.range 64) (fun s k => s.wr Reg.APC_IPEND [i, k] 0)

def Judge.doBoot (j : Judge) (s : State) : State :=
  let s := if (j.at_ [Reg.BOOT_CTRL_HART_GO]).isEmpty then s
    else (s.wr Reg.BOOT_CTRL_HART_GO [] (j.s.rd Reg.BOOT_CTRL_HART_GO [] ||| j.t.rd Reg.BOOT_CTRL_HART_GO [])).each
      ((List.range 15).map (· + 1)) State.hartGo
  let s := s.each (j.keys [Reg.BOOT_SVN_ADV]) (fun s k => (s.wr Reg.BOOT_SVN_ADV [k] 0).svnAdv k (j.t.rd Reg.BOOT_SVN_ADV [k]))
  let s := s.each (j.fired Reg.BOOT_IRST_REQ) (fun s ix => (s.wr Reg.BOOT_IRST_REQ ix 0).instanceReset (ix.getD 0 0))
  if (j.at_ [Reg.SVC_CFG_TILE_MIN]).isEmpty then s else s.checkSpares

/-! ### All of them -/

/-- The write-once fields of a commit lock (R105). -/
def Judge.lockOnce (j : Judge) (s : State) : State :=
  let ks := (j.c.filter (fun f => f.1.acc = .wonce)).map onceKey
  { s with boot := { s.boot with wonce := s.boot.wonce ++ ks } }

/-- The state that a successful commit leaves, all at one commit point (R63). -/
def Judge.apply (j : Judge) : State :=
  j.doBoot (j.doSafety (j.doClk (j.doNet (j.doSensors (j.doGrants (j.doApc (j.doKeys (j.doTtu (j.lockOnce j.t)))))))))

end Sys2Proof.Machine
end

