-- ==== Sys2Proof/Machine/Commit.lean ====
section
/-! DEFINITION. COMMIT (02, R62, R63, R65; 03, R106), and the commands that are the commit of one action: each stages the entries of its rule and commits them at one commit point. -/

namespace Sys2Proof.Machine

/-! ### COMMIT -/

/-- Entries of context `n` reach their commit point (R62, R63, R65). A commit of locked state makes an Almanac entry with the context, the space and the word, and counts a violation. -/
def State.commit (s : State) (n : Nat) (es : List Staged) : Status × State :=
  let j := s.judge es
  match j.verdict n with
  | .ok => (.ok, j.apply)
  | .denied v => (.denied, if v then s.violation (s.ctxInst n) else s)
  | .locked e =>
    (.locked, (s.record 0x12 (s.ctxInst n) (leBytes 1 n ++ leBytes 1 e.space ++ leBytes 2 e.word)).violation (s.ctxInst n))
  | .decode => (.decode, s)
  | .refused => (.refused, s)

/-- The sequence of context `n` closes with its COMMIT (R60, R62, R106). -/
def State.commitSeq (s : State) (n : Nat) : Status × State :=
  let c := s.ctx n
  let s := s.discardSeq n
  if c.seqFailed then (.refused, s)
  else if c.staged.isEmpty then (.ok, s)
  else s.commit n c.staged

/-- COMMIT checks every staged entry and then applies all of them, or none (R62, R106). -/
def execCommit (i : Issue) (s : State) : Host.Outcome State Fault Refusal :=
  s.issue i 0x42 (fun a _ =>
    let (st, s) := s.commitSeq i.ctx
    s.retire i.ctx i.cyc a.c 1 st id)

/-! ### Commits of one action -/

/-- Context `n` stages the entries and commits them, as one step; the answer is the status of the first STAGE that fails (R58, R99), else of the COMMIT. A context that is disabled, or a CMP that does not run, commits nothing. -/
def State.commitOne (s : State) (n : Nat) (es : List Staged) : State :=
  if n ≥ 64 || !s.boot.mainUp || s.cmp.state ≠ 1 || !s.flag Reg.CMD_CTX_ENABLE [n] then s
  else
    match (es.map (s.stageStatus n)).find? (· ≠ .ok) with
    | some .denied => (s.violation (s.ctxInst n)).answer .denied 0
    | some st => s.answer st 0
    | none => let (st, t) := s.commit n es; t.answer st 0

/-- The indices are those of an element of the row's replication. -/
def Row.holds (r : Row) (ix : List Nat) : Bool :=
  ix.length = r.dims.length && (ix.zip r.dims).all (fun e => e.1 < e.2.2)

/-- The commit of values into fields by context `n`; an index that names no element is no such command. -/
def State.commitOf (s : State) (n : Nat) (l : List (Row × List Nat × Nat)) : Host.Outcome State Fault Refusal :=
  if l.all (fun e => e.1.holds e.2.1) then go (s.commitOne n (l.map (fun e => stageOf e.1 e.2.1 e.2.2))) else .refused .illFormed

/-- INVALIDATION: a commit of INVAL.CMD, with the address of the invalidation (R142). -/
def execInvalidation (n scope inst pid addr : Nat) (s : State) : Host.Outcome State Fault Refusal :=
  s.commitOf n [(Reg.TTU_INVAL_ADDR_LO, [], addr / 2 ^ 12), (Reg.TTU_INVAL_ADDR_HI, [], addr / 2 ^ 32), (Reg.TTU_INVAL_SCOPE, [], scope), (Reg.TTU_INVAL_INST, [], inst), (Reg.TTU_INVAL_PID, [], pid)]

/-- The transactions with these numbers have completed. -/
def State.drained (s : State) (ids : List Nat) : Bool :=
  ids.all (fun i => !s.fab.open_.any (fun t => t.id = i && !t.expired) && !s.fab.posted.any (fun p => p.id = i))

/-- INVALIDATION_DRAIN_DONE: every transaction that used a translation dropped by the oldest invalidation has completed, and DONE counts (R142). -/
def execInvalidationDrainDone (s : State) : Host.Outcome State Fault Refusal :=
  match s.ttu.drains with
  | [] => go s
  | ids :: rest =>
    if s.drained ids then go (({ s with ttu := { s.ttu with drains := rest } }).incWrap Reg.TTU_INVAL_STAT_DONE [] 1) else go s

/-- REKEY: a commit of REKEY = 1 for slot `k` (R220). -/
def execRekey (k : Nat) (s : State) : Host.Outcome State Fault Refusal :=
  s.commitOf 0 [(Reg.MEM_KEY_REKEY, [k], 1)]

/-- ENCLAVE_CREATE: a commit of the range and the instance of entry `e` with REQ = CREATE (R245). -/
def execEnclaveCreate (e base size inst : Nat) (s : State) : Host.Outcome State Fault Refusal :=
  s.commitOf 0 [(Reg.ENC_ERT_SIZE, [e], size), (Reg.ENC_ERT_BASE_LO, [e], base / 2 ^ 17), (Reg.ENC_ERT_BASE_HI, [e], base / 2 ^ 32), (Reg.ENC_ERT_INST, [e], inst), (Reg.ENC_ERT_REQ, [e], 1)]

/-- ENCLAVE_SEAL: a commit of REQ = SEAL for entry `e` (R254). -/
def execEnclaveSeal (e : Nat) (s : State) : Host.Outcome State Fault Refusal :=
  s.commitOf 0 [(Reg.ENC_ERT_REQ, [e], 2)]

/-- ENCLAVE_DESTROY: a commit of REQ = DESTROY for entry `e` (R246). -/
def execEnclaveDestroy (e : Nat) (s : State) : Host.Outcome State Fault Refusal :=
  s.commitOf 0 [(Reg.ENC_ERT_REQ, [e], 3)]

/-- CRYPTO_KEY_CLEAR: a commit of CLEAR = 1 for slot `k` of XD `n` (R266). -/
def execCryptoKeyClear (n k : Nat) (s : State) : Host.Outcome State Fault Refusal :=
  s.commitOf 0 [(Reg.CRY_KEY_CLEAR, [n, k], 1)]

/-- SOURCE_ACK: context `n` commits ACK = 1 for source `x` of die `d` (R285). -/
def execSourceAck (n d x : Nat) (s : State) : Host.Outcome State Fault Refusal :=
  s.commitOf n [(Reg.APC_SRC_ACK, [d, x], 1)]

/-- CLUSTER_RUN: a commit of REQ = 0 for cluster `c` (R289). -/
def execClusterRun (c : Nat) (s : State) : Host.Outcome State Fault Refusal :=
  s.commitOf 0 [(Reg.APC_CL_REQ, [c], 0)]

/-- CLUSTER_RETAIN: a commit of REQ = 1 for cluster `c` (R289). -/
def execClusterRetain (c : Nat) (s : State) : Host.Outcome State Fault Refusal :=
  s.commitOf 0 [(Reg.APC_CL_REQ, [c], 1)]

/-- CLUSTER_OFF: a commit of REQ = 2 for cluster `c` (R289). -/
def execClusterOff (c : Nat) (s : State) : Host.Outcome State Fault Refusal :=
  s.commitOf 0 [(Reg.APC_CL_REQ, [c], 2)]

/-- BIN_GROW: context `n` commits GROW_ADDR and GROW_COUNT of graphics context `g` (R352). -/
def execBinGrow (n g addr count : Nat) (s : State) : Host.Outcome State Fault Refusal :=
  s.commitOf n [(Reg.GFX_GCTX_GROW_ADDR_LO, [g], addr / 8), (Reg.GFX_GCTX_GROW_ADDR_HI, [g], addr / 2 ^ 32), (Reg.GFX_GCTX_GROW_COUNT, [g], count)]

/-- PIPE_DISABLE: a commit that clears ENABLE of pipe `d` (R398). -/
def execPipeDisable (d : Nat) (s : State) : Host.Outcome State Fault Refusal :=
  s.commitOf 0 [(Reg.DSP_PIPE_ENABLE, [d], 0)]

/-- STREAM_CLR: context `n` commits CLR = 1 for stream `k` (R411). -/
def execStreamClr (n k : Nat) (s : State) : Host.Outcome State Fault Refusal :=
  s.commitOf n [(Reg.SNS_STREAM_CLR, [k], 1)]

/-- STREAM_LIE: context `n` commits LIE = 1 for stream `k` (R415). -/
def execStreamLie (n k : Nat) (s : State) : Host.Outcome State Fault Refusal :=
  s.commitOf n [(Reg.SNS_STREAM_LIE, [k], 1)]

/-- CAN_RESUME: a commit of RESUME = 1 for controller `c` of XD `n` (R465, R466). -/
def execCanResume (n c : Nat) (s : State) : Host.Outcome State Fault Refusal :=
  s.commitOf 0 [(Reg.CAN_CTL_RESUME, [n, c], 1)]

/-- REQ_MAIN: a commit of REQ_MAIN = 1 (R477). -/
def execReqMain (s : State) : Host.Outcome State Fault Refusal :=
  s.commitOf 0 [(Reg.NET_AAS_REQ_MAIN, [], 1)]

/-- REF_SEL: a commit of SEL, crystal B when `b` (R492). -/
def execRefSel (b : Bool) (s : State) : Host.Outcome State Fault Refusal :=
  s.commitOf 0 [(Reg.CLK_REF_SEL, [], if b then 1 else 0)]

/-- EPOCH_GO: a commit of SET with GO = 1 (R499). -/
def execEpochGo (set : Nat) (s : State) : Host.Outcome State Fault Refusal :=
  s.commitOf 0 [(Reg.CLK_EPOCH_SET_LO, [], set), (Reg.CLK_EPOCH_SET_HI, [], set / 2 ^ 32), (Reg.CLK_EPOCH_GO, [], 1)]

/-- RTC_SYNC: a commit of RTC.SYNC = 1 (R495). -/
def execRtcSync (s : State) : Host.Outcome State Fault Refusal :=
  s.commitOf 0 [(Reg.CLK_RTC_SYNC, [], 1)]

/-- EVENT_CLR: a commit of CLR = 1 for event `e` (R516). -/
def execEventClr (e : Nat) (s : State) : Host.Outcome State Fault Refusal :=
  s.commitOf 0 [(Reg.SAF_EVT_CLR, [e], 1)]

/-- HEARTBEAT: a commit of HB.SEQ (R521). -/
def execHeartbeat (v : Nat) (s : State) : Host.Outcome State Fault Refusal :=
  s.commitOf 0 [(Reg.SAF_HB_SEQ, [], v)]

/-- BK_ACK: a commit of BK.ACK = 1 (R542). -/
def execBkAck (s : State) : Host.Outcome State Fault Refusal :=
  s.commitOf 0 [(Reg.ALM_BK_ACK, [], 1)]

/-- WRECK_SW: a commit of WRECK_SW = 1 (R543). -/
def execWreckSw (s : State) : Host.Outcome State Fault Refusal :=
  s.commitOf 0 [(Reg.ALM_WRECK_SW, [], 1)]

/-- WRECK_REARM: a commit of the bit of die `d` (R548). -/
def execWreckRearm (d : Nat) (s : State) : Host.Outcome State Fault Refusal :=
  s.commitOf 0 [(Reg.ALM_WRECK_REARM, [], 2 ^ d)]

/-- DUMP_GO: a commit of DUMP.ADDR and DUMP.DIE with GO = 1 (R547). -/
def execDumpGo (d addr : Nat) (s : State) : Host.Outcome State Fault Refusal :=
  s.commitOf 0 [(Reg.ALM_DUMP_ADDR_LO, [], addr / 2 ^ 16), (Reg.ALM_DUMP_ADDR_HI, [], addr / 2 ^ 32), (Reg.ALM_DUMP_DIE, [], d), (Reg.ALM_DUMP_GO, [], 1)]

/-- REMAP: a commit of MAT.REMAP = 1 (R195). -/
def execRemap (s : State) : Host.Outcome State Fault Refusal :=
  s.commitOf 0 [(Reg.MAT_REMAP_REMAP, [], 1)]

/-- HART_GO: a commit of the bit of hart `h` (R560). -/
def execHartGo (h : Nat) (s : State) : Host.Outcome State Fault Refusal :=
  if h = 0 || 15 < h then .refused .illFormed else s.commitOf 0 [(Reg.BOOT_CTRL_HART_GO, [], 2 ^ (h - 1))]

/-- SVN_ADV: a commit of ADV = `v` for image kind `k` (R557). -/
def execSvnAdv (k v : Nat) (s : State) : Host.Outcome State Fault Refusal :=
  if k = 0 then .refused .illFormed else s.commitOf 0 [(Reg.BOOT_SVN_ADV, [k - 1], v)]

/-- INSTANCE_RESET: a commit of IRST.REQ = 1 for instance `i` (R569). -/
def execInstanceReset (i : Nat) (s : State) : Host.Outcome State Fault Refusal :=
  s.commitOf 0 [(Reg.BOOT_IRST_REQ, [i], 1)]

/-- DOMAIN_POWER_ON: a commit of PD.REQ = 1 for domain `k` (R592). -/
def execDomainPowerOn (k : Nat) (s : State) : Host.Outcome State Fault Refusal :=
  s.commitOf 0 [(Reg.PWR_PD_REQ, [k], 1)]

/-- DOMAIN_POWER_OFF: a commit of PD.REQ = 0 for domain `k` (R590). -/
def execDomainPowerOff (k : Nat) (s : State) : Host.Outcome State Fault Refusal :=
  s.commitOf 0 [(Reg.PWR_PD_REQ, [k], 0)]

end Sys2Proof.Machine
end

