-- ==== Sys2Proof/Machine/Handover.lean ====
section
/-! DEFINITION. HANDOVER (08, R259 to R262; 03, R128): resource numbers, and the four steps quiesce, reset, scrub and grant. -/

namespace Sys2Proof.Machine

/-! ### Resource numbers (R259, Table enc.3) -/

/-- The number names a resource of Table enc.3 on a present die; only interrupt sources lie on the CD. -/
def State.resExists (s : State) (r : Nat) : Bool :=
  !bitAt r 15 && resIndex r ≤ resLast (resClass r)
    && (resDie r < s.fuses.variant.xds || (resDie r = 8 && resClass r = 7))

/-- A resource of the Safety Island's direct paths (R261). -/
def directPath (r : Nat) : Bool :=
  resDie r = 0 && ((resClass r = 5 && resIndex r = 0) || (resClass r = 1 && resIndex r < 4) || resClass r = 4)

/-- The interrupt sources that follow a resource (R260): a source itself, and those of a block. -/
def sourcesOf (r : Nat) : List Nat :=
  if resClass r = 7 then [resIndex r] else (List.range 256).filter (fun x => Config.sourceBlock (resDie r) x = r)

/-! ### The steps (R260) -/

/-- Quiesce: queued entries end with ST_ABORTED, and what is on the wire goes on. -/
def State.quiesce (s : State) (r : Nat) : State :=
  let n := resDie r
  let x := resIndex r
  match resClass r with
  | 0 =>
    let mine := s.net.queue.filter (fun e => e.port = 32 * n + x)
    let s := s.setNet { s.net with queue := s.net.queue.filter (fun e => e.port ≠ 32 * n + x) }
    mine.foldl (fun s e => s.sentBy e.src .aborted 0) s
  | 1 =>
    let c := s.can (16 * n + x)
    c.bufs.foldl (fun s (p : CanPend) => s.sentBy p.src .aborted 0) (s.setCan (16 * n + x) { c with bufs := [] })
  | _ => s

/-- The state-space words of a resource. -/
def resWord (r k : Nat) : Bool :=
  let n := resDie r
  let x := resIndex r
  let d := if n = 8 then 4 else n
  match resClass r with
  | 0 => k = wordKey 0x0D (32 * n + x) || k = wordKey 0x0D (0x80 + 32 * n + x) || k = wordKey 0x0D (0x100 + 32 * n + x)
      || k = wordKey 0x0D (0x200 + 64 * n + 2 * x) || k = wordKey 0x0D (0x201 + 64 * n + 2 * x)
      || (x < 18 && wordKey 0x0D (0x1A000 + 648 * n + 36 * x) ≤ k && k < wordKey 0x0D (0x1A000 + 648 * n + 36 * x + 36))
  | 1 => wordKey 0x0E (128 * n + 8 * x) ≤ k && k < wordKey 0x0E (128 * n + 8 * x + 8)
  | 2 => k = wordKey 0x0E (0x1000 + 16 * n + 2 * x) || k = wordKey 0x0E (0x1001 + 16 * n + 2 * x)
  | 3 => wordKey 0x04 (0x220 + 4 * n) ≤ k && k < wordKey 0x04 (0x224 + 4 * n)
  | 7 => k = wordKey 0x07 (0x2000 + 256 * d + x)
  | _ => false

/-- Reset and scrub: the block's words, buffers, keys and counters, and its sources' pending messages and vectors. -/
def State.scrub (s : State) (r : Nat) : State :=
  let n := resDie r
  let x := resIndex r
  let d := if n = 8 then 4 else n
  let s := match resClass r with
    | 0 => s.setNet { s.net with
        ports := tdel s.net.ports (32 * n + x)
        keys := s.net.keys.filter (fun e => !(648 * n + 36 * x ≤ e.1 && e.1 < 648 * n + 36 * x + 36))
        learned := s.net.learned.filter (fun e => !(e.1 = n && e.2.2.2 = x)) }
    | 1 =>
      let c := s.can (16 * n + x)
      (c.sending.toList ++ c.bufs).foldl (fun s (p : CanPend) => s.sentBy p.src .aborted 0)
        (s.setNet { s.net with can := tdel s.net.can (16 * n + x) })
    | 2 => s.setNet { s.net with linPos := tdel s.net.linPos (8 * n + x) }
    | _ => s
  let s := s.resetWords (resWord r)
  (sourcesOf r).foldl (fun s x =>
    let s := { s with
      fab := { s.fab with held := s.fab.held.filter (fun h => h.src ≠ some (256 * d + x)) }
      apc := { s.apc with sentLevel := s.apc.sentLevel.filter (· ≠ 256 * d + x) } }
    s.wr Reg.APC_SRC_VEC [d, x] 0) s

/-- Grant: the owner of the resource and of the sources that follow it changes, and GEN advances. -/
def State.grantRes (s : State) (r owner : Nat) : State :=
  let s := (sourcesOf r).foldl (fun s x => s.wr Reg.ENC_OWN_OWNER [ownIndex 7 (resDie r) x] owner) s
  ((s.wr Reg.ENC_OWN_OWNER [r] owner).incWrap Reg.ENC_OWN_GEN [r] 1).wr Reg.ENC_OWN_STEP [r] 0

/-! ### Meanings -/

/-- The island knows of a gap on its direct path, from before quiesce until the grant (R261): its stream monitor raises no fault for it. -/
def State.tellGap (s : State) (r : Nat) (coming : Bool) : State :=
  if directPath r then
    { s with saf := { s.saf with gaps := s.saf.gaps.filter (· ≠ r) ++ (if coming then [r] else []) } }
  else s

/-- HANDOVER moves resource KA[15:0] to instance KB[5:0] (R128, R259 to R262): it waits while the steps run. Where the new owner is above 31 and the resource is absent as well, the spec does not say which status answers: it is ST_DENIED (DESIGN CHOICE, log entry 47). -/
def execHandover (i : Issue) (s : State) : Host.Outcome State Fault Refusal :=
  s.attempt (partyCtx i.ctx) none (fun s => s.issue i 0x70 (fun a c =>
    let r := (c.ka a).toNat % 2 ^ 16
    let owner := (c.kb a).toNat % 64
    if owner > 31 then s.retire i.ctx i.cyc a.c 1 .denied (fun c => c)
    else if !s.resExists r then s.retire i.ctx i.cyc a.c 1 .decode (fun c => c)
    else if s.dusk && directPath r then s.retire i.ctx i.cyc a.c 1 .denied (fun c => c)
    else
      let s := (((s.spend i.ctx i.cyc).tellGap r true).wr Reg.ENC_OWN_STEP [r] 1).quiesce r
      { s with enc := { s.enc with handover := some ⟨i.ctx, r, owner⟩ } }.suspend i.ctx (.handover r owner) a.c 1))

/-- HANDOVER_QUIESCE_DONE: the quiesce step ends; reset, scrub and grant follow, and HANDOVER retires with ST_OK (R260, R261). -/
def execHandoverQuiesceDone (s : State) : Host.Outcome State Fault Refusal :=
  match s.enc.handover with
  | none => go s
  | some h => s.attempt (partyCtx h.ctx) none (fun s =>
    let s := (((s.scrub h.res).grantRes h.res h.owner).tellGap h.res false)
    go ({ s with enc := { s.enc with handover := none } }.retireWait h.ctx .ok (fun c => c)))

end Sys2Proof.Machine
end

