-- ==== Sys2Proof/Machine/Dispatch.lean ====
section
/-! DEFINITION. The dispatch of a command to its meaning: one arm for each constructor of Instr. -/

namespace Sys2Proof.Machine

def exec (i : Instr) (s : State) : Host.Outcome State Fault Refusal :=
  match i with
  | .governorWindowOpen => Sys2Proof.Machine.execGovernorWindowOpen s
  | .governorReleasePoint => Sys2Proof.Machine.execGovernorReleasePoint s
  | .tileHbmRequest t a addr size w e => Sys2Proof.Machine.execTileHbmRequest t a addr size w e s
  | .cpChainHeadWrite tag off size v => Sys2Proof.Machine.execCpChainHeadWrite tag off size v s
  | .cpDoorbellRing tag off size v => Sys2Proof.Machine.execCpDoorbellRing tag off size v s
  | .cpFaultCodeClear tag off size v => Sys2Proof.Machine.execCpFaultCodeClear tag off size v s
  | .cpLowHalfRead tag epoch => Sys2Proof.Machine.execCpLowHalfRead tag epoch s
  | .cpHighHalfRead tag epoch => Sys2Proof.Machine.execCpHighHalfRead tag epoch s
  | .registerWrite w => Sys2Proof.Machine.execRegisterWrite w s
  | .chainHeadSample n => Sys2Proof.Machine.execChainHeadSample n s
  | .tenantDoorbell n => Sys2Proof.Machine.execTenantDoorbell n s
  | .strandQuantumExpiry k => Sys2Proof.Machine.execStrandQuantumExpiry k s
  | .programStart n e => Sys2Proof.Machine.execProgramStart n e s
  | .programEnd n => Sys2Proof.Machine.execProgramEnd n s
  | .runAheadFetch n pos w cyc e => Sys2Proof.Machine.execRunAheadFetch n pos w cyc e s
  | .nop iss => Sys2Proof.Machine.execNop iss s
  | .endProgram iss => Sys2Proof.Machine.execEndProgram iss s
  | .yield iss => Sys2Proof.Machine.execYield iss s
  | .fence iss => Sys2Proof.Machine.execFence iss s
  | .epoch iss => Sys2Proof.Machine.execEpoch iss s
  | .li iss => Sys2Proof.Machine.execLi iss s
  | .lix iss => Sys2Proof.Machine.execLix iss s
  | .add iss => Sys2Proof.Machine.execAdd iss s
  | .addi iss => Sys2Proof.Machine.execAddi iss s
  | .sub iss => Sys2Proof.Machine.execSub iss s
  | .and iss => Sys2Proof.Machine.execAnd iss s
  | .or iss => Sys2Proof.Machine.execOr iss s
  | .xor iss => Sys2Proof.Machine.execXor iss s
  | .shli iss => Sys2Proof.Machine.execShli iss s
  | .shri iss => Sys2Proof.Machine.execShri iss s
  | .movs iss => Sys2Proof.Machine.execMovs iss s
  | .br iss => Sys2Proof.Machine.execBr iss s
  | .bst iss => Sys2Proof.Machine.execBst iss s
  | .call iss => Sys2Proof.Machine.execCall iss s
  | .ret iss => Sys2Proof.Machine.execRet iss s
  | .ld iss e => Sys2Proof.Machine.execLd iss e s
  | .st iss e => Sys2Proof.Machine.execSt iss e s
  | .poll iss e => Sys2Proof.Machine.execPoll iss e s
  | .pollCheck n cyc e => Sys2Proof.Machine.execPollCheck n cyc e s
  | .pollTimeout n => Sys2Proof.Machine.execPollTimeout n s
  | .stage iss => Sys2Proof.Machine.execStage iss s
  | .stagei iss => Sys2Proof.Machine.execStagei iss s
  | .spaceLockGrant space => Sys2Proof.Machine.execSpaceLockGrant space s
  | .spaceLockTimeout n => Sys2Proof.Machine.execSpaceLockTimeout n s
  | .commit iss => Sys2Proof.Machine.execCommit iss s
  | .discard iss => Sys2Proof.Machine.execDiscard iss s
  | .fetch iss => Sys2Proof.Machine.execFetch iss s
  | .dispatch iss => Sys2Proof.Machine.execDispatch iss s
  | .dispatchSlotTimeout n => Sys2Proof.Machine.execDispatchSlotTimeout n s
  | .abort iss => Sys2Proof.Machine.execAbort iss s
  | .wait iss => Sys2Proof.Machine.execWait iss s
  | .waitTimeout n => Sys2Proof.Machine.execWaitTimeout n s
  | .signal iss => Sys2Proof.Machine.execSignal iss s
  | .lock iss => Sys2Proof.Machine.execLock iss s
  | .lockTimeout n => Sys2Proof.Machine.execLockTimeout n s
  | .unlock iss => Sys2Proof.Machine.execUnlock iss s
  | .semaphoreHandoff k => Sys2Proof.Machine.execSemaphoreHandoff k s
  | .handover iss => Sys2Proof.Machine.execHandover iss s
  | .rstctx iss => Sys2Proof.Machine.execRstctx iss s
  | .ttuTranslate a addr size => Sys2Proof.Machine.execTtuTranslate a addr size s
  | .invalidation n scope inst pid addr => Sys2Proof.Machine.execInvalidation n scope inst pid addr s
  | .invalidationDrainDone => Sys2Proof.Machine.execInvalidationDrainDone s
  | .periodBoundary => Sys2Proof.Machine.execPeriodBoundary s
  | .orreryArbitration r => Sys2Proof.Machine.execOrreryArbitration r s
  | .slicePreempt cluster k => Sys2Proof.Machine.execSlicePreempt cluster k s
  | .fabricRequest a addr size w e => Sys2Proof.Machine.execFabricRequest a addr size w e s
  | .freezeLimitExpiry => Sys2Proof.Machine.execFreezeLimitExpiry s
  | .freezeRelease => Sys2Proof.Machine.execFreezeRelease s
  | .fabricTimeout id => Sys2Proof.Machine.execFabricTimeout id s
  | .lateResponse id => Sys2Proof.Machine.execLateResponse id s
  | .postedWriteError st => Sys2Proof.Machine.execPostedWriteError st s
  | .interruptMessageRelease source => Sys2Proof.Machine.execInterruptMessageRelease source s
  | .sourceInterrupt d x on => Sys2Proof.Machine.execSourceInterrupt d x on s
  | .linkDown n retries => Sys2Proof.Machine.execLinkDown n retries s
  | .linkRetrainDone n => Sys2Proof.Machine.execLinkRetrainDone n s
  | .linkRetrainExpiry n => Sys2Proof.Machine.execLinkRetrainExpiry n s
  | .hbmRead tag pa e cancelled => Sys2Proof.Machine.execHbmRead tag pa e cancelled s
  | .hbmFullWrite pa bytes e => Sys2Proof.Machine.execHbmFullWrite pa bytes e s
  | .hbmPartialWrite tag pa bytes e => Sys2Proof.Machine.execHbmPartialWrite tag pa bytes e s
  | .rekey k => Sys2Proof.Machine.execRekey k s
  | .patrolScrub w e last => Sys2Proof.Machine.execPatrolScrub w e last s
  | .migrationDone k => Sys2Proof.Machine.execMigrationDone k s
  | .hbmVerifyPassDone found => Sys2Proof.Machine.execHbmVerifyPassDone found s
  | .enclaveCreate e base size inst => Sys2Proof.Machine.execEnclaveCreate e base size inst s
  | .enclaveSeal e => Sys2Proof.Machine.execEnclaveSeal e s
  | .sealDone e => Sys2Proof.Machine.execSealDone e s
  | .enclaveDestroy e => Sys2Proof.Machine.execEnclaveDestroy e s
  | .destroyDone e => Sys2Proof.Machine.execDestroyDone e s
  | .mailboxWrite a e addr bytes => Sys2Proof.Machine.execMailboxWrite a e addr bytes s
  | .monitorRestart verified => Sys2Proof.Machine.execMonitorRestart verified s
  | .gcmEncrypt n => Sys2Proof.Machine.execGcmEncrypt n s
  | .gcmDecrypt n => Sys2Proof.Machine.execGcmDecrypt n s
  | .sha256 n => Sys2Proof.Machine.execSha256 n s
  | .sha384 n => Sys2Proof.Machine.execSha384 n s
  | .sha512 n => Sys2Proof.Machine.execSha512 n s
  | .sha3256 n => Sys2Proof.Machine.execSha3256 n s
  | .sha3384 n => Sys2Proof.Machine.execSha3384 n s
  | .sha3512 n => Sys2Proof.Machine.execSha3512 n s
  | .p256Sign n => Sys2Proof.Machine.execP256Sign n s
  | .p256Verify n => Sys2Proof.Machine.execP256Verify n s
  | .p384Sign n => Sys2Proof.Machine.execP384Sign n s
  | .p384Verify n => Sys2Proof.Machine.execP384Verify n s
  | .keyload n => Sys2Proof.Machine.execKeyload n s
  | .cryptoPreempt n save => Sys2Proof.Machine.execCryptoPreempt n save s
  | .cryptoResume n restore => Sys2Proof.Machine.execCryptoResume n restore s
  | .cryptoJobDone n => Sys2Proof.Machine.execCryptoJobDone n s
  | .cryptoKeyClear n k => Sys2Proof.Machine.execCryptoKeyClear n k s
  | .gateMark h p w => Sys2Proof.Machine.execGateMark h p w s
  | .gateEnter h p w rs1 pa => Sys2Proof.Machine.execGateEnter h p w rs1 pa s
  | .gateExit h p w rs1 => Sys2Proof.Machine.execGateExit h p w rs1 s
  | .hartAccessFault h p va pa k f => Sys2Proof.Machine.execHartAccessFault h p va pa k f s
  | .storeError h addr st at_ => Sys2Proof.Machine.execStoreError h addr st at_ s
  | .irqDeliver at_ => Sys2Proof.Machine.execIrqDeliver at_ s
  | .seteipnumWrite h f off size v => Sys2Proof.Machine.execSeteipnumWrite h f off size v s
  | .mtimecmpWrite h off size v => Sys2Proof.Machine.execMtimecmpWrite h off size v s
  | .timerCompare h k at_ => Sys2Proof.Machine.execTimerCompare h k at_ s
  | .sourceAck n d x => Sys2Proof.Machine.execSourceAck n d x s
  | .clusterRun c => Sys2Proof.Machine.execClusterRun c s
  | .clusterRetain c => Sys2Proof.Machine.execClusterRetain c s
  | .clusterOff c => Sys2Proof.Machine.execClusterOff c s
  | .clusterStateEntry c => Sys2Proof.Machine.execClusterStateEntry c s
  | .clusterWake c => Sys2Proof.Machine.execClusterWake c s
  | .gemm u cyc dbe => Sys2Proof.Machine.execGemm u cyc dbe s
  | .conv2d u cyc dbe => Sys2Proof.Machine.execConv2d u cyc dbe s
  | .dwconv u cyc dbe => Sys2Proof.Machine.execDwconv u cyc dbe s
  | .deconv u cyc dbe => Sys2Proof.Machine.execDeconv u cyc dbe s
  | .pool u cyc dbe => Sys2Proof.Machine.execPool u cyc dbe s
  | .elemwise u cyc dbe => Sys2Proof.Machine.execElemwise u cyc dbe s
  | .activate u cyc dbe => Sys2Proof.Machine.execActivate u cyc dbe s
  | .norm u cyc dbe => Sys2Proof.Machine.execNorm u cyc dbe s
  | .softmax u cyc dbe => Sys2Proof.Machine.execSoftmax u cyc dbe s
  | .topk u cyc dbe => Sys2Proof.Machine.execTopk u cyc dbe s
  | .gather u cyc dbe => Sys2Proof.Machine.execGather u cyc dbe s
  | .scatter u cyc dbe => Sys2Proof.Machine.execScatter u cyc dbe s
  | .transpose u cyc dbe => Sys2Proof.Machine.execTranspose u cyc dbe s
  | .reshape u cyc dbe => Sys2Proof.Machine.execReshape u cyc dbe s
  | .quant u cyc dbe => Sys2Proof.Machine.execQuant u cyc dbe s
  | .dequant u cyc dbe => Sys2Proof.Machine.execDequant u cyc dbe s
  | .reduce u cyc dbe => Sys2Proof.Machine.execReduce u cyc dbe s
  | .argmax u cyc dbe => Sys2Proof.Machine.execArgmax u cyc dbe s
  | .resize u cyc dbe => Sys2Proof.Machine.execResize u cyc dbe s
  | .gridsample u cyc dbe => Sys2Proof.Machine.execGridsample u cyc dbe s
  | .attention u cyc dbe => Sys2Proof.Machine.execAttention u cyc dbe s
  | .copy u cyc dbe => Sys2Proof.Machine.execCopy u cyc dbe s
  | .golden u cyc lines crc => Sys2Proof.Machine.execGolden u cyc lines crc s
  | .syncBarrier u => Sys2Proof.Machine.execSyncBarrier u s
  | .syncSignal u => Sys2Proof.Machine.execSyncSignal u s
  | .syncWait t => Sys2Proof.Machine.execSyncWait t s
  | .syncWaitPoll t u => Sys2Proof.Machine.execSyncWaitPoll t u s
  | .syncWaitTimeout t u => Sys2Proof.Machine.execSyncWaitTimeout t u s
  | .tileSwitch t => Sys2Proof.Machine.execTileSwitch t s
  | .infJobComplete u => Sys2Proof.Machine.execInfJobComplete u s
  | .safetyFrameEnd cyc lines crcs => Sys2Proof.Machine.execSafetyFrameEnd cyc lines crcs s
  | .spareSwapDone t => Sys2Proof.Machine.execSpareSwapDone t s
  | .rotationSwap => Sys2Proof.Machine.execRotationSwap s
  | .lbistDone p pass => Sys2Proof.Machine.execLbistDone p pass s
  | .texSample iss => Sys2Proof.Machine.execTexSample iss s
  | .interp iss => Sys2Proof.Machine.execInterp iss s
  | .tbLd iss => Sys2Proof.Machine.execTbLd iss s
  | .tbSt iss => Sys2Proof.Machine.execTbSt iss s
  | .covRead iss => Sys2Proof.Machine.execCovRead iss s
  | .covDiscard iss => Sys2Proof.Machine.execCovDiscard iss s
  | .bar iss => Sys2Proof.Machine.execBar iss s
  | .shaderEcall th pc a7 => Sys2Proof.Machine.execShaderEcall th pc a7 s
  | .shaderException th pc cause st => Sys2Proof.Machine.execShaderException th pc cause st s
  | .packetEnd u => Sys2Proof.Machine.execPacketEnd u s
  | .passBegin u => Sys2Proof.Machine.execPassBegin u s
  | .passEnd u cyc => Sys2Proof.Machine.execPassEnd u cyc s
  | .pipe u => Sys2Proof.Machine.execPipe u s
  | .bind u => Sys2Proof.Machine.execBind u s
  | .draw u cyc prims => Sys2Proof.Machine.execDraw u cyc prims s
  | .packetWait u => Sys2Proof.Machine.execPacketWait u s
  | .packetWaitTimeout u => Sys2Proof.Machine.execPacketWaitTimeout u s
  | .packetSignal u => Sys2Proof.Machine.execPacketSignal u s
  | .jump u => Sys2Proof.Machine.execJump u s
  | .binGrow n g addr count => Sys2Proof.Machine.execBinGrow n g addr count s
  | .binGrowTimeout n => Sys2Proof.Machine.execBinGrowTimeout n s
  | .gfxStreamComplete u => Sys2Proof.Machine.execGfxStreamComplete u s
  | .computeJobStart u => Sys2Proof.Machine.execComputeJobStart u s
  | .computeWaitTimeout u => Sys2Proof.Machine.execComputeWaitTimeout u s
  | .computeJobComplete u cyc => Sys2Proof.Machine.execComputeJobComplete u cyc s
  | .clusterSwitch c => Sys2Proof.Machine.execClusterSwitch c s
  | .deadlinePreempt d => Sys2Proof.Machine.execDeadlinePreempt d s
  | .displayDecisionInstant d => Sys2Proof.Machine.execDisplayDecisionInstant d s
  | .bandProduction d mid under => Sys2Proof.Machine.execBandProduction d mid under s
  | .frameReadyPoll d => Sys2Proof.Machine.execFrameReadyPoll d s
  | .frameReadyTimeout d u => Sys2Proof.Machine.execFrameReadyTimeout d u s
  | .frameRetire d u => Sys2Proof.Machine.execFrameRetire d u s
  | .regionCrcCheck d => Sys2Proof.Machine.execRegionCrcCheck d s
  | .frameStatusWrite d => Sys2Proof.Machine.execFrameStatusWrite d s
  | .pipeDisable d => Sys2Proof.Machine.execPipeDisable d s
  | .sampleArrival n a => Sys2Proof.Machine.execSampleArrival n a s
  | .streamTimeout n => Sys2Proof.Machine.execStreamTimeout n s
  | .streamClr n k => Sys2Proof.Machine.execStreamClr n k s
  | .streamLie n k => Sys2Proof.Machine.execStreamLie n k s
  | .egoStep => Sys2Proof.Machine.execEgoStep s
  | .biasUpdate => Sys2Proof.Machine.execBiasUpdate s
  | .epochRelease => Sys2Proof.Machine.execEpochRelease s
  | .epochWaitExpiry => Sys2Proof.Machine.execEpochWaitExpiry s
  | .fusionJob => Sys2Proof.Machine.execFusionJob s
  | .fusionEpochTimeout u => Sys2Proof.Machine.execFusionEpochTimeout u s
  | .txEthernet u => Sys2Proof.Machine.execTxEthernet u s
  | .txCan r => Sys2Proof.Machine.execTxCan r s
  | .txLin u => Sys2Proof.Machine.execTxLin u s
  | .txDiagnosticMessage u => Sys2Proof.Machine.execTxDiagnosticMessage u s
  | .txJobComplete u => Sys2Proof.Machine.execTxJobComplete u s
  | .synthesiserLock n p => Sys2Proof.Machine.execSynthesiserLock n p s
  | .synthesiserHoldExpiry n p tc => Sys2Proof.Machine.execSynthesiserHoldExpiry n p tc s
  | .egressAged n p tc => Sys2Proof.Machine.execEgressAged n p tc s
  | .ethernetRx n p b fcsOk passed sec dst => Sys2Proof.Machine.execEthernetRx n p b fcsOk passed sec dst s
  | .canFrameRx n src time f => Sys2Proof.Machine.execCanFrameRx n src time f s
  | .canTxDone n c r => Sys2Proof.Machine.execCanTxDone n c r s
  | .canResume n c => Sys2Proof.Machine.execCanResume n c s
  | .busOffRecovery n c => Sys2Proof.Machine.execBusOffRecovery n c s
  | .pduPeriod n d => Sys2Proof.Machine.execPduPeriod n d s
  | .diagSessionIdle n j => Sys2Proof.Machine.execDiagSessionIdle n j s
  | .authChange => Sys2Proof.Machine.execAuthChange s
  | .reqMain => Sys2Proof.Machine.execReqMain s
  | .gptpSyncRx offset => Sys2Proof.Machine.execGptpSyncRx offset s
  | .gptpSyncTx n p => Sys2Proof.Machine.execGptpSyncTx n p s
  | .refWindowEnd da db dab => Sys2Proof.Machine.execRefWindowEnd da db dab s
  | .crystalEdgeLoss b => Sys2Proof.Machine.execCrystalEdgeLoss b s
  | .xtal32EdgeLoss => Sys2Proof.Machine.execXtal32EdgeLoss s
  | .refSel b => Sys2Proof.Machine.execRefSel b s
  | .epochGo set => Sys2Proof.Machine.execEpochGo set s
  | .rtcSync => Sys2Proof.Machine.execRtcSync s
  | .holdoverExpiry => Sys2Proof.Machine.execHoldoverExpiry s
  | .frequencyChangeDone gfx => Sys2Proof.Machine.execFrequencyChangeDone gfx s
  | .fcuLatch e => Sys2Proof.Machine.execFcuLatch e s
  | .warmResetAssert => Sys2Proof.Machine.execWarmResetAssert s
  | .eventClr e => Sys2Proof.Machine.execEventClr e s
  | .take => Sys2Proof.Machine.execTake s
  | .wdogKick v => Sys2Proof.Machine.execWdogKick v s
  | .islandWatchdogExpiry => Sys2Proof.Machine.execIslandWatchdogExpiry s
  | .heartbeat v => Sys2Proof.Machine.execHeartbeat v s
  | .heartbeatTimeout => Sys2Proof.Machine.execHeartbeatTimeout s
  | .authorityReturn => Sys2Proof.Machine.execAuthorityReturn s
  | .injectionResample e still => Sys2Proof.Machine.execInjectionResample e still s
  | .startupInjection main groups fails => Sys2Proof.Machine.execStartupInjection main groups fails s
  | .runtimeInjection g evs ok asilD => Sys2Proof.Machine.execRuntimeInjection g evs ok asilD s
  | .almanacRecord => Sys2Proof.Machine.execAlmanacRecord s
  | .backupAlarm source slot => Sys2Proof.Machine.execBackupAlarm source slot s
  | .bkAck => Sys2Proof.Machine.execBkAck s
  | .wreckTrigger => Sys2Proof.Machine.execWreckTrigger s
  | .wreckSw => Sys2Proof.Machine.execWreckSw s
  | .wreckFreeze d => Sys2Proof.Machine.execWreckFreeze d s
  | .wreckRearm d => Sys2Proof.Machine.execWreckRearm d s
  | .dumpGo d addr => Sys2Proof.Machine.execDumpGo d addr s
  | .dumpDone => Sys2Proof.Machine.execDumpDone s
  | .coldBoot f => Sys2Proof.Machine.execColdBoot f s
  | .powerLoss v => Sys2Proof.Machine.execPowerLoss v s
  | .warmRestart f verified => Sys2Proof.Machine.execWarmRestart f verified s
  | .warmRstNAssert => Sys2Proof.Machine.execWarmRstNAssert s
  | .warmRstNRelease => Sys2Proof.Machine.execWarmRstNRelease s
  | .remap => Sys2Proof.Machine.execRemap s
  | .supervisorRunning => Sys2Proof.Machine.execSupervisorRunning s
  | .hartGo h => Sys2Proof.Machine.execHartGo h s
  | .svnAdv k v => Sys2Proof.Machine.execSvnAdv k v s
  | .instanceReset iss => Sys2Proof.Machine.execInstanceReset iss s
  | .instanceResetDone iss => Sys2Proof.Machine.execInstanceResetDone iss s
  | .emSample temps => Sys2Proof.Machine.execEmSample temps s
  | .ageingSample ages => Sys2Proof.Machine.execAgeingSample ages s
  | .wearLogWrite ok => Sys2Proof.Machine.execWearLogWrite ok s
  | .replaceFramePeriod => Sys2Proof.Machine.execReplaceFramePeriod s
  | .domainPowerOn k => Sys2Proof.Machine.execDomainPowerOn k s
  | .domainPowerOff k => Sys2Proof.Machine.execDomainPowerOff k s
  | .domainTransitionDone k => Sys2Proof.Machine.execDomainTransitionDone k s
  | .thermalSample cd xds hbmStacks => Sys2Proof.Machine.execThermalSample cd xds hbmStacks s
  | .thermalLevelFall stack => Sys2Proof.Machine.execThermalLevelFall stack s
  | .thermalTripRelease => Sys2Proof.Machine.execThermalTripRelease s
  | .avsVoltageWrite rail => Sys2Proof.Machine.execAvsVoltageWrite rail s
  | .avsAcknowledge rail ok => Sys2Proof.Machine.execAvsAcknowledge rail ok s
  | .railOutOfRange k => Sys2Proof.Machine.execRailOutOfRange k s
  | .hbOutToggle => Sys2Proof.Machine.execHbOutToggle s
  | .extest pins bits => Sys2Proof.Machine.execExtest pins bits s
  | .samplePreload pins bits => Sys2Proof.Machine.execSamplePreload pins bits s
  | .bypass bits => Sys2Proof.Machine.execBypass bits s
  | .idcode => Sys2Proof.Machine.execIdcode s
  | .handoverQuiesceDone => Sys2Proof.Machine.execHandoverQuiesceDone s
  | .monitorRestartDone => Sys2Proof.Machine.execMonitorRestartDone s
  | .vsync d => Sys2Proof.Machine.execVsync d s
  | .displayLinkDown d => Sys2Proof.Machine.execDisplayLinkDown d s
  | .displayLinkTrained d => Sys2Proof.Machine.execDisplayLinkTrained d s
  | .ethernetLinkDown n p => Sys2Proof.Machine.execEthernetLinkDown n p s
  | .ethernetLinkRetrained n p => Sys2Proof.Machine.execEthernetLinkRetrained n p s
  | .synthesiserCalibrationStart n p => Sys2Proof.Machine.execSynthesiserCalibrationStart n p s
  | .gateIntervalExpiry n p gates slopes => Sys2Proof.Machine.execGateIntervalExpiry n p gates slopes s
  | .pdelayInterval n p => Sys2Proof.Machine.execPdelayInterval n p s
  | .linScheduleSlot n l => Sys2Proof.Machine.execLinScheduleSlot n l s
  | .validSyncAgeExpiry => Sys2Proof.Machine.execValidSyncAgeExpiry s
  | .xtal32EdgesResume => Sys2Proof.Machine.execXtal32EdgesResume s
  | .porstNAssert => Sys2Proof.Machine.execPorstNAssert s
  | .pwrGoodRise => Sys2Proof.Machine.execPwrGoodRise s
  | .vbatBkpFall lost => Sys2Proof.Machine.execVbatBkpFall lost s
  | .standbyHour => Sys2Proof.Machine.execStandbyHour s

end Sys2Proof.Machine
end

