-- ==== Sys2Proof/Machine/Tick.lean ====
section
/-! DEFINITION. What one tick of the 250 MHz master counter does when no command waits (15, R494 to R497; 06, R201; 07, R236; 01, R29; 05, R172; 08, R267; 14, R452): device time, Epoch time, the RTC, the copies of running migrations, the time of held tiles, the cycles of running compute jobs, the engine-ns of running Crypto operations, the credits of Ethernet shapers, and the next posted write (DESIGN CHOICE, log entry 26). -/

namespace Sys2Proof.Machine

/-- The nanoseconds of one tick. -/
def tickNs : Nat := 4

/-- Epoch time moves on by one tick at the corrected rate (R497), modulo 2^64 (R494). -/
def Clk.tick (c : Clk) : Clk :=
  let v := (c.epoch : Int) * 2 ^ 32 + c.frac + tickNs * (2 ^ 32 + c.corr)
  { c with epoch := wrapTo 64 (v / 2 ^ 32), frac := wrapTo 32 v }

/-- The RTC counts the cycles of AO32K while the always-on domain is supplied (R495, R607). -/
def State.rtcTick (s : State) : State :=
  let f := s.clk.rtcFrac + tickNs * 32768
  if f < 1000000000 then { s with clk := { s.clk with rtcFrac := f } }
  else
    let v := (s.rdPair Reg.CLK_RTC_LO Reg.CLK_RTC_HI [] + 1) % 2 ^ 48
    ({ s with clk := { s.clk with rtcFrac := f - 1000000000 } }).wrPair Reg.CLK_RTC_LO Reg.CLK_RTC_HI [] v

/-- One tick. -/
def State.tick (s : State) : State :=
  let s := { s with now := s.now + tickNs }
  let s := if s.safeUp then { s with clk := s.clk.tick } else s
  let s := if s.pwr.pwrGood || s.pwr.vbat = 0 then s.rtcTick else s
  let s := (List.range 6).foldl State.copyTick s
  ((((s.holdTick).gfxTick tickNs).cryTick tickNs).shaperTick).drainOne

end Sys2Proof.Machine
end

