-- ==== Sys2Proof/Machine/Step.lean ====
section
/-! DEFINITION. The step of the block: the command at the front of the queue takes effect; with an empty queue one tick passes. -/

namespace Sys2Proof.Machine

/-- One step: the front command with the queue's rest, or one tick (DESIGN CHOICE, log entry 26). Expiries and ends of work are commands of the queue (DESIGN CHOICE, log entry 29); a command that cannot arise in the state changes nothing (DESIGN CHOICE, log entry 30). -/
def step (s : State) : Host.Outcome State Fault Refusal :=
  match s.pending with
  | [] => .next s.tick
  | c :: rest => exec c { s with pending := rest }

/-- The state with the command that a table word spells at the front of its queue (DESIGN CHOICE, log entry 31). -/
def State.withFetchWord (s : State) (nbits w : Nat) : State :=
  match Sys2Proof.decodeTableWord nbits w with
  | some c => { s with pending := c :: s.pending }
  | none => s

end Sys2Proof.Machine
end

