-- ==== Sys2Proof/WellFormed.lean ====
section
/-! DEFINITION. Which commands have operands that spell a command of their row: indices that name an element of the device, byte counts that match, and instruction words that spell the row. A command outside these is refused as illFormed. TILE_HBM_REQUEST and DRAW carry two more conditions, on the state: the initiator is the physical tile that serves the logical one, and a primitive names bins of the running pass. -/

namespace Sys2Proof.Machine

/-- The word spells the instruction with an opcode, or an unassigned opcode, which faults in place of it (R84), in one of the 64 contexts. -/
def issueNames (i : Issue) (opc : Nat) : Bool :=
  i.ctx < 64 && ((awordOf i.w).op.toNat = opc || (opInfo (awordOf i.w).op.toNat).isNone)

/-- The word spells an Xkgfx instruction of a funct3 and funct7, or an illegal one, which ends the job in place of it (R340). -/
def shaderNames (i : ShIssue) (f3 : Nat) (f7 : Nat → Bool) : Bool :=
  i.w < 2 ^ 32 && i.w % 128 = 0x2B && (xIllegal i || (xF3 i.w = f3 && f7 (xF7 i.w)))

/-- The tile is one of the array. -/
def unitFits (fz : Fuses) (u : InfUnit) : Bool :=
  match u with
  | .tile t => t < fz.variant.tiles
  | .dusk _ => true

/-- The Safety Island sends on one of its four controllers (R510). -/
def sendFits (r : CanSend) : Bool :=
  match r with
  | .entry _ => true
  | .island c _ => c < 4

/-- The access fault of a hart has a cause (R275, R276). -/
def faultFits (fz : Fuses) (k : Kind) (pa : Nat) (f : HartFail) : Bool :=
  match f with
  | .misaligned => k ≠ .fetch
  | .status st => faultStatus st || (k = .write && st = .integrity && isHbm fz pa)

/-- A place that patrol scrub reads. -/
def scrubFits (fz : Fuses) (w : ScrubAt) : Bool :=
  match w with
  | .line pa => isHbm fz pa
  | .spare k _ => k < fz.variant.hbmStacks
  | .spareRow k _ => k < fz.variant.hbmStacks

/-- The operands spell a command of the row, on a device with these fuses. -/
def wellFormed (fz : Fuses) (c : Instr) : Bool :=
  match c with
  | .governorWindowOpen => true
  | .governorReleasePoint => true
  | .tileHbmRequest t a addr size w _ => !a.gate && t < fz.variant.tiles && size ≠ 0 && addr % 64 + size ≤ 64 && (a.kind ≠ .write || w.length = size)
  | .cpChainHeadWrite _ _ _ _ => true
  | .cpDoorbellRing _ _ _ _ => true
  | .cpFaultCodeClear _ _ _ _ => true
  | .cpLowHalfRead _ _ => true
  | .cpHighHalfRead _ _ => true
  | .registerWrite _ => true
  | .chainHeadSample _ => true
  | .tenantDoorbell _ => true
  | .strandQuantumExpiry _ => true
  | .programStart _ _ => true
  | .programEnd _ => true
  | .runAheadFetch _ _ _ _ _ => true
  | .nop i => issueNames i 0x00
  | .endProgram i => issueNames i 0x01
  | .yield i => issueNames i 0x02
  | .fence i => issueNames i 0x03
  | .epoch i => issueNames i 0x04
  | .li i => issueNames i 0x10
  | .lix i => issueNames i 0x11
  | .add i => issueNames i 0x12
  | .addi i => issueNames i 0x13
  | .sub i => issueNames i 0x14
  | .and i => issueNames i 0x15
  | .or i => issueNames i 0x16
  | .xor i => issueNames i 0x17
  | .shli i => issueNames i 0x18
  | .shri i => issueNames i 0x19
  | .movs i => issueNames i 0x1A
  | .br i => issueNames i 0x20
  | .bst i => issueNames i 0x21
  | .call i => issueNames i 0x22
  | .ret i => issueNames i 0x23
  | .ld i _ => issueNames i 0x30
  | .st i _ => issueNames i 0x31
  | .poll i _ => issueNames i 0x32
  | .pollCheck _ _ _ => true
  | .pollTimeout _ => true
  | .stage i => issueNames i 0x40
  | .stagei i => issueNames i 0x41
  | .spaceLockGrant _ => true
  | .spaceLockTimeout _ => true
  | .commit i => issueNames i 0x42
  | .discard i => issueNames i 0x43
  | .fetch i => issueNames i 0x44
  | .dispatch i => issueNames i 0x50
  | .dispatchSlotTimeout _ => true
  | .abort i => issueNames i 0x51
  | .wait i => issueNames i 0x52
  | .waitTimeout _ => true
  | .signal i => issueNames i 0x53
  | .lock i => issueNames i 0x60
  | .lockTimeout _ => true
  | .unlock i => issueNames i 0x61
  | .semaphoreHandoff _ => true
  | .handover i => issueNames i 0x70
  | .rstctx i => issueNames i 0x71
  | .ttuTranslate a _ size => !a.gate && size ≠ 0 && size ≤ 64
  | .invalidation _ _ _ _ _ => true
  | .invalidationDrainDone => true
  | .periodBoundary => true
  | .orreryArbitration r => (presentRes fz).contains r
  | .slicePreempt cluster k => if cluster then k < 8 else k < fz.variant.tiles
  | .fabricRequest a _ size w _ => !a.gate && a.tag < 64 && size ≠ 0 && size ≤ 64 && (a.kind ≠ .write || w.length = size)
  | .freezeLimitExpiry => true
  | .freezeRelease => true
  | .fabricTimeout _ => true
  | .lateResponse _ => true
  | .postedWriteError _ => true
  | .interruptMessageRelease _ => true
  | .sourceInterrupt _ _ _ => true
  | .linkDown _ _ => true
  | .linkRetrainDone _ => true
  | .linkRetrainExpiry _ => true
  | .hbmRead tag pa _ _ => isHbm fz pa && tag < 64
  | .hbmFullWrite pa bytes _ => isHbm fz pa && bytes.length = 64
  | .hbmPartialWrite tag pa bytes _ => isHbm fz pa && tag < 64 && bytes.length ≠ 0 && pa % 64 + bytes.length ≤ 64
  | .rekey k => Reg.MEM_KEY_REKEY.holds [k]
  | .patrolScrub w _ _ => scrubFits fz w
  | .migrationDone _ => true
  | .hbmVerifyPassDone _ => true
  | .enclaveCreate e _ _ _ => Reg.ENC_ERT_REQ.holds [e]
  | .enclaveSeal e => Reg.ENC_ERT_REQ.holds [e]
  | .sealDone e => e < 64
  | .enclaveDestroy e => Reg.ENC_ERT_REQ.holds [e]
  | .destroyDone e => e < 64
  | .mailboxWrite a e _ bytes => !a.gate && e < 64 && bytes.length = 64 && a.kind = .write
  | .monitorRestart _ => true
  | .gcmEncrypt n => n < 4
  | .gcmDecrypt n => n < 4
  | .sha256 n => n < 4
  | .sha384 n => n < 4
  | .sha512 n => n < 4
  | .sha3256 n => n < 4
  | .sha3384 n => n < 4
  | .sha3512 n => n < 4
  | .p256Sign n => n < 4
  | .p256Verify n => n < 4
  | .p384Sign n => n < 4
  | .p384Verify n => n < 4
  | .keyload n => n < 4
  | .cryptoPreempt n save => n < 4 && save ≤ 200
  | .cryptoResume n restore => n < 4 && restore ≤ 200
  | .cryptoJobDone n => n < 4
  | .cryptoKeyClear n k => Reg.CRY_KEY_CLEAR.holds [n, k]
  | .gateMark h p w => h < 16 && placeValid p && (gateOp w = .illegal || (gateMark w).isSome)
  | .gateEnter h p w _ _ => h < 16 && placeValid p && (gateOp w = .illegal || gateOp w = .enter)
  | .gateExit h p w _ => h < 16 && placeValid p && (gateOp w = .illegal || gateOp w = .exit)
  | .hartAccessFault h p _ pa k f => h < 16 && placeValid p && faultFits fz k pa f
  | .storeError h _ st _ => h < 16 && st ≠ .ok
  | .irqDeliver _ => true
  | .seteipnumWrite h f off _ _ => h < 16 && f ≤ 6 && off < 0x1000
  | .mtimecmpWrite h off _ _ => h < 16 && off < 8
  | .timerCompare h k _ => h < 16 && (k = 5 || k = 6 || k = 7)
  | .sourceAck _ d x => Reg.APC_SRC_ACK.holds [d, x]
  | .clusterRun c => Reg.APC_CL_REQ.holds [c]
  | .clusterRetain c => Reg.APC_CL_REQ.holds [c]
  | .clusterOff c => Reg.APC_CL_REQ.holds [c]
  | .clusterStateEntry c => c < 4
  | .clusterWake c => c < 4
  | .gemm u _ _ => unitFits fz u
  | .conv2d u _ _ => unitFits fz u
  | .dwconv u _ _ => unitFits fz u
  | .deconv u _ _ => unitFits fz u
  | .pool u _ _ => unitFits fz u
  | .elemwise u _ _ => unitFits fz u
  | .activate u _ _ => unitFits fz u
  | .norm u _ _ => unitFits fz u
  | .softmax u _ _ => unitFits fz u
  | .topk u _ _ => unitFits fz u
  | .gather u _ _ => unitFits fz u
  | .scatter u _ _ => unitFits fz u
  | .transpose u _ _ => unitFits fz u
  | .reshape u _ _ => unitFits fz u
  | .quant u _ _ => unitFits fz u
  | .dequant u _ _ => unitFits fz u
  | .reduce u _ _ => unitFits fz u
  | .argmax u _ _ => unitFits fz u
  | .resize u _ _ => unitFits fz u
  | .gridsample u _ _ => unitFits fz u
  | .attention u _ _ => unitFits fz u
  | .copy u _ _ => unitFits fz u
  | .golden u _ _ _ => unitFits fz u
  | .syncBarrier u => unitFits fz u
  | .syncSignal u => unitFits fz u
  | .syncWait t => t < fz.variant.tiles
  | .syncWaitPoll t _ => t < fz.variant.tiles
  | .syncWaitTimeout t _ => t < fz.variant.tiles
  | .tileSwitch t => t < fz.variant.tiles
  | .infJobComplete _ => true
  | .safetyFrameEnd _ _ _ => true
  | .spareSwapDone _ => true
  | .rotationSwap => true
  | .lbistDone _ _ => true
  | .texSample i => shaderNames i 0 (fun _ => true)
  | .interp i => shaderNames i 1 (fun _ => true)
  | .tbLd i => shaderNames i 2 (fun _ => true)
  | .tbSt i => shaderNames i 3 (fun _ => true)
  | .covRead i => shaderNames i 4 (fun f => f = 0)
  | .covDiscard i => shaderNames i 4 (fun f => f = 1)
  | .bar i => shaderNames i 5 (fun _ => true)
  | .shaderEcall _ _ _ => true
  | .shaderException _ _ cause st => !([1, 5, 7].contains cause) || statusFails st
  | .packetEnd _ => true
  | .passBegin _ => true
  | .passEnd _ _ => true
  | .pipe _ => true
  | .bind _ => true
  | .draw _ _ _ => true
  | .packetWait _ => true
  | .packetWaitTimeout _ => true
  | .packetSignal _ => true
  | .jump _ => true
  | .binGrow _ g _ _ => Reg.GFX_GCTX_GROW_COUNT.holds [g]
  | .binGrowTimeout n => n < 32
  | .gfxStreamComplete _ => true
  | .computeJobStart _ => true
  | .computeWaitTimeout _ => true
  | .computeJobComplete _ _ => true
  | .clusterSwitch c => c < 8
  | .deadlinePreempt d => d < 4
  | .displayDecisionInstant d => d < 4
  | .bandProduction d _ _ => d < 4
  | .frameReadyPoll d => d < 4
  | .frameReadyTimeout d _ => d < 4
  | .frameRetire d _ => d < 4
  | .regionCrcCheck d => d < 4
  | .frameStatusWrite d => d < 4
  | .pipeDisable d => Reg.DSP_PIPE_ENABLE.holds [d]
  | .sampleArrival n _ => n < 128
  | .streamTimeout n => n < 128
  | .streamClr _ k => Reg.SNS_STREAM_CLR.holds [k]
  | .streamLie _ k => Reg.SNS_STREAM_LIE.holds [k]
  | .egoStep => true
  | .biasUpdate => true
  | .epochRelease => true
  | .epochWaitExpiry => true
  | .fusionJob => true
  | .fusionEpochTimeout _ => true
  | .txEthernet _ => true
  | .txCan r => sendFits r
  | .txLin _ => true
  | .txDiagnosticMessage _ => true
  | .txJobComplete _ => true
  | .synthesiserLock _ _ => true
  | .synthesiserHoldExpiry _ _ _ => true
  | .egressAged _ _ _ => true
  | .ethernetRx n p _ _ _ _ _ => n < 4 && p < 22
  | .canFrameRx n src _ _ => n < 4 && src < 24
  | .canTxDone _ _ _ => true
  | .canResume n c => Reg.CAN_CTL_RESUME.holds [n, c]
  | .busOffRecovery _ _ => true
  | .pduPeriod _ _ => true
  | .diagSessionIdle _ _ => true
  | .authChange => true
  | .reqMain => true
  | .gptpSyncRx _ => true
  | .gptpSyncTx _ _ => true
  | .refWindowEnd _ _ _ => true
  | .crystalEdgeLoss _ => true
  | .xtal32EdgeLoss => true
  | .refSel _ => true
  | .epochGo _ => true
  | .rtcSync => true
  | .holdoverExpiry => true
  | .frequencyChangeDone _ => true
  | .fcuLatch _ => true
  | .warmResetAssert => true
  | .eventClr e => Reg.SAF_EVT_CLR.holds [e]
  | .take => true
  | .wdogKick _ => true
  | .islandWatchdogExpiry => true
  | .heartbeat _ => true
  | .heartbeatTimeout => true
  | .authorityReturn => true
  | .injectionResample _ _ => true
  | .startupInjection _ _ _ => true
  | .runtimeInjection _ _ _ _ => true
  | .almanacRecord => true
  | .backupAlarm _ _ => true
  | .bkAck => true
  | .wreckTrigger => true
  | .wreckSw => true
  | .wreckFreeze _ => true
  | .wreckRearm _ => true
  | .dumpGo _ _ => true
  | .dumpDone => true
  | .coldBoot _ => true
  | .powerLoss _ => true
  | .warmRestart _ _ => true
  | .warmRstNAssert => true
  | .warmRstNRelease => true
  | .remap => true
  | .supervisorRunning => true
  | .hartGo h => 0 < h && h ≤ 15
  | .svnAdv k _ => 0 < k && Reg.BOOT_SVN_ADV.holds [k - 1]
  | .instanceReset i => Reg.BOOT_IRST_REQ.holds [i]
  | .instanceResetDone _ => true
  | .emSample _ => true
  | .ageingSample _ => true
  | .wearLogWrite _ => true
  | .replaceFramePeriod => true
  | .domainPowerOn k => Reg.PWR_PD_REQ.holds [k]
  | .domainPowerOff k => Reg.PWR_PD_REQ.holds [k]
  | .domainTransitionDone _ => true
  | .thermalSample _ _ _ => true
  | .thermalLevelFall _ => true
  | .thermalTripRelease => true
  | .avsVoltageWrite _ => true
  | .avsAcknowledge _ _ => true
  | .railOutOfRange _ => true
  | .hbOutToggle => true
  | .extest _ _ => true
  | .samplePreload _ _ => true
  | .bypass _ => true
  | .idcode => true
  | .handoverQuiesceDone => true
  | .monitorRestartDone => true
  | .vsync d => d < 4
  | .displayLinkDown d => d < 4
  | .displayLinkTrained d => d < 4
  | .ethernetLinkDown _ _ => true
  | .ethernetLinkRetrained _ _ => true
  | .synthesiserCalibrationStart _ _ => true
  | .gateIntervalExpiry _ _ _ _ => true
  | .pdelayInterval _ _ => true
  | .linScheduleSlot _ _ => true
  | .validSyncAgeExpiry => true
  | .xtal32EdgesResume => true
  | .porstNAssert => true
  | .pwrGoodRise => true
  | .vbatBkpFall _ => true
  | .standbyHour => true

end Sys2Proof.Machine
end

