-- ==== Sys2Proof/Safety.lean ====
section
/-! DEFINITION. The terms in which claims are stated: the canonical form of a state, the conditions under which an Atusk instruction, a commit and a command of a unit take their own effect, and what a command leaves unchanged. -/

namespace Sys2Proof.Machine

/-! ### The canonical form -/

/-- Memory and the state-space words are in canonical form, so that equal memories and equal words are equal data. -/
def State.wf (s : State) : Bool := memoryWf s.mem && wordsWf s

/-! ### What a command leaves unchanged -/

/-- No word outside the listed state spaces changes. -/
def wordsWithin (s t : State) (spaces : List Nat) : Prop := ∀ k, k / 2 ^ 17 ∉ spaces → t.word k = s.word k

/-- No byte of memory outside `n` bytes from `a` changes. -/
def bytesWithin (s t : State) (a n : Nat) : Prop := ∀ x, ¬ (a ≤ x ∧ x < a + n) → memByte t.mem x = memByte s.mem x

/-- No byte of memory changes. -/
def sameBytes (s t : State) : Prop := ∀ x, memByte t.mem x = memByte s.mem x

/-! ### When a command takes its own effect -/

/-- An Atusk instruction executes normally (R54, R55, R57, R84): its word spells it, a strand runs its context in a program that has not ended, the context waits for nothing, its instance may be served CMP cycles, the encoding is no fault, and a privileged opcode is executed in context 0. -/
def State.runs (s : State) (i : Issue) (opc : Nat) : Bool :=
  let a := awordOf i.w
  let c := s.ctx i.ctx
  i.ctx < 64 && a.op.toNat = opc &&
    (match c.run, c.prog with
      | .running _, some p =>
        p.ending.isNone && c.wait.isNone && s.cmp.state = 1 && c.pc < p.len && (c.granted.isSome || s.mayServe 24 (s.ctxInst i.ctx))
          && !encodingFault c p.len a i.e1 && (opc < 0x70 || i.ctx = 0)
      | _, _ => false)

/-- An engine's command is not held up by an earlier attempt: nothing of the engine waits, and nothing is left of a run (log entry 40). -/
def State.fresh (s : State) (p : Nat) : Bool :=
  !s.partyWaits p && s.fab.runner.isNone && s.fab.stall.isNone && s.fab.spent.isEmpty
    && s.fab.answers.all (fun e => e.1 ≠ p) && s.orr.prepaid.all (fun e => e.1 / 64 ≠ p)

/-- The state in which a run of the commands of engine `p` makes its accesses. -/
def State.inRun (s : State) (p : Nat) : State := { s with fab := { s.fab with runner := some p, stall := none, spent := [] } }

/-- An Atusk instruction that leaves LS unchanged has retired (R82): the context goes on at word `pc`, `v` stands in register `kd` unless that is K0, and nothing else changes but the charge of its CMP cycles and the accounts of its program. -/
def stepsTo (s t : State) (i : Issue) (pc kd : Nat) (v : DWord) : Prop :=
  (t.ctx i.ctx).pc = pc ∧ (t.ctx i.ctx).ls = (s.ctx i.ctx).ls
    ∧ (∀ r, (t.ctx i.ctx).k r = if r = kd ∧ r ≠ 0 then v else (s.ctx i.ctx).k r)
    ∧ (∀ m, m ≠ i.ctx → t.ctx m = s.ctx m)
    ∧ t = { s with words := t.words, orr := t.orr, cmp := { s.cmp with ctxs := t.cmp.ctxs } }
    ∧ wordsWithin s t [0x03]

/-- An Atusk instruction has retired with a status (R82, R85): LS holds it, `v` stands in register `kd` unless that is K0, and the context goes on behind the instruction, or, on a failing status with C = 0, its program ends with that status. -/
def retiresWith (s t : State) (i : Issue) (adv : Nat) (st : Status) (kd : Nat) (v : DWord) : Prop :=
  (t.ctx i.ctx).ls = st
    ∧ (if statusFails st ∧ (awordOf i.w).c = false then (t.ctx i.ctx).prog.bind (fun p => p.ending) = some st
       else (t.ctx i.ctx).pc = (s.ctx i.ctx).pc + adv)
    ∧ (∀ r, (t.ctx i.ctx).k r = if r = kd ∧ r ≠ 0 then v else (s.ctx i.ctx).k r)
    ∧ (∀ m, m ≠ i.ctx → t.ctx m = s.ctx m)
    ∧ t = { s with words := t.words, orr := t.orr, cmp := { s.cmp with ctxs := t.cmp.ctxs } }
    ∧ wordsWithin s t [0x03]

/-- The entries that stage a value into each of the fields. -/
def entriesOf (l : List (Row × List Nat × Nat)) : List Staged := l.map (fun e => stageOf e.1 e.2.1 e.2.2)

/-- The state that a commit of values into fields leaves when it succeeds: the words and the actions of one commit point (R63). -/
def State.committed (s : State) (l : List (Row × List Nat × Nat)) : State := (s.judge (entriesOf l)).apply

/-- A commit of values into fields by context `n` succeeds: the CMP runs, the context is enabled and may stage each field, and R62 finds nothing wrong. -/
def State.commits (s : State) (n : Nat) (l : List (Row × List Nat × Nat)) : Bool :=
  n < 64 && s.boot.mainUp && s.cmp.state = 1 && s.flag Reg.CMD_CTX_ENABLE [n]
    && l.all (fun e => e.1.holds e.2.1) && (entriesOf l).all (fun e => s.stageStatus n e = .ok)
    && (s.judge (entriesOf l)).verdict n = .ok

end Sys2Proof.Machine
end

