-- ==== Sys2Proof/Certificates/Slice0/Obligations.lean ====
section
/-! DEFINITION. The statements about the model, one definition each; OBLIGATIONS.json lists them with the rules that they rest on. -/

open Sys2Proof Sys2Proof.Machine

/-- A step takes the command at the front of the queue and gives the outcome of its meaning on the state with the rest of the queue. (ISA_SPEC.md chapter 02 (The Command Port and the Command Processor); log entry 26) -/
def Obligations.StepTakesTheFrontCommand : Prop :=
  ∀ (c : Instr) (rest : List Instr) (s : State),
    s.pending = c :: rest → step s = exec c { s with pending := rest }

/-- With an empty queue a step is one tick of 4 ns (the model's choice, log entry 26). (R494; log entry 26) -/
def Obligations.EmptyQueueTicks : Prop :=
  ∀ s : State, s.pending = [] →
    step s = .next s.tick ∧ s.tick.now = s.now + 4 ∧ s.tick.pending = [] ∧ s.tick.fuses = s.fuses
      ∧ (s.fab.posted = [] → s.net.ports = [] → s.gfx.comps = [] → s.cry.engines = [] →
          (s.safeUp = true → s.tick.clk.frac < 2 ^ 32
            ∧ ((s.tick.clk.epoch : Int) * 2 ^ 32 + s.tick.clk.frac) % 2 ^ 96 = ((s.clk.epoch : Int) * 2 ^ 32 + s.clk.frac + 4 * (2 ^ 32 + s.clk.corr)) % 2 ^ 96)
          ∧ (s.safeUp = false → s.tick.clk.epoch = s.clk.epoch ∧ s.tick.clk.frac = s.clk.frac)
          ∧ (s.boot.mainUp = false → s.tick.mem = s.mem))

/-- Every command whose operands spell it answers a next state: no well-formed command faults or is refused. (ISA_SPEC.md: every chapter's commands; log entry 27) -/
def Obligations.WellFormedCommandsComplete : Prop :=
  ∀ (c : Instr) (s : State), wellFormed s.fuses c = true →
    (∀ t a addr size w e, c = .tileHbmRequest t a addr size w e → a.src = .tile (s.rd Reg.INF_TILE_PHYS [t])) →
    (∀ u cyc prims, c = .draw u cyc prims → ∀ j p, s.gfxJob u = some j → j.pass = some p → ∀ q ∈ prims, ∀ b ∈ q.bins, b < p.binCount) →
    ∃ t, exec c s = .next t

/-- The state after reset is in canonical form, with an empty queue. (ISA_SPEC.md chapter 02 (State spaces); log entries 1 and 2) -/
def Obligations.ResetIsCanonical : Prop :=
  State.reset.wf = true ∧ State.reset.pending = []

/-- Every step keeps memory and the state-space words in canonical form. (ISA_SPEC.md chapters 02 and 07; log entries 1 and 2) -/
def Obligations.EveryStepKeepsCanonicalForm : Prop :=
  ∀ s t : State, s.wf = true → step s = .next t → t.wf = true

/-- The fields of an Atusk instruction word and the word determine each other. (Table isa.2; R83) -/
def Obligations.AtuskWordsRoundTrip : Prop :=
  (∀ a : AWord, awordOf a.word = a) ∧ (∀ w : DWord, (awordOf w).word = w)

/-- The four words of the spec's Example 1 spell STAGEI, COMMIT and END with the operands that it gives. (R108 (Example 1); Table isa.2; Table isa.3) -/
def Obligations.AtuskWordsOfTheExample : Prop :=
  (let a := awordOf 0x4100000800400040
   a.op = 0x41 ∧ a.x8 = 0x08 ∧ bitsOf a.i32.toNat 0 16 = 0x0040 ∧ bitsOf a.i32.toNat 16 5 = 0 ∧ bitsOf a.i32.toNat 21 5 + 1 = 3)
    ∧ (awordOf 0x4200000000000000).op = 0x42
    ∧ (awordOf 0x0100000000000000).op = 0x01 ∧ (awordOf 0x0100000000000000).x8 = 0
    ∧ stageOf Reg.INF_GOV_CTRL_SHARE [] 6 = ⟨0x08, 0x40, 0, 3, 6⟩

/-- What a write to the Command Port does: HEAD takes the covered bits, a ring leaves one pending doorbell and one record, a one clears VALID or OVERRUN. (R42) -/
def Obligations.CommandPortWritesTakeEffect : Prop :=
  ∀ (s : State) (tag off size : Nat) (v : DWord), s.boot.mainUp = true → (tag = 0 ∨ tag = 41) → (size = 4 ∨ size = 8) →
    off % size = 0 → off + size ≤ 8 →
    let both := fun (c : Instr) (r : Nat) (t : State) => exec c s = .next t ∧ exec (.registerWrite (.port tag (r + off) size v)) s = .next t
    (∃ h, both (.cpChainHeadWrite tag off size v) 0 ({ s with cmp := { s.cmp with head := h } }.answer .ok 0)
      ∧ ∀ k, h.testBit k = (decide (5 ≤ k ∧ k < 48) &&
          (if 8 * off ≤ k ∧ k < 8 * (off + size) then v.toNat.testBit (k - 8 * off) else s.cmp.head.testBit k)))
    ∧ (off = 0 → v.toNat.testBit 0 = true →
        both (.cpDoorbellRing tag off size v) 0x08 (((({ s with cmp := { s.cmp with
            ctxs := tput s.cmp.ctxs 0 { s.ctx 0 with dbPending := true }
            rings := (s.cmp.rings + 1) % 2 ^ 32
            lastDbTag := tag } }).record 0x10 tag (leBytes 2 (v.toNat / 2 ^ 16 % 2 ^ 16) ++ leBytes 6 s.cmp.head))).answer .ok 0))
    ∧ (off ≠ 0 ∨ v.toNat.testBit 0 = false → both (.cpDoorbellRing tag off size v) 0x08 (s.answer .ok 0))
    ∧ (∃ f : Word, both (.cpFaultCodeClear tag off size v) 0x18 ({ s with cmp := { s.cmp with faultCode := f } }.answer .ok 0)
      ∧ ∀ k, k < 32 → f.getLsbD k = (s.cmp.faultCode.getLsbD k && !(decide (off = 0 ∧ (k = 30 ∨ k = 31)) && v.toNat.testBit k)))
    ∧ (∀ r, r ∈ [0x10, 0x20, 0x28, 0x30] → exec (.registerWrite (.port tag (r + off) size v)) s = .next (s.answer .denied 0))
    ∧ (∀ r, 0x38 ≤ r → r < 0x10000 → r % 8 = 0 → exec (.registerWrite (.port tag (r + off) size v)) s = .next (s.answer .ok 0))

/-- A low-half read answers the low half and latches the high half, which the next high-half read of the same tag answers. (R41) -/
def Obligations.HighHalvesAreLatched : Prop :=
  ∀ (s : State) (tag : Nat) (ep : Bool), s.boot.mainUp = true → (tag = 0 ∨ tag = 41 ∨ tag = 33) →
    (let v := if ep then s.epoch else s.cpSeq
     ∃ t, exec (.cpLowHalfRead tag ep) s = .next t ∧ t.resp = ⟨.ok, v % 2 ^ 32⟩
      ∧ t = { s with resp := t.resp, cmp := { s.cmp with latches := t.cmp.latches } }
      ∧ (∀ u : State, u.boot.mainUp = true → u.cmp.latches = t.cmp.latches →
          exec (.cpHighHalfRead tag ep) u = .next (u.answer .ok (v / 2 ^ 32 % 2 ^ 32)))
      ∧ (∀ (tag' : Nat) (ep' : Bool) (d : Word), (tag', ep') ≠ (tag, ep) →
          tget d t.cmp.latches (latchKey tag' (if ep' then 0x30 else 0x28)) = tget d s.cmp.latches (latchKey tag' (if ep' then 0x30 else 0x28))))

/-- The Command Port denies other tags, sizes and alignments, and changes nothing. (R39; R40) -/
def Obligations.PortTurnsAwayOtherAccesses : Prop :=
  ∀ (s : State) (tag off size : Nat) (v : DWord) (ep : Bool), s.boot.mainUp = true →
    (off < 8 → (tag ≠ 0 ∧ tag ≠ 41) ∨ (size ≠ 4 ∧ size ≠ 8) ∨ off % size ≠ 0 →
      exec (.cpChainHeadWrite tag off size v) s = .next (s.answer .denied 0)
      ∧ exec (.cpDoorbellRing tag off size v) s = .next (s.answer .denied 0)
      ∧ exec (.cpFaultCodeClear tag off size v) s = .next (s.answer .denied 0))
    ∧ ((tag ≠ 0 ∧ tag ≠ 41) ∨ (size ≠ 4 ∧ size ≠ 8) ∨ off % size ≠ 0 →
      exec (.registerWrite (.port tag off size v)) s = .next (s.answer .denied 0))
    ∧ (tag ≠ 0 ∧ tag ≠ 41 ∧ tag ≠ 33 →
      exec (.cpLowHalfRead tag ep) s = .next (s.answer .denied 0) ∧ exec (.cpHighHalfRead tag ep) s = .next (s.answer .denied 0))

/-- LI, LIX, ADD, ADDI, SUB, AND, OR, XOR, SHLI, SHRI and MOVS write their result into KD and leave LS and everything else unchanged. (R91) -/
def Obligations.ArithmeticAndMovesWriteKd : Prop :=
  ∀ (s : State) (i : Issue),
    let a := awordOf i.w
    let c := s.ctx i.ctx
    (s.runs i 0x10 = true → ∃ t, exec (.li i) s = .next t ∧ stepsTo s t i (c.pc + 1) a.kd.toNat (a.i32.signExtend 64))
    ∧ (s.runs i 0x11 = true → ∃ t, exec (.lix i) s = .next t ∧ stepsTo s t i (c.pc + 2) a.kd.toNat i.e1)
    ∧ (s.runs i 0x12 = true → ∃ t, exec (.add i) s = .next t ∧ stepsTo s t i (c.pc + 1) a.kd.toNat (c.k a.ka.toNat + c.k a.kb.toNat))
    ∧ (s.runs i 0x13 = true → ∃ t, exec (.addi i) s = .next t ∧ stepsTo s t i (c.pc + 1) a.kd.toNat (c.k a.ka.toNat + a.i32.signExtend 64))
    ∧ (s.runs i 0x14 = true → ∃ t, exec (.sub i) s = .next t ∧ stepsTo s t i (c.pc + 1) a.kd.toNat (c.k a.ka.toNat - c.k a.kb.toNat))
    ∧ (s.runs i 0x15 = true → ∃ t, exec (.and i) s = .next t ∧ stepsTo s t i (c.pc + 1) a.kd.toNat (c.k a.ka.toNat &&& c.k a.kb.toNat))
    ∧ (s.runs i 0x16 = true → ∃ t, exec (.or i) s = .next t ∧ stepsTo s t i (c.pc + 1) a.kd.toNat (c.k a.ka.toNat ||| c.k a.kb.toNat))
    ∧ (s.runs i 0x17 = true → ∃ t, exec (.xor i) s = .next t ∧ stepsTo s t i (c.pc + 1) a.kd.toNat (c.k a.ka.toNat ^^^ c.k a.kb.toNat))
    ∧ (s.runs i 0x18 = true → ∃ t, exec (.shli i) s = .next t ∧ stepsTo s t i (c.pc + 1) a.kd.toNat (c.k a.ka.toNat <<< a.i32.toNat))
    ∧ (s.runs i 0x19 = true → ∃ t, exec (.shri i) s = .next t ∧ stepsTo s t i (c.pc + 1) a.kd.toNat (c.k a.ka.toNat >>> a.i32.toNat))
    ∧ (s.runs i 0x1A = true → ∃ t, exec (.movs i) s = .next t ∧ stepsTo s t i (c.pc + 1) a.kd.toNat (BitVec.ofNat 64 (statusCode c.ls)))

/-- BR, BST, CALL and RET move the program counter as their condition, status, offset or K15 says and leave LS unchanged. (R82; R92; R93) -/
def Obligations.BranchesGoToTheirTargets : Prop :=
  ∀ (s : State) (i : Issue),
    let a := awordOf i.w
    let c := s.ctx i.ctx
    let ka := c.k a.ka.toNat
    let kb := c.k a.kb.toNat
    (s.runs i 0x20 = true → ∃ t, exec (.br i) s = .next t ∧ stepsTo s t i
        (if (a.x8 = 0 ∨ (a.x8 = 1 ∧ ka = kb) ∨ (a.x8 = 2 ∧ ka ≠ kb) ∨ (a.x8 = 3 ∧ ka.toNat < kb.toNat) ∨ (a.x8 = 4 ∧ kb.toNat ≤ ka.toNat)
            ∨ (a.x8 = 5 ∧ ka.toInt < kb.toInt) ∨ (a.x8 = 6 ∧ kb.toInt ≤ ka.toInt)) then ((c.pc : Int) + a.i32.toInt).toNat else c.pc + 1) 0 0)
    ∧ (s.runs i 0x21 = true → ∃ t, exec (.bst i) s = .next t ∧ stepsTo s t i
        (if statusCode c.ls = a.x8.toNat then ((c.pc : Int) + a.i32.toInt).toNat else c.pc + 1) 0 0)
    ∧ (s.runs i 0x22 = true → ∃ t, exec (.call i) s = .next t ∧ stepsTo s t i ((c.pc : Int) + a.i32.toInt).toNat 15 (BitVec.ofNat 64 (c.pc + 1)))
    ∧ (s.runs i 0x23 = true → ∃ t, exec (.ret i) s = .next t ∧ stepsTo s t i (c.k 15).toNat 0 0)

/-- A faulting encoding and a privileged opcode in a tenant context end the program with ST_DENIED, whatever C is. (R43; R57; R84) -/
def Obligations.FaultingAndPrivilegedEncodings : Prop :=
  ∀ (s : State) (i : Issue) (p : Prog) (k : Nat),
    let a := awordOf i.w
    let c := s.ctx i.ctx
    i.ctx < 64 → c.run = .running k → c.prog = some p → p.ending = none → p.strand < 4 → c.wait = none → s.cmp.state = 1 → c.pc < p.len →
    (c.granted.isSome = true ∨ s.mayServe 24 (s.ctxInst i.ctx) = true) →
    (a.op = 0x71 → i.ctx ≠ 0 → s.partyWaits (partyCtx i.ctx) = false → encodingFault c p.len a i.e1 = false →
        ∃ t, exec (.rstctx i) s = .next t ∧ (t.ctx i.ctx).prog.bind (fun q => q.ending) = some .denied
          ∧ t.rd Reg.CMD_VIOL_COUNT [s.ctxInst i.ctx] = min 0xFFFF (s.rd Reg.CMD_VIOL_COUNT [s.ctxInst i.ctx] + 1)
          ∧ (∀ m, m ≠ i.ctx → t.ctx m = s.ctx m) ∧ t.mem = s.mem)
    ∧ (a.op = 0x70 → i.ctx ≠ 0 → s.partyWaits (partyCtx i.ctx) = false → encodingFault c p.len a i.e1 = false →
        ∃ t, exec (.handover i) s = .next t ∧ (t.ctx i.ctx).prog.bind (fun q => q.ending) = some .denied
          ∧ t.rd Reg.CMD_VIOL_COUNT [s.ctxInst i.ctx] = min 0xFFFF (s.rd Reg.CMD_VIOL_COUNT [s.ctxInst i.ctx] + 1)
          ∧ (∀ m, m ≠ i.ctx → t.ctx m = s.ctx m) ∧ t.mem = s.mem ∧ t.enc = s.enc)
    ∧ (a.op = 0x12 → encodingFault c p.len a i.e1 = true →
        ∃ t, exec (.add i) s = .next t ∧ (t.ctx i.ctx).prog.bind (fun q => q.ending) = some .denied
          ∧ (∀ r, (t.ctx i.ctx).k r = c.k r) ∧ t.mem = s.mem
          ∧ (getBits s.cmp.faultCode 31 1 = 0 → getBits t.cmp.faultCode 0 8 = 0x0F ∧ getBits t.cmp.faultCode 8 8 = 0x12 ∧ getBits t.cmp.faultCode 31 1 = 1
              ∧ t.cmp.faultAddr = (p.prog + 8 * c.pc) % 2 ^ 48)
          ∧ (getBits s.cmp.faultCode 31 1 = 1 → getBits t.cmp.faultCode 30 1 = 1 ∧ t.cmp.faultAddr = s.cmp.faultAddr))

/-- NOP, FENCE, EPOCH and DISCARD retire with ST_OK, YIELD gives up its strand, and END ends its program. (R82; R83; R108; R123; R124; R125; R127) -/
def Obligations.ControlInstructionsRetire : Prop :=
  ∀ (s : State) (i : Issue),
    let a := awordOf i.w
    let n := i.ctx
    (s.runs i 0x00 = true → ∃ t, exec (.nop i) s = .next t ∧ retiresWith s t i 1 .ok 0 0)
    ∧ (s.runs i 0x03 = true → (s.unseenOf n = false → ∃ t, exec (.fence i) s = .next t ∧ retiresWith s t i 1 .ok 0 0)
        ∧ (s.unseenOf n = true → exec (.fence i) s = .next s))
    ∧ (s.runs i 0x04 = true → ∃ t, exec (.epoch i) s = .next t
        ∧ retiresWith s t i 1 .ok a.kd.toNat (BitVec.ofNat 64 (if a.x8 = 0 then s.clk.epoch else s.rd Reg.CLK_EPOCH_Q [])))
    ∧ (s.runs i 0x02 = true → ∃ t, retiresWith s t i 1 .ok 0 0
        ∧ exec (.yield i) s = .next ((t.setCtx n { t.ctx n with run := .ready }).schedule))
    ∧ (s.runs i 0x43 = true → ∃ t, exec (.discard i) s = .next t
        ∧ (t.ctx n).seqOpen = false ∧ (t.ctx n).seqFailed = false ∧ (t.ctx n).staged = []
        ∧ t.cmp.locks = s.cmp.locks.filter (fun e => e.2 ≠ n) ∧ (t.ctx n).ls = .ok ∧ (t.ctx n).pc = (s.ctx n).pc + 1
        ∧ (∀ m, m ≠ n → t.ctx m = s.ctx m) ∧ t.mem = s.mem ∧ wordsWithin s t [0x03])
    ∧ (s.runs i 0x01 = true → ∃ t, exec (.endProgram i) s = .next t
        ∧ statusCode (t.ctx n).ls = a.x8.toNat ∧ (t.ctx n).prog.bind (fun p => p.ending) = some (t.ctx n).ls
        ∧ (∀ r, (t.ctx n).k r = (s.ctx n).k r) ∧ (∀ m, m ≠ n → t.ctx m = s.ctx m) ∧ t.mem = s.mem ∧ wordsWithin s t [0x03])

/-- LD, ST and POLL make the access that their operands name and retire with its status. (R82; R85; R94; R95; R96; R97; R98) -/
def Obligations.MemoryInstructionsFollowTheirAccess : Prop :=
  ∀ (s t : State) (i : Issue) (e : RowError) (st : Status) (b : List Byte),
    let a := awordOf i.w
    let c := s.ctx i.ctx
    let n := i.ctx
    let addr := (c.k a.ka.toNat + a.i32.signExtend 64).toNat
    let size := 2 ^ (a.x8.toNat % 4)
    let early := fun q : Prefetch => decide (q.pos = c.pc) && decide (q.addr = addr) && decide (q.size = size) && decide (q.st ≠ .denied)
    (s.runs i 0x30 = true → c.prefetch.find? early = none → s.ctxBus n .read addr size [] e = (.done st b, t) →
      exec (.ld i e) s = .next (t.retire n i.cyc a.c 1 st
        (fun x => if st = .ok then x.setK a.kd.toNat (BitVec.ofNat 64 (ofLeBytes b)) else x)))
    ∧ (∀ q, s.runs i 0x30 = true → c.prefetch.find? early = some q →
      exec (.ld i e) s = .next (s.retire n i.cyc a.c 1 q.st
        (fun x => { (if q.st = .ok then x.setK a.kd.toNat (BitVec.ofNat 64 q.value) else x) with prefetch := x.prefetch.filter (fun y => y.pos ≠ q.pos) })))
    ∧ (s.runs i 0x31 = true → s.ctxBus n .write addr size (leBytes size (c.k a.kb.toNat).toNat) e = (.done st b, t) →
      exec (.st i e) s = .next (t.retire n i.cyc a.c 1 st (fun x => x.dropOverlap addr size)))
    ∧ (s.runs i 0x32 = true → s.ctxBus n .read (c.k a.ka.toNat).toNat 8 [] e = (.done st b, t) →
      exec (.poll i e) s = .next
        (if st ≠ .ok then t.retire n i.cyc a.c 2 st id
         else if ofLeBytes b &&& i.e1.toNat = (c.k a.kb.toNat).toNat then t.retire n i.cyc a.c 2 .ok id
         else (t.spend n i.cyc).suspend n (.poll (c.k a.ka.toNat).toNat i.e1.toNat (c.k a.kb.toNat).toNat a.i32.toNat) a.c 2))
    ∧ (∀ addr mask want us cyc, c.wait = some (.poll addr mask want us) → s.partyWaits (partyPoll n) = false →
      ((s.inRun (partyPoll n)).spend n cyc).engineBus (s.ctxAccess n .read) addr 8 [] .ask e = (st, b, t) → t.fab.stall = none →
      exec (.pollCheck n cyc e) s = .next
        ((if st ≠ .ok then t.retireWait n st id else if ofLeBytes b &&& mask = want then t.retireWait n .ok id else t).ended (partyPoll n)))
    ∧ (∀ addr mask want us, c.wait = some (.poll addr mask want us) → exec (.pollTimeout n) s = .next (s.retireWait n .timeout id))

/-- LOCK acquires, waits or is denied, UNLOCK frees, and a freed semaphore goes to its first waiter. (R116; R117; R119; R121) -/
def Obligations.SemaphoresAreHandedOver : Prop :=
  ∀ (s : State) (i : Issue),
    let a := awordOf i.w
    let n := i.ctx
    let k := a.i32.toNat % 256
    let own := s.rd Reg.CMD_SEM_OWNER [k]
    let held := s.flag Reg.CMD_SEM_HELD [k]
    let holder := s.rd Reg.CMD_SEM_HOLDER_CTX [k]
    let taken := fun (u : State) (k m : Nat) => ((u.wr Reg.CMD_SEM_HELD [k] 1).wr Reg.CMD_SEM_HOLDER_CTX [k] m).wr Reg.CMD_SEM_BROKEN [k] 0
    let st := fun (u : State) (k : Nat) => if u.flag Reg.CMD_SEM_BROKEN [k] then Status.broken else Status.ok
    (s.runs i 0x60 = true →
      (s.ctxInst n ≠ own → exec (.lock i) s = .next ((s.violation (s.ctxInst n)).retire n i.cyc a.c 1 .denied (fun c => c)))
      ∧ (s.ctxInst n = own → held = false → k ∉ s.cmp.handoffs → s.formerWrites k = false → exec (.lock i) s = .next ((taken s k n).retire n i.cyc a.c 1 (st s k) (fun c => c)))
      ∧ (s.ctxInst n = own → held = true → holder = n → exec (.lock i) s = .next (s.retire n i.cyc a.c 1 .denied (fun c => c)))
      ∧ (s.ctxInst n = own → (held = true ∧ holder ≠ n ∨ held = false ∧ k ∈ s.cmp.handoffs) → s.formerWrites k = false → a.i32.toNat / 2 ^ 16 = 0 →
          exec (.lock i) s = .next (s.retire n i.cyc a.c 1 .timeout (fun c => c)))
      ∧ (s.ctxInst n = own → (held = true ∧ holder ≠ n ∨ held = false ∧ k ∈ s.cmp.handoffs) → s.formerWrites k = false → a.i32.toNat / 2 ^ 16 ≠ 0 →
          let u := s.spend n i.cyc
          exec (.lock i) s = .next (({ u with cmp := { u.cmp with semQ := u.cmp.semQ ++ [(k, n)] } }).suspend n (.sem k (a.i32.toNat / 2 ^ 16)) a.c 1))
      ∧ (s.ctxInst n = own → ¬ (held = true ∧ holder = n) → s.formerWrites k = true → exec (.lock i) s = .next s))
    ∧ (s.runs i 0x61 = true →
      (s.ctxInst n = own → held = true → holder = n →
        exec (.unlock i) s = .next (({ s.wr Reg.CMD_SEM_HELD [k] 0 with cmp := { s.cmp with
            handoffs := if s.cmp.semQ.any (fun e => e.1 = k) then s.cmp.handoffs ++ [k] else s.cmp.handoffs } }).retire n i.cyc a.c 1 .ok (fun c => c)))
      ∧ (¬ (s.ctxInst n = own ∧ held = true ∧ holder = n) →
        exec (.unlock i) s = .next ((s.violation (s.ctxInst n)).retire n i.cyc a.c 1 .denied (fun c => c))))
    ∧ (∀ k, s.formerWrites k = true → exec (.semaphoreHandoff k) s = .next s)
    ∧ (∀ k e, k ∈ s.cmp.handoffs → s.formerWrites k = false → s.cmp.semQ.find? (fun e => e.1 = k) = some e →
        exec (.semaphoreHandoff k) s = .next ((taken { s with cmp := { s.cmp with
            handoffs := s.cmp.handoffs.filter (· ≠ k), semQ := s.cmp.semQ.filter (fun x => x.2 ≠ e.2) } } k e.2).retireWait e.2 (st s k) id))
    ∧ (∀ m q us, (s.ctx m).wait = some (.sem q us) → exec (.lockTimeout m) s = .next ((s.leaveQueues m).retireWait m .timeout id))

/-- WAIT looks up the history, waits for an outstanding job or fails, and SIGNAL sends its message or is denied. (R113; R114; log entry 28) -/
def Obligations.WaitAndSignalAnswer : Prop :=
  ∀ (s : State) (i : Issue),
    let a := awordOf i.w
    let c := s.ctx i.ctx
    let n := i.ctx
    let job := (c.k a.ka.toNat).toNat % 2 ^ 32
    let target := (c.k a.kb.toNat).toNat % 64
    (s.runs i 0x52 = true →
      (∀ e, c.history.find? (fun e => e.1 = job) = some e → ∃ t, exec (.wait i) s = .next t
          ∧ retiresWith s t i 1 .ok a.kd.toNat (BitVec.ofNat 64 (statusCode e.2)))
      ∧ (c.history.find? (fun e => e.1 = job) = none → s.outstanding n job = false →
          ∃ t, exec (.wait i) s = .next t ∧ retiresWith s t i 1 .decode 0 0)
      ∧ (c.history.find? (fun e => e.1 = job) = none → s.outstanding n job = true → a.i32 = 0 →
          ∃ t, exec (.wait i) s = .next t ∧ retiresWith s t i 1 .timeout 0 0)
      ∧ (c.history.find? (fun e => e.1 = job) = none → s.outstanding n job = true → a.i32 ≠ 0 →
          exec (.wait i) s = .next ((s.spend n i.cyc).suspend n (.job job a.kd.toNat a.i32.toNat) a.c 1)))
    ∧ (∀ m j kd us, (s.ctx m).wait = some (.job j kd us) → exec (.waitTimeout m) s = .next (s.retireWait m .timeout id))
    ∧ (s.runs i 0x53 = true →
      ((n = 0 ∧ target < 32) ∨ (n ≠ 0 ∧ target = s.ctxInst n) →
          exec (.signal i) s = .next (({ s with msgs := if a.i32.toNat = 0 then s.msgs else s.msgs ++ [({ inst := target, vec := a.i32.toNat, ctx := some n } : Msg)] }).retire n i.cyc a.c 1 .ok (fun c => c)))
      ∧ (n = 0 → 32 ≤ target → ∃ t, exec (.signal i) s = .next t ∧ retiresWith s t i 1 .denied 0 0)
      ∧ (n ≠ 0 → target ≠ s.ctxInst n → ∃ t, exec (.signal i) s = .next t ∧ retiresWith (s.violation (s.ctxInst n)) t i 1 .denied 0 0))

/-- RSTCTX leaves the context that KA names idle, with its semaphores force-released, and names context 0 in vain. (R126) -/
def Obligations.ContextsAreReset : Prop :=
  ∀ (s : State) (i : Issue),
    let a := awordOf i.w
    let m := ((s.ctx i.ctx).k a.ka.toNat).toNat
    let p := partyCtx i.ctx
    s.runs i 0x71 = true → s.fresh p = true →
      (m = 0 → ∃ t, exec (.rstctx i) s = .next t ∧ retiresWith s t i 1 .denied 0 0)
      ∧ (m ≠ 0 → (s.ctx m).within = false → ((s.inRun p).resetContext m).fab.stall = none →
          ∃ t, exec (.rstctx i) s = .next t
            ∧ (t.ctx i.ctx).ls = .ok ∧ (t.ctx i.ctx).pc = (s.ctx i.ctx).pc + 1 ∧ (∀ r, (t.ctx i.ctx).k r = (s.ctx i.ctx).k r)
            ∧ (t.ctx m).run = .idle ∧ (t.ctx m).prog = none ∧ (t.ctx m).nextDesc = 0 ∧ (t.ctx m).wait = none ∧ (t.ctx m).seqOpen = false
            ∧ (t.ctx m).staged = [] ∧ (t.ctx m).dbPending = false ∧ (t.ctx m).history = []
            ∧ (∀ e ∈ t.cmp.semQ, e.2 ≠ m) ∧ (∀ e ∈ t.cmp.lockQ, e.2 ≠ m) ∧ (∀ q ∈ t.orr.waiting, q.ctx ≠ some m)
            ∧ (∀ k, k < 256 → s.flag Reg.CMD_SEM_HELD [k] = true → s.rd Reg.CMD_SEM_HOLDER_CTX [k] = m →
                t.flag Reg.CMD_SEM_HELD [k] = false ∧ t.flag Reg.CMD_SEM_BROKEN [k] = true)
            ∧ ((s.ctx m).prog = none → t.mem = s.mem))
      ∧ (m ≠ 0 → (s.ctx m).within = true →
          ∃ t, exec (.rstctx i) s = .next t ∧ t.ctx i.ctx = s.ctx i.ctx ∧ t.mem = s.mem
            ∧ ∃ q q', (s.ctx m).prog = some q ∧ (t.ctx m).prog = some q' ∧ q'.ending = some (q.ending.getD .aborted) ∧ q'.next = 0)

/-- STAGE and STAGEI add one entry to the sequence, or fail by name, and the space locks go round in order. (R59; R60; R61; R99; R100) -/
def Obligations.StagingAndItsLocks : Prop :=
  ∀ (s : State) (i : Issue),
    let a := awordOf i.w
    let c := s.ctx i.ctx
    let n := i.ctx
    let entry := fun v : DWord => (⟨a.x8.toNat, bitsOf a.i32.toNat 0 16 + (c.k a.ka.toNat).toNat % 2 ^ 16, bitsOf a.i32.toNat 16 5,
      bitsOf a.i32.toNat 21 5 + 1, v.toNat % 2 ^ 32⟩ : Staged)
    let o := s.openSeq n
    let said := fun (v : DWord) (adv : Nat) (e : Host.Outcome State Fault Refusal) =>
      (c.seqFailed = true → e = .next (o.retire n i.cyc a.c adv .refused id))
      ∧ (c.seqFailed = false → 256 ≤ c.staged.length → e = .next ((o.setCtx n { o.ctx n with seqFailed := true }).retire n i.cyc a.c adv .refused id))
      ∧ (c.seqFailed = false → c.staged.length < 256 →
        (o.stageStatus n (entry v) = .denied → e = .next ((o.violation (o.ctxInst n)).retire n i.cyc a.c adv .denied id))
        ∧ (o.stageStatus n (entry v) = .decode → e = .next (o.retire n i.cyc a.c adv .decode id))
        ∧ (o.stageStatus n (entry v) = .ok → o.lockFree a.x8.toNat n = true → e = .next ((o.addStaged n (entry v)).retire n i.cyc a.c adv .ok id))
        ∧ (o.stageStatus n (entry v) = .ok → o.lockFree a.x8.toNat n = false →
            e = .next ((({ o with cmp := { o.cmp with lockQ := o.cmp.lockQ ++ [(a.x8.toNat, n)] } }).spend n i.cyc).suspend n (.spaceLock (entry v)) a.c adv)))
    (s.runs i 0x40 = true → said (c.k a.kb.toNat) 1 (exec (.stage i) s))
    ∧ (s.runs i 0x41 = true → said i.e1 2 (exec (.stagei i) s))
    ∧ (∀ space m e, (∀ l ∈ s.cmp.locks, l.1 ≠ space) → s.cmp.lockQ.find? (fun e => e.1 = space) = some (space, m) →
        (s.ctx m).wait = some (.spaceLock e) → exec (.spaceLockGrant space) s = .next (((s.leaveQueues m).addStaged m e).retireWait m .ok id))
    ∧ (∀ m e, (s.ctx m).wait = some (.spaceLock e) → exec (.spaceLockTimeout m) s = .next ((s.leaveQueues m).retireWait m .timeout id))

/-- COMMIT closes the sequence and applies all of its entries or none. (R62; R63; R65; R106) -/
def Obligations.CommitIsAllOrNothing : Prop :=
  (∀ (s : State) (i : Issue),
    let a := awordOf i.w
    let c := s.ctx i.ctx
    let u := s.discardSeq i.ctx
    s.runs i 0x42 = true →
      (c.seqFailed = true → exec (.commit i) s = .next (u.retire i.ctx i.cyc a.c 1 .refused id))
      ∧ (c.seqFailed = false → c.staged = [] → exec (.commit i) s = .next (u.retire i.ctx i.cyc a.c 1 .ok id))
      ∧ (c.seqFailed = false → c.staged ≠ [] →
          exec (.commit i) s = .next ((u.commit i.ctx c.staged).2.retire i.ctx i.cyc a.c 1 (u.commit i.ctx c.staged).1 id)))
  ∧ (∀ (s : State) (n : Nat) (es : List Staged),
      ((s.judge es).verdict n = .ok → s.commit n es = (.ok, (s.judge es).apply))
      ∧ ((s.judge es).verdict n ≠ .ok →
          (s.commit n es).1 ≠ .ok ∧ (s.commit n es).2 = { s with words := (s.commit n es).2.words, alm := (s.commit n es).2.alm }
          ∧ (∀ k, k ≠ Reg.CMD_VIOL_COUNT.key [s.ctxInst n] → k ≠ Reg.ALM_STAT_LOST.key [] → (s.commit n es).2.word k = s.word k)))

/-- FETCH writes the committed value of a field into KD, or fails by name. (R58; R99; R107; R178) -/
def Obligations.FetchReadsCommittedFields : Prop :=
  ∀ (s : State) (i : Issue),
    let a := awordOf i.w
    let c := s.ctx i.ctx
    let n := i.ctx
    let sp := a.x8.toNat
    let w := bitsOf a.i32.toNat 0 16 + (c.k a.ka.toNat).toNat % 2 ^ 16
    let lo := bitsOf a.i32.toNat 16 5
    let width := bitsOf a.i32.toNat 21 5 + 1
    s.runs i 0x44 = true →
      (wordDecoded sp w = false → ∃ t, exec (.fetch i) s = .next t ∧ retiresWith s t i 1 .decode 0 0)
      ∧ (wordDecoded sp w = true → s.mayReach n true sp w lo width = false →
          ∃ t, exec (.fetch i) s = .next t ∧ retiresWith (s.violation (s.ctxInst n)) t i 1 .denied 0 0)
      ∧ (wordDecoded sp w = true → s.mayReach n true sp w lo width = true → wordAbsent s.fuses sp w = true →
          ∃ t, exec (.fetch i) s = .next t ∧ retiresWith s t i 1 .decode 0 0)
      ∧ (wordDecoded sp w = true → s.mayReach n true sp w lo width = true → wordAbsent s.fuses sp w = false → sp ≠ 0x03 →
          ∃ t, exec (.fetch i) s = .next t ∧ retiresWith s t i 1 .ok a.kd.toNat (BitVec.ofNat 64 (getBits (s.viewWord sp w) lo width)))
      ∧ (wordDecoded sp w = true → s.mayReach n true sp w lo width = true → wordAbsent s.fuses sp w = false → sp = 0x03 →
          ∃ t, exec (.fetch i) s = .next t ∧ retiresWith s t i 1 .ok a.kd.toNat
              (BitVec.ofNat 64 (getBits (s.latchWord n w (coveredAt sp w lo width)).1 lo width)))

/-- DISPATCH hands a job to its engine, ABORT delivers an abort, and a wait for a slot times out. (R75; R76; R77; R111; R112) -/
def Obligations.EngineJobsAreDispatched : Prop :=
  ∀ (s t : State) (i : Issue),
    let a := awordOf i.w
    let c := s.ctx i.ctx
    let n := i.ctx
    let kind := a.x8.toNat
    let jid := a.i32.toNat
    let desc := (c.k a.ka.toNat).toNat
    let g := partyCtx n
    let r := s.inRun g
    let wait := ((t.spend n i.cyc).suspend n (.slot kind jid desc i.e1.toNat i.e2.toNat) a.c 3).ended g
    s.fresh g = true →
    (s.runs i 0x50 = true → t.fab.stall = none →
      (∀ st, r.admitJob (s.ctxInst n) kind desc i.e2.toNat = (.no st, t) → exec (.dispatch i) s = .next ((t.retire n i.cyc a.c 3 st (fun c => c)).ended g))
      ∧ (∀ res aux, r.admitJob (s.ctxInst n) kind desc i.e2.toNat = (.yes res aux, t) →
          (t.outstanding n jid = true → exec (.dispatch i) s = .next ((t.retire n i.cyc a.c 3 .denied (fun c => c)).ended g))
          ∧ (t.outstanding n jid = false → (t.jobsOf n).length < 64 →
              let u := t.acceptJob n kind jid desc i.e1.toNat i.e2.toNat res aux
              u.fab.stall = none → exec (.dispatch i) s = .next ((u.retire n i.cyc a.c 3 .ok (fun c => c)).ended g)
                ∧ (kind ∈ [5, 6, 7] → (∀ x, res = some x → t.noBudget x (s.ctxInst n) = false) →
                    ∃ j ∈ ((u.retire n i.cyc a.c 3 .ok (fun c => c)).ended g).cmp.jobs, j.ctx = n ∧ j.engine = kind ∧ j.id = jid ∧ j.desc = desc
                      ∧ j.record = i.e1.toNat ∧ j.param = i.e2.toNat ∧ j.inst = s.ctxInst n ∧ j.abort = false))
          ∧ (t.outstanding n jid = false → 64 ≤ (t.jobsOf n).length → exec (.dispatch i) s = .next wait))
      ∧ (r.admitJob (s.ctxInst n) kind desc i.e2.toNat = (.full, t) → t.outstanding n jid = false → exec (.dispatch i) s = .next wait))
    ∧ (∀ m k j d x q, (s.ctx m).wait = some (.slot k j d x q) → exec (.dispatchSlotTimeout m) s = .next (s.retireWait m .timeout id))
    ∧ (s.runs i 0x51 = true → kind ≠ 0 →
      let j := (c.k a.ka.toNat).toNat % 2 ^ 32
      let m := (c.k a.kb.toNat).toNat % 64
      let past := (s.ctx m).history.any (fun e => e.1 = j)
      let found := s.cmp.jobs.find? (fun x => x.ctx = m && x.id = j && x.engine = kind)
      (n ≠ 0 → s.ctxInst m ≠ s.ctxInst n →
          ∃ u, exec (.abort i) s = .next u ∧ retiresWith (s.violation (s.ctxInst n)) u i 1 .denied 0 0)
      ∧ (n = 0 ∨ s.ctxInst m = s.ctxInst n →
          (∀ x, found = some x → (r.abortJob x).fab.stall = none →
              exec (.abort i) s = .next (((r.abortJob x).retire n i.cyc a.c 1 .ok (fun c => c)).ended g))
          ∧ (found = none → kind ≤ 7 → past = true → ∃ u, exec (.abort i) s = .next u ∧ retiresWith s u i 1 .completedBeforeAbort 0 0)
          ∧ (found = none → past = false → ∃ u, exec (.abort i) s = .next u ∧ retiresWith s u i 1 .decode 0 0)))

/-- HANDOVER quiesces its resource and waits, and the end of the quiesce step scrubs, grants and retires it with ST_OK. (R128; R259; R260; R261) -/
def Obligations.HandoverTakesItsSteps : Prop :=
  ∀ (s : State) (i : Issue),
    let a := awordOf i.w
    let c := s.ctx i.ctx
    let r := (c.k a.ka.toNat).toNat % 2 ^ 16
    let owner := (c.k a.kb.toNat).toNat % 64
    let p := partyCtx i.ctx
    (s.runs i 0x70 = true → s.fresh p = true →
      (31 < owner → ∃ t, exec (.handover i) s = .next t ∧ retiresWith s t i 1 .denied 0 0)
      ∧ (owner ≤ 31 → s.resExists r = false → ∃ t, exec (.handover i) s = .next t ∧ retiresWith s t i 1 .decode 0 0)
      ∧ (owner ≤ 31 → s.resExists r = true → s.dusk = true → directPath r = true →
          ∃ t, exec (.handover i) s = .next t ∧ retiresWith s t i 1 .denied 0 0)
      ∧ (owner ≤ 31 → s.resExists r = true → (s.dusk = false ∨ directPath r = false) →
          (((((s.inRun p).spend i.ctx i.cyc).tellGap r true).wr Reg.ENC_OWN_STEP [r] 1).quiesce r).fab.stall = none →
          ∃ t, exec (.handover i) s = .next t ∧ t.rd Reg.ENC_OWN_STEP [r] = 1 ∧ t.enc.handover = some ⟨i.ctx, r, owner⟩
            ∧ (t.ctx i.ctx).run = .waiting ∧ (t.ctx i.ctx).wait = some (.handover r owner)
            ∧ (directPath r = true → r ∈ t.saf.gaps) ∧ t.rd Reg.ENC_OWN_OWNER [r] = s.rd Reg.ENC_OWN_OWNER [r]))
    ∧ (∀ h, s.enc.handover = some h → h.owner ≤ 31 → s.fresh (partyCtx h.ctx) = true →
        let g := (((s.inRun (partyCtx h.ctx)).scrub h.res).grantRes h.res h.owner).tellGap h.res false
        g.fab.stall = none →
        let t := (({ g with enc := { g.enc with handover := none } }).retireWait h.ctx .ok (fun c => c)).ended (partyCtx h.ctx)
        exec .handoverQuiesceDone s = .next t ∧ t.enc.handover = none ∧ (t.ctx h.ctx).ls = .ok ∧ (t.ctx h.ctx).wait = none
          ∧ t.rd Reg.ENC_OWN_OWNER [h.res] = h.owner ∧ t.rd Reg.ENC_OWN_STEP [h.res] = 0
          ∧ (directPath h.res = true → h.res ∉ t.saf.gaps))

/-- A pending doorbell is sampled, a descriptor starts its program, run-ahead issues loads, a quantum ends, and an ended program is recorded. (R45; R47; R48; R51; R54; R68; R71; R72) -/
def Obligations.ChainsStartAndEnd : Prop :=
  ∀ (s : State),
    (s.maySample 0 = true →
      exec (.chainHeadSample 0) s = .next (({ s with cmp := { s.cmp with
          chains := (s.cmp.chains + 1) % 2 ^ 32
          ctxs := tput s.cmp.ctxs 0 (if s.cmp.head = 0 then { s.ctx 0 with dbPending := false }
            else { s.ctx 0 with dbPending := false, nextDesc := s.cmp.head, run := .ready }) } }).schedule))
    ∧ (∀ n r t, 0 < n → n < 64 → s.maySample n = true → s.fab.frozen.contains 0 = false → s.fresh (partyCtx n) = true → isHbm s.fuses (s.dbLine n) = true →
        let need := [(15, 1), (hbmStack s.fuses (s.dbLine n), 1)]
        (s.inRun (partyCtx n)).pay (s.ctxInst n) need = some r → r.readThrough 0 32 (s.dbLine n) .none false = (.ok, t) →
        exec (.chainHeadSample n) s = .next ((((t.chargeAll (s.ctxInst n) need).writeThrough 0 32 (s.dbLine n + 8) [memByte t.mem (s.dbLine n + 8) &&& 0xFE] .none).2.startChain n
          (ofLeBytes (memBytes t.mem (s.dbLine n) 8) &&& headMask)).ended (partyCtx n)))
    ∧ (∀ n, 0 < n → n < 64 → s.flag Reg.CMD_CTX_ENABLE [n] = true → isHbm s.fuses (s.dbLine n) = true →
        (memByte s.mem (s.dbLine n + 8)).getLsbD 0 = true → exec (.tenantDoorbell n) s = .next (s.setCtx n { s.ctx n with dbPending := true }))
    ∧ (∀ n k e t st b, (s.ctx n).run = .running k → (s.ctx n).prog = none → (s.ctx n).nextDesc ≠ 0 → (s.ctx n).wait = none → s.cmp.state = 1 →
        s.ctxBus n .read (s.ctx n).nextDesc 32 [] e = (.done st b, t) →
        exec (.programStart n e) s = .next (if st = .ok then t.startProgram n (s.ctx n).nextDesc k b
          else ((t.cmpFault n st 0 (s.ctx n).nextDesc).endChain n).schedule))
    ∧ (∀ n p st, (s.ctx n).prog = some p → p.ending = some st → (s.ctx n).within = false → s.fresh (partyCtx n) = true →
        let u := (s.inRun (partyCtx n)).finishProgram n (s.flag Reg.CMD_CTX_ENABLE [n])
        let on := s.flag Reg.CMD_CTX_ENABLE [n] && decide (p.next ≠ 0) && !(p.stop && statusNotDone (s.finalStatus st (reportClass p.units p.cls)))
        u.fab.stall = none → exec (.programEnd n) s = .next (u.ended (partyCtx n)) ∧ (u.ctx n).prog = none ∧ (u.ctx n).seqOpen = false
          ∧ (on = false → (u.ctx n).run = .idle ∧ (u.ctx n).nextDesc = 0)
          ∧ (on = true → p.next % 32 = 0 → (u.ctx n).nextDesc = p.next))
    ∧ (∀ k e, s.cmp.ctxs.find? (fun e => e.2.run = .running k && e.2.wait.isNone) = some e → (s.ctx e.1).run = .running k →
        exec (.strandQuantumExpiry k) s = .next ((s.setCtx e.1 { s.ctx e.1 with run := .ready }).schedule))
    ∧ (∀ n pos w cyc e k p t st b, (s.ctx n).run = .running k → (s.ctx n).prog = some p → p.ending = none → (s.ctx n).wait = none → s.cmp.state = 1 →
        pos < p.len → (s.ctx n).pc ≤ pos → pos ≤ (s.ctx n).pc + 32 →
        let r := s.spend n cyc
        let fence := decide (w.toNat / 2 ^ 56 = 0x03)
        (pos = (s.ctx n).pc → r.ctxBus n .read (p.prog + 8 * pos) 8 [] e = (.done st b, t) →
          exec (.runAheadFetch n pos w cyc e) s =
            .next (if st = .ok then t.setCtx n ((t.ctx n).fetched pos fence) else (t.cmpFault n st 0 (p.prog + 8 * pos)).failWith n st))
        ∧ (pos ≠ (s.ctx n).pc → r.specRead (r.ctxAccess n .read) (p.prog + 8 * pos) 8 e = some (.ok, b, t) →
          let v := t.setCtx n ((t.ctx n).fetched pos fence)
          ((t.ctx n).clearTo pos = false ∨ prefetchable (r.ctx n) w = none → exec (.runAheadFetch n pos w cyc e) s = .next v)
          ∧ (∀ ad size st' b' u, (t.ctx n).clearTo pos = true → prefetchable (r.ctx n) w = some (ad, size) → (∀ q ∈ (r.ctx n).prefetch, q.pos ≠ pos) →
              v.specRead { v.ctxAccess n .read with pf := true } ad size .none = some (st', b', u) →
              exec (.runAheadFetch n pos w cyc e) s =
                .next (u.setCtx n { u.ctx n with prefetch := (u.ctx n).prefetch ++ [⟨pos, ad, size, st', ofLeBytes b'⟩] }))))
    ∧ (∀ n pos w cyc e k p st b t, (s.ctx n).run = .running k → (s.ctx n).prog = some p → p.ending = none → (s.ctx n).wait = none → s.cmp.state = 1 →
        p.len ≤ pos → (s.ctx n).pc ≤ pos → pos ≤ (s.ctx n).pc + 32 → p.next ≠ 0 → p.next % 32 = 0 →
        (s.spend n cyc).specRead ((s.spend n cyc).ctxAccess n .read) p.next 32 .none = some (st, b, t) →
        let prog := bitsOf (ofLeBytes b) 64 64
        let v := t.setCtx n ((t.ctx n).fetched (2 ^ 16) false)
        (st ≠ .ok ∨ prog % 8 ≠ 0 ∨ bitsOf (ofLeBytes b) 224 16 ≤ pos - p.len → exec (.runAheadFetch n pos w cyc e) s = .next v)
        ∧ (∀ st' b' u, st = .ok → prog % 8 = 0 → pos - p.len < bitsOf (ofLeBytes b) 224 16 →
            v.specRead (v.ctxAccess n .read) (prog + 8 * (pos - p.len)) 8 e = some (st', b', u) →
            exec (.runAheadFetch n pos w cyc e) s = .next (u.setCtx n ((u.ctx n).fetched (p.len + (pos - p.len)) (w.toNat / 2 ^ 56 = 0x03)))))

/-- A governor window gives each active tile its quota, the release point frees what is unused, and a tile request issues or is held. (R25; R26) -/
def Obligations.GovernorWindows : Prop :=
  ∀ (s : State),
    (let cap := 1400 * s.fuses.variant.hbmStacks * s.rd Reg.INF_GOV_CTRL_SHARE []
     let act := (List.range s.fuses.variant.tiles).filter (fun t => !(s.tileQueue t).isEmpty)
     let quota := cap / act.length
     let u := (s.wr Reg.INF_GOV_CAP_LINES [] cap).setGov { s.inf.gov with
        cap := cap, quota := quota, left := act.map (fun t => (t, quota)), active := act, pool := cap - act.length * quota, issued := 0, released := false }
     s.boot.mainUp = true → exec .governorWindowOpen s = .next u.govRun ∧ (s.inf.gov.held = [] → exec .governorWindowOpen s = .next u))
    ∧ (let u := s.setGov { s.inf.gov with left := [], pool := s.inf.gov.pool + (s.inf.gov.left.map (fun e => e.2)).sum, released := true }
       s.inf.gov.released = false → exec .governorReleasePoint s = .next u.govRun ∧ (s.inf.gov.held = [] → exec .governorReleasePoint s = .next u))
    ∧ (∀ (g : Gov) (t : Nat),
        (g.cap ≤ g.issued ∨ g.released = false ∧ t ∉ g.active → g.take t = none)
        ∧ (g.issued < g.cap → (g.released = true ∨ t ∈ g.active) → 0 < tget 0 g.left t → ∃ l, g.take t = some { g with left := l, issued := g.issued + 1 }
            ∧ ∀ u, tget 0 l u = if u = t then tget 0 g.left t - 1 else tget 0 g.left u)
        ∧ (g.issued < g.cap → (g.released = true ∨ t ∈ g.active) → tget 0 g.left t = 0 → 0 < g.pool →
            g.take t = some { g with pool := g.pool - 1, issued := g.issued + 1 })
        ∧ (tget 0 g.left t = 0 → g.pool = 0 → g.take t = none))
    ∧ (∀ (t : Nat) (a : Access) (addr size : Nat) (w : List Byte) (e : RowError), a.gate = false → t < s.fuses.variant.tiles → size ≠ 0 → addr % 64 + size ≤ 64 →
        a.src = .tile (s.rd Reg.INF_TILE_PHYS [t]) → (a.kind = .write → w.length = size) → s.tagFits a = true →
        let q : HeldReq := { acc := a, addr := addr, size := size, bytes := w, err := e }
        exec (.tileHbmRequest t a addr size w e) s = .next (s.request q)
        ∧ (∀ (u v x : State) (pa mt : Nat), s.boot.mainUp = true → s.inflight (srcPort a.src) < 128 → s.tidBusy a = false → s.fab.frozen = [] →
            (s.syncPort (srcPort a.src) 1).pay a.tag (portNeed a size) = some u → u.checkAccess a addr size = (.ok pa mt, v) →
            v.targetOf pa size = .hbm → v.fab.posted = [] → v.fab.frozen = [] → v.pay a.tag (v.accessNeed a .hbm pa size) = some x →
            x.fab.runner = none → x.logicalOf (s.rd Reg.INF_TILE_PHYS [t]) = some t →
            (∀ g, (∀ h ∈ x.inf.gov.held, h.tile ≠ t) → x.inf.gov.takes t (govLines pa size) = some g → e ≠ .silent →
              (a.kind ≠ .write → ∀ st bs y, (x.setGov g).hbmRead mt a.tag pa size e = (st, bs, y) →
                exec (.tileHbmRequest t a addr size w e) s = .next ((y.traceAccess a .hbm pa false st).answer st (ofLeBytes bs)))
              ∧ (a.kind = .write → ∀ st y, (x.setGov g).targetWrite a mt .hbm pa w e = (st, y) →
                exec (.tileHbmRequest t a addr size w e) s = .next ((y.traceAccess a .hbm pa false st).answer st 0)))
            ∧ ((∃ h ∈ x.inf.gov.held, h.tile = t) ∨ x.inf.gov.takes t (govLines pa size) = none →
              exec (.tileHbmRequest t a addr size w e) s =
                .next ((x.governHold ⟨t, { q with adm := some ⟨pa, v.winPosted pa, mt⟩, paid := true }, none⟩).answer .queued 0))))

/-- The TTU answers an address or the status of a fault, records the fault, and drops what an invalidation covers. (R129; R131; R133; R136; R139; R142; R244) -/
def Obligations.TranslationAndItsFaults : Prop :=
  ∀ (s : State),
    (∀ a addr size, a.gate = false → size ≠ 0 → size ≤ 64 → s.tagFits a = true →
      (∀ pa mt t, s.checkAccess a addr size = (.ok pa mt, t) → exec (.ttuTranslate a addr size) s = .next (t.answer .ok (pa % 2 ^ 48 + 2 ^ 48 * mt)))
      ∧ (∀ c st1 st t, s.checkAccess a addr size = (.fault c st1 st, t) → exec (.ttuTranslate a addr size) s = .next (t.answer st 0))
      ∧ (∀ f st1 t, s.checkAccess a addr size = (.stuck f st1, t) → exec (.ttuTranslate a addr size) s = .next (t.answer .queued 0))
      ∧ (a.tag < 32 → s.flag Reg.TTU_INST_ENABLE [a.tag] = false → s.coreFault a addr size = false →
        ∃ t, exec (.ttuTranslate a addr size) s = .next t ∧ t.resp = ⟨.denied, 0⟩
          ∧ t.rd Reg.TTU_INST_FLT_CAUSE [a.tag] = 9 ∧ t.rd Reg.TTU_INST_FLT_WRITE [a.tag] = (if a.kind = .write then 1 else 0)
          ∧ t.rd Reg.TTU_INST_FLT_PID [a.tag] = a.pid % 2 ^ 20 ∧ t.rdPair Reg.TTU_INST_FLT_LO Reg.TTU_INST_FLT_HI [a.tag] = addr % 2 ^ 48
          ∧ t.rd Reg.TTU_INST_FLT_COUNT [a.tag] = satTo Reg.TTU_INST_FLT_COUNT.width (s.rd Reg.TTU_INST_FLT_COUNT [a.tag] + 1)
          ∧ t.ttu = s.ttu ∧ t.mem = s.mem))
    ∧ (∀ n scope inst pid addr,
        let l : List (Row × List Nat × Nat) := [(Reg.TTU_INVAL_ADDR_LO, [], addr / 2 ^ 12), (Reg.TTU_INVAL_ADDR_HI, [], addr / 2 ^ 32),
          (Reg.TTU_INVAL_SCOPE, [], scope), (Reg.TTU_INVAL_INST, [], inst), (Reg.TTU_INVAL_PID, [], pid)]
        s.commits n l = true → exec (.invalidation n scope inst pid addr) s = .next ((s.committed l).answer .ok 0))
    ∧ (∀ e ∈ s.ttu.tlb, e ∈ s.invalidate.ttu.tlb ↔ s.invalCovers e = false)
    ∧ (∀ ids rest, s.ttu.drains = ids :: rest →
        (s.drained ids = true → exec .invalidationDrainDone s =
          .next ({ s with ttu := { s.ttu with drains := rest } }.wr Reg.TTU_INVAL_STAT_DONE [] (s.rd Reg.TTU_INVAL_STAT_DONE [] + 1)))
        ∧ (s.drained ids = false → exec .invalidationDrainDone s = .next s))

/-- A period boundary renews Orrery's accounts, an arbitration instant serves one request, and a slice gives way. (R153; R157; R160; R163; R165; R171; R172; R173; log entry 40) -/
def Obligations.PeriodsAndArbitration : Prop :=
  ∀ (s : State),
    (s.boot.mainUp = true → exec .periodBoundary s =
        .next (((List.range 64).foldl State.deferCtx (s.cmp.jobs.foldl State.deferJob s)).boundary.schedule))
    ∧ (s.boundary.rd Reg.ORR_ACTIVE_PERIOD [] = s.rd Reg.ORR_CFG_PERIOD [] ∧ s.boundary.orr.used = [] ∧ s.boundary.orr.slackNow = []
        ∧ s.boundary.rd Reg.ORR_STAT_PERIOD_NO [] = (s.rd Reg.ORR_STAT_PERIOD_NO [] + 1) % 2 ^ 32)
    ∧ (∀ r, r < 41 → wordAbsent s.fuses 0x03 (0x100 + 4 * r) = false → s.boot.mainUp = true →
        (∀ q, s.winner r = some q → exec (.orreryArbitration r) s = .next ((s.grantReq r q).issueGranted.schedule))
        ∧ (s.winner r = none → exec (.orreryArbitration r) s = .next (s.issueGranted.schedule)))
    ∧ (∀ (p : Nat) (u : Option Nat) (f : State → Host.Outcome State Fault Refusal),
        (s.partyWaits p = true → s.attempt p u f = .next s)
        ∧ (∀ t, s.partyWaits p = false → f (s.inRun p) = .next t →
            (t.fab.stall = none → s.attempt p u f = .next (t.ended p))
            ∧ (∀ x, t.fab.stall = some x → ∃ v : State, s.attempt p u f = .next v ∧ v = s.stalled t p u x ∧ v.mem = s.mem ∧ v.cmp = s.cmp)))
    ∧ (∀ k, k < s.fuses.variant.tiles → s.fresh (partyTile k) = true →
        let v := s.inRun (partyTile k)
        (v.tilePreempted k = true → (v.switchTile k).fab.stall = none → exec (.slicePreempt false k) s = .next ((v.switchTile k).ended (partyTile k)))
        ∧ (v.tilePreempted k = false → exec (.slicePreempt false k) s = .next s))
    ∧ (∀ k r, k < 8 → s.fresh (partyCluster k) = true →
        let v := s.inRun (partyCluster k)
        v.clResident k = some r →
        (v.clSpent k r = true ∨ (∃ g, v.clIncoming k = some g ∧ v.clPreempted k g r = true) → (v.switchCluster k).fab.stall = none →
          exec (.slicePreempt true k) s = .next ((v.switchCluster k).ended (partyCluster k)))
        ∧ (v.clSpent k r = false → (∀ g, v.clIncoming k = some g → v.clPreempted k g r = false) → exec (.slicePreempt true k) s = .next s))

/-- A request runs its course, times out, or waits, and freezes, late answers and failed posted writes end as their rules say. (R129; R143; R182; R186; R193; R197; R198; R199; R201; R202; R212) -/
def Obligations.TransactionsCrossTheFabric : Prop :=
  ∀ (s : State),
    (∀ (a : Access) (addr size : Nat) (w : List Byte) (e : RowError) (x : Nat), a.gate = false → a.tag < 64 → size ≠ 0 → size ≤ 64 → (a.kind = .write → w.length = size) →
        s.tagFits a = true → a.pcie ≠ some .msi → s.pcieAddr a addr size = some x →
        exec (.fabricRequest a addr size w e) s = .next (s.requests a x w e (requestParts a x size))
        ∧ (requestParts a x size = [(x, size)] →
          let q : HeldReq := { acc := a, addr := x, size := size, bytes := w, err := e }
          (∀ r t, s.bus q .ask = (r, t) → exec (.fabricRequest a addr size w e) s = .next (t.busAnswer r))
          ∧ (∀ (u v y : State) (pa mt : Nat), s.boot.mainUp = true → s.srcDown a = false → s.inflight (srcPort a.src) < 128 → s.tidBusy a = false → s.fab.frozen = [] →
              ((s.hartTag a).syncPort (srcPort a.src) 1).pay a.tag (portNeed a size) = some u → u.checkAccess a x size = (.ok pa mt, v) →
              let t := v.targetOf pa size
              let m : Admitted := ⟨pa, v.winPosted pa, mt⟩
              v.fab.posted = [] → v.fab.frozen = [] → v.linkDown t = false → v.pay a.tag (v.accessNeed a t pa size) = some y →
              y.fab.runner = none → y.governs a t pa size = none →
              (y.isPosted a m t size = true → ∃ z, exec (.fabricRequest a addr size w e) s = .next z ∧ z.resp = ⟨.ok, 0⟩ ∧ z.mem = y.mem
                ∧ z.fab.posted = y.fab.posted ++ [⟨y.fab.nextId, a, pa, w, (postedLayer a t).getD 0, e, mt⟩])
              ∧ (y.isPosted a m t size = false → missAt t pa size = none →
                (e = .silent → ∃ z, exec (.fabricRequest a addr size w e) s = .next z ∧ z.resp = ⟨.queued, 0⟩ ∧ z.fab.nextId = y.fab.nextId + 1 ∧ z.mem = y.mem
                  ∧ ∃ o ∈ z.fab.open_, o.id = y.fab.nextId ∧ o.port = srcPort a.src ∧ o.tag = a.tag ∧ o.layers = accessLayers a t ∧ o.frozen = false ∧ o.expired = false)
                ∧ (e ≠ .silent → a.kind = .write → ∀ st z, y.targetWrite a mt t pa w e = (st, z) →
                  exec (.fabricRequest a addr size w e) s = .next ((z.traceAccess a t pa false st).answer st 0))
                ∧ (e ≠ .silent → a.kind ≠ .write → ∀ st bs z, y.targetRead a mt t pa size e = (st, bs, z) →
                  exec (.fabricRequest a addr size w e) s = .next ((z.traceAccess a t pa false st).answer st (ofLeBytes bs)))))))
    ∧ (∀ id x, s.fab.open_.find? (fun t => t.id = id && !t.frozen && !t.expired) = some x →
        ((∃ l ∈ x.layers, l ∈ s.fab.frozen) → exec (.fabricTimeout id) s = .next s)
        ∧ ((∀ l ∈ x.layers, l ∉ s.fab.frozen) →
          exec (.fabricTimeout id) s = .next ((({ s with fab := { s.fab with
            open_ := s.fab.open_.map (fun (y : Txn) => if y.id = id then { y with expired := true } else y) } }).syncPort x.port 0).endTxn x .timeout).retryHeld))
    ∧ (∀ id x, s.fab.open_.find? (fun t => t.id = id && t.expired) = some x →
        exec (.lateResponse id) s = .next (({ s with fab := { s.fab with open_ := s.fab.open_.filter (fun (y : Txn) => y.id ≠ id) } }).wr
            Reg.MAT_TRK_LATE [x.port] (s.rd Reg.MAT_TRK_LATE [x.port] + 1)))
    ∧ (∀ p rest st, s.fab.posted = p :: rest →
        exec (.postedWriteError st) s = .next (({ s with fab := { s.fab with posted := rest } }).postedError p.acc p.addr p.layer st))
    ∧ (s.fab.frozen ≠ [] →
        exec .freezeRelease s = .next ((s.fab.open_.filter (fun t => t.frozen)).foldl State.resumeOne
            ({ s with fab := { s.fab with frozen := [] } }.wr Reg.MAT_FREEZE_FROZEN [] 0)).retryHeld)
    ∧ (s.fab.frozen ≠ [] → s.boot.mainUp = true → s.boot.warm = false → s.saf.restart = none →
        exec .freezeLimitExpiry s = .next { s with saf := { s.saf with restart := some 17 } })

/-- Interrupt sources send as edge or level, a bridge holds a message behind earlier writes, and links go down and come back. (R193; R202; R205; R285) -/
def Obligations.MessagesAndLinks : Prop :=
  ∀ (s : State),
    (∀ d x, let k := 256 * d + x
      let rest := s.apc.asserted.filter (· ≠ k)
      let up : State := { s with apc := { s.apc with asserted := rest ++ [k] } }
      (exec (.sourceInterrupt d x false) s = .next { s with apc := { s.apc with asserted := rest } })
      ∧ (s.flag Reg.APC_SRC_LEVEL [d, x] = false → k ∉ s.apc.asserted → exec (.sourceInterrupt d x true) s = .next (up.sourceSend d x))
      ∧ (s.flag Reg.APC_SRC_LEVEL [d, x] = false → k ∈ s.apc.asserted → exec (.sourceInterrupt d x true) s = .next up)
      ∧ (s.flag Reg.APC_SRC_LEVEL [d, x] = true → k ∈ s.apc.sentLevel ∨ s.rd Reg.APC_SRC_VEC [d, x] = 0 → exec (.sourceInterrupt d x true) s = .next up)
      ∧ (s.flag Reg.APC_SRC_LEVEL [d, x] = true → k ∉ s.apc.sentLevel → s.rd Reg.APC_SRC_VEC [d, x] ≠ 0 → exec (.sourceInterrupt d x true) s =
          .next (({ up with apc := { up.apc with sentLevel := s.apc.sentLevel ++ [k] } }).sourceSend d x)))
    ∧ (∀ src m, s.fab.held.find? (fun m => m.source = src) = some m →
        ((∀ p ∈ s.fab.posted, p.id ∉ m.behind) → (∀ t ∈ s.fab.open_, t.id ∈ m.behind → t.expired = true) → s.mayLaunch src = true →
          exec (.interruptMessageRelease src) s = .next (({ s with fab := { s.fab with held := s.fab.held.erase m } }).launch src m.msg))
        ∧ ((∃ p ∈ s.fab.posted, p.id ∈ m.behind) ∨ (∃ t ∈ s.fab.open_, t.id ∈ m.behind ∧ t.expired = false) ∨ s.mayLaunch src = false →
          exec (.interruptMessageRelease src) s = .next s))
    ∧ (∀ n retries, n < s.fuses.variant.xds → s.boot.mainUp = true → s.rd Reg.MAT_LINK_STATE [n] < 2 →
        let lost := fun p : Posted => decide (p.layer = 1 + n) || decide (p.acc.src = .xd n)
        let u := ((s.wr Reg.MAT_LINK_STATE [n] 2).incSat Reg.MAT_LINK_DOWN [n] 1).incWrap Reg.MAT_LINK_RETRY [n] retries
        exec (.linkDown n retries) s = .next (((s.fab.posted.filter lost).foldl (fun (v : State) p => v.postedError p.acc p.addr p.layer .timeout)
            { u with fab := { s.fab with posted := s.fab.posted.filter (fun p => !lost p) } }).raise 16))
    ∧ (∀ n, s.rd Reg.MAT_LINK_STATE [n] = 2 → exec (.linkRetrainDone n) s = .next (s.wr Reg.MAT_LINK_STATE [n] 1)
        ∧ exec (.linkRetrainExpiry n) s = .next (s.wr Reg.MAT_LINK_STATE [n] 3))

/-- A line read answers data only from a line that decodes and verifies, a full write needs no check, and a partial write merges only into a good line. (R223) -/
def Obligations.LineReadsAndWrites : Prop :=
  ∀ (s : State) (pa : Nat), isHbm s.fuses pa = true → s.hbm.verifying = false →
    let u := s.flush pa
    (s.cacheEntry pa = none → u = s)
    ∧ (∀ tag c, tag < 64 → (u.lineAt pa).poisoned = false → (u.lineAt pa).row = .none → u.tagOk pa (u.slotOf pa) = true →
      exec (.hbmRead tag pa .none c) s = .next (u.answer .ok (ofLeBytes (memBytes u.mem (pa / 64 * 64) 64))))
    ∧ (∀ tag e c, tag < 64 → (u.lineAt pa).poisoned = true → u.found pa e = .none →
      ∃ t, exec (.hbmRead tag pa e c) s = .next t ∧ t.resp = ⟨.poison, 0⟩ ∧ t.mem = u.mem ∧ t.hbm.lines = u.hbm.lines)
    ∧ (∀ (bytes : List Byte) e, bytes.length = 64 →
      ∃ t, exec (.hbmFullWrite pa bytes e) s = .next t ∧ t.resp = ⟨.ok, 0⟩ ∧ memBytes t.mem (pa / 64 * 64) 64 = bytes ∧ bytesWithin s t (pa / 64 * 64) 64
        ∧ t.lineAt pa = { slot := s.slotOf pa, serial := s.serialOf (s.slotOf pa), poisoned := false, tag := .made (tagMessage pa bytes), row := e }
        ∧ t = { s with mem := t.mem, resp := t.resp, hbm := { s.hbm with lines := t.hbm.lines, cache := t.hbm.cache } })
    ∧ (∀ tag (bytes : List Byte) e, tag < 64 → bytes ≠ [] → pa % 64 + bytes.length ≤ 64 →
      (u.mergeGood (u.slotOf pa) pa e = true →
        ∃ t, exec (.hbmPartialWrite tag pa bytes e) s = .next t ∧ t.resp = ⟨.ok, 0⟩ ∧ memBytes t.mem pa bytes.length = bytes ∧ bytesWithin u t pa bytes.length
          ∧ t.lineAt pa = { slot := u.slotOf pa, serial := u.serialOf (u.slotOf pa), poisoned := false, tag := .made (tagMessage pa (memBytes t.mem (pa / 64 * 64) 64)), row := .none }
          ∧ (u.found pa e = .none → t = { u with mem := t.mem, resp := t.resp, hbm := { u.hbm with lines := t.hbm.lines } }))
      ∧ (u.mergeGood (u.slotOf pa) pa e = false →
        ∃ t, exec (.hbmPartialWrite tag pa bytes e) s = .next t ∧ t.resp = ⟨.integrity, 0⟩ ∧ (t.lineAt pa).poisoned = true
          ∧ memBytes t.mem (pa / 64 * 64) 64 = List.replicate 64 0 ∧ bytesWithin u t (pa / 64 * 64) 64))

/-- A new key, a scrubbed line, an ended migration and an ended verification pass. (R216; R220; R232; R233; R235; R236; R238) -/
def Obligations.KeysScrubAndSparing : Prop :=
  ∀ (s : State),
    (∀ k, s.commits 0 [(Reg.MEM_KEY_REKEY, [k], 1)] = true →
        exec (.rekey k) s = .next ((s.committed [(Reg.MEM_KEY_REKEY, [k], 1)]).answer .ok 0))
    ∧ (∀ k, (s.newKey k).serialOf k = s.serialOf k + 1 ∧ (∀ j, j ≠ k → (s.newKey k).serialOf j = s.serialOf j ∧ (s.newKey k).keyOf j = s.keyOf j)
        ∧ (s.newKey k).keyOf k = Config.freeValue s.free % 2 ^ 128
        ∧ (s.newKey k).rd Reg.MEM_KEY_GEN [k] = (s.rd Reg.MEM_KEY_GEN [k] + 1) % 2 ^ 8 ∧ (s.newKey k).mem = s.mem ∧ (s.newKey k).hbm.lines = s.hbm.lines)
    ∧ (∀ pa, isHbm s.fuses pa = true → s.boot.mainUp = true → s.hbm.verifying = false →
        (∀ e, s.found pa e = .none → exec (.patrolScrub (.line pa) e false) s = .next s)
        ∧ ((s.lineAt pa).poisoned = false → exec (.patrolScrub (.line pa) .one false) s = .next (((s.rewritten pa).countKind 6).tallyRow pa))
        ∧ ((s.lineAt pa).poisoned = false → ∃ t, exec (.patrolScrub (.line pa) .uncorrectable false) s = .next t ∧ (t.lineAt pa).poisoned = true
            ∧ bytesWithin s t (pa / 64 * 64) 64)
        ∧ ((s.lineAt pa).row = .none → exec (.patrolScrub (.line pa) .none true) s =
            .next { s.wr Reg.MEM_SCRUB_PASSES [] (s.rd Reg.MEM_SCRUB_PASSES [] + 1) with hbm := { s.hbm with tallies := [], rows := [] } }))
    ∧ (∀ k idx, k < s.fuses.variant.hbmStacks → s.boot.mainUp = true → s.hbm.verifying = false →
        exec (.patrolScrub (.spare k idx) .none false) s = .next s ∧ exec (.patrolScrub (.spareRow k idx) .none false) s = .next s)
    ∧ (∀ k, let u := s.copyTo k pcBytes
        (s.migrating k = true → exec (.migrationDone k) s = .next ((u.wr Reg.MEM_STK_SPARE [k]
            (if u.hbm.further.any (fun pc => pc / 32 = k || pc = sparePc k) then 3 else 2)).wr Reg.MEM_STK_PROGRESS [k] u.freeVal).drawn)
        ∧ (s.migrating k = false → exec (.migrationDone k) s = .next s))
    ∧ (∀ bad, s.hbm.verifying = true →
        ∃ t : State, exec (.hbmVerifyPassDone bad) s = .next t.finishLoad ∧ t.hbm.verifying = false ∧ t.hbm.blank = true
          ∧ (∀ pa, s.retainSlot (pa / 64 * 64) = none → (t.lineAt pa).poisoned = true))

/-- Lifecycle requests are committed, start the Monitor's work, and end with an ACTIVE or a FREE entry. (R245; R246; R254; R257) -/
def Obligations.EnclaveLifecycle : Prop :=
  ∀ (s : State) (e : Nat),
    (∀ base size inst,
      let l : List (Row × List Nat × Nat) := [(Reg.ENC_ERT_SIZE, [e], size), (Reg.ENC_ERT_BASE_LO, [e], base / 2 ^ 17), (Reg.ENC_ERT_BASE_HI, [e], base / 2 ^ 32),
        (Reg.ENC_ERT_INST, [e], inst), (Reg.ENC_ERT_REQ, [e], 1)]
      s.commits 0 l = true → ∃ t, exec (.enclaveCreate e base size inst) s = .next t ∧ t = (s.committed l).answer .ok 0
        ∧ (s.rd Reg.ENC_MON_STATE [] = 0 → t.rd Reg.ENC_ERT_STATE [e] = 1 ∧ t.rd Reg.ENC_ERT_LAST [e] = 0 ∧ t.rd Reg.ENC_ERT_REQ [e] = 0
          ∧ t.ertBase e = base % 2 ^ 48 / 2 ^ 17 * 2 ^ 17 ∧ t.rd Reg.ENC_ERT_SIZE [e] = size % 2 ^ 6 ∧ t.rd Reg.ENC_ERT_INST [e] = inst % 2 ^ 6 ∧ t.mem = s.mem))
    ∧ (s.commits 0 [(Reg.ENC_ERT_REQ, [e], 2)] = true → ∃ t, exec (.enclaveSeal e) s = .next t ∧ t = (s.committed [(Reg.ENC_ERT_REQ, [e], 2)]).answer .ok 0
        ∧ (s.rd Reg.ENC_MON_STATE [] = 0 → t.rd Reg.ENC_ERT_STATE [e] = 2 ∧ t.rd Reg.ENC_ERT_REQ [e] = 0 ∧ tget MonOp.destroy t.enc.working e = .seal ∧ t.mem = s.mem))
    ∧ (s.commits 0 [(Reg.ENC_ERT_REQ, [e], 3)] = true → ∃ t, exec (.enclaveDestroy e) s = .next t ∧ t = (s.committed [(Reg.ENC_ERT_REQ, [e], 3)]).answer .ok 0
        ∧ (s.rd Reg.ENC_MON_STATE [] = 0 → t.rd Reg.ENC_ERT_STATE [e] = 4 ∧ t.rd Reg.ENC_ERT_REQ [e] = 0 ∧ tget MonOp.seal t.enc.working e = .destroy))
    ∧ (s.rd Reg.ENC_ERT_STATE [e] = 0 → (s.ertStart e 1).rd Reg.ENC_ERT_STATE [e] = 1 ∧ (s.ertStart e 1).rd Reg.ENC_ERT_LAST [e] = 0)
    ∧ (s.rd Reg.ENC_ERT_STATE [e] = 1 → (s.ertStart e 2).rd Reg.ENC_ERT_STATE [e] = 2 ∧ tget MonOp.destroy (s.ertStart e 2).enc.working e = .seal)
    ∧ (s.rd Reg.ENC_ERT_STATE [e] ∈ [1, 2, 3] → (s.ertStart e 3).rd Reg.ENC_ERT_STATE [e] = 4 ∧ tget MonOp.seal (s.ertStart e 3).enc.working e = .destroy)
    ∧ (∀ r, s.rd Reg.ENC_MON_STATE [] ≠ 0 → (s.ertRequest e r).rd Reg.ENC_ERT_PEND [e] = 1 ∧ (s.ertRequest e r).rd Reg.ENC_ERT_STATE [e] = s.rd Reg.ENC_ERT_STATE [e]
        ∧ (s.ertRequest e r).enc.held = s.enc.held ++ [(e, r)])
    ∧ (e < 64 → s.fresh partyMonitor = true → s.rd Reg.ENC_MON_STATE [] = 0 → tget MonOp.destroy s.enc.working e = .seal →
        let m := (s.inRun partyMonitor).measure e
        ({ m.2 with enc := { m.2.enc with measures := tput m.2.enc.measures e (m.1 % 2 ^ 384) } }.writeReport e).fab.stall = none →
        ∃ t, exec (.sealDone e) s = .next t ∧ t.rd Reg.ENC_ERT_STATE [e] = 3 ∧ t.rd Reg.ENC_ERT_LAST [e] = 0
          ∧ tget 0 t.enc.measures e = m.1 % 2 ^ 384)
    ∧ (e < 64 → s.fresh partyMonitor = true → s.rd Reg.ENC_MON_STATE [] = 0 → tget MonOp.seal s.enc.working e = .destroy →
        ((s.inRun partyMonitor).monScrub (s.ertBase e) (2 ^ s.rd Reg.ENC_ERT_SIZE [e])).fab.stall = none →
        ∃ t, exec (.destroyDone e) s = .next t ∧ t.rd Reg.ENC_ERT_STATE [e] = 0 ∧ t.rd Reg.ENC_ERT_LAST [e] = 0
          ∧ tget 0 t.enc.measures e = 0 ∧ tget MonOp.seal t.enc.working e = .seal)

/-- A mailbox write is a request that the mailbox unit takes at an intake line, and the Monitor restarts, comes back or stays halted. (R129; R243; R244; R249; R250; R251; R255; R256; R257; R258) -/
def Obligations.MonitorAndMailbox : Prop :=
  ∀ (s : State),
    (∀ (a : Access) e addr (bytes : List Byte), a.gate = false → e < 64 → bytes.length = 64 → a.kind = .write → s.tagFits a = true →
      let q : HeldReq := { acc := a, addr := addr, size := 64, bytes := bytes, err := .none }
      (∀ c st1 st, (s.allow a addr 64).1 = .fault c st1 st → exec (.mailboxWrite a e addr bytes) s = .next (s.request q))
      ∧ (∀ mt, (s.allow a addr 64).1 = .ok (s.intakeLine e) mt → exec (.mailboxWrite a e addr bytes) s = .next (s.request q))
      ∧ (∀ pa mt, (s.allow a addr 64).1 = .ok pa mt → pa ≠ s.intakeLine e → exec (.mailboxWrite a e addr bytes) s = .next s))
    ∧ (∀ (a : Access) e mt pa (bytes : List Byte), bytes.length = 64 → s.entryOf pa = some e →
      (s.isMail a pa 64 = true → s.targetWrite a mt .hbm pa bytes .none = s.mail e a.tag 0 bytes)
      ∧ (s.isMail a pa 64 = false → s.targetWrite a mt .hbm pa bytes .none = s.hbmWrite mt a.tag pa bytes .none)
      ∧ (a.gate = false → a.src = .debug → s.enclaveFault a pa 64 = true))
    ∧ (∀ e tag (bytes : List Byte) u, s.readThrough 0 35 (s.intakeLine e) .none false = (.ok, u) →
      let head := ofLeBytes (memBytes u.mem (s.intakeLine e) 8)
      let tail := ofLeBytes (memBytes u.mem (s.intakeLine e + 8) 8)
      ((tail + 2 ^ 64 - head) % 2 ^ 64 = 63 → s.mail e tag 0 bytes = (.notReady, u))
      ∧ ((tail + 2 ^ 64 - head) % 2 ^ 64 ≠ 63 → (s.mail e tag 0 bytes).1 = .ok
        ∧ tget 0 (s.mail e tag 0 bytes).2.enc.seqs e = (tget 0 u.enc.seqs e + 1) % 2 ^ 48))
    ∧ (s.boot.mainUp = true → s.rd Reg.ENC_MON_STATE [] ≠ 2 →
      let u := (s.wr Reg.ENC_MON_STATE [] 1).incSat Reg.ENC_MON_RESTARTS [] 1
      let g := s.rd Reg.ENC_MON_GEN [] + 1
      (∀ v, s.rd Reg.ENC_MON_GEN [] = 7 → exec (.monitorRestart v) s = .next s.monHalt)
      ∧ (s.rd Reg.ENC_MON_GEN [] ≠ 7 → exec (.monitorRestart false) s = .next u.monHalt)
      ∧ (s.rd Reg.ENC_MON_GEN [] ≠ 7 →
          exec (.monitorRestart true) s = .next (((u.wr Reg.ENC_MON_GEN [] g).extendMmr g).record 0x70 35 (leBytes 1 1 ++ leBytes 1 g))))
    ∧ (s.rd Reg.ENC_MON_STATE [] = 2 → ∀ v, exec (.monitorRestart v) s = .next s)
    ∧ (s.monHalt.rd Reg.ENC_MON_STATE [] = 2 ∧ (s.rd Reg.ENC_MON_VEC [] ≠ 0 → s.monHalt.msgs = s.msgs ++ [{ inst := 0, vec := s.rd Reg.ENC_MON_VEC [] }]))
    ∧ (s.rd Reg.ENC_MON_STATE [] = 1 → s.fresh partyMonitor = true →
      let a := (List.range 64).foldl State.reattest (s.inRun partyMonitor)
      let b := (a.wr Reg.ENC_MON_STATE [] 0).send 0 (a.rd Reg.ENC_MON_VEC [])
      let r := b.enc.held.foldl (fun v r => (v.wr Reg.ENC_ERT_PEND [r.1] 0).ertStart r.1 r.2) { b with enc := { b.enc with held := [] } }
      r.fab.stall = none → exec .monitorRestartDone s = .next (r.ended partyMonitor))

/-- An idle Crypto Engine starts the job that it takes next, for each of its thirteen operations, or ends it with ST_DENIED. (R263; R264; R265; R266; R267; R269; log entry 40) -/
def Obligations.CryptoEngineStartsItsJob : Prop :=
  ∀ (s t : State) (n : Nat) (j : CryJob) (b : List Byte),
    let d := ofLeBytes b
    let op := bitsOf d 0 8
    let len := bitsOf d 32 32
    let p := partyJob j.uid
    let c := t.cryState n j 1 none
    let r := c.cryCompute n d { j with owed := Config.cryptoNs op len (bitsOf d 320 32) }
    let u := (r.2.cryDrop n r.1.uid).setCryEngine n { (r.2.cryDrop n r.1.uid).cryEngine n with running := some r.1 }
    let z := u.ended p
    let x := (t.cryDeny n j).ended p
    n < 4 → s.cryStarts n = some j → s.fresh p = true → (s.inRun p).dmaRead (cryAccess n j.tag) j.desc 64 = (.ok, b, t) →
    (s.cryAdmits n j.tag d = true → u.fab.stall = none →
      (z.cryEngine n).running = some r.1 ∧ r.1.uid = j.uid ∧ r.1.op = op ∧ r.1.owed = Config.cryptoNs op len (bitsOf d 320 32)
      ∧ (op = 0x01 → exec (.gcmEncrypt n) s = .next z) ∧ (op = 0x02 → exec (.gcmDecrypt n) s = .next z)
      ∧ (op = 0x10 → exec (.sha256 n) s = .next z) ∧ (op = 0x11 → exec (.sha384 n) s = .next z) ∧ (op = 0x12 → exec (.sha512 n) s = .next z)
      ∧ (op = 0x18 → exec (.sha3256 n) s = .next z) ∧ (op = 0x19 → exec (.sha3384 n) s = .next z) ∧ (op = 0x1A → exec (.sha3512 n) s = .next z)
      ∧ (op = 0x20 → exec (.p256Sign n) s = .next z) ∧ (op = 0x21 → exec (.p256Verify n) s = .next z)
      ∧ (op = 0x22 → exec (.p384Sign n) s = .next z) ∧ (op = 0x23 → exec (.p384Verify n) s = .next z)
      ∧ (op = 0x30 → exec (.keyload n) s = .next z))
    ∧ (s.cryAdmits n j.tag d = false → (t.cryDeny n j).fab.stall = none →
      exec (.gcmEncrypt n) s = .next x ∧ exec (.gcmDecrypt n) s = .next x ∧ exec (.sha256 n) s = .next x ∧ exec (.sha384 n) s = .next x
      ∧ exec (.sha512 n) s = .next x ∧ exec (.sha3256 n) s = .next x ∧ exec (.sha3384 n) s = .next x ∧ exec (.sha3512 n) s = .next x ∧ exec (.p256Sign n) s = .next x
      ∧ exec (.p256Verify n) s = .next x ∧ exec (.p384Sign n) s = .next x ∧ exec (.p384Verify n) s = .next x ∧ exec (.keyload n) s = .next x)
    ∧ (let key := leBytes (keyLen (c.rd Reg.CRY_KEY_KIND [n, bitsOf d 8 5])) (c.cryKey n (bitsOf d 8 5))
       let src := (bitsOf d 64 64, len)
       let aad := (bitsOf d 256 64, bitsOf d 320 32)
       (∀ s0 iv ad w, op = 0x01 → c.cryRead n j.tag [src, (bitsOf d 192 64, 12), aad] = (.ok, [s0, iv, ad], w) →
          r.1.out = xorBytes s0 (Config.gcmStream key iv len % 2 ^ (8 * len)) ∧ r.1.tagOut = leBytes 16 (Config.gcmTag key iv ad r.1.out))
       ∧ (∀ s0 iv ad tg w, op = 0x02 → c.cryRead n j.tag [src, (bitsOf d 192 64, 12), aad, (bitsOf d 352 64, 16)] = (.ok, [s0, iv, ad, tg], w) →
          (leBytes 16 (Config.gcmTag key iv ad s0) = tg → r.1.out = xorBytes s0 (Config.gcmStream key iv len % 2 ^ (8 * len)) ∧ r.1.bad = j.bad)
          ∧ (leBytes 16 (Config.gcmTag key iv ad s0) ≠ tg → r.1.out = List.replicate len 0 ∧ r.1.bad = true))
       ∧ (∀ s0 w, op ∈ [0x10, 0x11, 0x12, 0x18, 0x19, 0x1A] → c.cryRead n j.tag [src] = (.ok, [s0], w) →
          r.1.out = leBytes (digestLen op) (Config.hash op s0))
       ∧ (∀ s0 w, op ∈ [0x20, 0x22] → c.cryRead n j.tag [src] = (.ok, [s0], w) →
          r.1.out = leBytes (2 * digestLen op) (Config.sign op (ofLeBytes key) s0 (Config.freeValue w.free)))
       ∧ (∀ s0 sg w, op ∈ [0x21, 0x23] → c.cryRead n j.tag [src, (bitsOf d 192 64, if op = 0x21 then 64 else 96)] = (.ok, [s0, sg], w) →
          r.1.bad = !Config.verify op (ofLeBytes key) s0 sg)
       ∧ (∀ s0 w, op = 0x30 → c.cryRead n j.tag [src] = (.ok, [s0], w) → r.1.out = s0 ∧ r.1.slot = bitsOf d 8 5 ∧ r.1.kind = bitsOf d 13 3))

/-- A Crypto Engine pre-empts, resumes and ends its jobs, and clears key slots. (R264; R265; R266; R267; R268; R270; log entry 40) -/
def Obligations.CryptoJobsSwitchAndEnd : Prop :=
  ∀ (s : State) (n : Nat), n < 4 →
    (∀ j save, save ≤ 200 → (s.cryEngine n).running = some j → s.fresh (partyJob j.uid) = true →
      let v := s.inRun (partyJob j.uid)
      let a := (v.cryAbort n j).cryEnd n j .aborted
      (s.cryAborting j = true → a.fab.stall = none → exec (.cryptoPreempt n save) s = .next (a.ended (partyJob j.uid)) ∧ exec (.cryptoJobDone n) s = .next (a.ended (partyJob j.uid)))
      ∧ (∀ k, s.cryAborting j = false → s.cryNext n = some k → s.cryRank n k.tag < s.cryRank n j.tag →
        let u := v.setCryEngine n { v.cryEngine n with running := none, saved := (v.cryEngine n).saved ++ [j] }
        let w := ((u.cryState n j 2 (some .preempted)).incWrap Reg.CRY_CNT_PREEMPT [n] 1).chargeJob k.uid (25 + n) save
        w.fab.stall = none → exec (.cryptoPreempt n save) s = .next (w.ended (partyJob j.uid)))
      ∧ (s.cryAborting j = false → (∀ k, s.cryNext n = some k → s.cryRank n j.tag ≤ s.cryRank n k.tag) → exec (.cryptoPreempt n save) s = .next s)
      ∧ (s.cryAborting j = false →
        let w := v.payJob j.uid (25 + n) j.owed
        (∀ st, j.failed = some st → (w.cryEnd n j st).fab.stall = none → exec (.cryptoJobDone n) s = .next ((w.cryEnd n j st).ended (partyJob j.uid)))
        ∧ (j.failed = none → ((w.cryFinish n j).2.cryEnd n j (w.cryFinish n j).1).fab.stall = none →
            exec (.cryptoJobDone n) s = .next (((w.cryFinish n j).2.cryEnd n j (w.cryFinish n j).1).ended (partyJob j.uid)))))
    ∧ (∀ restore j, restore ≤ 200 → (s.cryEngine n).running = none → s.cryNext n = some j → (∃ k ∈ (s.cryEngine n).saved, k.uid = j.uid) → s.fresh (partyJob j.uid) = true →
      let v := s.inRun (partyJob j.uid)
      let u := v.setCryEngine n { v.cryEngine n with running := some j, saved := (v.cryEngine n).saved.filter (fun k => k.uid ≠ j.uid) }
      let w := (u.cryState n j 1 none).chargeJob j.uid (25 + n) restore
      w.fab.stall = none → exec (.cryptoResume n restore) s = .next (w.ended (partyJob j.uid)))
    ∧ (∀ j : CryJob, j.op = 0x30 → j.slot < 32 → (s.cryFinish n j).1 = .ok ∧ (s.cryFinish n j).2.cryKey n j.slot = ofLeBytes j.out
          ∧ (s.cryFinish n j).2.rd Reg.CRY_KEY_KIND [n, j.slot] = j.kind % 2 ^ 3 ∧ (s.cryFinish n j).2.mem = s.mem)
    ∧ (∀ k, (s.commits 0 [(Reg.CRY_KEY_CLEAR, [n, k], 1)] = true →
        ∃ t, exec (.cryptoKeyClear n k) s = .next t ∧ t = (s.committed [(Reg.CRY_KEY_CLEAR, [n, k], 1)]).answer .ok 0
          ∧ t.cryKey n k = 0 ∧ t.rd Reg.CRY_KEY_KIND [n, k] = 0 ∧ t.rd Reg.CRY_KEY_CLEAR [n, k] = 0 ∧ t.mem = s.mem)
      ∧ (s.cryClear n k).cryKey n k = 0 ∧ (s.cryClear n k).rd Reg.CRY_KEY_KIND [n, k] = 0
      ∧ (∀ i, i ≠ k → (s.cryClear n k).cryKey n i = s.cryKey n i))

/-- GATE.MARK does nothing, GATE.ENTER enters an enclave at its mark or takes a gate fault, and GATE.EXIT leaves it with its registers cleared. (R278; R279; R280; Table apc.2; Table apc.3) -/
def Obligations.GatesOfAnEnclave : Prop :=
  ∀ (s : State) (h w rs1 : Nat) (p : HartAt), h < 16 → placeValid p = true →
    let u := s.stand h p
    let P := partyHart h
    let v := u.inRun P
    (gateOp w = .illegal → exec (.gateMark h p w) s = .next (u.takeTrap h 2 w false) ∧ exec (.gateExit h p w rs1) s = .next (u.takeTrap h 2 w false)
      ∧ ∀ pa, exec (.gateEnter h p w rs1 pa) s = .next (u.takeTrap h 2 w false))
    ∧ (∀ e, gateOp w = .mark e → exec (.gateMark h p w) s = .next u)
    ∧ (∀ pa, gateOp w = .enter → p.mmode = true → exec (.gateEnter h p w rs1 pa) s = .next (u.takeTrap h 2 w false))
    ∧ (gateOp w = .enter → p.mmode = false → u.fresh P = true →
      (∀ pa, u.inEnclave h = true → (v.takeTrap h 24 rs1 false).fab.stall = none → exec (.gateEnter h p w rs1 pa) s = .next ((v.takeTrap h 24 rs1 false).ended P))
      ∧ (u.inEnclave h = false → (v.takeTrap h 24 rs1 false).fab.stall = none → exec (.gateEnter h p w rs1 none) s = .next ((v.takeTrap h 24 rs1 false).ended P))
      ∧ (∀ pa x t, u.inEnclave h = false → v.gateFetch h p rs1 pa = (x, t) → (t.takeTrap h 24 rs1 false).fab.stall = none →
          (x.bind gateMark = none → exec (.gateEnter h p w rs1 (some pa)) s = .next ((t.takeTrap h 24 rs1 false).ended P))
          ∧ (∀ m e, x = some m → gateMark m = some e →
            ¬ (t.rd Reg.ENC_ERT_STATE [e] = 3 ∧ t.inEntry pa e = true ∧ t.rd Reg.ENC_ERT_INST [e] = placeTag p) →
            exec (.gateEnter h p w rs1 (some pa)) s = .next ((t.takeTrap h 24 rs1 false).ended P)))
      ∧ (∀ pa m t e, u.inEnclave h = false → v.gateFetch h p rs1 pa = (some m, t) → t.fab.stall = none → gateMark m = some e →
          t.rd Reg.ENC_ERT_STATE [e] = 3 → t.inEntry pa e = true → t.rd Reg.ENC_ERT_INST [e] = placeTag p →
          ∃ r, exec (.gateEnter h p w rs1 (some pa)) s = .next r ∧ r.inEnclave h = true ∧ r.rd Reg.APC_HART_ENTRY [h] = e
            ∧ (∀ k, tget 0 (r.hart h).x k = if 10 ≤ k ∧ k ≤ 17 then tget 0 (t.hart h).x k else 0)
            ∧ r.hart h = { t.hart h with x := (r.hart h).x, resume := p.pc, pc := rs1 + 4, lastEntry := e }
            ∧ (∀ g, g ≠ h → r.hart g = t.hart g) ∧ r.mem = t.mem))
    ∧ (gateOp w = .exit →
      (u.inEnclave h = true →
        ∃ r, exec (.gateExit h p w rs1) s = .next r ∧ r.inEnclave h = false
          ∧ (∀ k, tget 0 (r.hart h).x k = if 10 ≤ k ∧ k ≤ 17 then tget 0 (s.hart h).x k else 0)
          ∧ r.hart h = { u.hart h with x := (r.hart h).x, f := [], v := [], fcsr := 0, vtype := villType, vl := 0, vstart := 0, pc := rs1, async := false }
          ∧ (∀ g, g ≠ h → r.hart g = s.hart g) ∧ r.mem = s.mem)
      ∧ (u.inEnclave h = false → exec (.gateExit h p w rs1) s = .next (u.takeTrap h 2 w false)))

/-- Access faults, store errors, delivered messages, interrupt-file and timer writes, and timer compares at a hart. (R274; R275; R276; R277; R281; R283; R284; R286; R287; R288; Table apc.1) -/
def Obligations.TrapsAndInterruptsOfHarts : Prop :=
  ∀ (s : State) (h : Nat), h < 16 →
    let taken := fun (t : State) (g c : Nat) (at_ : Option HartAt) => match at_ with | some q => (t.stand g q).takeTrap g c 0 true | none => t
    (∀ p va pa k, placeValid p = true →
      let u := s.stand h p
      (k ≠ .fetch → exec (.hartAccessFault h p va pa k .misaligned) s = .next (u.takeTrap h (if k = .read then 4 else 6) va false))
      ∧ (∀ st, s.barred h p = true → exec (.hartAccessFault h p va pa k (.status st)) s =
          .next ((u.record 0x20 (placeTag p) (leBytes 1 (accessCause k) ++ leBytes 6 va ++ leBytes 3 h)).takeTrap h (accessCause k) va false))
      ∧ (∀ st, s.barred h p = false → st ∈ [Status.denied, .decode, .poison, .timeout, .notReady] →
          exec (.hartAccessFault h p va pa k (.status st)) s = .next ((u.setHart h { u.hart h with ukstat := statusCode st }).takeTrap h (accessCause k) va false))
      ∧ (s.barred h p = false → isHbm s.fuses pa = true →
          let m := (u.mergeFails (s.slotOf pa) (placeTag p) pa).2
          exec (.hartAccessFault h p va pa .write (.status .integrity)) s = .next ((m.setHart h { m.hart h with ukstat := 0x0E }).takeTrap h 7 va false)))
    ∧ (∀ addr st at_, st ≠ .ok →
        let u := ((s.wrPair Reg.APC_HART_SERR_LO Reg.APC_HART_SERR_HI [h] addr).wr Reg.APC_HART_SERR_STATUS [h] (statusCode st)).incSat Reg.APC_HART_SERR_COUNT [h] 1
        let p := u.setHart h { s.hart h with mip := if (s.hart h).mip.contains 16 then (s.hart h).mip else (s.hart h).mip ++ [16] }
        exec (.storeError h addr st at_) s = .next (taken p h 16 at_))
    ∧ (∀ m rest at_, s.msgs = m :: rest →
        let u := ({ s with msgs := rest }).deliver m
        (s.flag Reg.APC_IRQ_VALID [m.inst] = false → m.inst < 32 → m.vec < 2048 →
          exec (.irqDeliver at_) s = .next u ∧ bitAt (u.rd Reg.APC_IPEND [m.inst, m.vec / 32]) (m.vec % 32) = true)
        ∧ (s.flag Reg.APC_IRQ_VALID [m.inst] = true →
          exec (.irqDeliver at_) s = .next (taken u (u.rd Reg.APC_IRQ_HART [m.inst]) (fileCause (u.rd Reg.APC_IRQ_FILE [m.inst])) at_)))
    ∧ (∀ f off size v, f ≤ 6 → off < 0x1000 →
        (s.rd Reg.APC_CL_STATE [h / 4] = 2 → exec (.seteipnumWrite h f off size v) s = .next (s.answer .decode 0))
        ∧ (s.rd Reg.APC_CL_STATE [h / 4] ≠ 2 →
          exec (.seteipnumWrite h f 0 4 v) s = .next ((s.setEip h f (v % 2 ^ 32)).answer .ok 0)
          ∧ (off ≠ 0 → off % 4 = 0 → exec (.seteipnumWrite h f off 4 v) s = .next (s.answer .ok 0))
          ∧ (size ≠ 4 ∨ off % 4 ≠ 0 → exec (.seteipnumWrite h f off size v) s = .next (s.answer .denied 0))))
    ∧ (∀ v, let c := (s.hart h).mtimecmp
        (s.rd Reg.APC_CL_STATE [h / 4] = 2 → exec (.mtimecmpWrite h 0 8 v) s = .next (s.answer .decode 0))
        ∧ (s.rd Reg.APC_CL_STATE [h / 4] ≠ 2 → exec (.mtimecmpWrite h 0 8 v) s = .next ((s.setMtimecmp h v).answer .ok 0)
          ∧ exec (.mtimecmpWrite h 0 4 v) s = .next ((s.setMtimecmp h (c / 2 ^ 32 * 2 ^ 32 + v % 2 ^ 32)).answer .ok 0)
          ∧ exec (.mtimecmpWrite h 4 4 v) s = .next ((s.setMtimecmp h (c % 2 ^ 32 + v % 2 ^ 32 * 2 ^ 32)).answer .ok 0)))
    ∧ (∀ k at_, k ∈ [5, 6, 7] → (s.compareOf h k).1 ≤ (s.compareOf h k).2 → k ∉ (s.hart h).fired →
        let p := s.setHart h { s.hart h with fired := (s.hart h).fired ++ [k], mip := (s.hart h).mip.filter (· ≠ k) ++ [k] }
        exec (.timerCompare h k at_) s = .next (taken p h k at_))

/-- A trap in enclave mode saves and clears the hart's state and resumes at the gate; outside it takes the trap at the pc. (R277; R281; Table apc.3; Table apc.4) -/
def Obligations.TrapsLeaveTheEnclave : Prop :=
  ∀ (s : State) (h cause tval : Nat) (irq : Bool),
    let t := s.takeTrap h cause tval irq
    let x := s.hart h
    (s.inEnclave h = true →
        let y := s.writeSave h (s.ertBase (s.rd Reg.APC_HART_ENTRY [h]) + 2048 * h) x.saved
        let m := (y.hart h).trapMode cause irq
        t.inEnclave h = false
        ∧ t.hart h = { y.hart h with x := [], f := [], v := [], fcsr := 0, vtype := villType, vl := 0, vstart := 0, async := true, mmode := decide (m = 0), virt := decide (m = 2),
                                     trap := some { cause := cause, tval := 0, epc := (y.hart h).resume, irq := irq, mode := m } }
        ∧ t.mem = y.mem ∧ (∀ g, g ≠ h → t.hart g = y.hart g) ∧ (∀ k, k ≠ Reg.APC_HART_IN_ENCL.key [h] → t.word k = y.word k)
        ∧ x.saved.length = 25 * 64 ∧ (t.hart h).resume = (y.hart h).resume)
    ∧ (s.inEnclave h = false →
        let m := x.trapMode cause irq
        t = s.setHart h { x with mmode := decide (m = 0), virt := decide (m = 2), trap := some { cause := cause, tval := tval, epc := x.pc, irq := irq, mode := m } })

/-- Cluster requests are committed, a cluster enters RETAIN or OFF and wakes, and an acknowledged level source sends again. (R285; R289; R290) -/
def Obligations.ClusterPowerStates : Prop :=
  ∀ (s : State) (c : Nat), c < 4 →
    (s.commits 0 [(Reg.APC_CL_REQ, [c], 0)] = true → ∃ t, exec (.clusterRun c) s = .next t ∧ t = (s.committed [(Reg.APC_CL_REQ, [c], 0)]).answer .ok 0
        ∧ t.rd Reg.APC_CL_REQ [c] = 0 ∧ t.rd Reg.APC_CL_STATE [c] = 0 ∧ t.mem = s.mem)
    ∧ (s.commits 0 [(Reg.APC_CL_REQ, [c], 1)] = true → ∃ t, exec (.clusterRetain c) s = .next t ∧ t = (s.committed [(Reg.APC_CL_REQ, [c], 1)]).answer .ok 0
        ∧ t.rd Reg.APC_CL_REQ [c] = 1 ∧ t.rd Reg.APC_CL_STATE [c] = s.rd Reg.APC_CL_STATE [c] ∧ t.apc = s.apc ∧ t.mem = s.mem)
    ∧ (s.commits 0 [(Reg.APC_CL_REQ, [c], 2)] = true → ∃ t, exec (.clusterOff c) s = .next t ∧ t = (s.committed [(Reg.APC_CL_REQ, [c], 2)]).answer .ok 0
        ∧ t.rd Reg.APC_CL_REQ [c] = 2 ∧ t.rd Reg.APC_CL_STATE [c] = s.rd Reg.APC_CL_STATE [c] ∧ t.apc = s.apc ∧ t.mem = s.mem)
    ∧ (s.rd Reg.APC_CL_STATE [c] = 0 →
      (s.rd Reg.APC_CL_REQ [c] = 1 → ∃ t, exec (.clusterStateEntry c) s = .next t ∧ t.rd Reg.APC_CL_STATE [c] = 1
        ∧ (∀ h, h / 4 = c → t.rd Reg.APC_HART_RUN [h] = 1) ∧ t.apc = s.apc ∧ t.mem = s.mem)
      ∧ (s.rd Reg.APC_CL_REQ [c] = 0 → exec (.clusterStateEntry c) s = .next s))
    ∧ (s.rd Reg.APC_CL_STATE [c] ≤ 1 → s.rd Reg.APC_CL_REQ [c] = 2 → ∃ t, exec (.clusterStateEntry c) s = .next t ∧ t.rd Reg.APC_CL_STATE [c] = 2
        ∧ (∀ h, h / 4 = c → t.rd Reg.APC_HART_RUN [h] = 3 ∧ t.hart h = {}) ∧ (∀ h, h / 4 ≠ c → t.hart h = s.hart h) ∧ t.mem = s.mem)
    ∧ (s.rd Reg.APC_CL_STATE [c] = 1 → s.wakePending c = true → ∃ t, exec (.clusterWake c) s = .next t ∧ t.rd Reg.APC_CL_STATE [c] = 0
        ∧ (∀ h, h / 4 = c → t.rd Reg.APC_HART_RUN [h] = 0) ∧ t.apc = s.apc ∧ t.mem = s.mem)
    ∧ (∀ n d x, let k := 256 * d + x
      (s.commits n [(Reg.APC_SRC_ACK, [d, x], 1)] = true → ∃ t, exec (.sourceAck n d x) s = .next t ∧ t = (s.committed [(Reg.APC_SRC_ACK, [d, x], 1)]).answer .ok 0
          ∧ t.rd Reg.APC_SRC_ACK [d, x] = 0 ∧ t.mem = s.mem ∧ (s.flag Reg.APC_SRC_LEVEL [d, x] = false → k ∉ t.apc.sentLevel))
      ∧ (s.flag Reg.APC_SRC_LEVEL [d, x] = true → k ∈ s.apc.asserted → s.rd Reg.APC_SRC_VEC [d, x] ≠ 0 →
          k ∈ (s.sourceAck d x).apc.sentLevel ∧ (s.sourceAck d x).fab.held.length = s.fab.held.length + 1)
      ∧ (s.flag Reg.APC_SRC_LEVEL [d, x] = false ∨ k ∉ s.apc.asserted →
          s.sourceAck d x = { s with apc := { s.apc with sentLevel := s.apc.sentLevel.filter (· ≠ k) } }))

/-- A tile executes the descriptor at its head by that descriptor's operation, retires it, or ends its job; the Dusk inference unit answers. (R294; R302; R304; R305; R308; R311; R335; Table inf.4; log entry 40) -/
def Obligations.TileOperationsExecute : Prop :=
  (∀ (s : State) (k cyc : Nat) (e : TileDesc),
    let P := partyTile k
    let d := tdOf e.desc
    let u := (s.inRun P).payJob e.uid 22 (matrixCycles d + cyc)
    let o := u.tileOp ⟨u.tileAccess k (u.descTag e) d.pid, 0x1_0000_0000 + k * 0x20_0000⟩ d
    let r := if o.1 = .ok then o.2.retireDesc k e else (o.2.markRan k).infFail e.uid e.addr k o.1
    let f := ((u.incSat Reg.INF_PHYS_SRAM_DBE [u.rd Reg.INF_TILE_PHYS [k]] 1).markRan k).infFail e.uid e.addr k .poison
    k < s.fuses.variant.tiles → s.tileHead k = some e → s.fresh P = true →
      (r.fab.stall = none → (d.op = 0x01 → exec (.gemm (.tile k) cyc false) s = .next (r.ended P)) ∧ (d.op = 0x02 → exec (.conv2d (.tile k) cyc false) s = .next (r.ended P)) ∧ (d.op = 0x03 → exec (.dwconv (.tile k) cyc false) s = .next (r.ended P))
        ∧ (d.op = 0x04 → exec (.deconv (.tile k) cyc false) s = .next (r.ended P)) ∧ (d.op = 0x05 → exec (.pool (.tile k) cyc false) s = .next (r.ended P)) ∧ (d.op = 0x06 → exec (.elemwise (.tile k) cyc false) s = .next (r.ended P))
        ∧ (d.op = 0x07 → exec (.activate (.tile k) cyc false) s = .next (r.ended P)) ∧ (d.op = 0x08 → exec (.norm (.tile k) cyc false) s = .next (r.ended P)) ∧ (d.op = 0x09 → exec (.softmax (.tile k) cyc false) s = .next (r.ended P))
        ∧ (d.op = 0x0A → exec (.topk (.tile k) cyc false) s = .next (r.ended P)) ∧ (d.op = 0x0B → exec (.gather (.tile k) cyc false) s = .next (r.ended P)) ∧ (d.op = 0x0C → exec (.scatter (.tile k) cyc false) s = .next (r.ended P))
        ∧ (d.op = 0x0D → exec (.transpose (.tile k) cyc false) s = .next (r.ended P)) ∧ (d.op = 0x0E → exec (.reshape (.tile k) cyc false) s = .next (r.ended P)) ∧ (d.op = 0x0F → exec (.quant (.tile k) cyc false) s = .next (r.ended P))
        ∧ (d.op = 0x10 → exec (.dequant (.tile k) cyc false) s = .next (r.ended P)) ∧ (d.op = 0x11 → exec (.reduce (.tile k) cyc false) s = .next (r.ended P)) ∧ (d.op = 0x12 → exec (.argmax (.tile k) cyc false) s = .next (r.ended P))
        ∧ (d.op = 0x13 → exec (.resize (.tile k) cyc false) s = .next (r.ended P)) ∧ (d.op = 0x14 → exec (.gridsample (.tile k) cyc false) s = .next (r.ended P)) ∧ (d.op = 0x15 → exec (.attention (.tile k) cyc false) s = .next (r.ended P))
        ∧ (d.op = 0x16 → exec (.copy (.tile k) cyc false) s = .next (r.ended P)))
      ∧ (f.fab.stall = none → (d.op = 0x01 → exec (.gemm (.tile k) cyc true) s = .next (f.ended P)) ∧ (d.op = 0x02 → exec (.conv2d (.tile k) cyc true) s = .next (f.ended P)) ∧ (d.op = 0x03 → exec (.dwconv (.tile k) cyc true) s = .next (f.ended P))
        ∧ (d.op = 0x04 → exec (.deconv (.tile k) cyc true) s = .next (f.ended P)) ∧ (d.op = 0x05 → exec (.pool (.tile k) cyc true) s = .next (f.ended P)) ∧ (d.op = 0x06 → exec (.elemwise (.tile k) cyc true) s = .next (f.ended P))
        ∧ (d.op = 0x07 → exec (.activate (.tile k) cyc true) s = .next (f.ended P)) ∧ (d.op = 0x08 → exec (.norm (.tile k) cyc true) s = .next (f.ended P)) ∧ (d.op = 0x09 → exec (.softmax (.tile k) cyc true) s = .next (f.ended P))
        ∧ (d.op = 0x0A → exec (.topk (.tile k) cyc true) s = .next (f.ended P)) ∧ (d.op = 0x0B → exec (.gather (.tile k) cyc true) s = .next (f.ended P)) ∧ (d.op = 0x0C → exec (.scatter (.tile k) cyc true) s = .next (f.ended P))
        ∧ (d.op = 0x0D → exec (.transpose (.tile k) cyc true) s = .next (f.ended P)) ∧ (d.op = 0x0E → exec (.reshape (.tile k) cyc true) s = .next (f.ended P)) ∧ (d.op = 0x0F → exec (.quant (.tile k) cyc true) s = .next (f.ended P))
        ∧ (d.op = 0x10 → exec (.dequant (.tile k) cyc true) s = .next (f.ended P)) ∧ (d.op = 0x11 → exec (.reduce (.tile k) cyc true) s = .next (f.ended P)) ∧ (d.op = 0x12 → exec (.argmax (.tile k) cyc true) s = .next (f.ended P))
        ∧ (d.op = 0x13 → exec (.resize (.tile k) cyc true) s = .next (f.ended P)) ∧ (d.op = 0x14 → exec (.gridsample (.tile k) cyc true) s = .next (f.ended P)) ∧ (d.op = 0x15 → exec (.attention (.tile k) cyc true) s = .next (f.ended P))
        ∧ (d.op = 0x16 → exec (.copy (.tile k) cyc true) s = .next (f.ended P))))
  ∧ (∀ (s : State) (a cyc : Nat),
    let v := ofLeBytes (memBytes s.mem a 128)
    let d := tdOf v
    s.saf.islandRun = true → islandSram ≤ a → a + 128 ≤ islandSram + 0x40_0000 → s.fresh partyDusk = true →
      (tdOk v (2 ^ 64 - 1) = true → duskOk d = true →
        let o := (s.inRun partyDusk).tileOp ⟨{ tag := 33, pid := 0, src := .xd 0, kind := .read }, islandSram⟩ d
        let r := o.2.answer o.1 0
        r.fab.stall = none → (d.op = 0x01 → exec (.gemm (.dusk a) cyc false) s = .next (r.ended partyDusk)) ∧ (d.op = 0x02 → exec (.conv2d (.dusk a) cyc false) s = .next (r.ended partyDusk)) ∧ (d.op = 0x03 → exec (.dwconv (.dusk a) cyc false) s = .next (r.ended partyDusk))
        ∧ (d.op = 0x05 → exec (.pool (.dusk a) cyc false) s = .next (r.ended partyDusk)) ∧ (d.op = 0x06 → exec (.elemwise (.dusk a) cyc false) s = .next (r.ended partyDusk)) ∧ (d.op = 0x07 → exec (.activate (.dusk a) cyc false) s = .next (r.ended partyDusk))
        ∧ (d.op = 0x09 → exec (.softmax (.dusk a) cyc false) s = .next (r.ended partyDusk)) ∧ (d.op = 0x12 → exec (.argmax (.dusk a) cyc false) s = .next (r.ended partyDusk)) ∧ (d.op = 0x13 → exec (.resize (.dusk a) cyc false) s = .next (r.ended partyDusk))
        ∧ (d.op = 0x16 → exec (.copy (.dusk a) cyc false) s = .next (r.ended partyDusk)))
      ∧ ((tdOk v (2 ^ 64 - 1) && duskOk d) = false → ∀ op, s.duskRun a op = .next (s.answer .denied 0)))

/-- A row of minus infinity gives zeros, SCATTER stores the last of duplicate indices, and the matrix unit takes M x ceil(K/32) x ceil(N/64) cycles. (R310; R311) -/
def Obligations.TensorResults : Prop :=
  (∀ (n : Nat), softmaxRow (List.replicate n (.inf true)) = List.replicate n (.fin false 0 0))
  ∧ (∀ (d : Td) (x w y : Tn) (n m : Nat), d.p3 = 0 → d.p4 = 0 → y.dims = [n, 1, 1, 1] → y.v.length = n → w.v.length = m → x.dims = [m, 1, 1, 1] →
      ∃ l, scatter d x w y = some l ∧ l.length = n
        ∧ (∀ p k, p < n → k < m → indexIn (w.v.getD k .nan) n = some p → (∀ j, k < j → j < m → indexIn (w.v.getD j .nan) n ≠ some p) →
            l.getD p .nan = x.at_ [k, 0, 0, 0])
        ∧ (∀ p, p < n → (∀ j, j < m → indexIn (w.v.getD j .nan) n ≠ some p) → l.getD p .nan = y.v.getD p .nan))
  ∧ (∀ d : Td, d.op = 0x01 → (d.tin ≤ 3 → matrixCycles d = d.x.d1 * ceilDiv d.x.d0 (if d.sparse then 64 else 32) * ceilDiv d.w.d0 64)
      ∧ (d.tin = 4 ∨ d.tin = 5 → matrixCycles d = 2 * (d.x.d1 * ceilDiv d.x.d0 (if d.sparse then 64 else 32) * ceilDiv d.w.d0 64)))
  ∧ (∀ d : Td, d.op = 0x02 →
      (d.tin ≤ 3 → matrixCycles d = (d.y.d1 * d.y.d2 * d.y.d3) * ceilDiv (d.w.d0 * d.w.d1 * d.w.d2) (if d.sparse then 64 else 32) * ceilDiv d.w.d3 64)
      ∧ (d.tin = 4 ∨ d.tin = 5 → matrixCycles d = 2 * ((d.y.d1 * d.y.d2 * d.y.d3) * ceilDiv (d.w.d0 * d.w.d1 * d.w.d2) (if d.sparse then 64 else 32) * ceilDiv d.w.d3 64)))

/-- SYNC is a barrier over tiles, an event word written with its message, or a wait on an event word that ends in ST_TIMEOUT. (R304; R305; R325; R326; R327; log entry 40) -/
def Obligations.SyncDescriptorsHandOver : Prop :=
  ∀ (s : State) (k : Nat) (e : TileDesc), k < s.fuses.variant.tiles → s.fab.posted = [] → s.fab.open_ = [] →
    let P := partyTile k
    let v := s.inRun P
    let d := tdOf e.desc
    (s.fresh P = true →
      (s.syncHead k 0 = some e →
        let w := v.waitDesc k e
        let all := (descTiles e.desc).all (fun j => (w.tileQueue j).any (fun x => x.uid = e.uid && x.seq = e.seq && x.waits))
        let r := ((descTiles e.desc).foldl (fun t j => (t.popDesc j e).markRan j) v).readChains
        (all = true → r.fab.stall = none → exec (.syncBarrier (.tile k)) s = .next (r.ended P))
        ∧ (all = false → exec (.syncBarrier (.tile k)) s = .next (s.waitDesc k e))
        ∧ (∀ j, j ≠ k → w.tileQueue j = s.tileQueue j) ∧ w.mem = s.mem ∧ w.msgs = s.msgs)
      ∧ (∀ st t, s.syncHead k 1 = some e →
        v.dmaWrite { v.tileAccess k (v.descTag e) d.pid with firm := true } d.p1 (leBytes 8 d.p2) = (st, t) →
          let r := (if bitAt d.p4 43 = true then t.send (s.descTag e) (bitsOf d.p4 32 11) else t).retireDesc k e
          let f := (t.markRan k).infFail e.uid e.addr k st
          (st = .ok → r.fab.stall = none → exec (.syncSignal (.tile k)) s = .next (r.ended P))
          ∧ (st ≠ .ok → f.fab.stall = none → exec (.syncSignal (.tile k)) s = .next (f.ended P)))
      ∧ (∀ b t st, v.dmaRead (v.tileAccess k (v.descTag e) d.pid) d.p1 8 = (st, b, t) →
        let r := if st ≠ .ok then (t.markRan k).infFail e.uid e.addr k st
          else if ofLeBytes b &&& d.p3 = d.p2 then t.retireDesc k e else t.waitDesc k e
        r.fab.stall = none →
        (s.syncHead k 2 = some e → exec (.syncWait k) s = .next (r.ended P))
        ∧ (∀ u, s.syncWaiting k u = some e → exec (.syncWaitPoll k u) s = .next (r.ended P)))
      ∧ (∀ u, s.syncWaiting k u = some e →
        let f := (v.markRan k).infFail u e.addr k .timeout
        f.fab.stall = none → exec (.syncWaitTimeout k u) s = .next (f.ended P)))
    ∧ (∀ a d t, s.saf.islandRun = true → s.fresh partyDusk = true → (s.inRun partyDusk).duskFetch a = (.ok, d, t) → d.op = 0x18 → t.fab.posted = [] → t.fab.open_ = [] →
        (d.p0 = 0 → t.fab.stall = none → exec (.syncBarrier (.dusk a)) s = .next ((t.answer .ok 0).ended partyDusk))
        ∧ (d.p0 = 1 → ∀ st w, t.dmaWrite { duskAccess with firm := true } d.p1 (leBytes 8 d.p2) = (st, w) → w.fab.stall = none →
            exec (.syncSignal (.dusk a)) s = .next ((w.answer st 0).ended partyDusk)))

/-- A tile switches at a boundary by saving the resident and restoring the incoming grantee, and a finished job is recorded with ST_OK. (R296; R297; R298; R299; R303; log entry 40) -/
def Obligations.TilesSwitchBetweenGrantees : Prop :=
  ∀ (s : State),
    (∀ k, k < s.fuses.variant.tiles → s.fresh (partyTile k) = true →
      (∀ g, s.boot.mainUp = true → s.rd Reg.INF_TILE_STATE [k] ≠ 4 → s.rd Reg.INF_TILE_STATE [k] ≠ 5 → s.incoming k = some g → s.yields k g = true →
        let v := s.inRun (partyTile k)
        let w := match s.resident k with | some r => v.saveTile k r | none => v
        let r := (w.restoreTile k g).syncTile k
        (r.fab.stall = none → exec (.tileSwitch k) s = .next (r.ended (partyTile k)))
          ∧ (w.restoreTile k g).rd Reg.INF_TILE_RES_G [k] = g % 4 ∧ (w.restoreTile k g).rd Reg.INF_TILE_RES_VALID [k] = 1)
      ∧ ((s.incoming k = none ∨ (∃ g, s.incoming k = some g ∧ s.yields k g = false)) → exec (.tileSwitch k) s = .next s))
    ∧ (∀ a n x, memByte (s.zeroMem a n).mem x = if a ≤ x ∧ x < a + n then 0 else memByte s.mem x)
    ∧ (∀ u j, s.infJob u = some j → j.next = 0 → (∀ k, k < 64 → ∀ e ∈ s.tileQueue k, e.uid ≠ u) → s.fresh (partyJob u) = true →
        let v := s.inRun (partyJob u)
        let r := State.afterAll (v.jobTiles j) v (fun t => t.infEnd u .ok)
        (r.fab.stall = none → exec (.infJobComplete u) s = .next (r.ended (partyJob u)))
        ∧ (s.fab.posted = [] → s.fab.open_ = [] → r = v.infEnd u .ok))

/-- GOLDEN passes or brings in a spare, a late tile is forced at the end of the frame, and LBIST returns or retires a physical tile. (R328; R329; R330; R331; R332; R333; R334) -/
def Obligations.GoldenAndSpares : Prop :=
  ∀ (s : State),
    (∀ k cyc lines crc e, k < s.fuses.variant.tiles → s.tileHead k = some e → (tdOf e.desc).op = 0x17 → s.fresh (partyTile k) = true →
      let v := s.inRun (partyTile k)
      let a := v.tileAccess k (v.descTag e) 0
      let r := (((v.payJob e.uid 22 cyc).enginePay a.tag (v.goldenNeed a lines)).retireDesc k e).goldenResult k crc
      r.fab.stall = none → exec (.golden (.tile k) cyc lines crc) s = .next (r.ended (partyTile k)))
    ∧ (∀ a cyc lines crc d t, s.saf.islandRun = true → s.fresh partyDusk = true → (s.inRun partyDusk).duskFetch a = (.ok, d, t) → d.op = 0x17 →
      let r := (t.enginePay 33 (t.goldenNeed duskAccess lines)).answer .ok (if crc = t.rd Reg.INF_GOLD_SIG_LO [] + 2 ^ 32 * t.rd Reg.INF_GOLD_SIG_HI [] then 0 else 1)
      r.fab.stall = none → exec (.golden (.dusk a) cyc lines crc) s = .next (r.ended partyDusk))
    ∧ (∀ k crc, k < 64 → crc = s.rd Reg.INF_GOLD_SIG_LO [] + 2 ^ 32 * s.rd Reg.INF_GOLD_SIG_HI [] →
        s.goldenResult k crc = s.wr Reg.INF_TILE_GOLD_OK [k] 1)
    ∧ (∀ k crc, k < 64 → s.rd Reg.INF_TILE_PHYS [k] < 72 → crc ≠ s.rd Reg.INF_GOLD_SIG_LO [] + 2 ^ 32 * s.rd Reg.INF_GOLD_SIG_HI [] → s.readySpares ≠ [] →
        let r := s.goldenResult k crc
        let p := s.rd Reg.INF_TILE_PHYS [k]
        r.rd Reg.INF_PHYS_SUSPECT [p] = satTo 8 (s.rd Reg.INF_PHYS_SUSPECT [p] + 1) ∧ 6 ∈ r.saf.lines
          ∧ r.rd Reg.INF_GFLAG_FRAME [] = s.rd Reg.INF_GSTAT_FRAME_NO [] ∧ r.rd Reg.INF_GFLAG_TILE [] = k ∧ r.rd Reg.INF_GFLAG_VALID [] = 1
          ∧ (∃ q ∈ s.readySpares, r.inf.swaps = s.inf.swaps ++ [(k, q, some (s.rd Reg.INF_GSTAT_FRAME_NO []))])
          ∧ r.rd Reg.INF_TILE_STATE [k] = 4 ∧ r.mem = s.mem)
    ∧ (∀ cyc lines crcs k, s.boot.mainUp = true → s.inf.ran = [k] → k < 64 → s.flag Reg.INF_TILE_GOLD_OK [k] = false → s.rd Reg.INF_TILE_STATE [k] ≠ 5 →
        s.rd Reg.INF_TILE_PHYS [k] < 72 → s.readySpares ≠ [] → ∃ r, exec (.safetyFrameEnd cyc lines crcs) s = .next r ∧ r.rd Reg.INF_GSTAT_FORCED [] = satTo 8 (s.rd Reg.INF_GSTAT_FORCED [] + 1) ∧ 7 ∈ r.saf.lines ∧ r.inf.ran = [] ∧ r.mem = s.mem)
    ∧ (∀ cyc lines crcs, s.boot.mainUp = true → (∀ k ∈ s.inf.ran, s.flag Reg.INF_TILE_GOLD_OK [k] = true) →
        ∃ r, exec (.safetyFrameEnd cyc lines crcs) s = .next r ∧ r.rd Reg.INF_GSTAT_FRAME_NO [] = (s.rd Reg.INF_GSTAT_FRAME_NO [] + 1) % 2 ^ 16
          ∧ (∀ k, k < 64 → r.rd Reg.INF_TILE_GOLD_OK [k] = 0) ∧ r.inf.ran = [] ∧ r.mem = s.mem ∧ wordsWithin s r [0x08])
    ∧ (∀ k q, k < 64 → q < 72 → s.rd Reg.INF_TILE_PHYS [k] < 72 → s.rd Reg.INF_TILE_PHYS [k] ≠ q → s.inf.swaps.find? (fun w => w.1 = k) = some (k, q, none) →
        ∃ r, exec (.spareSwapDone k) s = .next r ∧ r.rd Reg.INF_TILE_PHYS [k] = q ∧ r.rd Reg.INF_PHYS_ROLE [q] = 0 ∧ r.rd Reg.INF_PHYS_LOG [q] = k
          ∧ r.rd Reg.INF_PHYS_ROLE [s.rd Reg.INF_TILE_PHYS [k]] = 2 ∧ r.inf.swaps = s.inf.swaps.filter (fun w => w.1 ≠ k) ∧ r.mem = s.mem)
    ∧ (s.inf.rotating.isSome = true ∨ s.readySpares = [] → exec .rotationSwap s = .next s)
    ∧ (s.boot.mainUp = true → s.inf.rotating = none → s.readySpares ≠ [] →
        (∃ k, k < s.fuses.variant.tiles ∧ s.rd Reg.INF_TILE_STATE [k] ≠ 4 ∧ s.rd Reg.INF_TILE_STATE [k] ≠ 5) →
        ∃ r k q, exec .rotationSwap s = .next r ∧ k < s.fuses.variant.tiles ∧ q ∈ s.readySpares ∧ r.inf.swaps = s.inf.swaps ++ [(k, q, none)]
          ∧ r.inf.rotating = some (s.rd Reg.INF_TILE_PHYS [k]) ∧ r.rd Reg.INF_TILE_STATE [k] = 4 ∧ r.mem = s.mem ∧ wordsWithin s r [0x08])
    ∧ (∀ p, p < 72 → p ∉ s.inf.waking → s.rd Reg.INF_PHYS_ROLE [p] = 2 →
        (∃ r, exec (.lbistDone p true) s = .next r ∧ r.rd Reg.INF_PHYS_ROLE [p] = 1 ∧ r.inf.retired = s.inf.retired ∧ r.mem = s.mem ∧ wordsWithin s r [0x08])
        ∧ (∃ (u r : State), exec (.lbistDone p false) s = .next r ∧ r = u.checkSpares ∧ u.rd Reg.INF_PHYS_ROLE [p] = 3 ∧ u.inf.retired = s.inf.retired ++ [p]
            ∧ u.rd Reg.SVC_LOG_SEQ [] = (s.rd Reg.SVC_LOG_SEQ [] + 1) % 2 ^ 32))

/-- The commands that commit one action leave the words and actions of their commit point and answer ST_OK. (R62; R63; R352; R398; R411; R465; R492; R495; R499; R516; R521; ISA_SPEC.md chapters 06 and 14 to 20) -/
def Obligations.CommitsOfOneAction : Prop :=
  ∀ (s : State),
    let ok := fun (l : List (Row × List Nat × Nat)) (n : Nat) (o : Host.Outcome State Fault Refusal) (p : State → Prop) =>
      s.commits n l = true → ∃ t, o = .next t ∧ t = (s.committed l).answer .ok 0 ∧ p t
    (∀ n g a c, ok [(Reg.GFX_GCTX_GROW_ADDR_LO, [g], a / 8), (Reg.GFX_GCTX_GROW_ADDR_HI, [g], a / 2 ^ 32), (Reg.GFX_GCTX_GROW_COUNT, [g], c)] n (exec (.binGrow n g a c) s)
      (fun t => t.rd Reg.GFX_GCTX_GROW_COUNT [g] = 0 ∧ ((∀ j ∈ s.gfx.jobs, j.gctx ≠ g) → t.gfx = s.gfx ∧ t.mem = s.mem)))
    ∧ (∀ d, ok [(Reg.DSP_PIPE_ENABLE, [d], 0)] 0 (exec (.pipeDisable d) s) (fun t => t.rd Reg.DSP_PIPE_ENABLE [d] = 0
      ∧ (s.flag Reg.DSP_PIPE_ENABLE [d] = true → t.rd Reg.DSP_PIPE_STATE [d] = 0 ∧ t.pipe d = {})))
    ∧ (∀ n k, ok [(Reg.SNS_STREAM_CLR, [k], 1)] n (exec (.streamClr n k) s) (fun t => t.rd Reg.SNS_STREAM_CLR [k] = 0 ∧ t.mem = s.mem
      ∧ (s.health k = 3 → s.rd Reg.SNS_STREAM_WHY [k] = 3 → t.health k = 1 ∧ t.rd Reg.SNS_STREAM_WHY [k] = 0)
      ∧ (s.health k ≠ 3 ∨ s.rd Reg.SNS_STREAM_WHY [k] ≠ 3 → t.health k = s.health k)))
    ∧ (∀ n k, ok [(Reg.SNS_STREAM_LIE, [k], 1)] n (exec (.streamLie n k) s) (fun t => t.rd Reg.SNS_STREAM_LIE [k] = 0 ∧ t.mem = s.mem
      ∧ (s.flag Reg.SNS_STREAM_ENABLE [k] = true → t.health k = 3 ∧ t.rd Reg.SNS_STREAM_WHY [k] = 3)))
    ∧ (∀ n c, ok [(Reg.CAN_CTL_RESUME, [n, c], 1)] 0 (exec (.canResume n c) s) (fun t => t.rd Reg.CAN_CTL_RESUME [n, c] = 0 ∧ t.rd Reg.CAN_CTL_LONE [n, c] = 0
      ∧ (s.rd Reg.CAN_CTL_STATE [n, c] = 2 → t.rd Reg.CAN_CTL_STATE [n, c] = 0 ∧ t.rd Reg.CAN_CTL_TEC [n, c] = 0 ∧ t.rd Reg.CAN_CTL_REC [n, c] = 0)))
    ∧ ok [(Reg.NET_AAS_REQ_MAIN, [], 1)] 0 (exec .reqMain s) (fun t => t.rd Reg.NET_AAS_REQ_MAIN [] = 1 ∧ t.mem = s.mem)
    ∧ (∀ b, ok [(Reg.CLK_REF_SEL, [], if b then 1 else 0)] 0 (exec (.refSel b) s) (fun t => t.rd Reg.CLK_REF_ACTIVE [] = (if b then 1 else 0) ∧ t.mem = s.mem))
    ∧ (∀ v, ok [(Reg.CLK_EPOCH_SET_LO, [], v), (Reg.CLK_EPOCH_SET_HI, [], v / 2 ^ 32), (Reg.CLK_EPOCH_GO, [], 1)] 0 (exec (.epochGo v) s)
      (fun t => t.epoch = v % 2 ^ 64 ∧ t.rd Reg.CLK_EPOCH_GO [] = 0 ∧ t.clk.unset = false ∧ t.mem = s.mem))
    ∧ ok [(Reg.CLK_RTC_SYNC, [], 1)] 0 (exec .rtcSync s) (fun t => t.rdPair Reg.CLK_RTC_LO Reg.CLK_RTC_HI [] = s.epoch * 32768 / 1000000000 % 2 ^ 48
      ∧ t.rd Reg.CLK_RTC_VALID [] = 1 ∧ t.rd Reg.CLK_RTC_SYNC [] = 0 ∧ t.mem = s.mem)
    ∧ (∀ e, ok [(Reg.SAF_EVT_CLR, [e], 1)] 0 (exec (.eventClr e) s) (fun t => t.rd Reg.SAF_EVT_CLR [e] = 0
      ∧ (4 ≤ e → e ≠ 26 → s.causeHolds e = false → t.latched e = false) ∧ (e ≤ 3 ∨ e = 26 ∨ s.causeHolds e = true → t.latched e = s.latched e)))
    ∧ (∀ v, ok [(Reg.SAF_HB_SEQ, [], v)] 0 (exec (.heartbeat v) s) (fun t => t.mem = s.mem
      ∧ (s.flag Reg.SAF_HB_CFG_EN [] = false → t.rd Reg.SAF_HB_SEQ [] = v % 2 ^ 16 ∧ t.saf = s.saf)
      ∧ (s.flag Reg.SAF_HB_CFG_EN [] = true →
        let good := s.saf.hbAny = true ∨ (v % 2 ^ 16 = (s.rd Reg.SAF_HB_SEQ [] + 1) % 2 ^ 16 ∧ s.saf.hbTime + s.rd Reg.SAF_HB_CFG_MIN_MS [] * 1000000 ≤ s.now)
        (good → t.rd Reg.SAF_HB_SEQ [] = v % 2 ^ 16 ∧ t.saf = { s.saf with hbAny := false, hbTime := s.now, hbCount := s.saf.hbCount + 1 })
        ∧ (¬ good → t.rd Reg.SAF_HB_SEQ [] = s.rd Reg.SAF_HB_SEQ [] ∧ 4 ∈ t.saf.lines))))
    ∧ ok [(Reg.ALM_BK_ACK, [], 1)] 0 (exec .bkAck s) (fun t => t.rd Reg.ALM_BK_LATCH [] = 0 ∧ t.rd Reg.ALM_STAT_BK_PENDING [] = 0 ∧ t.rd Reg.ALM_BK_ACK [] = 0 ∧ t.mem = s.mem)
    ∧ ok [(Reg.ALM_WRECK_SW, [], 1)] 0 (exec .wreckSw s) (fun t => t.alm = { s.alm with triggers := s.alm.triggers ++ [(3, s.now)] } ∧ t.rd Reg.ALM_WRECK_SW [] = 0 ∧ t.mem = s.mem)
    ∧ (∀ d, ok [(Reg.ALM_WRECK_REARM, [], 2 ^ d)] 0 (exec (.wreckRearm d) s) (fun t => t.rd Reg.ALM_WRECK_REARM [] = 0 ∧ t.mem = s.mem
      ∧ (d ∈ dies s.fuses → t.rd Reg.ALM_WRECK_STATE [d] = 0 ∧ tget {} t.alm.wrecks d = {})))
    ∧ (∀ d a, ok [(Reg.ALM_DUMP_ADDR_LO, [], a / 2 ^ 16), (Reg.ALM_DUMP_ADDR_HI, [], a / 2 ^ 32), (Reg.ALM_DUMP_DIE, [], d), (Reg.ALM_DUMP_GO, [], 1)] 0 (exec (.dumpGo d a) s)
      (fun t => t.rd Reg.ALM_DUMP_GO [] = 0 ∧ t.rd Reg.ALM_DUMP_DONE [] = 0 ∧ t.mem = s.mem ∧ (d < 8 → a < 2 ^ 48 → a % 2 ^ 16 = 0 → t.alm.dump = some (d, a))))
    ∧ ok [(Reg.MAT_REMAP_REMAP, [], 1)] 0 (exec .remap s) (fun t => t.rd Reg.MAT_REMAP_REMAP [] = 1 ∧ t.mem = s.mem)
    ∧ (∀ h, 1 ≤ h → h ≤ 15 → ok [(Reg.BOOT_CTRL_HART_GO, [], 2 ^ (h - 1))] 0 (exec (.hartGo h) s) (fun t => h ∈ t.boot.released ∧ t.mem = s.mem
      ∧ (∀ b, bitAt (t.rd Reg.BOOT_CTRL_HART_GO []) b = (bitAt (s.rd Reg.BOOT_CTRL_HART_GO []) b || decide (b = h - 1)))))
    ∧ (∀ k v, 1 ≤ k → ok [(Reg.BOOT_SVN_ADV, [k - 1], v)] 0 (exec (.svnAdv k v) s) (fun t => t.rd Reg.BOOT_SVN_MIN [k - 1] = v % 2 ^ 6 ∧ t.rd Reg.BOOT_SVN_ADV [k - 1] = 0 ∧ t.mem = s.mem))
    ∧ (∀ i, ok [(Reg.BOOT_IRST_REQ, [i], 1)] 0 (exec (.instanceReset i) s) (fun t => t.rd Reg.BOOT_IRST_BUSY [i] = 1 ∧ t.rd Reg.BOOT_IRST_REQ [i] = 0
      ∧ (∀ e ∈ t.ttu.tlb, e.tag ≠ i) ∧ (∀ q ∈ t.orr.waiting, q.tag ≠ i) ∧ (∀ k, k < 64 → t.rd Reg.APC_IPEND [i, k] = 0)))
    ∧ (∀ k, ok [(Reg.PWR_PD_REQ, [k], 1)] 0 (exec (.domainPowerOn k) s) (fun t => t.rd Reg.PWR_PD_REQ [k] = 1 ∧ t.mem = s.mem
      ∧ t.rd Reg.PWR_PD_STATE [k] = (if s.rd Reg.PWR_PD_STATE [k] = 0 then 1 else s.rd Reg.PWR_PD_STATE [k])
      ∧ (s.rd Reg.PWR_PD_STATE [k] = 3 → (k, 1) ∈ t.pwr.nextReq)))
    ∧ (∀ k, ok [(Reg.PWR_PD_REQ, [k], 0)] 0 (exec (.domainPowerOff k) s) (fun t => t.rd Reg.PWR_PD_REQ [k] = 0 ∧ t.mem = s.mem
      ∧ t.rd Reg.PWR_PD_STATE [k] = (if s.rd Reg.PWR_PD_STATE [k] = 2 then 3 else s.rd Reg.PWR_PD_STATE [k])
      ∧ (s.rd Reg.PWR_PD_STATE [k] = 1 → (k, 0) ∈ t.pwr.nextReq)))

/-- A running shader thread executes TEX.SAMPLE, INTERP, TB.LD, TB.ST, COV and BAR, ends at ECALL with a7 = 0, and ends its job at an exception. (R338; R340; R341; R342; R343; R344; R345; Table gfx.2; log entry 40) -/
def Obligations.ShaderInstructionsOfAThread : Prop :=
  ∀ (s : State) (i : ShIssue) (v : ShEnv) (x : ShThread), i.w < 2 ^ 32 → i.w % 128 = 0x2B →
    let P := partyJob i.th.uid
    let c := s.inRun P
    s.fresh P = true → c.running i.th = some (v, x) →
    let run := fun (o : Host.Outcome State Fault Refusal) (t : State) => t.fab.stall = none → o = .next (t.ended P)
    let f := c.shFault v.inst i.th i.pc 2 .denied
    let a := gfxAccess v.inst v.pid
    (xIllegal i = true → run (exec (.texSample i) s) f ∧ run (exec (.interp i) s) f ∧ run (exec (.tbLd i) s) f ∧ run (exec (.tbSt i) s) f ∧ run (exec (.covRead i) s) f
      ∧ run (exec (.covDiscard i) s) f ∧ run (exec (.bar i) s) f)
    ∧ (xIllegal i = false →
      (xF3 i.w = 0 → ∀ st d t, c.dmaNum a (v.table + 64 * (i.rs1 % 2 ^ 16)) 64 = (st, d, t) →
        (st ≠ .ok → run (exec (.texSample i) s) (t.shFault v.inst i.th i.pc 5 st))
        ∧ (∀ l u, st = .ok → texOk d = true → t.sampleAll a d (xF7 i.w = 1) i.vs i.vl = (.ok, l, u) →
          run (exec (.texSample i) s) (u.setThread { x.write4 (xVd i.w) i.vl (fun c e => ((l.getD e ([], false)).1).getD c 0) with gkres := ofBits (l.map (fun e => e.2)) })))
      ∧ (xF3 i.w = 1 → ∀ p, v.pass = some p → exec (.interp i) s = .next (s.setThread (x.write4 (xVd i.w) i.vl (interpLane p i.th (xF7 i.w) (i.rs1 % 16))))
          ∧ (∀ c e, interpLane p i.th 2 (i.rs1 % 16) c e = (((p.prims.getD i.th.b ⟨[], [], []⟩).verts.headD []).getD (4 * (i.rs1 % 16 + 1) + c) 0)))
      ∧ (xF3 i.w = 2 → run (exec (.tbLd i) s) (c.tbLd i v x)
          ∧ (∀ j p n at_, v.job = some j → v.pass = some p → bitsOf i.rs1 4 3 < p.samples → p.attachment (i.rs1 % 16) = some (n, at_) → at_.load = 0 → p.px = [] →
              exec (.tbLd i) s = .next (s.setThread (x.write4 (xVd i.w) i.vl (fun c _ => channel at_.fmt (at_.clear % 2 ^ (8 * fmtBytes at_.fmt)) 0 c)))))
      ∧ (xF3 i.w = 3 → run (exec (.tbSt i) s) (c.tbSt i v x)
          ∧ (∀ j p n at_ d t, v.job = some j → v.pass = some p → bitsOf i.rs1 4 3 < p.samples → p.attachment (i.rs1 % 16) = some (n, at_) → x.cov = 0 →
              c.dmaNum a p.pipe 64 = (.ok, d, t) → c.tbSt i v x = (t.setGfxJob { j with pass := some p }).setThread x))
      ∧ (xF3 i.w = 4 → xF7 i.w = 0 → ∃ y, exec (.covRead i) s = .next (s.setThread y) ∧ y = { x with v := y.v }
          ∧ (∀ r, r ≠ xVd i.w → tget 0 y.v r = tget 0 x.v r)
          ∧ (∀ e, bitAt (tget 0 y.v (xVd i.w)) e = if e < i.vl then decide (bitsOf x.cov (8 * e) 8 ≠ 0) else bitAt (tget 0 x.v (xVd i.w)) e))
      ∧ (xF3 i.w = 4 → xF7 i.w = 1 → ∃ y, exec (.covDiscard i) s = .next (s.setThread y) ∧ y = { x with cov := y.cov }
          ∧ (∀ e, e < 16 → bitsOf y.cov (8 * e) 8 = if e < i.vl ∧ bitAt i.v0 e = true then 0 else bitsOf x.cov (8 * e) 8))
      ∧ (xF3 i.w = 5 → (i.th.kind ≠ 2 → exec (.bar i) s = .next s)
          ∧ (∀ j, i.th.kind = 2 → s.compJob i.th.uid = some j →
            let u := s.setThread { x with atBar := true }
            (((u.groupMates i.th).filter (fun y => y.atBar)).length ≠ compThreads j.desc → exec (.bar i) s = .next u)
            ∧ (((u.groupMates i.th).filter (fun y => y.atBar)).length = compThreads j.desc →
                ∃ t : State, exec (.bar i) s = .next t ∧ ((t.groupMates i.th).filter (fun y => y.atBar)) = [] ∧ t = { u with gfx := { u.gfx with threads := t.gfx.threads } }))))
    ∧ (∀ a7, a7 % 2 ^ 64 ≠ 0 → run (exec (.shaderEcall i.th i.pc a7) s) (c.drawn.shFault v.inst i.th i.pc 8 (freeStatus c.freeVal)))
    ∧ (i.th.kind ≠ 2 → exec (.shaderEcall i.th i.pc 0) s = .next (s.setThread { x with ended := true }))
    ∧ (∀ j, i.th.kind = 2 → s.compJob i.th.uid = some j →
        exec (.shaderEcall i.th i.pc 0) s = .next (((s.setThread { x with ended := true }).setCompJob { j with ended := j.ended + 1 }).syncClusters))
    ∧ (∀ st, run (exec (.shaderException i.th i.pc 2 st) s) f)
    ∧ (∀ cs st, cs ∈ [1, 5, 7] → statusFails st = true → run (exec (.shaderException i.th i.pc cs st) s) (c.shFault v.inst i.th i.pc cs st))
    ∧ (∀ cs st, v.inst < 32 → cs < 64 → ∃ u, c.shFault v.inst i.th i.pc cs st = u.shEnd i.th st ∧ u.rd Reg.GFX_SERR_CAUSE [v.inst] = cs
        ∧ u.rd Reg.GFX_SERR_STATUS [v.inst] = statusCode st ∧ u.mem = s.mem ∧ wordsWithin s u [0x09])

/-- The front end takes each packet type by its effect, and a packet that cannot be read or is malformed ends the stream. (R346; R347; R348; R349; R351; R352; Table gfx.3; log entry 40) -/
def Obligations.PacketsOfAStream : Prop :=
  ∀ (s : State) (u : Nat) (j : GfxJob), s.gfxJob u = some j → s.fresh (partyJob u) = true →
    let P := partyJob u
    let c := s.inRun P
    let run := fun (o : Host.Outcome State Fault Refusal) (t : State) => t.syncClusters.fab.stall = none → o = .next (t.syncClusters.ended P)
    let a := gfxAccess j.inst j.pid
    let all := fun (t : State) => run (exec (.packetEnd u) s) t ∧ run (exec (.passBegin u) s) t ∧ run (exec (.pipe u) s) t ∧ run (exec (.bind u) s) t
      ∧ run (exec (.packetWait u) s) t ∧ run (exec (.packetSignal u) s) t ∧ run (exec (.jump u) s) t ∧ (∀ n, run (exec (.passEnd u n) s) t)
    (j.ended = true → run (exec (.gfxStreamComplete u) s) (c.afterWrites a (fun r => r.gfxEnd u .ok)))
    ∧ (j.waits = true → run (exec (.packetWaitTimeout u) s) (c.gfxEnd u .timeout))
    ∧ (j.ended = false → s.boot.mainUp = true → s.flag Reg.GFX_GCTX_PEND [j.gctx] = false →
    (∀ st w t, c.packetWords j.inst j.pc = (st, w, t) → st ≠ .ok → all (t.gfxEnd u st))
    ∧ (∀ h w t, c.packetWords j.inst j.pc = (.ok, h :: w, t) → (packetOk h w && packetPlace (h % 256) j.pass.isSome) = false → all (t.gfxEnd u .denied))
    ∧ (∀ h w t, c.packetWords j.inst j.pc = (.ok, h :: w, t) → packetOk h w = true → packetPlace (h % 256) j.pass.isSome = true →
      (h % 256 = 0 → run (exec (.packetEnd u) s) (t.setGfxJob { j.past 0 with ended := true, pass := none }))
      ∧ (h % 256 = 8 → run (exec (.jump u) s) (t.setGfxJob { j with pc := w.headD 0 }))
      ∧ (h % 256 = 3 → run (exec (.pipe u) s) (t.setGfxJob { j.past 3 with pass := j.pass.map (fun p => { p with pipe := w.headD 0 }) }))
      ∧ (h % 256 = 4 → run (exec (.bind u) s) (t.setGfxJob { j.past 4 with pass := j.pass.map (fun p => { p with bind := w.headD 0 }) }))
      ∧ (∀ st v r, h % 256 = 6 → t.dmaNum a (w.getD 0 0) 8 = (st, v, r) →
          (st ≠ .ok → run (exec (.packetWait u) s) (r.gfxEnd u st))
          ∧ (st = .ok → v % 2 ^ 32 &&& bitsOf (w.getD 1 0) 32 32 = w.getD 1 0 % 2 ^ 32 → run (exec (.packetWait u) s) (r.setGfxJob (j.past 6)))
          ∧ (st = .ok → v % 2 ^ 32 &&& bitsOf (w.getD 1 0) 32 32 ≠ w.getD 1 0 % 2 ^ 32 → run (exec (.packetWait u) s) (r.setGfxJob { j with waits := true })))
      ∧ (h % 256 = 7 → run (exec (.packetSignal u) s) (t.afterWrites { a with firm := true } (fun q =>
          let (st, r) := q.dmaWrite { a with firm := true } (w.getD 0 0) (leBytes 8 (w.getD 1 0))
          if st ≠ .ok then r.gfxEnd u st
          else if bitAt h 43 then (r.send j.inst (bitsOf h 32 11)).setGfxJob (j.past 7) else r.setGfxJob (j.past 7))))
      ∧ (h % 256 = 1 → run (exec (.passBegin u) s) (t.afterWrites a (fun q => q.passBegin u j w)))
      ∧ (∀ n, h % 256 = 2 → run (exec (.passEnd u n) s) (t.passEnd u n j)))
    ∧ (∀ (t : State) (w : List Nat), 8 < bitsOf (w.getD 0 0) 36 4 → t.passBegin u j w = t.gfxEnd u .denied)
    ∧ (∀ (t : State) b1 t1 b2 t2 (w : List Nat), bitsOf (w.getD 0 0) 36 4 ≤ 8 →
        let n := bitsOf (w.getD 0 0) 36 4 + bitsOf (w.getD 0 0) 40 1
        let pid := w.getD 1 0 % 2 ^ 20
        let p : Pass := { width := w.getD 0 0 % 2 ^ 16, height := bitsOf (w.getD 0 0) 16 16, samples := 2 ^ bitsOf (w.getD 0 0) 32 2, pid := pid,
                          atts := (groupsOf 32 (n + 1) b1).map (fun e => attOf (ofLeBytes e)), depth := bitAt (w.getD 0 0) 40, pages := [] }
        t.dmaRead (gfxAccess j.inst pid) (w.getD 2 0) (32 * n) = (.ok, b1, t1) →
        (p.ok (!t1.flag Reg.GFX_GCTX_MODE [j.gctx]) (w.getD 4 0) = false → t.passBegin u j w = t1.gfxEnd u .denied)
        ∧ (p.ok (!t1.flag Reg.GFX_GCTX_MODE [j.gctx]) (w.getD 4 0) = true → t1.dmaRead (gfxAccess j.inst pid) (w.getD 3 0) (8 * w.getD 4 0) = (.ok, b2, t2) →
          (pageList b2 (w.getD 4 0) = none → t.passBegin u j w = t2.gfxEnd u .denied)
          ∧ (∀ l, pageList b2 (w.getD 4 0) = some l → t.passBegin u j w = t2.setGfxJob { j.past 1 with pid := pid, pass := some { p with pages := l } }))))

/-- DRAW bins its primitives, a full pool faults or flushes, BIN_GROW resumes, and PASS_END stores the tiles and closes the pass. (R350; R351; R352; R353; log entries 16 and 40) -/
def Obligations.PassesAreBinnedAndStored : Prop :=
  (∀ (s t : State) (u cyc h : Nat) (w : List Nat) (j : GfxJob) (p : Pass) (prims : List Prim),
    let P := partyJob u
    let run := fun (o : Host.Outcome State Fault Refusal) (t : State) => t.syncClusters.fab.stall = none → o = .next (t.syncClusters.ended P)
    s.gfxJob u = some j → s.fresh P = true → j.ended = false → s.boot.mainUp = true → s.flag Reg.GFX_GCTX_PEND [j.gctx] = false → j.pass = some p →
    (s.inRun P).packetWords j.inst j.pc = (.ok, h :: w, t) → packetOk h w = true → t.runsOn j.mask j.inst j.pid = true →
      let v := t.payJob u 23 cyc
      (h % 256 = 5 → (∀ q ∈ prims, ∀ b ∈ q.bins, b < p.binCount) → ∀ st pipe r, v.dmaNum (gfxAccess j.inst p.pid) p.pipe 64 = (st, pipe, r) →
        (st ≠ .ok → run (exec (.draw u cyc prims) s) (r.gfxEnd u st))
        ∧ (st = .ok → p.flush = false → w.headD 0 % 2 ^ 32 ≠ 0 → bitsOf (w.headD 0) 32 32 ≠ 0 → ∀ x ix q, r.dmaRead (gfxAccess j.inst p.pid) (w.getD 2 0) (indexBytes w) = (x, ix, q) →
          run (exec (.draw u cyc prims) s) (if x ≠ .ok then q.gfxEnd u x else q.binAll j p pipe prims))
        ∧ (st = .ok → p.flush = true → run (exec (.draw u cyc prims) s) (r.flushPass u j p pipe))
        ∧ (st = .ok → p.flush = false → (w.headD 0 % 2 ^ 32 = 0 ∨ bitsOf (w.headD 0) 32 32 = 0) → run (exec (.draw u cyc prims) s) (r.setGfxJob (j.past 5))))
      ∧ (h % 256 = 2 → ∀ st r, v.resolveBins j p false (List.range p.binCount) = (st, r) →
        (st ≠ .ok → run (exec (.passEnd u cyc) s) (r.gfxEnd u st))
        ∧ (st = .ok → r.fab.stall = none → ∃ x : State, exec (.passEnd u cyc) s = .next x ∧ (j.gctx < 32 → x.rd Reg.GFX_GCTX_PAGES [j.gctx] = 0) ∧ x.mem = r.mem
            ∧ (∀ k ∈ x.gfx.threads, k.id.uid ≠ u) ∧ (∀ k ∈ x.gfx.holds, k.2 ≠ j.gctx) ∧ x.gfx.jobs = r.gfx.jobs.map (fun k => if k.uid = j.uid then { j.past 2 with pass := none } else k))))
  ∧ (∀ (t : State) (u cyc : Nat) (j : GfxJob), j.pass = none → t.passEnd u cyc j = t.setGfxJob (j.past 2))
  ∧ (∀ (x : State) (j : GfxJob) (b : Pass) st y, j.gctx < 32 → x.writeRefs j b = (st, y) →
      let z := y.wr Reg.GFX_GCTX_PAGES [j.gctx] (ceilDiv b.chunks 256)
      (st ≠ .ok → x.binned j b = y.gfxEnd j.uid st)
      ∧ (st = .ok → b.left = [] → x.binned j b = z.setGfxJob { j.past 5 with pass := some { b with fresh := [], flush := false } })
      ∧ (st = .ok → b.left ≠ [] → y.flag Reg.GFX_GCTX_MODE [j.gctx] = true → (x.binned j b).rd Reg.GFX_GCTX_PEND [j.gctx] = 1
          ∧ (y.rd Reg.GFX_GCTX_BIN_VEC [j.gctx] ≠ 0 → (x.binned j b).msgs = y.msgs ++ [{ inst := j.inst, vec := y.rd Reg.GFX_GCTX_BIN_VEC [j.gctx] }]))
      ∧ (st = .ok → b.left ≠ [] → y.flag Reg.GFX_GCTX_MODE [j.gctx] = false → x.binned j b = z.setGfxJob { j with pass := some { b with fresh := [], flush := true } }))
  ∧ (∀ (x y : State) (j : GfxJob) (p b : Pass) pipe prims st, x.binPrims j p pipe prims = (st, b, y) → x.binAll j p pipe prims = if st ≠ .ok then y.gfxEnd j.uid st else y.binned j b)
  ∧ (∀ (x : State) (j : GfxJob) (p : Pass) pipe, x.binPrims j p pipe [] = (.ok, { p with left := [] }, x))
  ∧ (∀ (x : State) (j : GfxJob) (p : Pass) bins i (a : Att) c d k, p.binOf c d ∈ bins → c < 2 ^ 16 → d < 2 ^ 19 →
      x.pixel j (p.flushedTo bins) i a c d k = x.dmaNum (gfxAccess j.inst p.pid) (a.at_ a.flushBase p.samples c d k) (fmtBytes a.fmt))
  ∧ (∀ (x : State) n k, n < 32 → x.flag Reg.GFX_GCTX_PEND [n] = true → x.gfx.jobs.find? (fun e => e.gctx = n) = some k → x.fresh (partyJob k.uid) = true →
      let r := ((x.inRun (partyJob k.uid)).gfxEnd k.uid .timeout).syncClusters
      r.fab.stall = none → exec (.binGrowTimeout n) x = .next (r.ended (partyJob k.uid)))

/-- A compute job starts on its wait word, signals and ends, and a cluster switches between grantees. (R171; R172; R359; R360; R361; R363; log entry 40) -/
def Obligations.ComputeJobsAndClusters : Prop :=
  ∀ (s : State),
    let run := fun (P : Nat) (o : Host.Outcome State Fault Refusal) (t : State) => t.fab.stall = none → o = .next (t.ended P)
    (∀ u j, s.compJob u = some j → s.fresh (partyJob u) = true → j.started = false → s.boot.mainUp = true →
      let c := s.inRun (partyJob u)
      let go_ := fun (t : State) => run (partyJob u) (exec (.computeJobStart u) s) t.syncClusters
      (bitsOf j.desc 224 48 = 0 → go_ (c.setCompJob { j with started := true }))
      ∧ (bitsOf j.desc 224 48 ≠ 0 → ∀ st v t, c.dmaNum (gfxAccess j.inst (compPid j.desc)) (bitsOf j.desc 224 48) 8 = (st, v, t) →
          (st ≠ .ok → go_ (t.compEnd u st))
          ∧ (st = .ok → v % 2 ^ 32 &&& bitsOf j.desc 320 32 = bitsOf j.desc 288 32 → go_ (t.setCompJob { j with started := true }))
          ∧ (st = .ok → v % 2 ^ 32 &&& bitsOf j.desc 320 32 ≠ bitsOf j.desc 288 32 → go_ t))
      ∧ (bitsOf j.desc 224 48 ≠ 0 → run (partyJob u) (exec (.computeWaitTimeout u) s) (c.compEnd u .timeout).syncClusters))
    ∧ (∀ u j cyc, s.compJob u = some j → s.fresh (partyJob u) = true → j.started = true → compGroups j.desc * compThreads j.desc ≤ j.ended →
        run (partyJob u) (exec (.computeJobComplete u cyc) s) (((s.inRun (partyJob u)).payJob u 23 (cyc - j.ran)).afterWrites (gfxAccess j.inst 0) (fun t =>
          let (st, r) := t.compSignal j
          if st ≠ .ok then r.compEnd u st
          else if bitAt j.desc 432 then (r.send j.inst (bitsOf j.desc 433 11)).compEnd u .ok else r.compEnd u .ok)).syncClusters)
    ∧ (∀ c, c < 8 → s.boot.mainUp = true → s.fresh (partyCluster c) = true →
        let v := s.inRun (partyCluster c)
        let done := fun (t : State) => run (partyCluster c) (exec (.clusterSwitch c) s) t.syncClusters
        (∀ r, v.clResident c = some r → v.clIncoming c = none →
          (v.clSpent c r = true → done ((v.clEvict c r).wr Reg.GFX_CL_RES_VALID [c] 0)) ∧ (v.clSpent c r = false → exec (.clusterSwitch c) s = .next s))
        ∧ (∀ g, v.clIncoming c = some g →
          (v.clResident c = none → done (v.restoreCluster c g))
          ∧ (∀ r, v.clResident c = some r →
            (v.clPreempted c g r = true ∨ v.clSpent c r = true → done ((v.clEvict c r).restoreCluster c g))
            ∧ (v.clPreempted c g r = false → v.clSpent c r = false → v.clRunnable c r = true → exec (.clusterSwitch c) s = .next s)
            ∧ (v.clRunnable c r = false → done ((v.saveCluster c r).restoreCluster c g)))))
    ∧ (∀ c g, c < 8 → (s.restoreCluster c g).rd Reg.GFX_CL_RES_G [c] = g % 4 ∧ (s.restoreCluster c g).rd Reg.GFX_CL_RES_VALID [c] = 1)
    ∧ (∀ d, d < 4 → ∃ t : State, exec (.deadlinePreempt d) s = .next t ∧ t.mem = s.mem ∧ t.gfx.jobs = s.gfx.jobs ∧ t.gfx.comps = s.gfx.comps ∧ wordsWithin s t [0x09]
        ∧ (∀ c n, (∃ j ∈ s.gfx.jobs, j.gctx = n ∧ s.rd Reg.GFX_GCTX_DL_PIPE [n] = d + 1 ∧ bitAt j.mask c = true ∧ c < 8) → (c, n) ∈ t.gfx.holds)
        ∧ (∀ e, e ∈ s.gfx.holds → e ∈ t.gfx.holds))

/-- A display pipe decides, produces bands, switches late at most once, checks the safety region, and writes the frame status word. (R372; R374; R378; R380; R381; R382; R384; R385; R394; R395; R397; log entry 40) -/
def Obligations.DisplayPipesShowFrames : Prop :=
  ∀ (s : State) (d : Nat), d < 4 → s.pipeOn d = true → s.fresh (partyPipe d) = true →
    let p := s.pipe d
    let c := s.inRun (partyPipe d)
    let run := fun (o : Host.Outcome State Fault Refusal) (t : State) => t.fab.stall = none → o = .next (t.ended (partyPipe d))
    let l := s.latchPipe d
    l.pipe d = { p with set := s.pipeSet d }
    ∧ (∀ f, p.successor p.shown = some f → f.ready = true → exec (.displayDecisionInstant d) s = .next ((l.setPipe d ((l.pipe d).supersede (some f.uid))).slotFree.schedule))
    ∧ (p.successor p.shown = none ∨ (∃ f, p.successor p.shown = some f ∧ f.ready = false) →
        ((∀ u j, p.shown = some u → s.jobOf u = some j → j.abort = false) → exec (.displayDecisionInstant d) s = .next l)
        ∧ (∀ u j, p.shown = some u → s.jobOf u = some j → j.abort = true → exec (.displayDecisionInstant d) s = .next ((l.setPipe d ((l.pipe d).supersede none)).slotFree.schedule)))
    ∧ (∀ mid under, let t := c.pollReady d
        (∀ q, (t.pipe d).period = some q → q.band < t.bandCount d → run (exec (.bandProduction d mid under) s) (((t.lateSwitch d q.band).dropForce d q.band).produceBand d mid under).schedule)
        ∧ ((t.pipe d).period = none ∨ (∃ q, (t.pipe d).period = some q ∧ t.bandCount d ≤ q.band) →
            run (exec (.bandProduction d mid under) s) ((((t.newPeriod d).lateSwitch d 0).dropForce d 0).produceBand d mid under).schedule))
    ∧ (∀ q b, p.period = some q → (q.kind = 0 ∨ q.kind = 2) → s.lateSwitch d b = s)
    ∧ (∀ q mid under, p.period = some q → p.frame q.cur = none →
        ((s.produceBand d mid under).pipe d).band = List.replicate (s.rd Reg.DSP_PIPE_HACT [d] * (s.bandLines d q.band).length) p.set.fill
        ∧ ((s.produceBand d mid under).pipe d).period = some { q with band := q.band + 1 })
    ∧ run (exec (.frameReadyPoll d) s) (c.pollReady d) ∧ (p.queue.all (fun f => f.ready) = true → s.pollReady d = s)
    ∧ (∀ u, p.queue.any (fun f => f.uid = u && !f.ready) = true → run (exec (.frameReadyTimeout d u) s) (c.frameEnd d u .timeout))
    ∧ (∀ u, p.old.any (fun f => f.uid = u) = true → (∀ q, p.period = some q → q.cur ≠ some u) → run (exec (.frameRetire d u) s) (c.frameEnd d u .ok))
    ∧ (∀ q, p.set.crc = true → p.done = some q → exec (.regionCrcCheck d) s = .next ((s.checkRegion d q).2.setPipe d { p with done := some (s.checkRegion d q).1 }))
    ∧ (∀ q, q.crcChecked = false → q.rgn.isSome = true → q.rgnSize ≤ q.rgnPix.length →
        (crc32 (q.rgnPix.flatMap (leBytes 4)) = q.rgnCrc → s.checkRegion d q = ({ q with crcChecked := true }, s))
        ∧ (crc32 (q.rgnPix.flatMap (leBytes 4)) ≠ q.rgnCrc → (s.checkRegion d q).1 = { q with crcChecked := true, crcFail := true } ∧ 8 ∈ (s.checkRegion d q).2.saf.lines
            ∧ (s.checkRegion d q).2.rd Reg.DSP_PIPE_CRC_FAILS [d] = satTo 16 (s.rd Reg.DSP_PIPE_CRC_FAILS [d] + 1) ∧ (s.checkRegion d q).2.mem = s.mem))
    ∧ (∀ q, p.done = some q → run (exec (.frameStatusWrite d) s) ((c.setPipe d { p with done := none }).endPeriod d q))
    ∧ (∀ q, p.done = none → p.period = some q → s.bandCount d ≤ q.band → q.told = false →
        run (exec (.frameStatusWrite d) s) ((c.setPipe d { p with period := some { q with told := true } }).endPeriod d q))
    ∧ (∀ q n l x, (statusWord q n l x).length = 32)
    ∧ (∀ q, q.kind = 0 → q.underflow = false → q.poseBad = false →
        let no := s.rd Reg.DSP_PIPE_VSYNC_NO [d]
        let r := ((s.setPipe d { p with stale := 0 }).dmaWrite scanAccess (s.rdPair Reg.DSP_PIPE_RING_LO Reg.DSP_PIPE_RING_HI [d] + 32 * (no % 2 ^ s.rd Reg.DSP_PIPE_RING_LOG2 [d]))
          (statusWord q no (s.rd Reg.DSP_PIPE_STATE [d] ≠ 2) false)).2
        s.endPeriod d q = if p.set.vsMsg then r.pipeEvent d else r)
    ∧ (∃ t, exec (.vsync d) s = .next t ∧ t.rd Reg.DSP_PIPE_VSYNC_NO [d] = (s.rd Reg.DSP_PIPE_VSYNC_NO [d] + 1) % 2 ^ 32 ∧ t.mem = s.mem
        ∧ (t.pipe d).period = p.period.map (fun q => { q with vsync := s.epoch }))
    ∧ (s.rd Reg.DSP_PIPE_STATE [d] = 2 → exec (.displayLinkDown d) s = .next (s.wr Reg.DSP_PIPE_STATE [d] 3))
    ∧ exec (.displayLinkTrained d) s = .next (s.wr Reg.DSP_PIPE_STATE [d] 2)
    ∧ (s.pipeDisable d).rd Reg.DSP_PIPE_STATE [d] = 0 ∧ (s.pipeDisable d).pipe d = {}

/-- Samples, stream health, ego steps, epochs and fusion jobs take the effect of their rules. (R400; R409; R410; R411; R413; R415; R419; R424; R425; R426; R436; log entry 40) -/
def Obligations.SensorsAndSextant : Prop :=
  ∀ (s : State),
    let P := partySextant
    let c := s.inRun P
    let run := fun (p : Nat) (o : Host.Outcome State Fault Refusal) (t : State) => t.fab.stall = none → o = .next (t.ended p)
    (∀ n a, n < 128 → s.takes n = true → s.portMoves n = false → s.fresh (partyStream n) = true → run (partyStream n) (exec (.sampleArrival n a) s) ((s.inRun (partyStream n)).arrive n a))
    ∧ (∀ n a, s.takes n = true → s.portMoves n = true → exec (.sampleArrival n a) s = .next s)
    ∧ (∀ n (a : Sample), s.isCamera n = true → (∀ q ∈ a.packets, q.vc ≠ s.rd Reg.SNS_STREAM_VC [n] ∨ q.dt ≠ bitsOf (s.rd Reg.SNS_STREAM_PARSE0 [n]) 0 6) →
        s.payload n a = [] ∧ s.integrityFaults n a = a.lost)
    ∧ (∀ n, n < 128 → s.takes n = true → ∃ t, exec (.streamTimeout n) s = .next t ∧ t.rd Reg.SNS_STREAM_TMO [n] = satTo 8 (s.rd Reg.SNS_STREAM_TMO [n] + 1) ∧ t.health n = 3
        ∧ (s.health n ≠ 3 → t.rd Reg.SNS_STREAM_WHY [n] = 1) ∧ (∀ m, m < 128 → m ≠ n → t.health m = s.health m) ∧ t.mem = s.mem)
    ∧ (∀ n, n < 128 → s.health n ≠ 3 → s.rd Reg.SNS_STREAM_ERR_N [n] ≠ 0 → s.rd Reg.SNS_STREAM_ERR_N [n] ≤ (s.stream n).bad + 1 →
        (s.judgeSample n true).health n = 3 ∧ (s.judgeSample n true).rd Reg.SNS_STREAM_WHY [n] = 2)
    ∧ (∀ n, n < 128 → s.health n = 3 → s.rd Reg.SNS_STREAM_WHY [n] ≠ 3 → max 1 (s.rd Reg.SNS_STREAM_UNMASK_N [n]) ≤ (s.stream n).good + 1 → (s.judgeSample n false).health n = 1)
    ∧ (∀ n, n < 128 → s.flag Reg.SNS_STREAM_ENABLE [n] = true → (s.streamLie n).health n = 3 ∧ (s.streamLie n).rd Reg.SNS_STREAM_WHY [n] = 3)
    ∧ (∀ n, n < 128 → s.health n = 3 → s.rd Reg.SNS_STREAM_WHY [n] = 3 → (s.streamClr n).health n = 1)
    ∧ (∀ p bias track, egoStep p bias track ⟨none, none⟩ = { p with q := 0 })
    ∧ (∀ k ks, s.sxt.ego.hist = k :: ks → k.q ≠ 0 → s.poseQuery k.time = some k)
    ∧ (∀ e, (s.release e).rd Reg.SXT_STAT_EPOCH_NO [] = e.no % 2 ^ 32 ∧ (∀ x ∈ (s.release e).sxt.opened, x.no ≠ e.no))
    ∧ (s.snsUp = true → ∃ t, exec .biasUpdate s = .next t ∧ t.sxt.ego.gz = [] ∧ t.sxt.ego.still = true
        ∧ (s.sxt.ego.still = false → t.sxt.ego.bias = s.sxt.ego.bias)
        ∧ (s.sxt.ego.still = true → s.sxt.ego.gz ≠ [] → t.sxt.ego.bias = ((sumAny (s.sxt.ego.gz.map fp32.decode)).div32 (flNat s.sxt.ego.gz.length)).bits32)
        ∧ t = { s with sxt := { s.sxt with ego := t.sxt.ego } })
    ∧ (s.snsUp = true → s.fresh P = true →
      (let e := c.egoIn
       let b := (c.plausible e).feedBias e
       let o := b.sxt.ego
       let k := { egoStep o.cur o.bias (fdiv (Fl.ofInt (b.rd Reg.SXT_TRACK_MM [])).bits32 (Fl.ofInt 1000).bits32) e with time := b.epoch, tq := b.quality }
       let x := b.setSxt { b.sxt with ego := { o with cur := k, hist := (k :: o.hist).take 4096 } }
       let y := (x.dmaWrite sextantAccess x.egoRing k.bytes).2
       run P (exec .egoStep s) ((y.setSxt { y.sxt with ego := { y.sxt.ego with step := o.step + 1 } }).wr Reg.SXT_STAT_POSE_Q [] k.q)
        ∧ k.q = (if e.imu.isSome then 2 else 0) + (if e.wheels.isSome then 1 else 0))
      ∧ (∀ e rest, s.sxt.opened = e :: rest →
        (s.epochReady e = true → run P (exec .epochRelease s) (c.release e)) ∧ (s.epochReady e = false → exec .epochRelease s = .next s)
        ∧ run P (exec .epochWaitExpiry s) (c.release e))
      ∧ (∀ j rest st d t, s.sxt.jobs = j :: rest → c.dmaNum (fusAccess j.inst) j.desc 64 = (st, d, t) →
        (st ≠ .ok → run P (exec .fusionJob s) (t.fusEnd j.uid st)) ∧ (st = .ok → fusOk d = false → run P (exec .fusionJob s) (t.fusEnd j.uid .denied))
        ∧ (st = .ok → fusOk d = true → run P (exec .fusionJob s) (t.fusRun j d))
        ∧ (∀ b r, t.dmaRead (fusAccess j.inst) (bitsOf d 128 64) (64 + 65536) = (.ok, b, r) → bitAt d 44 = false → bitsOf d 0 32 ≤ bitsOf (ofLeBytes (b.take 64)) 64 32 →
            t.fusRun j d = r.fusEnd j.uid .denied)))
    ∧ (∀ u, s.fresh P = true → s.sxt.jobs.any (fun j => j.uid = u) = true → run P (exec (.fusionEpochTimeout u) s) (c.fusEnd u .timeout))

/-- The entries of a transmit job are read, checked, sent or ended in order, and the job ends with the status of its first failed entry. (R443; R448; R449; R451; R452; R459; R460; R474; Table net.1; log entries 40 and 48) -/
def Obligations.TransmitJobsSendTheirEntries : Prop :=
  ∀ (s : State),
    let run := fun (p : Nat) (o : Host.Outcome State Fault Refusal) (t : State) => t.fab.stall = none → o = .next (t.ended p)
    (∀ u j, s.netJob u = some j → s.fresh (partyNet j.xd) = true →
      let c := s.inRun (partyNet j.xd)
      let P := partyNet j.xd
      (∀ st t, c.nextEntry u = (.failed j st, t) → run P (exec (.txEthernet u) s) (t.endEntry j ⟨j.next, 0⟩ st 0))
      ∧ (∀ g x t, c.nextEntry u = (.entry j g x, t) →
        (x.kind = 1 → run P (exec (.txEthernet u) s) (t.txEther j g x)) ∧ (x.kind = 2 → run P (exec (.txCan (.entry u)) s) (t.txCan j g x))
        ∧ (x.kind = 3 → run P (exec (.txLin u) s) (t.txLin j g x)) ∧ (x.kind = 4 → run P (exec (.txDiagnosticMessage u) s) (t.txDiag j g x))
        ∧ (x.kind ≠ 2 → run P (exec (.txCan (.entry u)) s) t) ∧ (x.kind ≠ 3 → run P (exec (.txLin u) s) t) ∧ (x.kind ≠ 4 → run P (exec (.txDiagnosticMessage u) s) t)))
    ∧ (∀ (t : State) j g x,
        (x.ok = false → t.txEther j g x = t.endEntry j x .denied 0 ∧ t.txCan j g x = t.endEntry j x .denied 0 ∧ t.txLin j g x = t.endEntry j x .denied 0
            ∧ t.txDiag j g x = t.endEntry j x .denied 0)
        ∧ (x.ok = true → t.rd Reg.ENC_OWN_STEP [ownIndex 0 j.xd x.port] = 0 → t.rd Reg.ENC_OWN_OWNER [ownIndex 0 j.xd x.port] ≠ g.inst → t.txEther j g x = t.endEntry j x .denied 0)
        ∧ (x.ok = true → t.rd Reg.ENC_OWN_STEP [ownIndex 1 j.xd x.port] ≠ 0 → t.txCan j g x = t.endEntry j x .aborted 0)
        ∧ (∀ b r, x.ok = true → t.dmaRead (netAccess g.inst j.xd) x.addr x.len = (.ok, b, r) →
          (t.entryOwner 0 j g x = .ok → t.txEther j g x = (r.takeEntry j x).enterSwitch j.xd x.port x.tc g.inst (.entry j.uid x.k) b)
          ∧ (t.entryOwner 2 j g x = .ok → r.flag Reg.CAN_LIN_EN [j.xd, x.port] = true →
            r.rd Reg.CAN_LIN_MODE [j.xd, x.port] ≠ 0 → t.txLin j g x = (r.onWire 2 (8 * j.xd + x.port) b).endEntry j x .ok r.epoch)))
    ∧ (∀ c f, c < 4 → s.saf.islandRun = true → s.canFits 0 c f = true → exec (.txCan (.island c f)) s = .next (s.canOffer 0 c .island f).2
        ∧ (s.aasBlocks 0 c .island f = true → (s.canOffer 0 c .island f).2 = s.incSat Reg.NET_AAS_ISL_BLOCK [] 1))
    ∧ (∀ u j, s.netJob u = some j → j.count ≤ j.done.length → s.fresh (partyJob u) = true →
        let c := s.inRun (partyJob u)
        run (partyJob u) (exec (.txJobComplete u) s) ((c.setNet { c.net with jobs := c.net.jobs.filter (fun x => x.uid ≠ u) }).endJob u j.status))
    ∧ (∀ j : NetJob, (∀ e ∈ j.done, e.2 = .ok) → j.status = .ok)
    ∧ (∀ (j : NetJob) k st, k < j.count → (k, st) ∈ j.done → st ≠ .ok → (∀ e ∈ j.done, e.1 = k → e.2 = st) → (∀ e ∈ j.done, e.1 < k → e.2 = .ok) → j.status = st)
    ∧ (∀ n p, s.portOn n p = true → s.fresh (partyNet n) = true →
        let c := s.inRun (partyNet n)
        (s.rd Reg.NET_PORT_STATE [n, p] = 1 → run (partyNet n) (exec (.synthesiserLock n p) s) ((c.wr Reg.NET_PORT_STATE [n, p] 2).portRun n p))
        ∧ (s.rd Reg.NET_PORT_STATE [n, p] = 2 → exec (.synthesiserCalibrationStart n p) s = .next (s.wr Reg.NET_PORT_STATE [n, p] 1))
        ∧ exec (.ethernetLinkDown n p) s = .next (s.wr Reg.NET_PORT_STATE [n, p] 0) ∧ exec (.ethernetLinkRetrained n p) s = .next (s.wr Reg.NET_PORT_STATE [n, p] 1)
        ∧ (∀ g l, run (partyNet n) (exec (.gateIntervalExpiry n p g l) s) (((c.setEthPort (32 * n + p) { c.ethPort (32 * n + p) with gates := g % 256 }).setSlopes n p l).portRun n p)))
    ∧ (∀ n p tc e, s.net.queue.find? (fun x => x.port = 32 * n + p && x.tc = tc) = some e → s.fresh (partyNet n) = true →
        let q := (s.inRun (partyNet n)).unqueue e
        run (partyNet n) (exec (.egressAged n p tc) s) ((q.sentBy e.src .timeout 0).incSat Reg.NET_CNT_AGED [n, p] 1)
        ∧ (s.rd Reg.NET_PORT_STATE [n, p] = 1 →
            (∀ u k, e.src = .entry u k → run (partyNet n) (exec (.synthesiserHoldExpiry n p tc) s) (q.entryDone u k .notReady 0))
            ∧ (e.src = .main → run (partyNet n) (exec (.synthesiserHoldExpiry n p tc) s) (q.incSat Reg.NET_CNT_NOT_READY [n, p] 1))))
    ∧ (∀ (x : Shaper) bits mbps now, (x.settle now false).credit ≤ 0 ∧ (x.settle now true).credit = x.credit + (x.slope * (now - x.at_) : Nat)
        ∧ (x.sent bits mbps).credit = x.credit + (x.slope * (bits * 1000 / mbps) : Nat) - (bits * 1000000 : Nat))
    ∧ (∀ e, s.mayLeave e = true → bitAt (s.ethPort e.port).gates e.tc = true ∧ (∀ k ∈ (s.ethPort e.port).shapers, k.1 = e.tc → 0 ≤ (k.2.settle s.now true).credit))

/-- Received frames are counted, learned and routed; a CAN transmission ends by its result; sessions, schedules and the change of authority take effect. (R446; R450; R454; R465; R466; R468; R469; R470; R475; R476; R478; log entry 40) -/
def Obligations.NetworksReceiveAndRecover : Prop :=
  ∀ (s : State),
    let run := fun (p : Nat) (o : Host.Outcome State Fault Refusal) (t : State) => t.fab.stall = none → o = .next (t.ended p)
    (∀ n p b passed sec dst, n < 4 → p < 22 → s.portOn n p = true → s.rd Reg.NET_PORT_STATE [n, p] ≠ 0 →
      (∀ ok, (ok = false ∨ 1522 < b.length) → exec (.ethernetRx n p b ok passed sec dst) s = .next (s.incSat Reg.NET_CNT_FCS_DROP [n, p] 1))
      ∧ (b.length ≤ 1522 → (b.length < 14 ∨ passed = false) → exec (.ethernetRx n p b true passed sec dst) s = .next s)
      ∧ (14 ≤ b.length → b.length ≤ 1522 → s.fresh (partyNet n) = true →
        let c := (s.inRun (partyNet n)).learn n p b
        ((∀ e ∈ dst, e.1 = p ∨ 22 < e.1) → exec (.ethernetRx n p b true true sec dst) s = .next (s.learn n p b))
        ∧ run (partyNet n) (exec (.ethernetRx n p b true true false dst) s) ((c.egressOf n p b dst).foldl (fun t e =>
            if e.1 = 22 then t.classify n p (wrapTo 64 ((s.epoch : Int) - s.rd Reg.NET_LAT_RX_LAT [n, p])) false b else t.ethOffer n e.1 e.2 .main b) c)
        ∧ (∀ e ∈ c.egressOf n p b dst, e ∈ dst ∧ e.1 ≠ p)))
    ∧ (∀ n k time f, n < 4 → k < 16 → s.canPowered n k = true → s.flag Reg.CAN_CTL_EN [n, k] = true → s.rd Reg.CAN_CTL_STATE [n, k] ≠ 2 →
        let t := ((s.inRun (partyNet n)).recvCount n k).loneEnd n k
        (s.fresh (partyNet n) = true → (s.boot.mainUp = true → run (partyNet n) (exec (.canFrameRx n k time f) s) (t.routeFrame n k time f))
          ∧ (s.boot.mainUp = false → run (partyNet n) (exec (.canFrameRx n k time f) s) t))
        ∧ (s.rd Reg.CAN_CTL_REC [n, k] ≤ 127 → (s.recvCount n k).rd Reg.CAN_CTL_REC [n, k] = s.rd Reg.CAN_CTL_REC [n, k] - 1))
    ∧ (∀ n src time f, n < 4 → src < 16 → s.routeFor n src f.id = none →
        s.routeFrame n src time f = if s.flag Reg.CAN_CTL_STRICT [n, src] then s.incSat Reg.NET_IDS_UNKNOWN_ID [n] 1 else s)
    ∧ (∀ n src time f k, s.routeFor n src f.id = some k → s.flag Reg.NET_ROUTE_POL_EN [n, k] = true → (s.police n k).1 = false →
        s.routeFrame n src time f = (s.police n k).2.incSat Reg.NET_IDS_POLICED [n] 1)
    ∧ (∀ n k p, (s.can (16 * n + k)).sending = some p → s.fresh (partyNet n) = true →
        let c := s.inRun (partyNet n)
        run (partyNet n) (exec (.canTxDone n k .acked) s) (c.acked n k p) ∧ run (partyNet n) (exec (.canTxDone n k .ackError) s) (c.ackError n k)
        ∧ run (partyNet n) (exec (.canTxDone n k .error) s) (((c.setCan (16 * n + k) { c.can (16 * n + k) with ackRun := 0 }).txError n k).canRetry n k))
    ∧ (∀ n c, n < 4 → c < 16 → let v := s.rd Reg.CAN_CTL_TEC [n, c] + 8
        (v ≤ 127 → s.txError n c = s.wr Reg.CAN_CTL_TEC [n, c] v)
        ∧ (127 < v → v ≤ 255 → (s.txError n c).rd Reg.CAN_CTL_TEC [n, c] = v ∧ (s.txError n c).rd Reg.CAN_CTL_STATE [n, c] = 1)
        ∧ (255 < v → (∀ p ∈ (s.can (16 * n + c)).sending.toList ++ (s.can (16 * n + c)).bufs, ∀ u k, p.src ≠ .entry u k) → (s.txError n c).rd Reg.CAN_CTL_STATE [n, c] = 2))
    ∧ (∀ n c, n < 4 → c < 16 → s.rd Reg.CAN_CTL_STATE [n, c] = 2 → s.flag Reg.CAN_CTL_AUTO_BOR [n, c] = true →
        ∃ t, exec (.busOffRecovery n c) s = .next t ∧ t.rd Reg.CAN_CTL_STATE [n, c] = 0 ∧ t.rd Reg.CAN_CTL_TEC [n, c] = 0 ∧ t.rd Reg.CAN_CTL_REC [n, c] = 0 ∧ t.mem = s.mem)
    ∧ (∀ n d, n < s.fuses.variant.xds → s.boot.mainUp = true →
        (d < 128 → s.rd Reg.NET_PDU_PERIOD_MS [n, d] ≠ 0 → exec (.pduPeriod n d) s = .next (s.pduSend n d))
        ∧ (d < 32 → n < 4 → s.flag Reg.NET_DIAG_ACTIVE [n, d] = true →
          let idle := tget 0 s.net.passed (32 * n + d) + s.rd Reg.NET_DIAG_IDLE_S [n, d] * 1000000000
          (idle ≤ s.now → ∃ t, exec (.diagSessionIdle n d) s = .next t ∧ t.rd Reg.NET_DIAG_ACTIVE [n, d] = 0 ∧ t.mem = s.mem) ∧ (s.now < idle → exec (.diagSessionIdle n d) s = .next s))
        ∧ (d < 8 → s.flag Reg.CAN_LIN_EN [n, d] = true → s.rd Reg.CAN_LIN_MODE [n, d] = 1 → ∃ t b, exec (.linScheduleSlot n d) s = .next t ∧ tget [] t.net.wire (2048 + (8 * n + d)) = [b]
            ∧ t.mem = s.mem ∧ t.words = s.words))
    ∧ (∀ dusk cause rest, s.net.moves = (dusk, cause) :: rest →
        let a := [0, 1, 2, 3].foldl (State.removeLosers dusk) (s.setNet { s.net with moves := rest })
        let r := a.record 0x41 33 (leBytes 1 (if dusk then 1 else 0) ++ leBytes 1 cause)
        exec .authChange s = .next ((0 :: [0, 1, 2, 3].map (fun c => r.rd Reg.ENC_OWN_OWNER [ownIndex 1 0 c])).eraseDups.foldl (fun t i => t.send i (r.rd Reg.NET_AAS_VEC [])) r))
    ∧ (∀ cause, s.dusk = false → (s.setAuth true cause).dusk = true ∧ (s.setAuth true cause).rd Reg.NET_AAS_REQ_MAIN [] = 0
        ∧ (s.setAuth true cause).rd Reg.SAF_STAT_TAKEOVERS [] = satTo Reg.SAF_STAT_TAKEOVERS.width (s.rd Reg.SAF_STAT_TAKEOVERS [] + 1)
        ∧ (s.setAuth true cause).net.moves = s.net.moves ++ [(true, cause)])

/-- gPTP, the reference windows, edge losses and expiries set the reference, the quality code and Epoch time as their rules say. (R455; R482; R488; R490; R492; R493; R495; R496; R497; R499; R500; R501) -/
def Obligations.ReferenceAndEpochTime : Prop :=
  ∀ (s : State),
    (∀ off : Int, s.rd Reg.NET_GPTP_ROLE [] = 2 → s.boot.mainUp = true →
      let a := s.wr Reg.CLK_EPOCH_OFFSET [] (sat32 off)
      let b : State := { a with clk := { s.clk with synced := true, fresh := true, held := false, offsets := pushOffset (if s.clk.fresh then s.clk.offsets else []) off.natAbs } }
      (off.natAbs ≤ s.rd Reg.CLK_EPOCH_STEP_NS [] → ∃ c : Int, c.natAbs ≤ s.slewLimit ∧ exec (.gptpSyncRx off) s = .next (State.updateQ { b.drawn with clk := { b.clk with corr := c } }))
      ∧ (s.rd Reg.CLK_EPOCH_STEP_NS [] < off.natAbs → exec (.gptpSyncRx off) s = .next (b.stepEpoch 34 off).updateQ))
    ∧ (∀ tag d, (s.stepEpoch tag d).clk.epoch = wrapTo 64 (s.clk.epoch + d) ∧ (s.stepEpoch tag d).rd Reg.CLK_EPOCH_STEPS [] = satTo 16 (s.rd Reg.CLK_EPOCH_STEPS [] + 1)
        ∧ (s.stepEpoch tag d).rd Reg.CLK_EPOCH_LAST_STEP [] = sat32 d)
    ∧ (∀ n p, (s.gptpPort n p [1] = true → exec (.gptpSyncTx n p) s = .next (s.onWire 0 (32 * n + p) (Config.gptpFrame 0 p s.epoch)))
        ∧ (s.gptpPort n p [1, 2] = true → exec (.pdelayInterval n p) s = .next (s.onWire 0 (32 * n + p) (Config.gptpFrame 1 p s.epoch))))
    ∧ (∀ da db dab : Int, s.safeUp = true → ∃ t, exec (.refWindowEnd da db dab) s = .next t ∧ t.rd Reg.CLK_DRIFT_A [] = sat32 da ∧ t.rd Reg.CLK_DRIFT_B [] = sat32 db
        ∧ t.rd Reg.CLK_DRIFT_AB [] = sat32 dab ∧ (dab.natAbs ≤ 10000 → t.rd Reg.CLK_REF_DISAGREE [] = 0) ∧ t.mem = s.mem)
    ∧ (∀ b, s.safeUp = true → ∃ t, exec (.crystalEdgeLoss b) s = .next t ∧ t.refOk b = false ∧ t.mem = s.mem
        ∧ (s.onB = b → s.refOk (!b) = true → t.onB = !b ∧ 11 ∈ t.saf.lines ∧ t.rd Reg.CLK_REF_DEGRADED [] = 0))
    ∧ (s.safeUp = true → exec .xtal32EdgeLoss s = .next (s.wr Reg.CLK_REF_J32_OK [] 0) ∧ exec .xtal32EdgesResume s = .next (s.wr Reg.CLK_REF_J32_OK [] 1))
    ∧ (s.clk.fresh = true → exec .validSyncAgeExpiry s = .next (State.updateQ { s with clk := { s.clk with fresh := false, offsets := [] } }))
    ∧ (s.clk.synced = true → s.clk.fresh = false → exec .holdoverExpiry s = .next (State.updateQ { s with clk := { s.clk with held := true } }))
    ∧ s.updateQ.quality = s.qCode
    ∧ (∀ f, (s.clk.apcGoal = some f → exec (.frequencyChangeDone false) s = .next { s.wr Reg.CLK_DOM_MHZ [2] f with clk := { s.clk with apcGoal := none } })
        ∧ (s.clk.gfxGoal = some f → exec (.frequencyChangeDone true) s = .next { s.wr Reg.CLK_DOM_MHZ [6] f with clk := { s.clk with gfxGoal := none } }))
    ∧ (∀ tag, (s.epochGo tag).clk.epoch = s.rdPair Reg.CLK_EPOCH_SET_LO Reg.CLK_EPOCH_SET_HI [] ∧ (s.epochGo tag).clk.unset = false)
    ∧ s.rtcSync.rtc = s.clk.epoch * 32768 / 1000000000 % 2 ^ 48 ∧ s.rtcSync.rd Reg.CLK_RTC_VALID [] = 1
    ∧ (∀ tag, s.rd Reg.CLK_REF_SEL [] = s.rd Reg.CLK_REF_ACTIVE [] → s.refSel tag = s)

/-- Events latch with their reactions, the island keeps its watchdog and injections, and authority moves only by R517 to R519. (R512; R514; R515; R516; R517; R518; R519; R521; R525; R526; R528; R529) -/
def Obligations.SafetyEventsAndAuthority : Prop :=
  ∀ (s : State),
    (∀ e, s.safeUp = true → e < 28 → e ∈ s.saf.lines → e ∉ s.saf.underInjection →
        (s.latched e = true → exec (.fcuLatch e) s = .next (s.dropLine e)) ∧ (s.latched e = false → exec (.fcuLatch e) s = .next ((s.dropLine e).latch e)))
    ∧ (∀ e, s.safeUp = true → e < 28 → e ∉ s.saf.lines → (e ∉ outerEvents → exec (.fcuLatch e) s = .next s)
        ∧ (e ∈ outerEvents → e ∉ s.saf.underInjection → s.latched e = false → (e < 19 ∨ s.boot.mainUp = true) → exec (.fcuLatch e) s = .next (((s.asserts e).dropLine e).latch e))
        ∧ (19 ≤ e → s.boot.mainUp = false → exec (.fcuLatch e) s = .next s))
    ∧ (s.saf.islandRun = false → ∀ off v, exec (.registerWrite (.island off v)) s = .next s)
    ∧ (s.saf.islandRun = true → ∀ v,
        exec (.registerWrite (.island 0x04 v)) s = .next { s with saf := { s.saf with evtMsg := v % 2 ^ 32 } }
        ∧ (bitAt v 0 = true → exec (.registerWrite (.island 0x08 v)) s = .next (s.setAuth true 0x40)) ∧ (bitAt v 0 = false → exec (.registerWrite (.island 0x08 v)) s = .next s)
        ∧ exec (.registerWrite (.island 0x0C v)) s = .next (s.wr Reg.SAF_STAT_CONSENT [] (v % 2)) ∧ exec (.registerWrite (.island 0x10 v)) s = .next (s.kick v)
        ∧ (s.saf.kicked = true → exec (.registerWrite (.island 0x14 v)) s = .next s)
        ∧ (s.saf.kicked = false → 1 ≤ v % 256 → v % 256 ≤ 100 → exec (.registerWrite (.island 0x14 v)) s = .next { s with saf := { s.saf with wdogMs := v % 256 } })
        ∧ exec (.registerWrite (.island 0x00 v)) s = .next (s.answer .denied 0) ∧ exec (.registerWrite (.island 0x18 v)) s = .next (s.answer .denied 0))
    ∧ (∀ e, e < 28 → (s.latch e).latched e = true ∧ (s.latch e).rd Reg.SAF_EVT_COUNT [e] = satTo 16 (s.rd Reg.SAF_EVT_COUNT [e] + 1)
        ∧ (2 ≤ s.react e → (s.latch e).dusk = true) ∧ (s.react e = 4 → (s.latch e).rd Reg.SAF_STAT_ISL_FAIL [] = 1 ∧ (s.latch e).saf.faultN = false ∧ (s.latch e).saf.islandRun = false))
    ∧ (∀ e, e ≤ 3 ∨ e = 26 → s.eventClr e = s)
    ∧ (∀ e, e < 28 → 3 < e → e ∉ [5, 12, 13, 16, 17, 20, 22, 24, 26] → s.latched e = true → s.eventClr e = s.wr Reg.SAF_EVT_LATCH [e] 0 ∧ (s.eventClr e).latched e = false)
    ∧ (s.saf.islandRun = true → exec .take s = .next (s.setAuth true 0x40) ∧ (s.setAuth true 0x40).dusk = true)
    ∧ (∀ v, s.saf.islandRun = true → v % 2 ^ 16 = (s.saf.lastKick + 1) % 2 ^ 16 →
        exec (.wdogKick v) s = .next { s with saf := { s.saf with kicked := true, lastKick := v % 2 ^ 16 } })
    ∧ (∀ v, v % 2 ^ 16 ≠ (s.saf.lastKick + 1) % 2 ^ 16 → exec (.wdogKick v) s = .next s)
    ∧ (s.saf.islandRun = true → exec .islandWatchdogExpiry s = .next (s.raise 3)) ∧ (∀ e, e ∈ (s.raise e).saf.lines)
    ∧ (s.flag Reg.SAF_HB_CFG_EN [] = true → s.saf.hbAny = false → ∀ last v,
        (v = (last + 1) % 2 ^ 16 → s.saf.hbTime + s.rd Reg.SAF_HB_CFG_MIN_MS [] * 1000000 ≤ s.now →
          (s.heartbeat last v).rd Reg.SAF_HB_SEQ [] = v ∧ (s.heartbeat last v).saf.hbCount = s.saf.hbCount + 1 ∧ (s.heartbeat last v).saf.hbTime = s.now)
        ∧ (v ≠ (last + 1) % 2 ^ 16 ∨ s.now < s.saf.hbTime + s.rd Reg.SAF_HB_CFG_MIN_MS [] * 1000000 → s.heartbeat last v = s.raise 4))
    ∧ (s.flag Reg.SAF_HB_CFG_EN [] = true → s.boot.mainUp = true → s.flag Reg.SAF_RST_PARKED [] = false → exec .heartbeatTimeout s = .next (s.raise 4))
    ∧ (s.mayReturn = true → ∃ t, exec .authorityReturn s = .next t ∧ t.dusk = false ∧ t.rd Reg.NET_AAS_REQ_MAIN [] = 0 ∧ t.rd Reg.SAF_STAT_CONSENT [] = 0 ∧ t.mem = s.mem)
    ∧ (s.mayReturn = false → exec .authorityReturn s = .next s)
    ∧ (∀ e still, e ∈ s.saf.underInjection →
        let u : State := { s with saf := { s.saf with underInjection := s.saf.underInjection.filter (· ≠ e) } }
        (e ∉ s.saf.lines → exec (.injectionResample e still) s = .next u)
        ∧ (e ∈ s.saf.lines → still = true → s.latched e = false → exec (.injectionResample e still) s = .next ((u.dropLine e).latch e))
        ∧ (e ∈ s.saf.lines → still = false → exec (.injectionResample e still) s = .next (u.dropLine e)))
    ∧ (∀ groups, s.safeUp = true →
        (s.boot.mainUp = true → ∃ t, exec (.startupInjection true groups []) s = .next t ∧ t.rd Reg.SAF_STAT_INJ_DONE [] = 1 ∧ t.saf.mainInjected = true ∧ t.mem = s.mem)
        ∧ (s.saf.islandRun = true → ∃ t, exec (.startupInjection false groups []) s = .next t ∧ t.dusk = true ∧ t.saf.faultN = true ∧ t.mem = s.mem)
        ∧ (∀ fails g, g ∈ groups → g ∈ fails → s.boot.mainUp = true → ∃ t, exec (.startupInjection true groups fails) s = .next t ∧ 25 ∈ t.saf.lines))
    ∧ (∀ g evs ok d, s.safeUp = true → g < 64 → ∃ t, exec (.runtimeInjection g evs ok d) s = .next t ∧ t.rd Reg.SAF_INJ_OK [g] = (if ok then 1 else 0)
        ∧ (∀ e ∈ evs, e ∈ t.saf.underInjection) ∧ (ok = false → (if d then 26 else 25) ∈ t.saf.lines) ∧ t.mem = s.mem)
    ∧ (s.saf.islandRun = true → s.saf.faultN = true → 3 ∉ s.saf.lines → exec .hbOutToggle s = .next { s with saf := { s.saf with hbOut := !s.saf.hbOut } })

/-- A record fills its slot and moves SEQ on, alarms latch, wreck buffers capture, freeze, restart and are dumped. (R531; R532; R533; R539; R542; R543; R544; R545; R547; R548) -/
def Obligations.AlmanacRingAndWreckBuffers : Prop :=
  ∀ (s : State),
    (∀ r rest, s.alm.intake = r :: rest → exec .almanacRecord s = .next (State.putRecord { s with alm := { s.alm with intake := rest } } r))
    ∧ (∀ r, (s.putRecord r).rd Reg.ALM_SEQ [] = (s.rd Reg.ALM_SEQ [] + 1) % 2 ^ 32 ∧ bytesWithin s (s.putRecord r) (slotAddr (s.rd Reg.ALM_SEQ [])) 32)
    ∧ (∀ src, src < 7 → s.pwr.pwrGood = false → s.pwr.vbat = 0 →
        (bitAt (s.rd Reg.ALM_BK_EN []) src = false → exec (.backupAlarm src none) s = .next s)
        ∧ (bitAt (s.rd Reg.ALM_BK_EN []) src = true → (∀ x ∈ s.alm.bkLast, x.1 = src → x.2 + 1000000000 ≤ s.now) →
            ∃ t, exec (.backupAlarm src none) s = .next t ∧ bitAt (t.rd Reg.ALM_BK_LATCH []) src = true ∧ t.rd Reg.ALM_STAT_BK_PENDING [] = 1
              ∧ t.rd Reg.ALM_SEQ [] = (s.rd Reg.ALM_SEQ [] + 1) % 2 ^ 32 ∧ bytesWithin s t (slotAddr (s.rd Reg.ALM_SEQ [])) 32))
    ∧ s.bkAck.rd Reg.ALM_BK_LATCH [] = 0 ∧ s.bkAck.rd Reg.ALM_STAT_BK_PENDING [] = 0
    ∧ (∀ x, nextTrigger s.alm.triggers = some x → ∃ t, exec .wreckTrigger s = .next t ∧ t.alm.triggers = s.alm.triggers.erase x ∧ t.mem = s.mem ∧ wordsWithin s t [0x12]
        ∧ ((∀ d ∈ dies s.fuses, s.rd Reg.ALM_WRECK_STATE [d] = 0) → ∀ d ∈ dies s.fuses, t.rd Reg.ALM_WRECK_STATE [d] = 1 ∧ t.rd Reg.ALM_WRECK_CAUSE [d] = x.1 % 2 ^ 4)
        ∧ ((∃ d ∈ dies s.fuses, s.rd Reg.ALM_WRECK_STATE [d] ≠ 0) → ∀ d, d < 5 → t.rd Reg.ALM_WRECK_STATE [d] = s.rd Reg.ALM_WRECK_STATE [d]))
    ∧ (∀ d, d ∈ dies s.fuses → s.rd Reg.ALM_WRECK_STATE [d] = 1 → (s.wreck d).left = 0 → ∃ t, exec (.wreckFreeze d) s = .next t ∧ t.rd Reg.ALM_WRECK_STATE [d] = 2 ∧ t.mem = s.mem)
    ∧ (∀ d, d ∈ dies s.fuses → (s.wreckRearm d).rd Reg.ALM_WRECK_STATE [d] = 0 ∧ (s.wreckRearm d).wreck d = {})
    ∧ s.dumpGo.rd Reg.ALM_DUMP_DONE [] = 0 ∧ s.dumpGo.alm.dump = some (s.rd Reg.ALM_DUMP_DIE [], s.rdPair Reg.ALM_DUMP_ADDR_LO Reg.ALM_DUMP_ADDR_HI [])
    ∧ (∀ d a st t, s.alm.dump = some (d, a) → s.fresh partyAlmanac = true →
        ((s.inRun partyAlmanac).dumpBytes d).2.dmaWrite { tag := 34, pid := 0, src := .xd 0, kind := .write, firm := true } a ((s.inRun partyAlmanac).dumpBytes d).1 = (st, t) → t.fab.stall = none →
        let u := (t.wr Reg.ALM_DUMP_STATUS [] (statusCode st)).wr Reg.ALM_DUMP_DONE [] 1
        exec .dumpDone s = .next ((State.send { u with alm := { u.alm with dump := none } } 0 (u.rd Reg.ALM_CTRL_VEC [])).ended partyAlmanac) ∧ u.rd Reg.ALM_DUMP_DONE [] = 1)

/-- Cold boot, warm reset and restart, power loss and the pins that reset take the effect of their rules. (R522; R524; R549; R551; R557; R564; R565; R567; R569; R606; R607; R617) -/
def Obligations.ResetsBootAndPowerSupply : Prop :=
  ∀ (s : State),
    (∀ f, s.pwr.porstN = false → s.pwr.pwrGood = true →
        let a : State := { s with pwr := { s.pwr with porstN := true, porstAt := s.now, driven := none }, boot := { s.boot with cold := true } }
        let b := (a.startEpoch.powerUpRecord.wr Reg.BOOT_STAT_SLOW [] (if f.fast then 0 else 1)).wr Reg.BOOT_STAT_PHASE [] 1
        let c := ((b.restoreWear.hardRepair.newKeys.loadDusk f).releaseMain.senseWarmRst.startMonitor f).loadMain f [2, 4, 5]
        exec (.coldBoot f) s = .next c.finishLoad ∧ (f.readable = false → c.cmp.state = 2 ∧ c.rd Reg.BOOT_STAT_PHASE [] = 6 ∧ 20 ∈ c.saf.lines))
    ∧ (s.boot.mainUp = true → s.rd Reg.BOOT_STAT_PHASE [] = 4 → ∃ t, exec .supervisorRunning s = .next t ∧ t.rd Reg.BOOT_STAT_PHASE [] = 5 ∧ t.cmp.state = 1
        ∧ t.boot.cold = false ∧ t.boot.warm = false ∧ (t.hart 0).pc = 0x1000 + s.boot.entry ∧ tget 0 (t.hart 0).x 11 = 0x1000 ∧ t.mem = s.mem)
    ∧ (∀ e, s.saf.restart = some e → s.boot.mainUp = true → ∃ t, exec .warmResetAssert s = .next t ∧ t.boot.mainUp = false ∧ t.fuses = s.fuses ∧ t.msgs = [] ∧ t.hbm.cache = []
        ∧ t.mem = s.flushAll.mem ∧ t.hbm.lines = s.flushAll.hbm.lines ∧ t.saf.restart = none
        ∧ (s.recentRestarts.length + 1 ≤ s.rd Reg.SAF_RST_MAX [] → t.boot.warm = true ∧ t.saf.restarts = s.recentRestarts ++ [s.now])
        ∧ (s.rd Reg.SAF_RST_MAX [] < s.recentRestarts.length + 1 → t.boot.warm = false))
    ∧ (s.hbm.cache = [] → s.flushAll = s) ∧ (s.rewakeMonitor false).rd Reg.ENC_MON_STATE [] = 2
    ∧ (∀ f verified, s.boot.warm = true → s.boot.mainUp = false → s.boot.failed = false → s.pwr.tripHold = false → s.pwr.warmRstN = true → s.safeUp = true →
        let a := s.releaseMain
        let b : State := { a with hbm := { a.hbm with verifying := true } }
        exec (.warmRestart f verified) s = .next (((b.wr Reg.BOOT_STAT_SLOW [] (if f.fast then 0 else 1)).rewakeMonitor verified).loadMain f [2, 5]))
    ∧ (s.safeUp = true → s.pwr.warmRstN = true → ∃ t, exec .warmRstNAssert s = .next t ∧ t.pwr.warmRstN = false ∧ 24 ∈ t.saf.lines ∧ t.words = s.words ∧ t.mem = s.mem)
    ∧ exec .warmRstNRelease s = .next { s with pwr := { s.pwr with warmRstN := true } }
    ∧ (∀ v, s.pwr.pwrGood = true → ∃ t, exec (.powerLoss v) s = .next t ∧ t.pwr.pwrGood = false ∧ t.pwr.porstN = false ∧ t.boot.mainUp = false ∧ t.pwr.vbat = min v 2
        ∧ t.fuses = s.fuses ∧ t.pending = s.pending ∧ t.now = s.now)
    ∧ (s.pwr.porstN = true → s.pwr.pwrGood = true → ∃ t, exec .porstNAssert s = .next t ∧ t.pwr.porstN = false ∧ t.pwr.pwrGood = true ∧ t.boot.mainUp = false ∧ t.boot.nextCause = 0
        ∧ t.fuses = s.fuses ∧ (∀ x, 0x3300_0000 ≤ x → x < 0x3304_0000 → memByte t.mem x = memByte s.mem x))
    ∧ (s.pwr.pwrGood = false → exec .pwrGoodRise s = .next { s with pwr := { s.pwr with pwrGood := true } })
    ∧ (∀ lost, s.pwr.pwrGood = false → ∃ t, exec (.vbatBkpFall lost) s = .next t ∧ t.rd Reg.CLK_RTC_VALID [] = 0 ∧ t.pwr.vbat = max s.pwr.vbat (if lost then 2 else 1))
    ∧ (∀ i, i < 32 → s.flag Reg.BOOT_IRST_BUSY [i] = true → ∃ t, exec (.instanceResetDone i) s = .next t ∧ t.rd Reg.BOOT_IRST_BUSY [i] = 0
        ∧ t.rd Reg.BOOT_IRST_COUNT [i] = satTo 16 (s.rd Reg.BOOT_IRST_COUNT [i] + 1) ∧ t.mem = s.mem ∧ wordsWithin s t [0x13])
    ∧ (∀ k v, k < 5 → v < 64 → (s.svnAdv k v).rd Reg.BOOT_SVN_MIN [k] = v ∧ (s.svnAdv k v).fuses.svnMin.getD k 0 = v ∧ (s.svnAdv k v).mem = s.mem)
    ∧ (∀ h, 1 ≤ h → h ≤ 15 → bitAt (s.rd Reg.BOOT_CTRL_HART_GO []) (h - 1) = true → h ∉ s.boot.released →
        h ∈ (s.hartGo h).boot.released ∧ ((s.hartGo h).hart h).pc = s.bootAddr (h / 4) ∧ (s.hartGo h).hartGo h = s.hartGo h)
    ∧ (∀ i, i < 32 → (∀ e ∈ (s.instanceReset i).ttu.tlb, e.tag ≠ i) ∧ (∀ q ∈ (s.instanceReset i).orr.waiting, q.tag ≠ i)
        ∧ (∀ k, k < 64 → (s.instanceReset i).rd Reg.APC_IPEND [i, k] = 0))

/-- Wear samples and the log, power domains, regulators, thermal levels and boundary scan take the effect of their rules. (R574; R577; R579; R583; R586; R590; R592; R595; R598; R602; R606; R625) -/
def Obligations.WearPowerAndPins : Prop :=
  ∀ (s : State),
    (∀ temps, s.pwr.pwrGood = true → s.svc.activeSec + 1 < 3600 → (∀ d, d < 5 → s.rd Reg.SVC_EM [d] < 758000000) →
        ∃ t, exec (.emSample temps) s = .next t ∧ t.rd Reg.SVC_EM [0] = s.rd Reg.SVC_EM [0] + emUnits (temps.getD 0 0) ∧ t.svc.activeSec = s.svc.activeSec + 1 ∧ t.mem = s.mem)
    ∧ (emUnits 60 = 1 ∧ emUnits 61 = 6 ∧ emUnits 85 = 6 ∧ emUnits 86 = 20 ∧ emUnits 100 = 20 ∧ emUnits 101 = 52)
    ∧ (∀ ages, s.pwr.pwrGood = true → (∀ m, m < 16 → satTo 8 (ages.getD m (s.rd Reg.SVC_AGE [m])) < 50) →
        ∃ t, exec (.ageingSample ages) s = .next t ∧ (∀ m, m < 16 → t.rd Reg.SVC_AGE [m] = satTo 8 (ages.getD m (s.rd Reg.SVC_AGE [m]))) ∧ t.mem = s.mem)
    ∧ (s.pwr.pwrGood = true → ∃ t, exec (.wearLogWrite true) s = .next t ∧ t.rd Reg.SVC_LOG_SEQ [] = (s.rd Reg.SVC_LOG_SEQ [] + 1) % 2 ^ 32 ∧ t.svc.log.isSome = true ∧ t.svc.fails = 0)
    ∧ (s.pwr.pwrGood = true → s.svc.fails = 0 → exec (.wearLogWrite false) s = .next { s with svc := { s.svc with fails := 1 } })
    ∧ (s.pwr.pwrGood = true → exec .replaceFramePeriod s = .next s.sendReplaceFrame ∧ (s.replaceActive = false → s.sendReplaceFrame = s))
    ∧ (s.pwr.pwrGood = false → s.pwr.vbat = 0 → s.rd Reg.SVC_HOURS_STANDBY [] + 1 < 110000 → exec .standbyHour s = .next (s.incSat Reg.SVC_HOURS_STANDBY [] 1))
    ∧ (∀ k, k < 12 → (s.rd Reg.PWR_PD_STATE [k] = 0 → s.pdRequest k 1 = s.wr Reg.PWR_PD_STATE [k] 1) ∧ (s.rd Reg.PWR_PD_STATE [k] = 2 → s.pdRequest k 0 = s.wr Reg.PWR_PD_STATE [k] 3)
        ∧ (s.rd Reg.PWR_PD_STATE [k] = 2 → (s.pdRequest k 1).words = s.words))
    ∧ (∀ k, 4 ≤ k → k ≤ 8 → s.boot.mainUp = true → (∀ e ∈ s.pwr.nextReq, e.1 ≠ k) →
        (s.rd Reg.PWR_PD_STATE [k] = 1 → ∃ t, exec (.domainTransitionDone k) s = .next t ∧ t.rd Reg.PWR_PD_STATE [k] = 2
            ∧ t.rd Reg.PWR_PD_ON_COUNT [k] = satTo 16 (s.rd Reg.PWR_PD_ON_COUNT [k] + 1) ∧ t.mem = s.mem)
        ∧ (s.rd Reg.PWR_PD_STATE [k] = 3 → ∃ t, exec (.domainTransitionDone k) s = .next t ∧ t.rd Reg.PWR_PD_STATE [k] = 0 ∧ t.mem = s.mem))
    ∧ (∀ k, k < 12 → s.safeUp = true → s.boot.mainUp = true → s.domainOn k = true → exec (.railOutOfRange k) s = .next (s.raise 23))
    ∧ (∀ r, r < 2 → s.safeUp = true → s.flag Reg.PWR_AVS_FAIL [] = false → exec (.avsVoltageWrite r) s =
        .next { s with pwr := { s.pwr with avsGoal := tput s.pwr.avsGoal r (Config.avsTarget r (s.railFreq r) s.hottest % 2 ^ 10) } })
    ∧ (∀ r v, s.pwr.avsGoal.find? (fun e => e.1 = r) = some (r, v) →
        let a : State := { s with pwr := { s.pwr with avsGoal := tdel s.pwr.avsGoal r } }
        let b := a.wr (if r = 1 then Reg.PWR_AVS_CPU else Reg.PWR_AVS_CORE) [] v
        exec (.avsAcknowledge r true) s = .next (State.allowRise { b with pwr := { b.pwr with avsTries := b.pwr.avsTries.filter (fun e => e.1 ≠ r) } } r)
        ∧ ∃ t, exec (.avsAcknowledge r false) s = .next t ∧
            (2 ≤ ((s.pwr.avsTries.filter (fun e => s.now < e.2 + 1000000)).filter (fun e => e.1 = r)).length → t.rd Reg.PWR_AVS_FAIL [] = 1))
    ∧ (∀ off x, levelOf logicThresholds off x = if (114 - off) * 8 ≤ x then 3 else if (111 - off) * 8 ≤ x then 2 else if (108 - off) * 8 ≤ x then 1 else 0)
    ∧ (∀ cd xds hbmStacks, s.safeUp = false → exec (.thermalSample cd xds hbmStacks) s = .next s)
    ∧ (∀ cd xds hbmStacks, s.safeUp = true →
        let a := s.countLevel (s.rd Reg.PWR_THERM_LEVEL [])
        let temps := cd :: xds.take s.fuses.variant.xds
        let hbms := hbmStacks.take s.fuses.variant.hbmStacks
        let off := a.rd Reg.PWR_THERM_OFFSET []
        let b := temps.zipIdx.foldl (fun u e => (u.wr Reg.PWR_TEMP [e.2] (wrapTo 12 e.1)).feedCycle e.2 e.1) a
        let c := hbms.zipIdx.foldl (fun u e => u.wr Reg.PWR_HBMT_T [e.2] (wrapTo 12 e.1)) b
        let d := hbms.zipIdx.foldl (fun u e => u.setStackLevel e.2 (max (u.rd Reg.PWR_HBMT_LEVEL [e.2]) (levelOf stackThresholds off e.1))) c
        let f := d.setLogicLevel (max (d.rd Reg.PWR_THERM_LEVEL []) (levelOf logicThresholds off (temps.foldl max cd)))
        ((960 ≤ temps.foldl max cd ∨ ∃ x ∈ hbms, 856 ≤ x) → exec (.thermalSample cd xds hbmStacks) s = .next f.thermalTrip)
        ∧ (temps.foldl max cd < 960 → (∀ x ∈ hbms, x < 856) → exec (.thermalSample cd xds hbmStacks) s = .next f))
    ∧ (∀ l, l < 4 → l ≠ s.rd Reg.PWR_THERM_LEVEL [] → (s.setLogicLevel l).rd Reg.PWR_THERM_LEVEL [] = l ∧ (s.setLogicLevel l).rd Reg.PWR_DERATE_TILE [] = [8, 8, 6, 4].getD l 4
        ∧ (l = 3 → 22 ∈ (s.setLogicLevel l).saf.lines))
    ∧ (s.pwr.tripHold = false → s.thermalTrip.pwr.tripHold = true ∧ s.thermalTrip.rd Reg.PWR_THERM_TRIP [] = 1 ∧ s.thermalTrip.dusk = true ∧ s.thermalTrip.latched 22 = true
        ∧ (s.boot.mainUp = true → s.thermalTrip.saf.restart = some 22))
    ∧ (s.safeUp = true → coolEnough logicThresholds (s.rd Reg.PWR_THERM_OFFSET []) (s.rd Reg.PWR_THERM_LEVEL []) s.hottest = true →
        exec (.thermalLevelFall none) s = .next (s.setLogicLevel (s.rd Reg.PWR_THERM_LEVEL [] - 1)))
    ∧ (s.pwr.tripHold = true → s.hottest ≤ 800 → (∀ k, k < s.fuses.variant.hbmStacks → signedOf 12 (s.rd Reg.PWR_HBMT_T [k]) ≤ 760) →
        exec .thermalTripRelease s = .next { s with pwr := { s.pwr with tripHold := false } })
    ∧ (∀ pins bits, s.pwr.porstN = false → s.pwr.pwrGood = true →
        exec (.extest pins bits) s = .next { s with pwr := { s.pwr with jtag := 3, tdo := pins, chain := bits, driven := some bits } }
        ∧ exec (.samplePreload pins bits) s = .next { s with pwr := { s.pwr with jtag := 2, tdo := pins, chain := bits, driven := none } }
        ∧ (∃ t, exec (.bypass bits) s = .next t ∧ t.pwr.tdo = (false :: bits).take bits.length ∧ t.pwr.driven = none)
        ∧ (∃ t, exec .idcode s = .next t ∧ t.pwr.tdo.length = 32 ∧ t.pwr.driven = none))
    ∧ (∀ pins bits, (s.pwr.porstN = true ∨ s.pwr.pwrGood = false) → exec (.extest pins bits) s = .next s ∧ exec (.bypass bits) s = .next s)

/-- After reset every word of the state spaces reads its reset value at the first and the last element, and every unit is idle. (22; Table index.1; R10; log entry 1; log entry 24) -/
def Obligations.ResetState : Prop :=
  (∀ sp, sp < 0x16 → ∀ r ∈ Reg.rowsOf sp, ∀ v, r.reset = .const v →
      State.reset.rd r (r.dims.map (fun _ => 0)) = v ∧ State.reset.rd r (r.dims.map (fun d => d.2 - 1)) = v)
  ∧ (∀ a, memByte State.reset.mem a = 0) ∧ State.reset.pending = [] ∧ State.reset.msgs = []
  ∧ (∀ n, (State.reset.ctx n).run = .idle ∧ (State.reset.ctx n).wait = none ∧ (State.reset.ctx n).staged = [] ∧ ∀ r, (State.reset.ctx n).k r = 0)
  ∧ State.reset.boot.mainUp = false ∧ State.reset.pwr.porstN = false ∧ State.reset.pwr.pwrGood = true ∧ State.reset.cmp.jobs = []

/-- No command changes the queue of the commands that wait. (ISA_SPEC.md chapter 02; log entry 26) -/
def Obligations.CommandsLeaveTheQueue : Prop :=
  ∀ (c : Instr) (s t : State), exec c s = .next t → t.pending = s.pending
end

