-- ==== Sys2Proof/Laws/Sparse.lean ====
section
/-! SUPPORT. Laws of the sparse tables: a read after a write, and the canonical form. -/

namespace Sys2Proof.Machine

theorem tget_tdel_ne {α : Type} (d : α) (t : List (Nat × α)) {k k' : Nat} (h : k' ≠ k) :
    tget d (tdel t k) k' = tget d t k' := by
  induction t with
  | nil => rfl
  | cons e t ih =>
    obtain ⟨a, v⟩ := e
    by_cases ha : a = k
    · subst ha
      have hne : ¬ a = k' := fun hk => h hk.symm
      simpa [tdel, tget, hne] using ih
    · by_cases hk : a = k'
      · subst hk; simp [tdel, tget, ha]
      · simpa [tdel, tget, ha, hk] using ih

theorem tget_tdel_same {α : Type} (d : α) (t : List (Nat × α)) (k : Nat) : tget d (tdel t k) k = d := by
  induction t with
  | nil => rfl
  | cons e t ih =>
    obtain ⟨a, v⟩ := e
    by_cases ha : a = k
    · subst ha; simpa [tdel] using ih
    · simpa [tdel, tget, ha] using ih

theorem tget_tins_ne {α : Type} (d : α) (t : List (Nat × α)) {k k' : Nat} (v : α) (h : k' ≠ k) :
    tget d (tins k v t) k' = tget d t k' := by
  have hk : ¬ k = k' := fun e => h e.symm
  induction t with
  | nil => simp [tins, tget, hk]
  | cons e t ih =>
    by_cases hlt : k < e.1
    · simp [tins, hlt, tget, hk]
    · simp only [tins, hlt, if_false, tget, ih]

theorem tget_tins_same {α : Type} (d : α) (t : List (Nat × α)) (k : Nat) (v : α) :
    tget d (tins k v (tdel t k)) k = v := by
  induction t with
  | nil => simp [tdel, tins, tget]
  | cons e t ih =>
    obtain ⟨a, w⟩ := e
    by_cases ha : a = k
    · subst ha; simpa [tdel] using ih
    · have hd : tdel ((a, w) :: t) k = (a, w) :: tdel t k := by simp [tdel, ha]
      rw [hd]
      by_cases hlt : k < a
      · simp [tins, hlt, tget]
      · simp [tins, hlt, tget, ha, ih]

/-- A read after a write to the same key gives the value written. -/
@[simp] theorem tget_tput_same {α : Type} (d : α) (t : List (Nat × α)) (k : Nat) (v : α) :
    tget d (tput t k v) k = v := tget_tins_same d t k v

/-- A write leaves every other key alone. -/
theorem tget_tput_ne {α : Type} (d : α) (t : List (Nat × α)) {k k' : Nat} (v : α) (h : k' ≠ k) :
    tget d (tput t k v) k' = tget d t k' := by
  unfold tput; rw [tget_tins_ne d _ v h, tget_tdel_ne d t h]

@[simp] theorem tget_tputD_same {α : Type} [DecidableEq α] (d : α) (t : List (Nat × α)) (k : Nat) (v : α) :
    tget d (tputD d t k v) k = v := by
  unfold tputD
  by_cases h : v = d
  · simp [h, tget_tdel_same]
  · simp [h]

theorem tget_tputD_ne {α : Type} [DecidableEq α] (d d' : α) (t : List (Nat × α)) {k k' : Nat} (v : α)
    (h : k' ≠ k) : tget d (tputD d' t k v) k' = tget d t k' := by
  unfold tputD
  by_cases hv : v = d'
  · simp [hv, tget_tdel_ne d t h]
  · simp [hv, tget_tput_ne d t v h]

theorem tsorted_iff {α : Type} (t : List (Nat × α)) :
    tsorted t = true ↔ t.Pairwise (fun a b => a.1 < b.1) := by
  induction t with
  | nil => simp [tsorted]
  | cons e t ih =>
    cases t with
    | nil => simp [tsorted]
    | cons e' t' =>
      rw [tsorted, Bool.and_eq_true, ih]
      constructor
      · rintro ⟨h1, h2⟩
        have h1' : e.1 < e'.1 := by simpa using h1
        refine List.pairwise_cons.2 ⟨fun b hb => ?_, h2⟩
        rcases List.mem_cons.1 hb with rfl | hb
        · exact h1'
        · exact Nat.lt_trans h1' ((List.pairwise_cons.1 h2).1 b hb)
      · intro h
        exact ⟨by simpa using (List.pairwise_cons.1 h).1 e' (by simp), (List.pairwise_cons.1 h).2⟩

theorem pairwise_tdel {α : Type} {t : List (Nat × α)} (k : Nat) (h : t.Pairwise (fun a b => a.1 < b.1)) :
    (tdel t k).Pairwise (fun a b => a.1 < b.1) := h.filter _

theorem mem_tdel {α : Type} {t : List (Nat × α)} {k : Nat} {e : Nat × α} (h : e ∈ tdel t k) :
    e ∈ t ∧ e.1 ≠ k := by
  simpa [tdel] using h

theorem mem_tins {α : Type} {t : List (Nat × α)} {k : Nat} {v : α} {e : Nat × α} (h : e ∈ tins k v t) :
    e = (k, v) ∨ e ∈ t := by
  induction t with
  | nil => simpa [tins] using h
  | cons a t ih =>
    by_cases hlt : k < a.1
    · simpa [tins, hlt] using h
    · simp only [tins, hlt, if_false, List.mem_cons] at h
      rcases h with h | h
      · exact .inr (by simp [h])
      · rcases ih h with h | h
        · exact .inl h
        · exact .inr (by simp [h])

theorem pairwise_tins {α : Type} {t : List (Nat × α)} {k : Nat} (v : α)
    (h : t.Pairwise (fun a b => a.1 < b.1)) (hk : ∀ e ∈ t, e.1 ≠ k) :
    (tins k v t).Pairwise (fun a b => a.1 < b.1) := by
  induction t with
  | nil => simp [tins]
  | cons a t ih =>
    obtain ⟨h1, h2⟩ := List.pairwise_cons.1 h
    by_cases hlt : k < a.1
    · simp only [tins, hlt, if_true]
      refine List.pairwise_cons.2 ⟨?_, h⟩
      intro b hb
      rcases List.mem_cons.1 hb with rfl | hb
      · exact hlt
      · exact Nat.lt_trans hlt (h1 b hb)
    · simp only [tins, hlt, if_false]
      have hak : a.1 < k := by
        have := hk a (by simp); omega
      refine List.pairwise_cons.2 ⟨?_, ih h2 (fun e he => hk e (by simp [he]))⟩
      intro b hb
      rcases mem_tins hb with rfl | hb
      · exact hak
      · exact h1 b hb

/-- The keys stay strictly rising under a write. -/
theorem tsorted_tput {α : Type} {t : List (Nat × α)} (k : Nat) (v : α) (h : tsorted t = true) :
    tsorted (tput t k v) = true := by
  rw [tsorted_iff] at *
  exact pairwise_tins v (pairwise_tdel k h) (fun e he => (mem_tdel he).2)

/-- A write keeps the canonical form. -/
theorem tcanon_tputD {α : Type} [DecidableEq α] {d : Nat → α} {t : List (Nat × α)} (k : Nat) (v : α)
    (h : tcanon d t = true) : tcanon d (tputD (d k) t k v) = true := by
  simp only [tcanon, Bool.and_eq_true, List.all_eq_true, decide_eq_true_eq] at *
  obtain ⟨hs, ha⟩ := h
  unfold tputD
  by_cases hv : v = d k
  · simp only [hv, if_true]
    refine ⟨?_, fun e he => ha e (mem_tdel he).1⟩
    rw [tsorted_iff] at *; exact pairwise_tdel k hs
  · simp only [hv, if_false]
    refine ⟨tsorted_tput k v hs, ?_⟩
    intro e he
    rcases mem_tins he with rfl | he
    · exact hv
    · exact ha e (mem_tdel he).1

end Sys2Proof.Machine
end

