-- ==== Sys2Proof/Laws/Atusk.lean ====
section
/-! SUPPORT. What the shared operations of the Atusk instructions do: when an instruction is issued, and the register file. -/

namespace Sys2Proof.Machine

/-- An instruction that executes normally has its own effect. -/
theorem issue_of_runs (s : State) (i : Issue) (opc : Nat) (body : AWord → Ctx → State) (h : s.runs i opc = true) :
    s.issue i opc body = .next (body (awordOf i.w) (s.ctx i.ctx)) := by
  unfold State.runs at h
  unfold State.issue
  cases hr : (s.ctx i.ctx).run with
  | idle => simp [hr] at h
  | ready => simp [hr] at h
  | waiting => simp [hr] at h
  | running k =>
    cases hp : (s.ctx i.ctx).prog with
    | none => simp [hr, hp] at h
    | some p =>
      simp only [hr, hp, Bool.and_eq_true, decide_eq_true_eq, Bool.or_eq_true, Bool.not_eq_true'] at h
      obtain ⟨⟨hc, ho⟩, ⟨⟨⟨⟨⟨he, hw⟩, hs⟩, hl⟩, hg⟩, hf⟩, hv⟩ := h
      have h1 : ¬ (i.ctx ≥ 64) := by omega
      have h2 : ¬ ((s.ctx i.ctx).pc ≥ p.len) := by omega
      have he' : p.ending.isSome = false := by simpa [Option.isNone_iff_eq_none, Option.isSome_iff_ne_none] using he
      have hw' : (s.ctx i.ctx).wait.isSome = false := by simpa [Option.isNone_iff_eq_none, Option.isSome_iff_ne_none] using hw
      have hg' : ((s.ctx i.ctx).granted.isNone && !s.mayServe 24 (s.ctxInst i.ctx)) = false := by
        rcases hg with hg | hg
        · obtain ⟨q, hq⟩ := Option.isSome_iff_exists.1 hg
          simp [hq]
        · simp [hg]
      have hv' : (decide (opc ≥ 0x70) && decide (i.ctx ≠ 0)) = false := by
        rcases hv with hv | hv
        · simp [Nat.not_le.2 hv]
        · simp [hv]
      rw [if_neg (by simp [h1, ho])]
      simp only [hr, hp]
      rw [if_neg (by simp [he', hw', hs, h2]), if_neg (by simp [hg']), if_neg (by simp [hf]), if_neg (by rw [hv']; simp)]

/-- K0 reads 0. -/
@[simp] theorem ctx_k_zero (c : Ctx) : c.k 0 = 0 := by simp [Ctx.k]

/-- A register reads as written, but for K0, and the others are left alone. -/
theorem ctx_k_setK (c : Ctx) (kd : Nat) (v : DWord) (r : Nat) : (c.setK kd v).k r = if r = kd ∧ r ≠ 0 then v else c.k r := by
  unfold Ctx.setK Ctx.k
  by_cases h0 : r = 0
  · simp [h0]
  · by_cases hk : kd = 0
    · have : r ≠ kd := by omega
      simp [hk, h0]
    · by_cases hr : r = kd
      · subst hr; simp [h0]
      · simp [h0, hk, hr, tget_tputD_ne _ _ _ _ hr]

end Sys2Proof.Machine
end

