-- ==== Sys2Proof/Laws/Keeps0.lean ====
section
/-! SUPPORT. The relation "keeps": the canonical form of the memory and of the state-space words is kept, and the queue stays as it is; with the first operations that have it. -/

namespace Sys2Proof.Machine

/-- Words and memory in canonical form. -/
def Canon (fz : Fuses) (w : List (Nat × Word)) (m : List Host.Cell) : Prop := tcanon (wordReset fz) w = true ∧ memoryWf m = true

/-- A state is followed by one that is canonical where it was, and has its queue. -/
abbrev Keeps (s t : State) : Prop := (Canon s.fuses s.words s.mem → Canon t.fuses t.words t.mem) ∧ t.pending = s.pending

theorem Canon.put {fz : Fuses} {w : List (Nat × Word)} {m : List Host.Cell} (h : Canon fz w m) (k : Nat) (v : Word) :
    Canon fz (tputD (wordReset fz k) w k v) m := ⟨tcanon_tputD _ _ h.1, h.2⟩

theorem memoryWf_memPut {m : List Host.Cell} (h : memoryWf m = true) (a : Nat) (b : Byte) : memoryWf (memPut m a b) = true :=
  tcanon_tputD (d := fun _ => (0 : Byte)) _ _ h

theorem memoryWf_memPutBytes {m : List Host.Cell} (h : memoryWf m = true) (a : Nat) (b : List Byte) : memoryWf (memPutBytes m a b) = true := by
  induction b generalizing m a with
  | nil => exact h
  | cons x xs ih => exact ih (memoryWf_memPut h a x) (a + 1)

theorem Canon.bytes {fz : Fuses} {w : List (Nat × Word)} {m : List Host.Cell} (h : Canon fz w m) (a : Nat) (b : List Byte) :
    Canon fz w (memPutBytes m a b) := ⟨h.1, memoryWf_memPutBytes h.2 a b⟩
grind_pattern Canon.bytes => Canon fz w m, memPutBytes m a b

theorem Canon.byte {fz : Fuses} {w : List (Nat × Word)} {m : List Host.Cell} (h : Canon fz w m) (a : Nat) (b : Byte) :
    Canon fz w (memPut m a b) := ⟨h.1, memoryWf_memPut h.2 a b⟩
grind_pattern Canon.byte => Canon fz w m, memPut m a b

theorem tcanon_filter {α : Type} [DecidableEq α] {d : Nat → α} {t : List (Nat × α)} (p : Nat × α → Bool) (h : tcanon d t = true) :
    tcanon d (t.filter p) = true := by
  simp only [tcanon, Bool.and_eq_true, List.all_eq_true] at h ⊢
  refine ⟨(tsorted_iff _).2 (((tsorted_iff _).1 h.1).filter _), fun e he => h.2 e (List.mem_filter.1 he).1⟩

theorem Canon.filterWords {fz : Fuses} {w : List (Nat × Word)} {m : List Host.Cell} (h : Canon fz w m) (p : Nat × Word → Bool) :
    Canon fz (w.filter p) m := ⟨tcanon_filter p h.1, h.2⟩
grind_pattern Canon.filterWords => Canon fz w m, w.filter p

theorem Canon.filterMem {fz : Fuses} {w : List (Nat × Word)} {m : List Host.Cell} (h : Canon fz w m) (p : Host.Cell → Bool) :
    Canon fz w (m.filter p) := ⟨h.1, tcanon_filter p h.2⟩
grind_pattern Canon.filterMem => Canon fz w m, m.filter p

theorem keeps_refl (s : State) : Keeps s s := ⟨id, rfl⟩

theorem Keeps.trans {s t u : State} (h : Keeps s t) (k : Keeps t u) : Keeps s u := ⟨fun c => k.1 (h.1 c), k.2.trans h.2⟩

/-- A fold that keeps at each element keeps. -/
theorem keeps_foldl {α β : Type} (g : β → State) (f : β → α → β) (hf : ∀ b a, Keeps (g b) (g (f b a))) (l : List α) (b : β) :
    Keeps (g b) (g (l.foldl f b)) := by
  induction l generalizing b with
  | nil => exact keeps_refl _
  | cons a l ih => exact (hf b a).trans (ih (f b a))

theorem keeps_State_setWord (s : State) (k : Nat) (w : Word) : Keeps s (s.setWord k w) := ⟨fun h => h.put k w, rfl⟩
grind_pattern keeps_State_setWord => s.setWord k w

end Sys2Proof.Machine
end

