-- ==== Sys2Proof/Laws/State.lean ====
section
/-! SUPPORT. One lemma for each field of State and each shared update of it. -/

namespace Sys2Proof.Machine

/-! ### setWord -/

@[simp] theorem setWord_fuses (s : State) (k : Nat) (w : Word) : (s.setWord k w).fuses = s.fuses := rfl
@[simp] theorem setWord_words (s : State) (k : Nat) (w : Word) : (s.setWord k w).words = tputD (wordReset s.fuses k) s.words k w := rfl
@[simp] theorem setWord_mem (s : State) (k : Nat) (w : Word) : (s.setWord k w).mem = s.mem := rfl
@[simp] theorem setWord_now (s : State) (k : Nat) (w : Word) : (s.setWord k w).now = s.now := rfl
@[simp] theorem setWord_free (s : State) (k : Nat) (w : Word) : (s.setWord k w).free = s.free := rfl
@[simp] theorem setWord_resp (s : State) (k : Nat) (w : Word) : (s.setWord k w).resp = s.resp := rfl
@[simp] theorem setWord_msgs (s : State) (k : Nat) (w : Word) : (s.setWord k w).msgs = s.msgs := rfl
@[simp] theorem setWord_cmp (s : State) (k : Nat) (w : Word) : (s.setWord k w).cmp = s.cmp := rfl
@[simp] theorem setWord_ttu (s : State) (k : Nat) (w : Word) : (s.setWord k w).ttu = s.ttu := rfl
@[simp] theorem setWord_orr (s : State) (k : Nat) (w : Word) : (s.setWord k w).orr = s.orr := rfl
@[simp] theorem setWord_fab (s : State) (k : Nat) (w : Word) : (s.setWord k w).fab = s.fab := rfl
@[simp] theorem setWord_hbm (s : State) (k : Nat) (w : Word) : (s.setWord k w).hbm = s.hbm := rfl
@[simp] theorem setWord_apc (s : State) (k : Nat) (w : Word) : (s.setWord k w).apc = s.apc := rfl
@[simp] theorem setWord_enc (s : State) (k : Nat) (w : Word) : (s.setWord k w).enc = s.enc := rfl
@[simp] theorem setWord_cry (s : State) (k : Nat) (w : Word) : (s.setWord k w).cry = s.cry := rfl
@[simp] theorem setWord_inf (s : State) (k : Nat) (w : Word) : (s.setWord k w).inf = s.inf := rfl
@[simp] theorem setWord_gfx (s : State) (k : Nat) (w : Word) : (s.setWord k w).gfx = s.gfx := rfl
@[simp] theorem setWord_dsp (s : State) (k : Nat) (w : Word) : (s.setWord k w).dsp = s.dsp := rfl
@[simp] theorem setWord_sxt (s : State) (k : Nat) (w : Word) : (s.setWord k w).sxt = s.sxt := rfl
@[simp] theorem setWord_net (s : State) (k : Nat) (w : Word) : (s.setWord k w).net = s.net := rfl
@[simp] theorem setWord_svc (s : State) (k : Nat) (w : Word) : (s.setWord k w).svc = s.svc := rfl
@[simp] theorem setWord_alm (s : State) (k : Nat) (w : Word) : (s.setWord k w).alm = s.alm := rfl
@[simp] theorem setWord_saf (s : State) (k : Nat) (w : Word) : (s.setWord k w).saf = s.saf := rfl
@[simp] theorem setWord_clk (s : State) (k : Nat) (w : Word) : (s.setWord k w).clk = s.clk := rfl
@[simp] theorem setWord_boot (s : State) (k : Nat) (w : Word) : (s.setWord k w).boot = s.boot := rfl
@[simp] theorem setWord_pwr (s : State) (k : Nat) (w : Word) : (s.setWord k w).pwr = s.pwr := rfl
@[simp] theorem setWord_pending (s : State) (k : Nat) (w : Word) : (s.setWord k w).pending = s.pending := rfl

/-! ### wr -/

@[simp] theorem wr_fuses (s : State) (r : Row) (ix : List Nat) (v : Nat) : (s.wr r ix v).fuses = s.fuses := setWord_fuses s _ _
@[simp] theorem wr_words (s : State) (r : Row) (ix : List Nat) (v : Nat) : (s.wr r ix v).words = (s.setWord (r.key ix) (setBits (s.word (r.key ix)) r.lo r.width v)).words := rfl
@[simp] theorem wr_mem (s : State) (r : Row) (ix : List Nat) (v : Nat) : (s.wr r ix v).mem = s.mem := setWord_mem s _ _
@[simp] theorem wr_now (s : State) (r : Row) (ix : List Nat) (v : Nat) : (s.wr r ix v).now = s.now := setWord_now s _ _
@[simp] theorem wr_free (s : State) (r : Row) (ix : List Nat) (v : Nat) : (s.wr r ix v).free = s.free := setWord_free s _ _
@[simp] theorem wr_resp (s : State) (r : Row) (ix : List Nat) (v : Nat) : (s.wr r ix v).resp = s.resp := setWord_resp s _ _
@[simp] theorem wr_msgs (s : State) (r : Row) (ix : List Nat) (v : Nat) : (s.wr r ix v).msgs = s.msgs := setWord_msgs s _ _
@[simp] theorem wr_cmp (s : State) (r : Row) (ix : List Nat) (v : Nat) : (s.wr r ix v).cmp = s.cmp := setWord_cmp s _ _
@[simp] theorem wr_ttu (s : State) (r : Row) (ix : List Nat) (v : Nat) : (s.wr r ix v).ttu = s.ttu := setWord_ttu s _ _
@[simp] theorem wr_orr (s : State) (r : Row) (ix : List Nat) (v : Nat) : (s.wr r ix v).orr = s.orr := setWord_orr s _ _
@[simp] theorem wr_fab (s : State) (r : Row) (ix : List Nat) (v : Nat) : (s.wr r ix v).fab = s.fab := setWord_fab s _ _
@[simp] theorem wr_hbm (s : State) (r : Row) (ix : List Nat) (v : Nat) : (s.wr r ix v).hbm = s.hbm := setWord_hbm s _ _
@[simp] theorem wr_apc (s : State) (r : Row) (ix : List Nat) (v : Nat) : (s.wr r ix v).apc = s.apc := setWord_apc s _ _
@[simp] theorem wr_enc (s : State) (r : Row) (ix : List Nat) (v : Nat) : (s.wr r ix v).enc = s.enc := setWord_enc s _ _
@[simp] theorem wr_cry (s : State) (r : Row) (ix : List Nat) (v : Nat) : (s.wr r ix v).cry = s.cry := setWord_cry s _ _
@[simp] theorem wr_inf (s : State) (r : Row) (ix : List Nat) (v : Nat) : (s.wr r ix v).inf = s.inf := setWord_inf s _ _
@[simp] theorem wr_gfx (s : State) (r : Row) (ix : List Nat) (v : Nat) : (s.wr r ix v).gfx = s.gfx := setWord_gfx s _ _
@[simp] theorem wr_dsp (s : State) (r : Row) (ix : List Nat) (v : Nat) : (s.wr r ix v).dsp = s.dsp := setWord_dsp s _ _
@[simp] theorem wr_sxt (s : State) (r : Row) (ix : List Nat) (v : Nat) : (s.wr r ix v).sxt = s.sxt := setWord_sxt s _ _
@[simp] theorem wr_net (s : State) (r : Row) (ix : List Nat) (v : Nat) : (s.wr r ix v).net = s.net := setWord_net s _ _
@[simp] theorem wr_svc (s : State) (r : Row) (ix : List Nat) (v : Nat) : (s.wr r ix v).svc = s.svc := setWord_svc s _ _
@[simp] theorem wr_alm (s : State) (r : Row) (ix : List Nat) (v : Nat) : (s.wr r ix v).alm = s.alm := setWord_alm s _ _
@[simp] theorem wr_saf (s : State) (r : Row) (ix : List Nat) (v : Nat) : (s.wr r ix v).saf = s.saf := setWord_saf s _ _
@[simp] theorem wr_clk (s : State) (r : Row) (ix : List Nat) (v : Nat) : (s.wr r ix v).clk = s.clk := setWord_clk s _ _
@[simp] theorem wr_boot (s : State) (r : Row) (ix : List Nat) (v : Nat) : (s.wr r ix v).boot = s.boot := setWord_boot s _ _
@[simp] theorem wr_pwr (s : State) (r : Row) (ix : List Nat) (v : Nat) : (s.wr r ix v).pwr = s.pwr := setWord_pwr s _ _
@[simp] theorem wr_pending (s : State) (r : Row) (ix : List Nat) (v : Nat) : (s.wr r ix v).pending = s.pending := setWord_pending s _ _

/-! ### answer -/

@[simp] theorem answer_fuses (s : State) (st : Status) (data : Nat) : (s.answer st data).fuses = s.fuses := rfl
@[simp] theorem answer_words (s : State) (st : Status) (data : Nat) : (s.answer st data).words = s.words := rfl
@[simp] theorem answer_mem (s : State) (st : Status) (data : Nat) : (s.answer st data).mem = s.mem := rfl
@[simp] theorem answer_now (s : State) (st : Status) (data : Nat) : (s.answer st data).now = s.now := rfl
@[simp] theorem answer_free (s : State) (st : Status) (data : Nat) : (s.answer st data).free = s.free := rfl
@[simp] theorem answer_resp (s : State) (st : Status) (data : Nat) : (s.answer st data).resp = ⟨st, data⟩ := rfl
@[simp] theorem answer_msgs (s : State) (st : Status) (data : Nat) : (s.answer st data).msgs = s.msgs := rfl
@[simp] theorem answer_cmp (s : State) (st : Status) (data : Nat) : (s.answer st data).cmp = s.cmp := rfl
@[simp] theorem answer_ttu (s : State) (st : Status) (data : Nat) : (s.answer st data).ttu = s.ttu := rfl
@[simp] theorem answer_orr (s : State) (st : Status) (data : Nat) : (s.answer st data).orr = s.orr := rfl
@[simp] theorem answer_fab (s : State) (st : Status) (data : Nat) : (s.answer st data).fab = s.fab := rfl
@[simp] theorem answer_hbm (s : State) (st : Status) (data : Nat) : (s.answer st data).hbm = s.hbm := rfl
@[simp] theorem answer_apc (s : State) (st : Status) (data : Nat) : (s.answer st data).apc = s.apc := rfl
@[simp] theorem answer_enc (s : State) (st : Status) (data : Nat) : (s.answer st data).enc = s.enc := rfl
@[simp] theorem answer_cry (s : State) (st : Status) (data : Nat) : (s.answer st data).cry = s.cry := rfl
@[simp] theorem answer_inf (s : State) (st : Status) (data : Nat) : (s.answer st data).inf = s.inf := rfl
@[simp] theorem answer_gfx (s : State) (st : Status) (data : Nat) : (s.answer st data).gfx = s.gfx := rfl
@[simp] theorem answer_dsp (s : State) (st : Status) (data : Nat) : (s.answer st data).dsp = s.dsp := rfl
@[simp] theorem answer_sxt (s : State) (st : Status) (data : Nat) : (s.answer st data).sxt = s.sxt := rfl
@[simp] theorem answer_net (s : State) (st : Status) (data : Nat) : (s.answer st data).net = s.net := rfl
@[simp] theorem answer_svc (s : State) (st : Status) (data : Nat) : (s.answer st data).svc = s.svc := rfl
@[simp] theorem answer_alm (s : State) (st : Status) (data : Nat) : (s.answer st data).alm = s.alm := rfl
@[simp] theorem answer_saf (s : State) (st : Status) (data : Nat) : (s.answer st data).saf = s.saf := rfl
@[simp] theorem answer_clk (s : State) (st : Status) (data : Nat) : (s.answer st data).clk = s.clk := rfl
@[simp] theorem answer_boot (s : State) (st : Status) (data : Nat) : (s.answer st data).boot = s.boot := rfl
@[simp] theorem answer_pwr (s : State) (st : Status) (data : Nat) : (s.answer st data).pwr = s.pwr := rfl
@[simp] theorem answer_pending (s : State) (st : Status) (data : Nat) : (s.answer st data).pending = s.pending := rfl

/-! ### drawn -/

@[simp] theorem drawn_fuses (s : State) : (s.drawn).fuses = s.fuses := rfl
@[simp] theorem drawn_words (s : State) : (s.drawn).words = s.words := rfl
@[simp] theorem drawn_mem (s : State) : (s.drawn).mem = s.mem := rfl
@[simp] theorem drawn_now (s : State) : (s.drawn).now = s.now := rfl
@[simp] theorem drawn_free (s : State) : (s.drawn).free = s.free + 1 := rfl
@[simp] theorem drawn_resp (s : State) : (s.drawn).resp = s.resp := rfl
@[simp] theorem drawn_msgs (s : State) : (s.drawn).msgs = s.msgs := rfl
@[simp] theorem drawn_cmp (s : State) : (s.drawn).cmp = s.cmp := rfl
@[simp] theorem drawn_ttu (s : State) : (s.drawn).ttu = s.ttu := rfl
@[simp] theorem drawn_orr (s : State) : (s.drawn).orr = s.orr := rfl
@[simp] theorem drawn_fab (s : State) : (s.drawn).fab = s.fab := rfl
@[simp] theorem drawn_hbm (s : State) : (s.drawn).hbm = s.hbm := rfl
@[simp] theorem drawn_apc (s : State) : (s.drawn).apc = s.apc := rfl
@[simp] theorem drawn_enc (s : State) : (s.drawn).enc = s.enc := rfl
@[simp] theorem drawn_cry (s : State) : (s.drawn).cry = s.cry := rfl
@[simp] theorem drawn_inf (s : State) : (s.drawn).inf = s.inf := rfl
@[simp] theorem drawn_gfx (s : State) : (s.drawn).gfx = s.gfx := rfl
@[simp] theorem drawn_dsp (s : State) : (s.drawn).dsp = s.dsp := rfl
@[simp] theorem drawn_sxt (s : State) : (s.drawn).sxt = s.sxt := rfl
@[simp] theorem drawn_net (s : State) : (s.drawn).net = s.net := rfl
@[simp] theorem drawn_svc (s : State) : (s.drawn).svc = s.svc := rfl
@[simp] theorem drawn_alm (s : State) : (s.drawn).alm = s.alm := rfl
@[simp] theorem drawn_saf (s : State) : (s.drawn).saf = s.saf := rfl
@[simp] theorem drawn_clk (s : State) : (s.drawn).clk = s.clk := rfl
@[simp] theorem drawn_boot (s : State) : (s.drawn).boot = s.boot := rfl
@[simp] theorem drawn_pwr (s : State) : (s.drawn).pwr = s.pwr := rfl
@[simp] theorem drawn_pending (s : State) : (s.drawn).pending = s.pending := rfl

/-! ### setCtx -/

@[simp] theorem setCtx_fuses (s : State) (n : Nat) (c : Ctx) : (s.setCtx n c).fuses = s.fuses := rfl
@[simp] theorem setCtx_words (s : State) (n : Nat) (c : Ctx) : (s.setCtx n c).words = s.words := rfl
@[simp] theorem setCtx_mem (s : State) (n : Nat) (c : Ctx) : (s.setCtx n c).mem = s.mem := rfl
@[simp] theorem setCtx_now (s : State) (n : Nat) (c : Ctx) : (s.setCtx n c).now = s.now := rfl
@[simp] theorem setCtx_free (s : State) (n : Nat) (c : Ctx) : (s.setCtx n c).free = s.free := rfl
@[simp] theorem setCtx_resp (s : State) (n : Nat) (c : Ctx) : (s.setCtx n c).resp = s.resp := rfl
@[simp] theorem setCtx_msgs (s : State) (n : Nat) (c : Ctx) : (s.setCtx n c).msgs = s.msgs := rfl
@[simp] theorem setCtx_cmp (s : State) (n : Nat) (c : Ctx) : (s.setCtx n c).cmp = { s.cmp with ctxs := tput s.cmp.ctxs n c } := rfl
@[simp] theorem setCtx_ttu (s : State) (n : Nat) (c : Ctx) : (s.setCtx n c).ttu = s.ttu := rfl
@[simp] theorem setCtx_orr (s : State) (n : Nat) (c : Ctx) : (s.setCtx n c).orr = s.orr := rfl
@[simp] theorem setCtx_fab (s : State) (n : Nat) (c : Ctx) : (s.setCtx n c).fab = s.fab := rfl
@[simp] theorem setCtx_hbm (s : State) (n : Nat) (c : Ctx) : (s.setCtx n c).hbm = s.hbm := rfl
@[simp] theorem setCtx_apc (s : State) (n : Nat) (c : Ctx) : (s.setCtx n c).apc = s.apc := rfl
@[simp] theorem setCtx_enc (s : State) (n : Nat) (c : Ctx) : (s.setCtx n c).enc = s.enc := rfl
@[simp] theorem setCtx_cry (s : State) (n : Nat) (c : Ctx) : (s.setCtx n c).cry = s.cry := rfl
@[simp] theorem setCtx_inf (s : State) (n : Nat) (c : Ctx) : (s.setCtx n c).inf = s.inf := rfl
@[simp] theorem setCtx_gfx (s : State) (n : Nat) (c : Ctx) : (s.setCtx n c).gfx = s.gfx := rfl
@[simp] theorem setCtx_dsp (s : State) (n : Nat) (c : Ctx) : (s.setCtx n c).dsp = s.dsp := rfl
@[simp] theorem setCtx_sxt (s : State) (n : Nat) (c : Ctx) : (s.setCtx n c).sxt = s.sxt := rfl
@[simp] theorem setCtx_net (s : State) (n : Nat) (c : Ctx) : (s.setCtx n c).net = s.net := rfl
@[simp] theorem setCtx_svc (s : State) (n : Nat) (c : Ctx) : (s.setCtx n c).svc = s.svc := rfl
@[simp] theorem setCtx_alm (s : State) (n : Nat) (c : Ctx) : (s.setCtx n c).alm = s.alm := rfl
@[simp] theorem setCtx_saf (s : State) (n : Nat) (c : Ctx) : (s.setCtx n c).saf = s.saf := rfl
@[simp] theorem setCtx_clk (s : State) (n : Nat) (c : Ctx) : (s.setCtx n c).clk = s.clk := rfl
@[simp] theorem setCtx_boot (s : State) (n : Nat) (c : Ctx) : (s.setCtx n c).boot = s.boot := rfl
@[simp] theorem setCtx_pwr (s : State) (n : Nat) (c : Ctx) : (s.setCtx n c).pwr = s.pwr := rfl
@[simp] theorem setCtx_pending (s : State) (n : Nat) (c : Ctx) : (s.setCtx n c).pending = s.pending := rfl

/-! ### setJob -/

@[simp] theorem setJob_fuses (s : State) (j : Job) : (s.setJob j).fuses = s.fuses := rfl
@[simp] theorem setJob_words (s : State) (j : Job) : (s.setJob j).words = s.words := rfl
@[simp] theorem setJob_mem (s : State) (j : Job) : (s.setJob j).mem = s.mem := rfl
@[simp] theorem setJob_now (s : State) (j : Job) : (s.setJob j).now = s.now := rfl
@[simp] theorem setJob_free (s : State) (j : Job) : (s.setJob j).free = s.free := rfl
@[simp] theorem setJob_resp (s : State) (j : Job) : (s.setJob j).resp = s.resp := rfl
@[simp] theorem setJob_msgs (s : State) (j : Job) : (s.setJob j).msgs = s.msgs := rfl
@[simp] theorem setJob_cmp (s : State) (j : Job) : (s.setJob j).cmp = { s.cmp with jobs := s.cmp.jobs.map (fun x => if x.uid = j.uid then j else x) } := rfl
@[simp] theorem setJob_ttu (s : State) (j : Job) : (s.setJob j).ttu = s.ttu := rfl
@[simp] theorem setJob_orr (s : State) (j : Job) : (s.setJob j).orr = s.orr := rfl
@[simp] theorem setJob_fab (s : State) (j : Job) : (s.setJob j).fab = s.fab := rfl
@[simp] theorem setJob_hbm (s : State) (j : Job) : (s.setJob j).hbm = s.hbm := rfl
@[simp] theorem setJob_apc (s : State) (j : Job) : (s.setJob j).apc = s.apc := rfl
@[simp] theorem setJob_enc (s : State) (j : Job) : (s.setJob j).enc = s.enc := rfl
@[simp] theorem setJob_cry (s : State) (j : Job) : (s.setJob j).cry = s.cry := rfl
@[simp] theorem setJob_inf (s : State) (j : Job) : (s.setJob j).inf = s.inf := rfl
@[simp] theorem setJob_gfx (s : State) (j : Job) : (s.setJob j).gfx = s.gfx := rfl
@[simp] theorem setJob_dsp (s : State) (j : Job) : (s.setJob j).dsp = s.dsp := rfl
@[simp] theorem setJob_sxt (s : State) (j : Job) : (s.setJob j).sxt = s.sxt := rfl
@[simp] theorem setJob_net (s : State) (j : Job) : (s.setJob j).net = s.net := rfl
@[simp] theorem setJob_svc (s : State) (j : Job) : (s.setJob j).svc = s.svc := rfl
@[simp] theorem setJob_alm (s : State) (j : Job) : (s.setJob j).alm = s.alm := rfl
@[simp] theorem setJob_saf (s : State) (j : Job) : (s.setJob j).saf = s.saf := rfl
@[simp] theorem setJob_clk (s : State) (j : Job) : (s.setJob j).clk = s.clk := rfl
@[simp] theorem setJob_boot (s : State) (j : Job) : (s.setJob j).boot = s.boot := rfl
@[simp] theorem setJob_pwr (s : State) (j : Job) : (s.setJob j).pwr = s.pwr := rfl
@[simp] theorem setJob_pending (s : State) (j : Job) : (s.setJob j).pending = s.pending := rfl

/-! ### setCryEngine -/

@[simp] theorem setCryEngine_fuses (s : State) (n : Nat) (x : CryEngine) : (s.setCryEngine n x).fuses = s.fuses := rfl
@[simp] theorem setCryEngine_words (s : State) (n : Nat) (x : CryEngine) : (s.setCryEngine n x).words = s.words := rfl
@[simp] theorem setCryEngine_mem (s : State) (n : Nat) (x : CryEngine) : (s.setCryEngine n x).mem = s.mem := rfl
@[simp] theorem setCryEngine_now (s : State) (n : Nat) (x : CryEngine) : (s.setCryEngine n x).now = s.now := rfl
@[simp] theorem setCryEngine_free (s : State) (n : Nat) (x : CryEngine) : (s.setCryEngine n x).free = s.free := rfl
@[simp] theorem setCryEngine_resp (s : State) (n : Nat) (x : CryEngine) : (s.setCryEngine n x).resp = s.resp := rfl
@[simp] theorem setCryEngine_msgs (s : State) (n : Nat) (x : CryEngine) : (s.setCryEngine n x).msgs = s.msgs := rfl
@[simp] theorem setCryEngine_cmp (s : State) (n : Nat) (x : CryEngine) : (s.setCryEngine n x).cmp = s.cmp := rfl
@[simp] theorem setCryEngine_ttu (s : State) (n : Nat) (x : CryEngine) : (s.setCryEngine n x).ttu = s.ttu := rfl
@[simp] theorem setCryEngine_orr (s : State) (n : Nat) (x : CryEngine) : (s.setCryEngine n x).orr = s.orr := rfl
@[simp] theorem setCryEngine_fab (s : State) (n : Nat) (x : CryEngine) : (s.setCryEngine n x).fab = s.fab := rfl
@[simp] theorem setCryEngine_hbm (s : State) (n : Nat) (x : CryEngine) : (s.setCryEngine n x).hbm = s.hbm := rfl
@[simp] theorem setCryEngine_apc (s : State) (n : Nat) (x : CryEngine) : (s.setCryEngine n x).apc = s.apc := rfl
@[simp] theorem setCryEngine_enc (s : State) (n : Nat) (x : CryEngine) : (s.setCryEngine n x).enc = s.enc := rfl
@[simp] theorem setCryEngine_cry (s : State) (n : Nat) (x : CryEngine) : (s.setCryEngine n x).cry = { s.cry with engines := tput s.cry.engines n x } := rfl
@[simp] theorem setCryEngine_inf (s : State) (n : Nat) (x : CryEngine) : (s.setCryEngine n x).inf = s.inf := rfl
@[simp] theorem setCryEngine_gfx (s : State) (n : Nat) (x : CryEngine) : (s.setCryEngine n x).gfx = s.gfx := rfl
@[simp] theorem setCryEngine_dsp (s : State) (n : Nat) (x : CryEngine) : (s.setCryEngine n x).dsp = s.dsp := rfl
@[simp] theorem setCryEngine_sxt (s : State) (n : Nat) (x : CryEngine) : (s.setCryEngine n x).sxt = s.sxt := rfl
@[simp] theorem setCryEngine_net (s : State) (n : Nat) (x : CryEngine) : (s.setCryEngine n x).net = s.net := rfl
@[simp] theorem setCryEngine_svc (s : State) (n : Nat) (x : CryEngine) : (s.setCryEngine n x).svc = s.svc := rfl
@[simp] theorem setCryEngine_alm (s : State) (n : Nat) (x : CryEngine) : (s.setCryEngine n x).alm = s.alm := rfl
@[simp] theorem setCryEngine_saf (s : State) (n : Nat) (x : CryEngine) : (s.setCryEngine n x).saf = s.saf := rfl
@[simp] theorem setCryEngine_clk (s : State) (n : Nat) (x : CryEngine) : (s.setCryEngine n x).clk = s.clk := rfl
@[simp] theorem setCryEngine_boot (s : State) (n : Nat) (x : CryEngine) : (s.setCryEngine n x).boot = s.boot := rfl
@[simp] theorem setCryEngine_pwr (s : State) (n : Nat) (x : CryEngine) : (s.setCryEngine n x).pwr = s.pwr := rfl
@[simp] theorem setCryEngine_pending (s : State) (n : Nat) (x : CryEngine) : (s.setCryEngine n x).pending = s.pending := rfl

/-! ### setSxt -/

@[simp] theorem setSxt_fuses (s : State) (x : Sxt) : (s.setSxt x).fuses = s.fuses := rfl
@[simp] theorem setSxt_words (s : State) (x : Sxt) : (s.setSxt x).words = s.words := rfl
@[simp] theorem setSxt_mem (s : State) (x : Sxt) : (s.setSxt x).mem = s.mem := rfl
@[simp] theorem setSxt_now (s : State) (x : Sxt) : (s.setSxt x).now = s.now := rfl
@[simp] theorem setSxt_free (s : State) (x : Sxt) : (s.setSxt x).free = s.free := rfl
@[simp] theorem setSxt_resp (s : State) (x : Sxt) : (s.setSxt x).resp = s.resp := rfl
@[simp] theorem setSxt_msgs (s : State) (x : Sxt) : (s.setSxt x).msgs = s.msgs := rfl
@[simp] theorem setSxt_cmp (s : State) (x : Sxt) : (s.setSxt x).cmp = s.cmp := rfl
@[simp] theorem setSxt_ttu (s : State) (x : Sxt) : (s.setSxt x).ttu = s.ttu := rfl
@[simp] theorem setSxt_orr (s : State) (x : Sxt) : (s.setSxt x).orr = s.orr := rfl
@[simp] theorem setSxt_fab (s : State) (x : Sxt) : (s.setSxt x).fab = s.fab := rfl
@[simp] theorem setSxt_hbm (s : State) (x : Sxt) : (s.setSxt x).hbm = s.hbm := rfl
@[simp] theorem setSxt_apc (s : State) (x : Sxt) : (s.setSxt x).apc = s.apc := rfl
@[simp] theorem setSxt_enc (s : State) (x : Sxt) : (s.setSxt x).enc = s.enc := rfl
@[simp] theorem setSxt_cry (s : State) (x : Sxt) : (s.setSxt x).cry = s.cry := rfl
@[simp] theorem setSxt_inf (s : State) (x : Sxt) : (s.setSxt x).inf = s.inf := rfl
@[simp] theorem setSxt_gfx (s : State) (x : Sxt) : (s.setSxt x).gfx = s.gfx := rfl
@[simp] theorem setSxt_dsp (s : State) (x : Sxt) : (s.setSxt x).dsp = s.dsp := rfl
@[simp] theorem setSxt_sxt (s : State) (x : Sxt) : (s.setSxt x).sxt = x := rfl
@[simp] theorem setSxt_net (s : State) (x : Sxt) : (s.setSxt x).net = s.net := rfl
@[simp] theorem setSxt_svc (s : State) (x : Sxt) : (s.setSxt x).svc = s.svc := rfl
@[simp] theorem setSxt_alm (s : State) (x : Sxt) : (s.setSxt x).alm = s.alm := rfl
@[simp] theorem setSxt_saf (s : State) (x : Sxt) : (s.setSxt x).saf = s.saf := rfl
@[simp] theorem setSxt_clk (s : State) (x : Sxt) : (s.setSxt x).clk = s.clk := rfl
@[simp] theorem setSxt_boot (s : State) (x : Sxt) : (s.setSxt x).boot = s.boot := rfl
@[simp] theorem setSxt_pwr (s : State) (x : Sxt) : (s.setSxt x).pwr = s.pwr := rfl
@[simp] theorem setSxt_pending (s : State) (x : Sxt) : (s.setSxt x).pending = s.pending := rfl

/-! ### setStream -/

@[simp] theorem setStream_fuses (s : State) (n : Nat) (x : Stream) : (s.setStream n x).fuses = s.fuses := rfl
@[simp] theorem setStream_words (s : State) (n : Nat) (x : Stream) : (s.setStream n x).words = s.words := rfl
@[simp] theorem setStream_mem (s : State) (n : Nat) (x : Stream) : (s.setStream n x).mem = s.mem := rfl
@[simp] theorem setStream_now (s : State) (n : Nat) (x : Stream) : (s.setStream n x).now = s.now := rfl
@[simp] theorem setStream_free (s : State) (n : Nat) (x : Stream) : (s.setStream n x).free = s.free := rfl
@[simp] theorem setStream_resp (s : State) (n : Nat) (x : Stream) : (s.setStream n x).resp = s.resp := rfl
@[simp] theorem setStream_msgs (s : State) (n : Nat) (x : Stream) : (s.setStream n x).msgs = s.msgs := rfl
@[simp] theorem setStream_cmp (s : State) (n : Nat) (x : Stream) : (s.setStream n x).cmp = s.cmp := rfl
@[simp] theorem setStream_ttu (s : State) (n : Nat) (x : Stream) : (s.setStream n x).ttu = s.ttu := rfl
@[simp] theorem setStream_orr (s : State) (n : Nat) (x : Stream) : (s.setStream n x).orr = s.orr := rfl
@[simp] theorem setStream_fab (s : State) (n : Nat) (x : Stream) : (s.setStream n x).fab = s.fab := rfl
@[simp] theorem setStream_hbm (s : State) (n : Nat) (x : Stream) : (s.setStream n x).hbm = s.hbm := rfl
@[simp] theorem setStream_apc (s : State) (n : Nat) (x : Stream) : (s.setStream n x).apc = s.apc := rfl
@[simp] theorem setStream_enc (s : State) (n : Nat) (x : Stream) : (s.setStream n x).enc = s.enc := rfl
@[simp] theorem setStream_cry (s : State) (n : Nat) (x : Stream) : (s.setStream n x).cry = s.cry := rfl
@[simp] theorem setStream_inf (s : State) (n : Nat) (x : Stream) : (s.setStream n x).inf = s.inf := rfl
@[simp] theorem setStream_gfx (s : State) (n : Nat) (x : Stream) : (s.setStream n x).gfx = s.gfx := rfl
@[simp] theorem setStream_dsp (s : State) (n : Nat) (x : Stream) : (s.setStream n x).dsp = s.dsp := rfl
@[simp] theorem setStream_sxt (s : State) (n : Nat) (x : Stream) : (s.setStream n x).sxt = { s.sxt with streams := tput s.sxt.streams n x } := rfl
@[simp] theorem setStream_net (s : State) (n : Nat) (x : Stream) : (s.setStream n x).net = s.net := rfl
@[simp] theorem setStream_svc (s : State) (n : Nat) (x : Stream) : (s.setStream n x).svc = s.svc := rfl
@[simp] theorem setStream_alm (s : State) (n : Nat) (x : Stream) : (s.setStream n x).alm = s.alm := rfl
@[simp] theorem setStream_saf (s : State) (n : Nat) (x : Stream) : (s.setStream n x).saf = s.saf := rfl
@[simp] theorem setStream_clk (s : State) (n : Nat) (x : Stream) : (s.setStream n x).clk = s.clk := rfl
@[simp] theorem setStream_boot (s : State) (n : Nat) (x : Stream) : (s.setStream n x).boot = s.boot := rfl
@[simp] theorem setStream_pwr (s : State) (n : Nat) (x : Stream) : (s.setStream n x).pwr = s.pwr := rfl
@[simp] theorem setStream_pending (s : State) (n : Nat) (x : Stream) : (s.setStream n x).pending = s.pending := rfl

/-! ### setNet -/

@[simp] theorem setNet_fuses (s : State) (x : Net) : (s.setNet x).fuses = s.fuses := rfl
@[simp] theorem setNet_words (s : State) (x : Net) : (s.setNet x).words = s.words := rfl
@[simp] theorem setNet_mem (s : State) (x : Net) : (s.setNet x).mem = s.mem := rfl
@[simp] theorem setNet_now (s : State) (x : Net) : (s.setNet x).now = s.now := rfl
@[simp] theorem setNet_free (s : State) (x : Net) : (s.setNet x).free = s.free := rfl
@[simp] theorem setNet_resp (s : State) (x : Net) : (s.setNet x).resp = s.resp := rfl
@[simp] theorem setNet_msgs (s : State) (x : Net) : (s.setNet x).msgs = s.msgs := rfl
@[simp] theorem setNet_cmp (s : State) (x : Net) : (s.setNet x).cmp = s.cmp := rfl
@[simp] theorem setNet_ttu (s : State) (x : Net) : (s.setNet x).ttu = s.ttu := rfl
@[simp] theorem setNet_orr (s : State) (x : Net) : (s.setNet x).orr = s.orr := rfl
@[simp] theorem setNet_fab (s : State) (x : Net) : (s.setNet x).fab = s.fab := rfl
@[simp] theorem setNet_hbm (s : State) (x : Net) : (s.setNet x).hbm = s.hbm := rfl
@[simp] theorem setNet_apc (s : State) (x : Net) : (s.setNet x).apc = s.apc := rfl
@[simp] theorem setNet_enc (s : State) (x : Net) : (s.setNet x).enc = s.enc := rfl
@[simp] theorem setNet_cry (s : State) (x : Net) : (s.setNet x).cry = s.cry := rfl
@[simp] theorem setNet_inf (s : State) (x : Net) : (s.setNet x).inf = s.inf := rfl
@[simp] theorem setNet_gfx (s : State) (x : Net) : (s.setNet x).gfx = s.gfx := rfl
@[simp] theorem setNet_dsp (s : State) (x : Net) : (s.setNet x).dsp = s.dsp := rfl
@[simp] theorem setNet_sxt (s : State) (x : Net) : (s.setNet x).sxt = s.sxt := rfl
@[simp] theorem setNet_net (s : State) (x : Net) : (s.setNet x).net = x := rfl
@[simp] theorem setNet_svc (s : State) (x : Net) : (s.setNet x).svc = s.svc := rfl
@[simp] theorem setNet_alm (s : State) (x : Net) : (s.setNet x).alm = s.alm := rfl
@[simp] theorem setNet_saf (s : State) (x : Net) : (s.setNet x).saf = s.saf := rfl
@[simp] theorem setNet_clk (s : State) (x : Net) : (s.setNet x).clk = s.clk := rfl
@[simp] theorem setNet_boot (s : State) (x : Net) : (s.setNet x).boot = s.boot := rfl
@[simp] theorem setNet_pwr (s : State) (x : Net) : (s.setNet x).pwr = s.pwr := rfl
@[simp] theorem setNet_pending (s : State) (x : Net) : (s.setNet x).pending = s.pending := rfl

/-! ### setNetJob -/

@[simp] theorem setNetJob_fuses (s : State) (j : NetJob) : (s.setNetJob j).fuses = s.fuses := rfl
@[simp] theorem setNetJob_words (s : State) (j : NetJob) : (s.setNetJob j).words = s.words := rfl
@[simp] theorem setNetJob_mem (s : State) (j : NetJob) : (s.setNetJob j).mem = s.mem := rfl
@[simp] theorem setNetJob_now (s : State) (j : NetJob) : (s.setNetJob j).now = s.now := rfl
@[simp] theorem setNetJob_free (s : State) (j : NetJob) : (s.setNetJob j).free = s.free := rfl
@[simp] theorem setNetJob_resp (s : State) (j : NetJob) : (s.setNetJob j).resp = s.resp := rfl
@[simp] theorem setNetJob_msgs (s : State) (j : NetJob) : (s.setNetJob j).msgs = s.msgs := rfl
@[simp] theorem setNetJob_cmp (s : State) (j : NetJob) : (s.setNetJob j).cmp = s.cmp := rfl
@[simp] theorem setNetJob_ttu (s : State) (j : NetJob) : (s.setNetJob j).ttu = s.ttu := rfl
@[simp] theorem setNetJob_orr (s : State) (j : NetJob) : (s.setNetJob j).orr = s.orr := rfl
@[simp] theorem setNetJob_fab (s : State) (j : NetJob) : (s.setNetJob j).fab = s.fab := rfl
@[simp] theorem setNetJob_hbm (s : State) (j : NetJob) : (s.setNetJob j).hbm = s.hbm := rfl
@[simp] theorem setNetJob_apc (s : State) (j : NetJob) : (s.setNetJob j).apc = s.apc := rfl
@[simp] theorem setNetJob_enc (s : State) (j : NetJob) : (s.setNetJob j).enc = s.enc := rfl
@[simp] theorem setNetJob_cry (s : State) (j : NetJob) : (s.setNetJob j).cry = s.cry := rfl
@[simp] theorem setNetJob_inf (s : State) (j : NetJob) : (s.setNetJob j).inf = s.inf := rfl
@[simp] theorem setNetJob_gfx (s : State) (j : NetJob) : (s.setNetJob j).gfx = s.gfx := rfl
@[simp] theorem setNetJob_dsp (s : State) (j : NetJob) : (s.setNetJob j).dsp = s.dsp := rfl
@[simp] theorem setNetJob_sxt (s : State) (j : NetJob) : (s.setNetJob j).sxt = s.sxt := rfl
@[simp] theorem setNetJob_net (s : State) (j : NetJob) : (s.setNetJob j).net = { s.net with jobs := s.net.jobs.map (fun x => if x.uid = j.uid then j else x) } := rfl
@[simp] theorem setNetJob_svc (s : State) (j : NetJob) : (s.setNetJob j).svc = s.svc := rfl
@[simp] theorem setNetJob_alm (s : State) (j : NetJob) : (s.setNetJob j).alm = s.alm := rfl
@[simp] theorem setNetJob_saf (s : State) (j : NetJob) : (s.setNetJob j).saf = s.saf := rfl
@[simp] theorem setNetJob_clk (s : State) (j : NetJob) : (s.setNetJob j).clk = s.clk := rfl
@[simp] theorem setNetJob_boot (s : State) (j : NetJob) : (s.setNetJob j).boot = s.boot := rfl
@[simp] theorem setNetJob_pwr (s : State) (j : NetJob) : (s.setNetJob j).pwr = s.pwr := rfl
@[simp] theorem setNetJob_pending (s : State) (j : NetJob) : (s.setNetJob j).pending = s.pending := rfl

/-! ### setEthPort -/

@[simp] theorem setEthPort_fuses (s : State) (k : Nat) (x : EthPort) : (s.setEthPort k x).fuses = s.fuses := rfl
@[simp] theorem setEthPort_words (s : State) (k : Nat) (x : EthPort) : (s.setEthPort k x).words = s.words := rfl
@[simp] theorem setEthPort_mem (s : State) (k : Nat) (x : EthPort) : (s.setEthPort k x).mem = s.mem := rfl
@[simp] theorem setEthPort_now (s : State) (k : Nat) (x : EthPort) : (s.setEthPort k x).now = s.now := rfl
@[simp] theorem setEthPort_free (s : State) (k : Nat) (x : EthPort) : (s.setEthPort k x).free = s.free := rfl
@[simp] theorem setEthPort_resp (s : State) (k : Nat) (x : EthPort) : (s.setEthPort k x).resp = s.resp := rfl
@[simp] theorem setEthPort_msgs (s : State) (k : Nat) (x : EthPort) : (s.setEthPort k x).msgs = s.msgs := rfl
@[simp] theorem setEthPort_cmp (s : State) (k : Nat) (x : EthPort) : (s.setEthPort k x).cmp = s.cmp := rfl
@[simp] theorem setEthPort_ttu (s : State) (k : Nat) (x : EthPort) : (s.setEthPort k x).ttu = s.ttu := rfl
@[simp] theorem setEthPort_orr (s : State) (k : Nat) (x : EthPort) : (s.setEthPort k x).orr = s.orr := rfl
@[simp] theorem setEthPort_fab (s : State) (k : Nat) (x : EthPort) : (s.setEthPort k x).fab = s.fab := rfl
@[simp] theorem setEthPort_hbm (s : State) (k : Nat) (x : EthPort) : (s.setEthPort k x).hbm = s.hbm := rfl
@[simp] theorem setEthPort_apc (s : State) (k : Nat) (x : EthPort) : (s.setEthPort k x).apc = s.apc := rfl
@[simp] theorem setEthPort_enc (s : State) (k : Nat) (x : EthPort) : (s.setEthPort k x).enc = s.enc := rfl
@[simp] theorem setEthPort_cry (s : State) (k : Nat) (x : EthPort) : (s.setEthPort k x).cry = s.cry := rfl
@[simp] theorem setEthPort_inf (s : State) (k : Nat) (x : EthPort) : (s.setEthPort k x).inf = s.inf := rfl
@[simp] theorem setEthPort_gfx (s : State) (k : Nat) (x : EthPort) : (s.setEthPort k x).gfx = s.gfx := rfl
@[simp] theorem setEthPort_dsp (s : State) (k : Nat) (x : EthPort) : (s.setEthPort k x).dsp = s.dsp := rfl
@[simp] theorem setEthPort_sxt (s : State) (k : Nat) (x : EthPort) : (s.setEthPort k x).sxt = s.sxt := rfl
@[simp] theorem setEthPort_net (s : State) (k : Nat) (x : EthPort) : (s.setEthPort k x).net = { s.net with ports := tput s.net.ports k x } := rfl
@[simp] theorem setEthPort_svc (s : State) (k : Nat) (x : EthPort) : (s.setEthPort k x).svc = s.svc := rfl
@[simp] theorem setEthPort_alm (s : State) (k : Nat) (x : EthPort) : (s.setEthPort k x).alm = s.alm := rfl
@[simp] theorem setEthPort_saf (s : State) (k : Nat) (x : EthPort) : (s.setEthPort k x).saf = s.saf := rfl
@[simp] theorem setEthPort_clk (s : State) (k : Nat) (x : EthPort) : (s.setEthPort k x).clk = s.clk := rfl
@[simp] theorem setEthPort_boot (s : State) (k : Nat) (x : EthPort) : (s.setEthPort k x).boot = s.boot := rfl
@[simp] theorem setEthPort_pwr (s : State) (k : Nat) (x : EthPort) : (s.setEthPort k x).pwr = s.pwr := rfl
@[simp] theorem setEthPort_pending (s : State) (k : Nat) (x : EthPort) : (s.setEthPort k x).pending = s.pending := rfl

/-! ### setCan -/

@[simp] theorem setCan_fuses (s : State) (k : Nat) (c : CanCtl) : (s.setCan k c).fuses = s.fuses := rfl
@[simp] theorem setCan_words (s : State) (k : Nat) (c : CanCtl) : (s.setCan k c).words = s.words := rfl
@[simp] theorem setCan_mem (s : State) (k : Nat) (c : CanCtl) : (s.setCan k c).mem = s.mem := rfl
@[simp] theorem setCan_now (s : State) (k : Nat) (c : CanCtl) : (s.setCan k c).now = s.now := rfl
@[simp] theorem setCan_free (s : State) (k : Nat) (c : CanCtl) : (s.setCan k c).free = s.free := rfl
@[simp] theorem setCan_resp (s : State) (k : Nat) (c : CanCtl) : (s.setCan k c).resp = s.resp := rfl
@[simp] theorem setCan_msgs (s : State) (k : Nat) (c : CanCtl) : (s.setCan k c).msgs = s.msgs := rfl
@[simp] theorem setCan_cmp (s : State) (k : Nat) (c : CanCtl) : (s.setCan k c).cmp = s.cmp := rfl
@[simp] theorem setCan_ttu (s : State) (k : Nat) (c : CanCtl) : (s.setCan k c).ttu = s.ttu := rfl
@[simp] theorem setCan_orr (s : State) (k : Nat) (c : CanCtl) : (s.setCan k c).orr = s.orr := rfl
@[simp] theorem setCan_fab (s : State) (k : Nat) (c : CanCtl) : (s.setCan k c).fab = s.fab := rfl
@[simp] theorem setCan_hbm (s : State) (k : Nat) (c : CanCtl) : (s.setCan k c).hbm = s.hbm := rfl
@[simp] theorem setCan_apc (s : State) (k : Nat) (c : CanCtl) : (s.setCan k c).apc = s.apc := rfl
@[simp] theorem setCan_enc (s : State) (k : Nat) (c : CanCtl) : (s.setCan k c).enc = s.enc := rfl
@[simp] theorem setCan_cry (s : State) (k : Nat) (c : CanCtl) : (s.setCan k c).cry = s.cry := rfl
@[simp] theorem setCan_inf (s : State) (k : Nat) (c : CanCtl) : (s.setCan k c).inf = s.inf := rfl
@[simp] theorem setCan_gfx (s : State) (k : Nat) (c : CanCtl) : (s.setCan k c).gfx = s.gfx := rfl
@[simp] theorem setCan_dsp (s : State) (k : Nat) (c : CanCtl) : (s.setCan k c).dsp = s.dsp := rfl
@[simp] theorem setCan_sxt (s : State) (k : Nat) (c : CanCtl) : (s.setCan k c).sxt = s.sxt := rfl
@[simp] theorem setCan_net (s : State) (k : Nat) (c : CanCtl) : (s.setCan k c).net = { s.net with can := tput s.net.can k c } := rfl
@[simp] theorem setCan_svc (s : State) (k : Nat) (c : CanCtl) : (s.setCan k c).svc = s.svc := rfl
@[simp] theorem setCan_alm (s : State) (k : Nat) (c : CanCtl) : (s.setCan k c).alm = s.alm := rfl
@[simp] theorem setCan_saf (s : State) (k : Nat) (c : CanCtl) : (s.setCan k c).saf = s.saf := rfl
@[simp] theorem setCan_clk (s : State) (k : Nat) (c : CanCtl) : (s.setCan k c).clk = s.clk := rfl
@[simp] theorem setCan_boot (s : State) (k : Nat) (c : CanCtl) : (s.setCan k c).boot = s.boot := rfl
@[simp] theorem setCan_pwr (s : State) (k : Nat) (c : CanCtl) : (s.setCan k c).pwr = s.pwr := rfl
@[simp] theorem setCan_pending (s : State) (k : Nat) (c : CanCtl) : (s.setCan k c).pending = s.pending := rfl

/-! ### setGfx -/

@[simp] theorem setGfx_fuses (s : State) (g : Gfx) : (s.setGfx g).fuses = s.fuses := rfl
@[simp] theorem setGfx_words (s : State) (g : Gfx) : (s.setGfx g).words = s.words := rfl
@[simp] theorem setGfx_mem (s : State) (g : Gfx) : (s.setGfx g).mem = s.mem := rfl
@[simp] theorem setGfx_now (s : State) (g : Gfx) : (s.setGfx g).now = s.now := rfl
@[simp] theorem setGfx_free (s : State) (g : Gfx) : (s.setGfx g).free = s.free := rfl
@[simp] theorem setGfx_resp (s : State) (g : Gfx) : (s.setGfx g).resp = s.resp := rfl
@[simp] theorem setGfx_msgs (s : State) (g : Gfx) : (s.setGfx g).msgs = s.msgs := rfl
@[simp] theorem setGfx_cmp (s : State) (g : Gfx) : (s.setGfx g).cmp = s.cmp := rfl
@[simp] theorem setGfx_ttu (s : State) (g : Gfx) : (s.setGfx g).ttu = s.ttu := rfl
@[simp] theorem setGfx_orr (s : State) (g : Gfx) : (s.setGfx g).orr = s.orr := rfl
@[simp] theorem setGfx_fab (s : State) (g : Gfx) : (s.setGfx g).fab = s.fab := rfl
@[simp] theorem setGfx_hbm (s : State) (g : Gfx) : (s.setGfx g).hbm = s.hbm := rfl
@[simp] theorem setGfx_apc (s : State) (g : Gfx) : (s.setGfx g).apc = s.apc := rfl
@[simp] theorem setGfx_enc (s : State) (g : Gfx) : (s.setGfx g).enc = s.enc := rfl
@[simp] theorem setGfx_cry (s : State) (g : Gfx) : (s.setGfx g).cry = s.cry := rfl
@[simp] theorem setGfx_inf (s : State) (g : Gfx) : (s.setGfx g).inf = s.inf := rfl
@[simp] theorem setGfx_gfx (s : State) (g : Gfx) : (s.setGfx g).gfx = g := rfl
@[simp] theorem setGfx_dsp (s : State) (g : Gfx) : (s.setGfx g).dsp = s.dsp := rfl
@[simp] theorem setGfx_sxt (s : State) (g : Gfx) : (s.setGfx g).sxt = s.sxt := rfl
@[simp] theorem setGfx_net (s : State) (g : Gfx) : (s.setGfx g).net = s.net := rfl
@[simp] theorem setGfx_svc (s : State) (g : Gfx) : (s.setGfx g).svc = s.svc := rfl
@[simp] theorem setGfx_alm (s : State) (g : Gfx) : (s.setGfx g).alm = s.alm := rfl
@[simp] theorem setGfx_saf (s : State) (g : Gfx) : (s.setGfx g).saf = s.saf := rfl
@[simp] theorem setGfx_clk (s : State) (g : Gfx) : (s.setGfx g).clk = s.clk := rfl
@[simp] theorem setGfx_boot (s : State) (g : Gfx) : (s.setGfx g).boot = s.boot := rfl
@[simp] theorem setGfx_pwr (s : State) (g : Gfx) : (s.setGfx g).pwr = s.pwr := rfl
@[simp] theorem setGfx_pending (s : State) (g : Gfx) : (s.setGfx g).pending = s.pending := rfl

/-! ### setGfxJob -/

@[simp] theorem setGfxJob_fuses (s : State) (j : GfxJob) : (s.setGfxJob j).fuses = s.fuses := rfl
@[simp] theorem setGfxJob_words (s : State) (j : GfxJob) : (s.setGfxJob j).words = s.words := rfl
@[simp] theorem setGfxJob_mem (s : State) (j : GfxJob) : (s.setGfxJob j).mem = s.mem := rfl
@[simp] theorem setGfxJob_now (s : State) (j : GfxJob) : (s.setGfxJob j).now = s.now := rfl
@[simp] theorem setGfxJob_free (s : State) (j : GfxJob) : (s.setGfxJob j).free = s.free := rfl
@[simp] theorem setGfxJob_resp (s : State) (j : GfxJob) : (s.setGfxJob j).resp = s.resp := rfl
@[simp] theorem setGfxJob_msgs (s : State) (j : GfxJob) : (s.setGfxJob j).msgs = s.msgs := rfl
@[simp] theorem setGfxJob_cmp (s : State) (j : GfxJob) : (s.setGfxJob j).cmp = s.cmp := rfl
@[simp] theorem setGfxJob_ttu (s : State) (j : GfxJob) : (s.setGfxJob j).ttu = s.ttu := rfl
@[simp] theorem setGfxJob_orr (s : State) (j : GfxJob) : (s.setGfxJob j).orr = s.orr := rfl
@[simp] theorem setGfxJob_fab (s : State) (j : GfxJob) : (s.setGfxJob j).fab = s.fab := rfl
@[simp] theorem setGfxJob_hbm (s : State) (j : GfxJob) : (s.setGfxJob j).hbm = s.hbm := rfl
@[simp] theorem setGfxJob_apc (s : State) (j : GfxJob) : (s.setGfxJob j).apc = s.apc := rfl
@[simp] theorem setGfxJob_enc (s : State) (j : GfxJob) : (s.setGfxJob j).enc = s.enc := rfl
@[simp] theorem setGfxJob_cry (s : State) (j : GfxJob) : (s.setGfxJob j).cry = s.cry := rfl
@[simp] theorem setGfxJob_inf (s : State) (j : GfxJob) : (s.setGfxJob j).inf = s.inf := rfl
@[simp] theorem setGfxJob_gfx (s : State) (j : GfxJob) : (s.setGfxJob j).gfx = { s.gfx with jobs := s.gfx.jobs.map (fun x => if x.uid = j.uid then j else x) } := rfl
@[simp] theorem setGfxJob_dsp (s : State) (j : GfxJob) : (s.setGfxJob j).dsp = s.dsp := rfl
@[simp] theorem setGfxJob_sxt (s : State) (j : GfxJob) : (s.setGfxJob j).sxt = s.sxt := rfl
@[simp] theorem setGfxJob_net (s : State) (j : GfxJob) : (s.setGfxJob j).net = s.net := rfl
@[simp] theorem setGfxJob_svc (s : State) (j : GfxJob) : (s.setGfxJob j).svc = s.svc := rfl
@[simp] theorem setGfxJob_alm (s : State) (j : GfxJob) : (s.setGfxJob j).alm = s.alm := rfl
@[simp] theorem setGfxJob_saf (s : State) (j : GfxJob) : (s.setGfxJob j).saf = s.saf := rfl
@[simp] theorem setGfxJob_clk (s : State) (j : GfxJob) : (s.setGfxJob j).clk = s.clk := rfl
@[simp] theorem setGfxJob_boot (s : State) (j : GfxJob) : (s.setGfxJob j).boot = s.boot := rfl
@[simp] theorem setGfxJob_pwr (s : State) (j : GfxJob) : (s.setGfxJob j).pwr = s.pwr := rfl
@[simp] theorem setGfxJob_pending (s : State) (j : GfxJob) : (s.setGfxJob j).pending = s.pending := rfl

/-! ### setCompJob -/

@[simp] theorem setCompJob_fuses (s : State) (j : CompJob) : (s.setCompJob j).fuses = s.fuses := rfl
@[simp] theorem setCompJob_words (s : State) (j : CompJob) : (s.setCompJob j).words = s.words := rfl
@[simp] theorem setCompJob_mem (s : State) (j : CompJob) : (s.setCompJob j).mem = s.mem := rfl
@[simp] theorem setCompJob_now (s : State) (j : CompJob) : (s.setCompJob j).now = s.now := rfl
@[simp] theorem setCompJob_free (s : State) (j : CompJob) : (s.setCompJob j).free = s.free := rfl
@[simp] theorem setCompJob_resp (s : State) (j : CompJob) : (s.setCompJob j).resp = s.resp := rfl
@[simp] theorem setCompJob_msgs (s : State) (j : CompJob) : (s.setCompJob j).msgs = s.msgs := rfl
@[simp] theorem setCompJob_cmp (s : State) (j : CompJob) : (s.setCompJob j).cmp = s.cmp := rfl
@[simp] theorem setCompJob_ttu (s : State) (j : CompJob) : (s.setCompJob j).ttu = s.ttu := rfl
@[simp] theorem setCompJob_orr (s : State) (j : CompJob) : (s.setCompJob j).orr = s.orr := rfl
@[simp] theorem setCompJob_fab (s : State) (j : CompJob) : (s.setCompJob j).fab = s.fab := rfl
@[simp] theorem setCompJob_hbm (s : State) (j : CompJob) : (s.setCompJob j).hbm = s.hbm := rfl
@[simp] theorem setCompJob_apc (s : State) (j : CompJob) : (s.setCompJob j).apc = s.apc := rfl
@[simp] theorem setCompJob_enc (s : State) (j : CompJob) : (s.setCompJob j).enc = s.enc := rfl
@[simp] theorem setCompJob_cry (s : State) (j : CompJob) : (s.setCompJob j).cry = s.cry := rfl
@[simp] theorem setCompJob_inf (s : State) (j : CompJob) : (s.setCompJob j).inf = s.inf := rfl
@[simp] theorem setCompJob_gfx (s : State) (j : CompJob) : (s.setCompJob j).gfx = { s.gfx with comps := s.gfx.comps.map (fun x => if x.uid = j.uid then j else x) } := rfl
@[simp] theorem setCompJob_dsp (s : State) (j : CompJob) : (s.setCompJob j).dsp = s.dsp := rfl
@[simp] theorem setCompJob_sxt (s : State) (j : CompJob) : (s.setCompJob j).sxt = s.sxt := rfl
@[simp] theorem setCompJob_net (s : State) (j : CompJob) : (s.setCompJob j).net = s.net := rfl
@[simp] theorem setCompJob_svc (s : State) (j : CompJob) : (s.setCompJob j).svc = s.svc := rfl
@[simp] theorem setCompJob_alm (s : State) (j : CompJob) : (s.setCompJob j).alm = s.alm := rfl
@[simp] theorem setCompJob_saf (s : State) (j : CompJob) : (s.setCompJob j).saf = s.saf := rfl
@[simp] theorem setCompJob_clk (s : State) (j : CompJob) : (s.setCompJob j).clk = s.clk := rfl
@[simp] theorem setCompJob_boot (s : State) (j : CompJob) : (s.setCompJob j).boot = s.boot := rfl
@[simp] theorem setCompJob_pwr (s : State) (j : CompJob) : (s.setCompJob j).pwr = s.pwr := rfl
@[simp] theorem setCompJob_pending (s : State) (j : CompJob) : (s.setCompJob j).pending = s.pending := rfl

/-! ### setThread -/

@[simp] theorem setThread_fuses (s : State) (x : ShThread) : (s.setThread x).fuses = s.fuses := rfl
@[simp] theorem setThread_words (s : State) (x : ShThread) : (s.setThread x).words = s.words := rfl
@[simp] theorem setThread_mem (s : State) (x : ShThread) : (s.setThread x).mem = s.mem := rfl
@[simp] theorem setThread_now (s : State) (x : ShThread) : (s.setThread x).now = s.now := rfl
@[simp] theorem setThread_free (s : State) (x : ShThread) : (s.setThread x).free = s.free := rfl
@[simp] theorem setThread_resp (s : State) (x : ShThread) : (s.setThread x).resp = s.resp := rfl
@[simp] theorem setThread_msgs (s : State) (x : ShThread) : (s.setThread x).msgs = s.msgs := rfl
@[simp] theorem setThread_cmp (s : State) (x : ShThread) : (s.setThread x).cmp = s.cmp := rfl
@[simp] theorem setThread_ttu (s : State) (x : ShThread) : (s.setThread x).ttu = s.ttu := rfl
@[simp] theorem setThread_orr (s : State) (x : ShThread) : (s.setThread x).orr = s.orr := rfl
@[simp] theorem setThread_fab (s : State) (x : ShThread) : (s.setThread x).fab = s.fab := rfl
@[simp] theorem setThread_hbm (s : State) (x : ShThread) : (s.setThread x).hbm = s.hbm := rfl
@[simp] theorem setThread_apc (s : State) (x : ShThread) : (s.setThread x).apc = s.apc := rfl
@[simp] theorem setThread_enc (s : State) (x : ShThread) : (s.setThread x).enc = s.enc := rfl
@[simp] theorem setThread_cry (s : State) (x : ShThread) : (s.setThread x).cry = s.cry := rfl
@[simp] theorem setThread_inf (s : State) (x : ShThread) : (s.setThread x).inf = s.inf := rfl
@[simp] theorem setThread_gfx (s : State) (x : ShThread) : (s.setThread x).gfx = { s.gfx with threads := s.gfx.threads.filter (fun y => y.id ≠ x.id) ++ [x] } := rfl
@[simp] theorem setThread_dsp (s : State) (x : ShThread) : (s.setThread x).dsp = s.dsp := rfl
@[simp] theorem setThread_sxt (s : State) (x : ShThread) : (s.setThread x).sxt = s.sxt := rfl
@[simp] theorem setThread_net (s : State) (x : ShThread) : (s.setThread x).net = s.net := rfl
@[simp] theorem setThread_svc (s : State) (x : ShThread) : (s.setThread x).svc = s.svc := rfl
@[simp] theorem setThread_alm (s : State) (x : ShThread) : (s.setThread x).alm = s.alm := rfl
@[simp] theorem setThread_saf (s : State) (x : ShThread) : (s.setThread x).saf = s.saf := rfl
@[simp] theorem setThread_clk (s : State) (x : ShThread) : (s.setThread x).clk = s.clk := rfl
@[simp] theorem setThread_boot (s : State) (x : ShThread) : (s.setThread x).boot = s.boot := rfl
@[simp] theorem setThread_pwr (s : State) (x : ShThread) : (s.setThread x).pwr = s.pwr := rfl
@[simp] theorem setThread_pending (s : State) (x : ShThread) : (s.setThread x).pending = s.pending := rfl

/-! ### setGov -/

@[simp] theorem setGov_fuses (s : State) (g : Gov) : (s.setGov g).fuses = s.fuses := rfl
@[simp] theorem setGov_words (s : State) (g : Gov) : (s.setGov g).words = s.words := rfl
@[simp] theorem setGov_mem (s : State) (g : Gov) : (s.setGov g).mem = s.mem := rfl
@[simp] theorem setGov_now (s : State) (g : Gov) : (s.setGov g).now = s.now := rfl
@[simp] theorem setGov_free (s : State) (g : Gov) : (s.setGov g).free = s.free := rfl
@[simp] theorem setGov_resp (s : State) (g : Gov) : (s.setGov g).resp = s.resp := rfl
@[simp] theorem setGov_msgs (s : State) (g : Gov) : (s.setGov g).msgs = s.msgs := rfl
@[simp] theorem setGov_cmp (s : State) (g : Gov) : (s.setGov g).cmp = s.cmp := rfl
@[simp] theorem setGov_ttu (s : State) (g : Gov) : (s.setGov g).ttu = s.ttu := rfl
@[simp] theorem setGov_orr (s : State) (g : Gov) : (s.setGov g).orr = s.orr := rfl
@[simp] theorem setGov_fab (s : State) (g : Gov) : (s.setGov g).fab = s.fab := rfl
@[simp] theorem setGov_hbm (s : State) (g : Gov) : (s.setGov g).hbm = s.hbm := rfl
@[simp] theorem setGov_apc (s : State) (g : Gov) : (s.setGov g).apc = s.apc := rfl
@[simp] theorem setGov_enc (s : State) (g : Gov) : (s.setGov g).enc = s.enc := rfl
@[simp] theorem setGov_cry (s : State) (g : Gov) : (s.setGov g).cry = s.cry := rfl
@[simp] theorem setGov_inf (s : State) (g : Gov) : (s.setGov g).inf = { s.inf with gov := g } := rfl
@[simp] theorem setGov_gfx (s : State) (g : Gov) : (s.setGov g).gfx = s.gfx := rfl
@[simp] theorem setGov_dsp (s : State) (g : Gov) : (s.setGov g).dsp = s.dsp := rfl
@[simp] theorem setGov_sxt (s : State) (g : Gov) : (s.setGov g).sxt = s.sxt := rfl
@[simp] theorem setGov_net (s : State) (g : Gov) : (s.setGov g).net = s.net := rfl
@[simp] theorem setGov_svc (s : State) (g : Gov) : (s.setGov g).svc = s.svc := rfl
@[simp] theorem setGov_alm (s : State) (g : Gov) : (s.setGov g).alm = s.alm := rfl
@[simp] theorem setGov_saf (s : State) (g : Gov) : (s.setGov g).saf = s.saf := rfl
@[simp] theorem setGov_clk (s : State) (g : Gov) : (s.setGov g).clk = s.clk := rfl
@[simp] theorem setGov_boot (s : State) (g : Gov) : (s.setGov g).boot = s.boot := rfl
@[simp] theorem setGov_pwr (s : State) (g : Gov) : (s.setGov g).pwr = s.pwr := rfl
@[simp] theorem setGov_pending (s : State) (g : Gov) : (s.setGov g).pending = s.pending := rfl

/-! ### setTileQueue -/

@[simp] theorem setTileQueue_fuses (s : State) (t : Nat) (l : List TileDesc) : (s.setTileQueue t l).fuses = s.fuses := rfl
@[simp] theorem setTileQueue_words (s : State) (t : Nat) (l : List TileDesc) : (s.setTileQueue t l).words = s.words := rfl
@[simp] theorem setTileQueue_mem (s : State) (t : Nat) (l : List TileDesc) : (s.setTileQueue t l).mem = s.mem := rfl
@[simp] theorem setTileQueue_now (s : State) (t : Nat) (l : List TileDesc) : (s.setTileQueue t l).now = s.now := rfl
@[simp] theorem setTileQueue_free (s : State) (t : Nat) (l : List TileDesc) : (s.setTileQueue t l).free = s.free := rfl
@[simp] theorem setTileQueue_resp (s : State) (t : Nat) (l : List TileDesc) : (s.setTileQueue t l).resp = s.resp := rfl
@[simp] theorem setTileQueue_msgs (s : State) (t : Nat) (l : List TileDesc) : (s.setTileQueue t l).msgs = s.msgs := rfl
@[simp] theorem setTileQueue_cmp (s : State) (t : Nat) (l : List TileDesc) : (s.setTileQueue t l).cmp = s.cmp := rfl
@[simp] theorem setTileQueue_ttu (s : State) (t : Nat) (l : List TileDesc) : (s.setTileQueue t l).ttu = s.ttu := rfl
@[simp] theorem setTileQueue_orr (s : State) (t : Nat) (l : List TileDesc) : (s.setTileQueue t l).orr = s.orr := rfl
@[simp] theorem setTileQueue_fab (s : State) (t : Nat) (l : List TileDesc) : (s.setTileQueue t l).fab = s.fab := rfl
@[simp] theorem setTileQueue_hbm (s : State) (t : Nat) (l : List TileDesc) : (s.setTileQueue t l).hbm = s.hbm := rfl
@[simp] theorem setTileQueue_apc (s : State) (t : Nat) (l : List TileDesc) : (s.setTileQueue t l).apc = s.apc := rfl
@[simp] theorem setTileQueue_enc (s : State) (t : Nat) (l : List TileDesc) : (s.setTileQueue t l).enc = s.enc := rfl
@[simp] theorem setTileQueue_cry (s : State) (t : Nat) (l : List TileDesc) : (s.setTileQueue t l).cry = s.cry := rfl
@[simp] theorem setTileQueue_inf (s : State) (t : Nat) (l : List TileDesc) : (s.setTileQueue t l).inf = { s.inf with queues := if l.isEmpty then tdel s.inf.queues t else tput s.inf.queues t l } := rfl
@[simp] theorem setTileQueue_gfx (s : State) (t : Nat) (l : List TileDesc) : (s.setTileQueue t l).gfx = s.gfx := rfl
@[simp] theorem setTileQueue_dsp (s : State) (t : Nat) (l : List TileDesc) : (s.setTileQueue t l).dsp = s.dsp := rfl
@[simp] theorem setTileQueue_sxt (s : State) (t : Nat) (l : List TileDesc) : (s.setTileQueue t l).sxt = s.sxt := rfl
@[simp] theorem setTileQueue_net (s : State) (t : Nat) (l : List TileDesc) : (s.setTileQueue t l).net = s.net := rfl
@[simp] theorem setTileQueue_svc (s : State) (t : Nat) (l : List TileDesc) : (s.setTileQueue t l).svc = s.svc := rfl
@[simp] theorem setTileQueue_alm (s : State) (t : Nat) (l : List TileDesc) : (s.setTileQueue t l).alm = s.alm := rfl
@[simp] theorem setTileQueue_saf (s : State) (t : Nat) (l : List TileDesc) : (s.setTileQueue t l).saf = s.saf := rfl
@[simp] theorem setTileQueue_clk (s : State) (t : Nat) (l : List TileDesc) : (s.setTileQueue t l).clk = s.clk := rfl
@[simp] theorem setTileQueue_boot (s : State) (t : Nat) (l : List TileDesc) : (s.setTileQueue t l).boot = s.boot := rfl
@[simp] theorem setTileQueue_pwr (s : State) (t : Nat) (l : List TileDesc) : (s.setTileQueue t l).pwr = s.pwr := rfl
@[simp] theorem setTileQueue_pending (s : State) (t : Nat) (l : List TileDesc) : (s.setTileQueue t l).pending = s.pending := rfl

/-! ### setInfJob -/

@[simp] theorem setInfJob_fuses (s : State) (j : InfJob) : (s.setInfJob j).fuses = s.fuses := rfl
@[simp] theorem setInfJob_words (s : State) (j : InfJob) : (s.setInfJob j).words = s.words := rfl
@[simp] theorem setInfJob_mem (s : State) (j : InfJob) : (s.setInfJob j).mem = s.mem := rfl
@[simp] theorem setInfJob_now (s : State) (j : InfJob) : (s.setInfJob j).now = s.now := rfl
@[simp] theorem setInfJob_free (s : State) (j : InfJob) : (s.setInfJob j).free = s.free := rfl
@[simp] theorem setInfJob_resp (s : State) (j : InfJob) : (s.setInfJob j).resp = s.resp := rfl
@[simp] theorem setInfJob_msgs (s : State) (j : InfJob) : (s.setInfJob j).msgs = s.msgs := rfl
@[simp] theorem setInfJob_cmp (s : State) (j : InfJob) : (s.setInfJob j).cmp = s.cmp := rfl
@[simp] theorem setInfJob_ttu (s : State) (j : InfJob) : (s.setInfJob j).ttu = s.ttu := rfl
@[simp] theorem setInfJob_orr (s : State) (j : InfJob) : (s.setInfJob j).orr = s.orr := rfl
@[simp] theorem setInfJob_fab (s : State) (j : InfJob) : (s.setInfJob j).fab = s.fab := rfl
@[simp] theorem setInfJob_hbm (s : State) (j : InfJob) : (s.setInfJob j).hbm = s.hbm := rfl
@[simp] theorem setInfJob_apc (s : State) (j : InfJob) : (s.setInfJob j).apc = s.apc := rfl
@[simp] theorem setInfJob_enc (s : State) (j : InfJob) : (s.setInfJob j).enc = s.enc := rfl
@[simp] theorem setInfJob_cry (s : State) (j : InfJob) : (s.setInfJob j).cry = s.cry := rfl
@[simp] theorem setInfJob_inf (s : State) (j : InfJob) : (s.setInfJob j).inf = { s.inf with jobs := s.inf.jobs.map (fun x => if x.uid = j.uid then j else x) } := rfl
@[simp] theorem setInfJob_gfx (s : State) (j : InfJob) : (s.setInfJob j).gfx = s.gfx := rfl
@[simp] theorem setInfJob_dsp (s : State) (j : InfJob) : (s.setInfJob j).dsp = s.dsp := rfl
@[simp] theorem setInfJob_sxt (s : State) (j : InfJob) : (s.setInfJob j).sxt = s.sxt := rfl
@[simp] theorem setInfJob_net (s : State) (j : InfJob) : (s.setInfJob j).net = s.net := rfl
@[simp] theorem setInfJob_svc (s : State) (j : InfJob) : (s.setInfJob j).svc = s.svc := rfl
@[simp] theorem setInfJob_alm (s : State) (j : InfJob) : (s.setInfJob j).alm = s.alm := rfl
@[simp] theorem setInfJob_saf (s : State) (j : InfJob) : (s.setInfJob j).saf = s.saf := rfl
@[simp] theorem setInfJob_clk (s : State) (j : InfJob) : (s.setInfJob j).clk = s.clk := rfl
@[simp] theorem setInfJob_boot (s : State) (j : InfJob) : (s.setInfJob j).boot = s.boot := rfl
@[simp] theorem setInfJob_pwr (s : State) (j : InfJob) : (s.setInfJob j).pwr = s.pwr := rfl
@[simp] theorem setInfJob_pending (s : State) (j : InfJob) : (s.setInfJob j).pending = s.pending := rfl

/-! ### setHart -/

@[simp] theorem setHart_fuses (s : State) (h : Nat) (x : Hart) : (s.setHart h x).fuses = s.fuses := rfl
@[simp] theorem setHart_words (s : State) (h : Nat) (x : Hart) : (s.setHart h x).words = s.words := rfl
@[simp] theorem setHart_mem (s : State) (h : Nat) (x : Hart) : (s.setHart h x).mem = s.mem := rfl
@[simp] theorem setHart_now (s : State) (h : Nat) (x : Hart) : (s.setHart h x).now = s.now := rfl
@[simp] theorem setHart_free (s : State) (h : Nat) (x : Hart) : (s.setHart h x).free = s.free := rfl
@[simp] theorem setHart_resp (s : State) (h : Nat) (x : Hart) : (s.setHart h x).resp = s.resp := rfl
@[simp] theorem setHart_msgs (s : State) (h : Nat) (x : Hart) : (s.setHart h x).msgs = s.msgs := rfl
@[simp] theorem setHart_cmp (s : State) (h : Nat) (x : Hart) : (s.setHart h x).cmp = s.cmp := rfl
@[simp] theorem setHart_ttu (s : State) (h : Nat) (x : Hart) : (s.setHart h x).ttu = s.ttu := rfl
@[simp] theorem setHart_orr (s : State) (h : Nat) (x : Hart) : (s.setHart h x).orr = s.orr := rfl
@[simp] theorem setHart_fab (s : State) (h : Nat) (x : Hart) : (s.setHart h x).fab = s.fab := rfl
@[simp] theorem setHart_hbm (s : State) (h : Nat) (x : Hart) : (s.setHart h x).hbm = s.hbm := rfl
@[simp] theorem setHart_apc (s : State) (h : Nat) (x : Hart) : (s.setHart h x).apc = { s.apc with harts := tput s.apc.harts h x } := rfl
@[simp] theorem setHart_enc (s : State) (h : Nat) (x : Hart) : (s.setHart h x).enc = s.enc := rfl
@[simp] theorem setHart_cry (s : State) (h : Nat) (x : Hart) : (s.setHart h x).cry = s.cry := rfl
@[simp] theorem setHart_inf (s : State) (h : Nat) (x : Hart) : (s.setHart h x).inf = s.inf := rfl
@[simp] theorem setHart_gfx (s : State) (h : Nat) (x : Hart) : (s.setHart h x).gfx = s.gfx := rfl
@[simp] theorem setHart_dsp (s : State) (h : Nat) (x : Hart) : (s.setHart h x).dsp = s.dsp := rfl
@[simp] theorem setHart_sxt (s : State) (h : Nat) (x : Hart) : (s.setHart h x).sxt = s.sxt := rfl
@[simp] theorem setHart_net (s : State) (h : Nat) (x : Hart) : (s.setHart h x).net = s.net := rfl
@[simp] theorem setHart_svc (s : State) (h : Nat) (x : Hart) : (s.setHart h x).svc = s.svc := rfl
@[simp] theorem setHart_alm (s : State) (h : Nat) (x : Hart) : (s.setHart h x).alm = s.alm := rfl
@[simp] theorem setHart_saf (s : State) (h : Nat) (x : Hart) : (s.setHart h x).saf = s.saf := rfl
@[simp] theorem setHart_clk (s : State) (h : Nat) (x : Hart) : (s.setHart h x).clk = s.clk := rfl
@[simp] theorem setHart_boot (s : State) (h : Nat) (x : Hart) : (s.setHart h x).boot = s.boot := rfl
@[simp] theorem setHart_pwr (s : State) (h : Nat) (x : Hart) : (s.setHart h x).pwr = s.pwr := rfl
@[simp] theorem setHart_pending (s : State) (h : Nat) (x : Hart) : (s.setHart h x).pending = s.pending := rfl

/-! ### setLine -/

@[simp] theorem setLine_fuses (s : State) (pa : Nat) (l : Line) : (s.setLine pa l).fuses = s.fuses := rfl
@[simp] theorem setLine_words (s : State) (pa : Nat) (l : Line) : (s.setLine pa l).words = s.words := rfl
@[simp] theorem setLine_mem (s : State) (pa : Nat) (l : Line) : (s.setLine pa l).mem = s.mem := rfl
@[simp] theorem setLine_now (s : State) (pa : Nat) (l : Line) : (s.setLine pa l).now = s.now := rfl
@[simp] theorem setLine_free (s : State) (pa : Nat) (l : Line) : (s.setLine pa l).free = s.free := rfl
@[simp] theorem setLine_resp (s : State) (pa : Nat) (l : Line) : (s.setLine pa l).resp = s.resp := rfl
@[simp] theorem setLine_msgs (s : State) (pa : Nat) (l : Line) : (s.setLine pa l).msgs = s.msgs := rfl
@[simp] theorem setLine_cmp (s : State) (pa : Nat) (l : Line) : (s.setLine pa l).cmp = s.cmp := rfl
@[simp] theorem setLine_ttu (s : State) (pa : Nat) (l : Line) : (s.setLine pa l).ttu = s.ttu := rfl
@[simp] theorem setLine_orr (s : State) (pa : Nat) (l : Line) : (s.setLine pa l).orr = s.orr := rfl
@[simp] theorem setLine_fab (s : State) (pa : Nat) (l : Line) : (s.setLine pa l).fab = s.fab := rfl
@[simp] theorem setLine_hbm (s : State) (pa : Nat) (l : Line) : (s.setLine pa l).hbm = { s.hbm with lines := tput s.hbm.lines (pa / 64) l } := rfl
@[simp] theorem setLine_apc (s : State) (pa : Nat) (l : Line) : (s.setLine pa l).apc = s.apc := rfl
@[simp] theorem setLine_enc (s : State) (pa : Nat) (l : Line) : (s.setLine pa l).enc = s.enc := rfl
@[simp] theorem setLine_cry (s : State) (pa : Nat) (l : Line) : (s.setLine pa l).cry = s.cry := rfl
@[simp] theorem setLine_inf (s : State) (pa : Nat) (l : Line) : (s.setLine pa l).inf = s.inf := rfl
@[simp] theorem setLine_gfx (s : State) (pa : Nat) (l : Line) : (s.setLine pa l).gfx = s.gfx := rfl
@[simp] theorem setLine_dsp (s : State) (pa : Nat) (l : Line) : (s.setLine pa l).dsp = s.dsp := rfl
@[simp] theorem setLine_sxt (s : State) (pa : Nat) (l : Line) : (s.setLine pa l).sxt = s.sxt := rfl
@[simp] theorem setLine_net (s : State) (pa : Nat) (l : Line) : (s.setLine pa l).net = s.net := rfl
@[simp] theorem setLine_svc (s : State) (pa : Nat) (l : Line) : (s.setLine pa l).svc = s.svc := rfl
@[simp] theorem setLine_alm (s : State) (pa : Nat) (l : Line) : (s.setLine pa l).alm = s.alm := rfl
@[simp] theorem setLine_saf (s : State) (pa : Nat) (l : Line) : (s.setLine pa l).saf = s.saf := rfl
@[simp] theorem setLine_clk (s : State) (pa : Nat) (l : Line) : (s.setLine pa l).clk = s.clk := rfl
@[simp] theorem setLine_boot (s : State) (pa : Nat) (l : Line) : (s.setLine pa l).boot = s.boot := rfl
@[simp] theorem setLine_pwr (s : State) (pa : Nat) (l : Line) : (s.setLine pa l).pwr = s.pwr := rfl
@[simp] theorem setLine_pending (s : State) (pa : Nat) (l : Line) : (s.setLine pa l).pending = s.pending := rfl

/-! ### setWreck -/

@[simp] theorem setWreck_fuses (s : State) (d : Nat) (w : Wreck) : (s.setWreck d w).fuses = s.fuses := rfl
@[simp] theorem setWreck_words (s : State) (d : Nat) (w : Wreck) : (s.setWreck d w).words = s.words := rfl
@[simp] theorem setWreck_mem (s : State) (d : Nat) (w : Wreck) : (s.setWreck d w).mem = s.mem := rfl
@[simp] theorem setWreck_now (s : State) (d : Nat) (w : Wreck) : (s.setWreck d w).now = s.now := rfl
@[simp] theorem setWreck_free (s : State) (d : Nat) (w : Wreck) : (s.setWreck d w).free = s.free := rfl
@[simp] theorem setWreck_resp (s : State) (d : Nat) (w : Wreck) : (s.setWreck d w).resp = s.resp := rfl
@[simp] theorem setWreck_msgs (s : State) (d : Nat) (w : Wreck) : (s.setWreck d w).msgs = s.msgs := rfl
@[simp] theorem setWreck_cmp (s : State) (d : Nat) (w : Wreck) : (s.setWreck d w).cmp = s.cmp := rfl
@[simp] theorem setWreck_ttu (s : State) (d : Nat) (w : Wreck) : (s.setWreck d w).ttu = s.ttu := rfl
@[simp] theorem setWreck_orr (s : State) (d : Nat) (w : Wreck) : (s.setWreck d w).orr = s.orr := rfl
@[simp] theorem setWreck_fab (s : State) (d : Nat) (w : Wreck) : (s.setWreck d w).fab = s.fab := rfl
@[simp] theorem setWreck_hbm (s : State) (d : Nat) (w : Wreck) : (s.setWreck d w).hbm = s.hbm := rfl
@[simp] theorem setWreck_apc (s : State) (d : Nat) (w : Wreck) : (s.setWreck d w).apc = s.apc := rfl
@[simp] theorem setWreck_enc (s : State) (d : Nat) (w : Wreck) : (s.setWreck d w).enc = s.enc := rfl
@[simp] theorem setWreck_cry (s : State) (d : Nat) (w : Wreck) : (s.setWreck d w).cry = s.cry := rfl
@[simp] theorem setWreck_inf (s : State) (d : Nat) (w : Wreck) : (s.setWreck d w).inf = s.inf := rfl
@[simp] theorem setWreck_gfx (s : State) (d : Nat) (w : Wreck) : (s.setWreck d w).gfx = s.gfx := rfl
@[simp] theorem setWreck_dsp (s : State) (d : Nat) (w : Wreck) : (s.setWreck d w).dsp = s.dsp := rfl
@[simp] theorem setWreck_sxt (s : State) (d : Nat) (w : Wreck) : (s.setWreck d w).sxt = s.sxt := rfl
@[simp] theorem setWreck_net (s : State) (d : Nat) (w : Wreck) : (s.setWreck d w).net = s.net := rfl
@[simp] theorem setWreck_svc (s : State) (d : Nat) (w : Wreck) : (s.setWreck d w).svc = s.svc := rfl
@[simp] theorem setWreck_alm (s : State) (d : Nat) (w : Wreck) : (s.setWreck d w).alm = { s.alm with wrecks := tput s.alm.wrecks d w } := rfl
@[simp] theorem setWreck_saf (s : State) (d : Nat) (w : Wreck) : (s.setWreck d w).saf = s.saf := rfl
@[simp] theorem setWreck_clk (s : State) (d : Nat) (w : Wreck) : (s.setWreck d w).clk = s.clk := rfl
@[simp] theorem setWreck_boot (s : State) (d : Nat) (w : Wreck) : (s.setWreck d w).boot = s.boot := rfl
@[simp] theorem setWreck_pwr (s : State) (d : Nat) (w : Wreck) : (s.setWreck d w).pwr = s.pwr := rfl
@[simp] theorem setWreck_pending (s : State) (d : Nat) (w : Wreck) : (s.setWreck d w).pending = s.pending := rfl

/-! ### wreckTrigger -/

@[simp] theorem wreckTrigger_fuses (s : State) (cause : Nat) : (s.wreckTrigger cause).fuses = s.fuses := rfl
@[simp] theorem wreckTrigger_words (s : State) (cause : Nat) : (s.wreckTrigger cause).words = s.words := rfl
@[simp] theorem wreckTrigger_mem (s : State) (cause : Nat) : (s.wreckTrigger cause).mem = s.mem := rfl
@[simp] theorem wreckTrigger_now (s : State) (cause : Nat) : (s.wreckTrigger cause).now = s.now := rfl
@[simp] theorem wreckTrigger_free (s : State) (cause : Nat) : (s.wreckTrigger cause).free = s.free := rfl
@[simp] theorem wreckTrigger_resp (s : State) (cause : Nat) : (s.wreckTrigger cause).resp = s.resp := rfl
@[simp] theorem wreckTrigger_msgs (s : State) (cause : Nat) : (s.wreckTrigger cause).msgs = s.msgs := rfl
@[simp] theorem wreckTrigger_cmp (s : State) (cause : Nat) : (s.wreckTrigger cause).cmp = s.cmp := rfl
@[simp] theorem wreckTrigger_ttu (s : State) (cause : Nat) : (s.wreckTrigger cause).ttu = s.ttu := rfl
@[simp] theorem wreckTrigger_orr (s : State) (cause : Nat) : (s.wreckTrigger cause).orr = s.orr := rfl
@[simp] theorem wreckTrigger_fab (s : State) (cause : Nat) : (s.wreckTrigger cause).fab = s.fab := rfl
@[simp] theorem wreckTrigger_hbm (s : State) (cause : Nat) : (s.wreckTrigger cause).hbm = s.hbm := rfl
@[simp] theorem wreckTrigger_apc (s : State) (cause : Nat) : (s.wreckTrigger cause).apc = s.apc := rfl
@[simp] theorem wreckTrigger_enc (s : State) (cause : Nat) : (s.wreckTrigger cause).enc = s.enc := rfl
@[simp] theorem wreckTrigger_cry (s : State) (cause : Nat) : (s.wreckTrigger cause).cry = s.cry := rfl
@[simp] theorem wreckTrigger_inf (s : State) (cause : Nat) : (s.wreckTrigger cause).inf = s.inf := rfl
@[simp] theorem wreckTrigger_gfx (s : State) (cause : Nat) : (s.wreckTrigger cause).gfx = s.gfx := rfl
@[simp] theorem wreckTrigger_dsp (s : State) (cause : Nat) : (s.wreckTrigger cause).dsp = s.dsp := rfl
@[simp] theorem wreckTrigger_sxt (s : State) (cause : Nat) : (s.wreckTrigger cause).sxt = s.sxt := rfl
@[simp] theorem wreckTrigger_net (s : State) (cause : Nat) : (s.wreckTrigger cause).net = s.net := rfl
@[simp] theorem wreckTrigger_svc (s : State) (cause : Nat) : (s.wreckTrigger cause).svc = s.svc := rfl
@[simp] theorem wreckTrigger_alm (s : State) (cause : Nat) : (s.wreckTrigger cause).alm = { s.alm with triggers := s.alm.triggers ++ [(cause, s.now)] } := rfl
@[simp] theorem wreckTrigger_saf (s : State) (cause : Nat) : (s.wreckTrigger cause).saf = s.saf := rfl
@[simp] theorem wreckTrigger_clk (s : State) (cause : Nat) : (s.wreckTrigger cause).clk = s.clk := rfl
@[simp] theorem wreckTrigger_boot (s : State) (cause : Nat) : (s.wreckTrigger cause).boot = s.boot := rfl
@[simp] theorem wreckTrigger_pwr (s : State) (cause : Nat) : (s.wreckTrigger cause).pwr = s.pwr := rfl
@[simp] theorem wreckTrigger_pending (s : State) (cause : Nat) : (s.wreckTrigger cause).pending = s.pending := rfl

/-! ### dropLine -/

@[simp] theorem dropLine_fuses (s : State) (e : Nat) : (s.dropLine e).fuses = s.fuses := rfl
@[simp] theorem dropLine_words (s : State) (e : Nat) : (s.dropLine e).words = s.words := rfl
@[simp] theorem dropLine_mem (s : State) (e : Nat) : (s.dropLine e).mem = s.mem := rfl
@[simp] theorem dropLine_now (s : State) (e : Nat) : (s.dropLine e).now = s.now := rfl
@[simp] theorem dropLine_free (s : State) (e : Nat) : (s.dropLine e).free = s.free := rfl
@[simp] theorem dropLine_resp (s : State) (e : Nat) : (s.dropLine e).resp = s.resp := rfl
@[simp] theorem dropLine_msgs (s : State) (e : Nat) : (s.dropLine e).msgs = s.msgs := rfl
@[simp] theorem dropLine_cmp (s : State) (e : Nat) : (s.dropLine e).cmp = s.cmp := rfl
@[simp] theorem dropLine_ttu (s : State) (e : Nat) : (s.dropLine e).ttu = s.ttu := rfl
@[simp] theorem dropLine_orr (s : State) (e : Nat) : (s.dropLine e).orr = s.orr := rfl
@[simp] theorem dropLine_fab (s : State) (e : Nat) : (s.dropLine e).fab = s.fab := rfl
@[simp] theorem dropLine_hbm (s : State) (e : Nat) : (s.dropLine e).hbm = s.hbm := rfl
@[simp] theorem dropLine_apc (s : State) (e : Nat) : (s.dropLine e).apc = s.apc := rfl
@[simp] theorem dropLine_enc (s : State) (e : Nat) : (s.dropLine e).enc = s.enc := rfl
@[simp] theorem dropLine_cry (s : State) (e : Nat) : (s.dropLine e).cry = s.cry := rfl
@[simp] theorem dropLine_inf (s : State) (e : Nat) : (s.dropLine e).inf = s.inf := rfl
@[simp] theorem dropLine_gfx (s : State) (e : Nat) : (s.dropLine e).gfx = s.gfx := rfl
@[simp] theorem dropLine_dsp (s : State) (e : Nat) : (s.dropLine e).dsp = s.dsp := rfl
@[simp] theorem dropLine_sxt (s : State) (e : Nat) : (s.dropLine e).sxt = s.sxt := rfl
@[simp] theorem dropLine_net (s : State) (e : Nat) : (s.dropLine e).net = s.net := rfl
@[simp] theorem dropLine_svc (s : State) (e : Nat) : (s.dropLine e).svc = s.svc := rfl
@[simp] theorem dropLine_alm (s : State) (e : Nat) : (s.dropLine e).alm = s.alm := rfl
@[simp] theorem dropLine_saf (s : State) (e : Nat) : (s.dropLine e).saf = { s.saf with lines := s.saf.lines.filter (· ≠ e) } := rfl
@[simp] theorem dropLine_clk (s : State) (e : Nat) : (s.dropLine e).clk = s.clk := rfl
@[simp] theorem dropLine_boot (s : State) (e : Nat) : (s.dropLine e).boot = s.boot := rfl
@[simp] theorem dropLine_pwr (s : State) (e : Nat) : (s.dropLine e).pwr = s.pwr := rfl
@[simp] theorem dropLine_pending (s : State) (e : Nat) : (s.dropLine e).pending = s.pending := rfl

/-! ### hold -/

@[simp] theorem hold_fuses (s : State) (q : OrrReq) : (s.hold q).fuses = s.fuses := rfl
@[simp] theorem hold_words (s : State) (q : OrrReq) : (s.hold q).words = s.words := rfl
@[simp] theorem hold_mem (s : State) (q : OrrReq) : (s.hold q).mem = s.mem := rfl
@[simp] theorem hold_now (s : State) (q : OrrReq) : (s.hold q).now = s.now := rfl
@[simp] theorem hold_free (s : State) (q : OrrReq) : (s.hold q).free = s.free := rfl
@[simp] theorem hold_resp (s : State) (q : OrrReq) : (s.hold q).resp = s.resp := rfl
@[simp] theorem hold_msgs (s : State) (q : OrrReq) : (s.hold q).msgs = s.msgs := rfl
@[simp] theorem hold_cmp (s : State) (q : OrrReq) : (s.hold q).cmp = s.cmp := rfl
@[simp] theorem hold_ttu (s : State) (q : OrrReq) : (s.hold q).ttu = s.ttu := rfl
@[simp] theorem hold_orr (s : State) (q : OrrReq) : (s.hold q).orr = { s.orr with waiting := s.orr.waiting ++ [{ q with id := s.orr.nextId }], nextId := s.orr.nextId + 1 } := rfl
@[simp] theorem hold_fab (s : State) (q : OrrReq) : (s.hold q).fab = s.fab := rfl
@[simp] theorem hold_hbm (s : State) (q : OrrReq) : (s.hold q).hbm = s.hbm := rfl
@[simp] theorem hold_apc (s : State) (q : OrrReq) : (s.hold q).apc = s.apc := rfl
@[simp] theorem hold_enc (s : State) (q : OrrReq) : (s.hold q).enc = s.enc := rfl
@[simp] theorem hold_cry (s : State) (q : OrrReq) : (s.hold q).cry = s.cry := rfl
@[simp] theorem hold_inf (s : State) (q : OrrReq) : (s.hold q).inf = s.inf := rfl
@[simp] theorem hold_gfx (s : State) (q : OrrReq) : (s.hold q).gfx = s.gfx := rfl
@[simp] theorem hold_dsp (s : State) (q : OrrReq) : (s.hold q).dsp = s.dsp := rfl
@[simp] theorem hold_sxt (s : State) (q : OrrReq) : (s.hold q).sxt = s.sxt := rfl
@[simp] theorem hold_net (s : State) (q : OrrReq) : (s.hold q).net = s.net := rfl
@[simp] theorem hold_svc (s : State) (q : OrrReq) : (s.hold q).svc = s.svc := rfl
@[simp] theorem hold_alm (s : State) (q : OrrReq) : (s.hold q).alm = s.alm := rfl
@[simp] theorem hold_saf (s : State) (q : OrrReq) : (s.hold q).saf = s.saf := rfl
@[simp] theorem hold_clk (s : State) (q : OrrReq) : (s.hold q).clk = s.clk := rfl
@[simp] theorem hold_boot (s : State) (q : OrrReq) : (s.hold q).boot = s.boot := rfl
@[simp] theorem hold_pwr (s : State) (q : OrrReq) : (s.hold q).pwr = s.pwr := rfl
@[simp] theorem hold_pending (s : State) (q : OrrReq) : (s.hold q).pending = s.pending := rfl

/-! ### dropTag -/

@[simp] theorem dropTag_fuses (s : State) (i : Nat) : (s.dropTag i).fuses = s.fuses := rfl
@[simp] theorem dropTag_words (s : State) (i : Nat) : (s.dropTag i).words = s.words := rfl
@[simp] theorem dropTag_mem (s : State) (i : Nat) : (s.dropTag i).mem = s.mem := rfl
@[simp] theorem dropTag_now (s : State) (i : Nat) : (s.dropTag i).now = s.now := rfl
@[simp] theorem dropTag_free (s : State) (i : Nat) : (s.dropTag i).free = s.free := rfl
@[simp] theorem dropTag_resp (s : State) (i : Nat) : (s.dropTag i).resp = s.resp := rfl
@[simp] theorem dropTag_msgs (s : State) (i : Nat) : (s.dropTag i).msgs = s.msgs := rfl
@[simp] theorem dropTag_cmp (s : State) (i : Nat) : (s.dropTag i).cmp = s.cmp := rfl
@[simp] theorem dropTag_ttu (s : State) (i : Nat) : (s.dropTag i).ttu = { s.ttu with tlb := s.ttu.tlb.filter (fun e => e.tag ≠ i) } := rfl
@[simp] theorem dropTag_orr (s : State) (i : Nat) : (s.dropTag i).orr = s.orr := rfl
@[simp] theorem dropTag_fab (s : State) (i : Nat) : (s.dropTag i).fab = s.fab := rfl
@[simp] theorem dropTag_hbm (s : State) (i : Nat) : (s.dropTag i).hbm = s.hbm := rfl
@[simp] theorem dropTag_apc (s : State) (i : Nat) : (s.dropTag i).apc = s.apc := rfl
@[simp] theorem dropTag_enc (s : State) (i : Nat) : (s.dropTag i).enc = s.enc := rfl
@[simp] theorem dropTag_cry (s : State) (i : Nat) : (s.dropTag i).cry = s.cry := rfl
@[simp] theorem dropTag_inf (s : State) (i : Nat) : (s.dropTag i).inf = s.inf := rfl
@[simp] theorem dropTag_gfx (s : State) (i : Nat) : (s.dropTag i).gfx = s.gfx := rfl
@[simp] theorem dropTag_dsp (s : State) (i : Nat) : (s.dropTag i).dsp = s.dsp := rfl
@[simp] theorem dropTag_sxt (s : State) (i : Nat) : (s.dropTag i).sxt = s.sxt := rfl
@[simp] theorem dropTag_net (s : State) (i : Nat) : (s.dropTag i).net = s.net := rfl
@[simp] theorem dropTag_svc (s : State) (i : Nat) : (s.dropTag i).svc = s.svc := rfl
@[simp] theorem dropTag_alm (s : State) (i : Nat) : (s.dropTag i).alm = s.alm := rfl
@[simp] theorem dropTag_saf (s : State) (i : Nat) : (s.dropTag i).saf = s.saf := rfl
@[simp] theorem dropTag_clk (s : State) (i : Nat) : (s.dropTag i).clk = s.clk := rfl
@[simp] theorem dropTag_boot (s : State) (i : Nat) : (s.dropTag i).boot = s.boot := rfl
@[simp] theorem dropTag_pwr (s : State) (i : Nat) : (s.dropTag i).pwr = s.pwr := rfl
@[simp] theorem dropTag_pending (s : State) (i : Nat) : (s.dropTag i).pending = s.pending := rfl

/-! ### nudge -/

@[simp] theorem nudge_fuses (s : State) (d : Int) : (s.nudge d).fuses = s.fuses := rfl
@[simp] theorem nudge_words (s : State) (d : Int) : (s.nudge d).words = s.words := rfl
@[simp] theorem nudge_mem (s : State) (d : Int) : (s.nudge d).mem = s.mem := rfl
@[simp] theorem nudge_now (s : State) (d : Int) : (s.nudge d).now = s.now := rfl
@[simp] theorem nudge_free (s : State) (d : Int) : (s.nudge d).free = s.free := rfl
@[simp] theorem nudge_resp (s : State) (d : Int) : (s.nudge d).resp = s.resp := rfl
@[simp] theorem nudge_msgs (s : State) (d : Int) : (s.nudge d).msgs = s.msgs := rfl
@[simp] theorem nudge_cmp (s : State) (d : Int) : (s.nudge d).cmp = s.cmp := rfl
@[simp] theorem nudge_ttu (s : State) (d : Int) : (s.nudge d).ttu = s.ttu := rfl
@[simp] theorem nudge_orr (s : State) (d : Int) : (s.nudge d).orr = s.orr := rfl
@[simp] theorem nudge_fab (s : State) (d : Int) : (s.nudge d).fab = s.fab := rfl
@[simp] theorem nudge_hbm (s : State) (d : Int) : (s.nudge d).hbm = s.hbm := rfl
@[simp] theorem nudge_apc (s : State) (d : Int) : (s.nudge d).apc = s.apc := rfl
@[simp] theorem nudge_enc (s : State) (d : Int) : (s.nudge d).enc = s.enc := rfl
@[simp] theorem nudge_cry (s : State) (d : Int) : (s.nudge d).cry = s.cry := rfl
@[simp] theorem nudge_inf (s : State) (d : Int) : (s.nudge d).inf = s.inf := rfl
@[simp] theorem nudge_gfx (s : State) (d : Int) : (s.nudge d).gfx = s.gfx := rfl
@[simp] theorem nudge_dsp (s : State) (d : Int) : (s.nudge d).dsp = s.dsp := rfl
@[simp] theorem nudge_sxt (s : State) (d : Int) : (s.nudge d).sxt = s.sxt := rfl
@[simp] theorem nudge_net (s : State) (d : Int) : (s.nudge d).net = s.net := rfl
@[simp] theorem nudge_svc (s : State) (d : Int) : (s.nudge d).svc = s.svc := rfl
@[simp] theorem nudge_alm (s : State) (d : Int) : (s.nudge d).alm = s.alm := rfl
@[simp] theorem nudge_saf (s : State) (d : Int) : (s.nudge d).saf = s.saf := rfl
@[simp] theorem nudge_clk (s : State) (d : Int) : (s.nudge d).clk = { s.clk with epoch := wrapTo 64 (s.clk.epoch + d) } := rfl
@[simp] theorem nudge_boot (s : State) (d : Int) : (s.nudge d).boot = s.boot := rfl
@[simp] theorem nudge_pwr (s : State) (d : Int) : (s.nudge d).pwr = s.pwr := rfl
@[simp] theorem nudge_pending (s : State) (d : Int) : (s.nudge d).pending = s.pending := rfl

end Sys2Proof.Machine
end

