-- ==== Sys2Proof/Laws/Words.lean ====
section
/-! SUPPORT. Laws of words, fields and bytes: what reads as written, and what a write leaves alone. -/

namespace Sys2Proof.Machine

/-! ### Words -/

@[simp] theorem word_setWord_same (s : State) (k : Nat) (w : Word) : (s.setWord k w).word k = w := tget_tputD_same _ _ _ _

theorem word_setWord_ne (s : State) {j k : Nat} (w : Word) (h : j ≠ k) : (s.setWord k w).word j = s.word j :=
  tget_tputD_ne _ _ _ _ h

theorem word_wr_ne (s : State) (r : Row) (ix : List Nat) (v : Nat) {k : Nat} (h : k ≠ r.key ix) : (s.wr r ix v).word k = s.word k :=
  word_setWord_ne s _ h

/-- A field of another word is left alone. -/
theorem rd_wr_ne (s : State) (r q : Row) (ix jx : List Nat) (v : Nat) (h : q.key jx ≠ r.key ix) : (s.wr r ix v).rd q jx = s.rd q jx := by
  simp only [State.rd, word_wr_ne s r ix v h]

theorem flag_wr_ne (s : State) (r q : Row) (ix jx : List Nat) (v : Nat) (h : q.key jx ≠ r.key ix) : (s.wr r ix v).flag q jx = s.flag q jx := by
  simp only [State.flag, rd_wr_ne s r q ix jx v h]

/-! ### Bits -/

theorem testBit_maskBits (lo n i : Nat) : (maskBits lo n).getLsbD i = (decide (i < 32) && (decide (lo ≤ i) && decide (i < lo + n))) := by
  rw [maskBits, BitVec.getLsbD_ofNat, Nat.testBit_shiftLeft, Nat.testBit_two_pow_sub_one]
  rcases Nat.lt_or_ge i lo with h | h
  · simp [Nat.not_le.2 h]
  · have : (i - lo < n) ↔ (i < lo + n) := by omega
    simp [h, this]

theorem getLsbD_setBits (w : Word) (lo n v i : Nat) :
    (setBits w lo n v).getLsbD i = if lo ≤ i ∧ i < lo + n ∧ i < 32 then v.testBit (i - lo) else w.getLsbD i := by
  rw [setBits, BitVec.getLsbD_or, BitVec.getLsbD_and, BitVec.getLsbD_not, testBit_maskBits, BitVec.getLsbD_ofNat, Nat.testBit_shiftLeft, Nat.testBit_mod_two_pow]
  by_cases h32 : i < 32
  · by_cases h1 : lo ≤ i
    · by_cases h2 : i < lo + n
      · have h3 : i - lo < n := by omega
        simp [h32, h1, h2, h3]
      · have h3 : ¬ (i - lo < n) := by omega
        simp [h32, h1, h2, h3]
    · simp [h32, h1]
  · have hw : w.getLsbD i = false := BitVec.getLsbD_of_ge w i (by omega)
    simp [h32, hw]

theorem testBit_getBits (w : Word) (lo n i : Nat) : (getBits w lo n).testBit i = (decide (i < n) && w.getLsbD (lo + i)) := by
  simp only [getBits, bitsOf, Nat.testBit_mod_two_pow, Nat.testBit_shiftRight, BitVec.getLsbD]

/-- A field inside its word reads as written. -/
theorem getBits_setBits_same (w : Word) (lo n v : Nat) (h : lo + n ≤ 32) : getBits (setBits w lo n v) lo n = v % 2 ^ n := by
  apply Nat.eq_of_testBit_eq
  intro i
  rw [testBit_getBits, getLsbD_setBits, Nat.testBit_mod_two_pow]
  by_cases hi : i < n
  · simp [hi, show lo + i < lo + n by omega, show lo + i < 32 by omega]
  · simp [hi]

/-- Fields of one word that share no bit leave each other alone. -/
theorem getBits_setBits_disjoint (w : Word) (lo n v lo' n' : Nat) (h : lo' + n' ≤ lo ∨ lo + n ≤ lo') :
    getBits (setBits w lo n v) lo' n' = getBits w lo' n' := by
  apply Nat.eq_of_testBit_eq
  intro i
  rw [testBit_getBits, testBit_getBits, getLsbD_setBits]
  by_cases hi : i < n'
  · rw [if_neg (by omega)]
  · simp [hi]

/-! ### Fields -/

/-- A field reads as written. -/
theorem rd_wr_same (s : State) (r : Row) (ix : List Nat) (v : Nat) (h : r.lo + r.width ≤ 32) : (s.wr r ix v).rd r ix = v % 2 ^ r.width := by
  rw [State.rd, State.wr, word_setWord_same, getBits_setBits_same _ _ _ _ h]

theorem flag_wr_same (s : State) (r : Row) (ix : List Nat) (v : Nat) (h : r.lo + r.width ≤ 32) : (s.wr r ix v).flag r ix = decide (v % 2 ^ r.width = 1) := by
  rw [State.flag, rd_wr_same s r ix v h]

/-- Another field is left alone, in another word or in other bits of the same word. -/
theorem rd_wr_other (s : State) (r q : Row) (ix jx : List Nat) (v : Nat)
    (h : q.key jx ≠ r.key ix ∨ q.lo + q.width ≤ r.lo ∨ r.lo + r.width ≤ q.lo) : (s.wr r ix v).rd q jx = s.rd q jx := by
  by_cases hk : q.key jx = r.key ix
  · rw [State.rd, State.rd, State.wr, hk, word_setWord_same, getBits_setBits_disjoint]
    rcases h with h | h
    · exact absurd hk h
    · exact h
  · exact rd_wr_ne s r q ix jx v hk

/-! ### Bytes -/

@[simp] theorem memByte_memPut_same (m : List Host.Cell) (a : Nat) (b : Byte) : memByte (memPut m a b) a = b := tget_tputD_same _ _ _ _

theorem memByte_memPut_ne (m : List Host.Cell) {a x : Nat} (b : Byte) (h : x ≠ a) : memByte (memPut m a b) x = memByte m x :=
  tget_tputD_ne _ _ _ _ h

/-- The bytes that are written, and every other byte. -/
theorem memByte_memPutBytes (m : List Host.Cell) (a : Nat) (b : List Byte) (x : Nat) :
    memByte (memPutBytes m a b) x = if a ≤ x ∧ x < a + b.length then b.getD (x - a) 0 else memByte m x := by
  induction b generalizing m a with
  | nil => simp only [memPutBytes, List.length_nil]; rw [if_neg (by omega)]
  | cons y ys ih =>
    rw [memPutBytes, ih]
    by_cases h1 : x = a
    · subst h1
      rw [if_neg (by omega), if_pos (by simp), memByte_memPut_same]; simp
    · rw [memByte_memPut_ne m y h1]
      by_cases h2 : a + 1 ≤ x ∧ x < a + 1 + ys.length
      · rw [if_pos h2, if_pos (by simp only [List.length_cons]; omega), show x - a = (x - (a + 1)) + 1 by omega, List.getD_cons_succ]
      · rw [if_neg h2, if_neg (by simp only [List.length_cons]; omega)]

@[simp] theorem length_memBytes (m : List Host.Cell) (a n : Nat) : (memBytes m a n).length = n := by
  induction n generalizing a with
  | zero => rfl
  | succ n ih => simp [memBytes, ih]

theorem getD_memBytes (m : List Host.Cell) (a n i : Nat) (h : i < n) : (memBytes m a n).getD i 0 = memByte m (a + i) := by
  induction n generalizing a i with
  | zero => omega
  | succ n ih =>
    cases i with
    | zero => simp [memBytes]
    | succ i => rw [memBytes, List.getD_cons_succ, ih (a + 1) i (by omega)]; congr 1; omega

end Sys2Proof.Machine
end

