-- ==== Sys2Proof/Tests/Slice0.lean ====
section
/-! SUPPORT. Tests: the checks of WellFormed, table words, results that the spec works out, and for every statement with hypotheses a named witness that meets them, clause by clause. -/

-- The tests are closed one after another: in parallel their stacks ask for more memory than a check has.
set_option Elab.async false

namespace Sys2Proof.Tests
open Sys2Proof Sys2Proof.Machine

/-! ### States and operands for the tests -/

/-- The next state of an outcome. -/
def after (o : Host.Outcome State Fault Refusal) : Option State :=
  match o with
  | .next t => some t
  | _ => none

/-- A question to the next state of an outcome. -/
def gives (o : Host.Outcome State Fault Refusal) (p : State → Bool) : Bool := (after o).any p

/-- The command is refused as ill-formed. -/
def illFormed (o : Host.Outcome State Fault Refusal) : Bool :=
  match o with
  | .refused .illFormed => true
  | _ => false

/-- Reset released, the Command Processor running, instance 0 enabled with identity addresses, the links of XD0 and XD1 up. -/
def up : State :=
  let s : State := { State.reset with boot := { mainUp := true, cold := false }, pwr := { porstN := true }, cmp := { state := 1 },
                                      saf := { islandRun := true, faultN := true } }
  ((s.wr Reg.TTU_INST_ENABLE [0] 1).wr Reg.MAT_LINK_STATE [0] 1).wr Reg.MAT_LINK_STATE [1] 1

/-- A program of 32 instruction words in HBM. -/
def prog : Prog := { desc := 0x10_0000_1000, next := 0, prog := 0x10_0000_2000, compl := 0, jobId := 7, len := 32, irq := false, stop := false }

/-- Context `n` runs that program on strand 0. -/
def runner (n : Nat) (c : Ctx := {}) (s : State := up) : State :=
  { s with cmp := { s.cmp with ctxs := tput s.cmp.ctxs n { c with run := .running 0, prog := some prog } } }

/-- A context that waits. -/
def waiter (n : Nat) (w : Wait) (s : State := up) : State :=
  { s with cmp := { s.cmp with ctxs := tput s.cmp.ctxs n { run := .waiting, wait := some w, prog := some prog } } }

/-- An instruction word from its fields (Table isa.1). -/
def word (op : Nat) (c kd ka kb x8 i32 : Nat) : DWord :=
  BitVec.ofNat 64 (op * 2 ^ 56 + c * 2 ^ 55 + kd * 2 ^ 48 + ka * 2 ^ 44 + kb * 2 ^ 40 + x8 * 2 ^ 32 + i32)

/-- A line of HBM written in full, with the bytes at its start. -/
def stored (s : State) (pa : Nat) (b : List Byte) : State := (s.writeLine pa (b ++ List.replicate (64 - b.length) 0)).2

/-- HBM whose first line holds 7. -/
def lineUp0 : State := stored up 0x10_0000_0000 [7]


/-! ### Operands and states of the witnesses -/

/-- A read of tag 0, of a source. -/
def acc (k : Kind := .read) (src : Source := .cmp) : Access := { tag := 0, pid := 0, src := src, kind := k }

/-- A place of a hart outside M-mode, with V = 0. -/
def at0 : HartAt := { pc := 0x40 }

/-- An Atusk instruction of a context. -/
def issue (n : Nat) (w : DWord) (e1 : DWord := 0) (e2 : DWord := 0) : Issue := ⟨n, 2, w, e1, e2⟩

/-- Context `n` runs the instruction of the opcode with these fields. -/
def runs (op : Nat) (s : State) (n : Nat := 0) (c kd ka kb x8 i32 : Nat := 0) : Bool := s.runs (issue n (word op c kd ka kb x8 i32)) op

/-- HBM at its first line holds the bytes. -/
def lineUp (s : State := up) (b : List Byte := [1, 2, 3, 4, 5, 6, 7, 8]) : State := stored s 0x10_0000_0000 b

/-- An outstanding engine job of context `n`. -/
def job (n engine id : Nat) (inst : Nat := 0) : Job := { uid := 1, ctx := n, engine := engine, id := id, desc := 0x10_0000_0000, record := 0x10_0000_3000, param := 0, inst := inst, start := some 0 }

/-- The job stands among those of the CMP. -/
def withJob (j : Job) (s : State) : State := { s with cmp := { s.cmp with jobs := [j] } }

/-- An access of a tag. -/
def by_ (tag : Nat) (k : Kind := .read) (src : Source := .cmp) : Access := { tag := tag, pid := 0, src := src, kind := k }

/-- An enclave entry in a state, of 2 MB at the first byte of HBM. -/
def entry (e st : Nat) (s : State := up) : State :=
  ((s.wr Reg.ENC_ERT_STATE [e] st).wrPair Reg.ENC_ERT_BASE_LO Reg.ENC_ERT_BASE_HI [e] 0x10_0000_0000).wr Reg.ENC_ERT_SIZE [e] 21

/-! ### WellFormed: each check refuses a term -/

/-- The check refuses the command. -/
def bad (c : Instr) : Bool := !wellFormed Fuses.default c

/-- An instruction word of an opcode, in a context. -/
def iss (n op : Nat) : Issue := ⟨n, 2, BitVec.ofNat 64 (op * 2 ^ 56), 0, 0⟩

/-- The commands on an Atusk instruction, with their opcodes. -/
def atuskRows : List ((Issue → Instr) × Nat) :=
  [(.nop, 0x00), (.endProgram, 0x01), (.yield, 0x02), (.fence, 0x03), (.epoch, 0x04), (.li, 0x10), (.lix, 0x11), (.add, 0x12), (.addi, 0x13), (.sub, 0x14), (.and, 0x15), (.or, 0x16),
   (.xor, 0x17), (.shli, 0x18), (.shri, 0x19), (.movs, 0x1A), (.br, 0x20), (.bst, 0x21), (.call, 0x22), (.ret, 0x23), (fun i => .ld i .none, 0x30), (fun i => .st i .none, 0x31),
   (fun i => .poll i .none, 0x32), (.stage, 0x40), (.stagei, 0x41), (.commit, 0x42), (.discard, 0x43), (.fetch, 0x44), (.dispatch, 0x50), (.abort, 0x51), (.wait, 0x52), (.signal, 0x53),
   (.lock, 0x60), (.unlock, 0x61), (.handover, 0x70), (.rstctx, 0x71)]

/-- A word of another opcode, or a context 64, spells no instruction of the row; an unassigned opcode is judged by the instruction. -/
theorem test_wellFormed_atusk : ∀ r ∈ atuskRows, bad (r.1 (iss 0 (if r.2 = 0 then 1 else 0))) = true ∧ bad (r.1 (iss 64 r.2)) = true ∧ bad (r.1 (iss 63 r.2)) = false ∧ bad (r.1 (iss 63 0xFF)) = false := by
  decide +kernel

theorem test_wellFormed_memory :
    bad (.tileHbmRequest 64 (acc) 0 1 [] .none) = true ∧ bad (.tileHbmRequest 0 (acc) 0 0 [] .none) = true ∧ bad (.tileHbmRequest 0 (acc) 63 2 [] .none) = true
    ∧ bad (.tileHbmRequest 0 (acc .write) 0 2 [0] .none) = true ∧ bad (.hbmRead 0 0 .none false) = true ∧ bad (.hbmFullWrite 0 (List.replicate 64 0) .none) = true
    ∧ bad (.hbmFullWrite 0x10_0000_0000 [0] .none) = true ∧ bad (.hbmPartialWrite 0 0 [0] .none) = true ∧ bad (.hbmPartialWrite 0 0x10_0000_0000 [] .none) = true
    ∧ bad (.hbmPartialWrite 0 0x10_0000_003F [0, 0] .none) = true ∧ bad (.patrolScrub (.line 0) .none false) = true ∧ bad (.patrolScrub (.spare 6 0) .none false) = true ∧ bad (.patrolScrub (.spareRow 6 0) .none false) = true ∧ bad (.rekey 64) = true
    ∧ bad (.orreryArbitration 41) = true ∧ bad (.slicePreempt true 8) = true ∧ bad (.slicePreempt false 64) = true := by decide +kernel

theorem test_wellFormed_enclaves_and_crypto :
    bad (.enclaveCreate 64 0 0 0) = true ∧ bad (.enclaveSeal 64) = true ∧ bad (.sealDone 64) = true ∧ bad (.enclaveDestroy 64) = true ∧ bad (.destroyDone 64) = true
    ∧ bad (.mailboxWrite (acc .write) 64 0 (List.replicate 64 0)) = true ∧ bad (.mailboxWrite (acc .write) 0 0 [0]) = true ∧ bad (.mailboxWrite (acc) 0 0 (List.replicate 64 0)) = true
    ∧ [Instr.gcmEncrypt 4, .gcmDecrypt 4, .sha256 4, .sha384 4, .sha512 4, .sha3256 4, .sha3384 4, .sha3512 4, .p256Sign 4, .p256Verify 4, .p384Sign 4, .p384Verify 4, .keyload 4].all bad = true
    ∧ bad (.cryptoPreempt 4 0) = true ∧ bad (.cryptoPreempt 0 201) = true ∧ bad (.cryptoResume 4 0) = true ∧ bad (.cryptoResume 0 201) = true ∧ bad (.cryptoJobDone 4) = true
    ∧ bad (.cryptoKeyClear 4 0) = true ∧ bad (.cryptoKeyClear 0 32) = true := by decide +kernel

theorem test_wellFormed_harts :
    bad (.gateMark 16 ⟨0, false, false, 0⟩ 0x0B) = true ∧ bad (.gateMark 0 ⟨0, false, false, 32⟩ 0x0B) = true ∧ bad (.gateMark 0 ⟨0, false, false, 0⟩ 0x100B) = true
    ∧ bad (.gateEnter 16 ⟨0, false, false, 0⟩ 0x100B 0 none) = true ∧ bad (.gateEnter 0 ⟨0, false, false, 0⟩ 0x200B 0 none) = true
    ∧ bad (.gateExit 16 ⟨0, false, false, 0⟩ 0x200B 0) = true ∧ bad (.gateExit 0 ⟨0, false, false, 0⟩ 0x100B 0) = true
    ∧ bad (.hartAccessFault 16 ⟨0, false, false, 0⟩ 0 0 .read (.status .denied)) = true ∧ bad (.hartAccessFault 0 ⟨0, false, false, 0⟩ 0 0 .fetch .misaligned) = true
    ∧ bad (.hartAccessFault 0 ⟨0, false, false, 0⟩ 0 0 .write (.status .integrity)) = true ∧ bad (.storeError 16 0 .denied none) = true ∧ bad (.storeError 0 0 .ok none) = true
    ∧ bad (.seteipnumWrite 16 0 0 4 0) = true ∧ bad (.seteipnumWrite 0 7 0 4 0) = true ∧ bad (.seteipnumWrite 0 0 0x1000 4 0) = true
    ∧ bad (.mtimecmpWrite 16 0 8 0) = true ∧ bad (.mtimecmpWrite 0 8 8 0) = true ∧ bad (.timerCompare 16 5 none) = true ∧ bad (.timerCompare 0 8 none) = true
    ∧ bad (.sourceAck 0 5 0) = true ∧ bad (.sourceAck 0 0 256) = true ∧ bad (.clusterRun 4) = true ∧ bad (.clusterRetain 4) = true ∧ bad (.clusterOff 4) = true
    ∧ bad (.clusterStateEntry 4) = true ∧ bad (.clusterWake 4) = true := by decide +kernel

/-- The operations of a tile. -/
def tileRows : List (InfUnit → Instr) :=
  [fun u => .gemm u 0 false, fun u => .conv2d u 0 false, fun u => .dwconv u 0 false, fun u => .deconv u 0 false, fun u => .pool u 0 false, fun u => .elemwise u 0 false,
   fun u => .activate u 0 false, fun u => .norm u 0 false, fun u => .softmax u 0 false, fun u => .topk u 0 false, fun u => .gather u 0 false, fun u => .scatter u 0 false,
   fun u => .transpose u 0 false, fun u => .reshape u 0 false, fun u => .quant u 0 false, fun u => .dequant u 0 false, fun u => .reduce u 0 false, fun u => .argmax u 0 false,
   fun u => .resize u 0 false, fun u => .gridsample u 0 false, fun u => .attention u 0 false, fun u => .copy u 0 false, fun u => .golden u 0 0 0]

theorem test_wellFormed_tiles :
    (∀ r ∈ tileRows, bad (r (.tile 64)) = true ∧ bad (r (.tile 63)) = false ∧ bad (r (.dusk 0)) = false) ∧ bad (.syncBarrier (.tile 64)) = true ∧ bad (.syncSignal (.tile 64)) = true
    ∧ bad (.syncWait 64) = true ∧ bad (.syncWaitPoll 64 0) = true ∧ bad (.syncWaitTimeout 64 0) = true ∧ bad (.tileSwitch 64) = true := by decide +kernel

/-- An Xkgfx word of a funct3 and funct7. -/
def xw (f3 f7 : Nat) : ShIssue := ⟨⟨0, 1, 0, 0⟩, 0, 0x2B + f3 * 2 ^ 12 + f7 * 2 ^ 25, 0, 0, [], 32, 1, 1⟩

theorem test_wellFormed_graphics :
    bad (.texSample (xw 1 0)) = true ∧ bad (.interp (xw 2 0)) = true ∧ bad (.tbLd (xw 3 0)) = true ∧ bad (.tbSt (xw 2 0)) = true ∧ bad (.covRead (xw 4 1)) = true
    ∧ bad (.covDiscard (xw 4 0)) = true ∧ bad (.bar (xw 4 0)) = true ∧ bad (.bar { xw 5 0 with w := 0x33 }) = true ∧ bad (.bar { xw 5 0 with w := 2 ^ 32 + 0x2B }) = true
    ∧ bad (.shaderException ⟨0, 1, 0, 0⟩ 0 5 .ok) = true ∧ bad (.binGrow 0 32 0 0) = true ∧ bad (.binGrowTimeout 32) = true ∧ bad (.clusterSwitch 8) = true
    ∧ bad (.deadlinePreempt 4) = true := by decide +kernel

theorem test_wellFormed_display_and_sensors :
    bad (.displayDecisionInstant 4) = true ∧ bad (.bandProduction 4 0 []) = true ∧ bad (.frameReadyPoll 4) = true ∧ bad (.frameReadyTimeout 4 0) = true ∧ bad (.frameRetire 4 0) = true
    ∧ bad (.regionCrcCheck 4) = true ∧ bad (.frameStatusWrite 4) = true ∧ bad (.pipeDisable 4) = true ∧ bad (.vsync 4) = true ∧ bad (.displayLinkDown 4) = true
    ∧ bad (.displayLinkTrained 4) = true ∧ bad (.sampleArrival 128 { stamp := 0, q := 0 }) = true ∧ bad (.streamTimeout 128) = true ∧ bad (.streamClr 0 128) = true
    ∧ bad (.streamLie 0 128) = true := by decide +kernel

theorem test_wellFormed_networks_and_services :
    bad (.txCan (.island 4 { id := 0 })) = true ∧ bad (.ethernetRx 4 0 [] true true false []) = true ∧ bad (.ethernetRx 0 22 [] true true false []) = true
    ∧ bad (.canFrameRx 4 0 0 { id := 0 }) = true ∧ bad (.canFrameRx 0 24 0 { id := 0 }) = true ∧ bad (.canResume 4 0) = true ∧ bad (.canResume 0 16) = true ∧ bad (.eventClr 28) = true
    ∧ bad (.hartGo 0) = true ∧ bad (.hartGo 16) = true ∧ bad (.svnAdv 0 0) = true ∧ bad (.svnAdv 6 0) = true ∧ bad (.instanceReset 32) = true
    ∧ bad (.domainPowerOn 12) = true ∧ bad (.domainPowerOff 12) = true := by decide +kernel

/-- What the check refuses, the meaning refuses. -/
theorem test_illFormed_is_refused :
    illFormed (exec (.add (iss 0 0x13)) State.reset) = true ∧ illFormed (exec (.hbmFullWrite 0 [] .none) State.reset) = true ∧ illFormed (exec (.gateMark 16 ⟨0, false, false, 0⟩ 0x0B) State.reset) = true
    ∧ illFormed (exec (.clusterSwitch 8) State.reset) = true := by decide +kernel

/-- The rows of the table give no bits: a word spells no command, and the queue stays as it is. -/
theorem test_table_words : decodeTableWord 64 0x1234 = none ∧ State.reset.withFetchWord 64 0x1234 = State.reset := by decide +kernel

/-! ### Results that the spec works out -/

/-- Context 0 runs an instruction on registers. -/
def run1 (mk : Issue → Instr) (w : DWord) (regs : List (Nat × DWord) := []) (e1 : DWord := 0) (s : State := up) : Host.Outcome State Fault Refusal :=
  exec (mk ⟨0, 2, w, e1, 0⟩) (runner 0 { regs := regs } s)

/-- Register `k` of context 0 afterwards. -/
def reg (o : Host.Outcome State Fault Refusal) (k : Nat) : Option DWord := (after o).map (fun t => (t.ctx 0).k k)

/-- LS of context 0 afterwards. -/
def ls (o : Host.Outcome State Fault Refusal) : Option Status := (after o).map (fun t => (t.ctx 0).ls)

/-- ADD wraps at 64 bits; K0 stays 0 as a destination; ADDI and LI extend the sign of their 32-bit operand (Table isa.3). -/
theorem test_add : reg (run1 .add (word 0x12 0 3 1 2 0 0) [(1, 0xFFFFFFFFFFFFFFFF), (2, 1)]) 3 = some 0
    ∧ reg (run1 .add (word 0x12 0 0 1 2 0 0) [(1, 5), (2, 1)]) 0 = some 0 := by decide +kernel
theorem test_addi : reg (run1 .addi (word 0x13 0 3 1 0 0 0xFFFFFFFF) [(1, 5)]) 3 = some 4 := by decide +kernel
theorem test_li : reg (run1 .li (word 0x10 0 3 0 0 0 0x80000000)) 3 = some 0xFFFFFFFF80000000 := by decide +kernel
theorem test_lix : reg (run1 .lix (word 0x11 0 3 0 0 0 0) [] 0x123456789ABCDEF0) 3 = some 0x123456789ABCDEF0 := by decide +kernel
theorem test_sub : reg (run1 .sub (word 0x14 0 3 1 2 0 0) [(1, 1), (2, 2)]) 3 = some 0xFFFFFFFFFFFFFFFF := by decide +kernel
theorem test_shifts : reg (run1 .shli (word 0x18 0 3 1 0 0 63) [(1, 3)]) 3 = some 0x8000000000000000
    ∧ reg (run1 .shri (word 0x19 0 3 1 0 0 63) [(1, 0x8000000000000000)]) 3 = some 1 := by decide +kernel

/-- BR compares unsigned with conditions 3 and 4 and signed with 5 and 6; the offset counts instruction words from the branch (Table isa.4). -/
theorem test_br : (after (run1 .br (word 0x20 0 0 1 2 3 5) [(1, 0xFFFFFFFFFFFFFFFF), (2, 1)])).map (fun t => (t.ctx 0).pc) = some 1
    ∧ (after (run1 .br (word 0x20 0 0 1 2 5 5) [(1, 0xFFFFFFFFFFFFFFFF), (2, 1)])).map (fun t => (t.ctx 0).pc) = some 5 := by decide +kernel
theorem test_call : (after (run1 .call (word 0x22 0 0 0 0 0 9))).map (fun t => ((t.ctx 0).pc, (t.ctx 0).k 15)) = some (9, 1) := by decide +kernel

/-- LD extends a byte with zeros; ST stores the low bytes, the least significant first. -/
theorem test_ld : reg (run1 (fun i => .ld i .none) (word 0x30 0 3 1 0 0 1) [(1, 0x10_0000_0000)] 0 (stored up 0x10_0000_0000 [1, 0xFF])) 3 = some 0xFF := by decide +kernel
theorem test_st : (after (run1 (fun i => .st i .none) (word 0x31 0 0 1 2 1 0) [(1, 0x10_0000_0002), (2, 0x1234)] 0 (stored up 0x10_0000_0000 []))).map
    (fun t => memBytes t.mem 0x10_0000_0001 4) = some [0, 0x34, 0x12, 0] := by decide +kernel

/-- R108, Example 1: STAGEI of the field in space 0x08, word 0x40, bits 2 to 0, and COMMIT; the field changes at the commit and not before. -/
theorem test_example1 :
    let s := runner 0
    let a := after (exec (.stagei ⟨0, 2, 0x4100000800400040, 6, 0⟩) s)
    let b := a.bind (fun t => after (exec (.commit ⟨0, 2, 0x4200000000000000, 0, 0⟩) t))
    (a.map (fun t => (t.rd Reg.INF_GOV_CTRL_SHARE [], (t.ctx 0).staged.length, (t.ctx 0).pc))) = some (s.rd Reg.INF_GOV_CTRL_SHARE [], 1, 2)
    ∧ (b.map (fun t => (t.rd Reg.INF_GOV_CTRL_SHARE [], (t.ctx 0).staged.length, (t.ctx 0).ls))) = some (6, 0, .ok) := by decide +kernel

/-- FETCH reads a field of width 3; a word that no table lists is ST_DECODE and, with C = 0, ends the program. -/
theorem test_fetch : reg (run1 .fetch (word 0x44 0 3 0 0 0x08 0x400040)) 3 = some (BitVec.ofNat 64 (State.reset.rd Reg.INF_GOV_CTRL_SHARE []))
    ∧ (after (run1 .fetch (word 0x44 0 3 0 0 0x08 0x40FFFF))).bind (fun t => (t.ctx 0).prog.bind (fun p => p.ending)) = some .decode := by decide +kernel
theorem test_lock_unlock :
    let a := after (run1 .lock (word 0x60 0 0 0 0 0 7))
    (a.map (fun t => (t.rd Reg.CMD_SEM_HELD [7], t.rd Reg.CMD_SEM_HOLDER_CTX [7]))) = some (1, 0)
    ∧ ((a.bind (fun t => after (exec (.unlock ⟨0, 2, word 0x61 0 0 0 0 0 7, 0, 0⟩) t))).map (fun t => t.rd Reg.CMD_SEM_HELD [7])) = some 0 := by decide +kernel
theorem test_signal : (after (run1 .signal (word 0x53 0 0 0 2 0 5) [(2, 9)])).map (fun t => t.msgs) = some [⟨9, 5, none, some 0⟩]
    ∧ ls (run1 .signal (word 0x53 1 0 0 2 0 5) [(2, 32)]) = some .denied := by decide +kernel
theorem test_wait_job : reg (exec (.wait ⟨0, 2, word 0x52 0 3 1 0 0 0, 0, 0⟩) (runner 0 { regs := [(1, 9)], history := [(9, .poison)] })) 3
    = some (BitVec.ofNat 64 (statusCode .poison)) := by decide +kernel

/-- A privileged opcode in a tenant context is ST_DENIED and a violation of its instance (R57). -/
theorem test_rstctx_denied : gives (exec (.rstctx ⟨63, 2, word 0x71 0 0 1 0 0 0, 0, 0⟩) (runner 63))
    (fun t => (t.ctx 63).prog.any (fun p => p.ending = some .denied) && t.rd Reg.CMD_VIOL_COUNT [(runner 63).ctxInst 63] = 1) = true := by decide +kernel

/-- A ring of the Command Port: RINGS counts, LAST_DB_TAG names the writer, and the doorbell of context 0 is pending (R42). -/
theorem test_ring : gives (exec (.cpDoorbellRing 41 0 8 1) up) (fun t => t.cmp.rings = 1 && t.cmp.lastDbTag = 41 && (t.ctx 0).dbPending) = true
    ∧ gives (exec (.cpDoorbellRing 7 0 8 1) up) (fun t => t.cmp.rings = 0 && t.resp.status = .denied) = true := by decide +kernel

/-- A line that was never written under its key does not verify (R231): a read answers ST_POISON, a partial write ST_INTEGRITY. -/
theorem test_hbm_read : gives (exec (.hbmRead 0 0x10_0000_0000 .none false) lineUp0) (fun t => t.resp = ⟨.ok, 7⟩) = true
    ∧ gives (exec (.hbmRead 0 0x10_0000_0040 .none false) lineUp0) (fun t => t.resp.status = .poison) = true := by decide +kernel
theorem test_hbm_partial_write : gives (exec (.hbmPartialWrite 0 0x10_0000_0001 [9] .none) lineUp0) (fun t => memBytes t.mem 0x10_0000_0000 3 = [7, 9, 0]) = true
    ∧ gives (exec (.hbmPartialWrite 0 0x10_0000_0040 [9] .none) lineUp0) (fun t => t.resp.status = .integrity && (t.lineAt 0x10_0000_0040).poisoned) = true := by decide +kernel
theorem test_rekey : gives (exec (.rekey 0) lineUp0) (fun t => !t.tagOk 0x10_0000_0000 0 && t.rd Reg.MEM_KEY_GEN [0] = 2) = true := by decide +kernel

/-- CAP_LINES is 1400 × stacks × SHARE (R26). -/
theorem test_governor_window : gives (exec .governorWindowOpen (up.wr Reg.INF_GOV_CTRL_SHARE [] 5)) (fun t => t.inf.gov.cap = 1400 * 6 * 5 && t.inf.gov.pool = 1400 * 6 * 5) = true := by decide +kernel

/-- An access of an instance that is not enabled is cause 9 (Table ttu.2). -/
theorem test_ttu_translate : gives (exec (.ttuTranslate (acc .write) 0x10_0000_0000 8) (up.wr Reg.TTU_INST_ENABLE [0] 0))
    (fun t => t.resp.status = .denied && t.rd Reg.TTU_INST_FLT_CAUSE [0] = 9 && t.rd Reg.TTU_INST_FLT_WRITE [0] = 1) = true := by decide +kernel

/-- GATE.EXIT keeps x10 to x17 and clears the other registers (R280). -/
theorem test_gate_exit : gives (exec (.gateExit 3 at0 0x200B 0x100) ((up.wr Reg.APC_HART_IN_ENCL [3] 1).setHart 3 { up.hart 3 with x := [(9, 1), (10, 2), (17, 3), (18, 4)] }))
    (fun t => (t.hart 3).x = [(10, 2), (17, 3)] && (t.hart 3).pc = 0x100 && !t.inEnclave 3) = true := by decide +kernel
theorem test_timer_compare : gives (exec (.timerCompare 3 7 (some at0)) (up.setHart 3 { up.hart 3 with mtimecmp := 0 })) (fun t => (t.hart 3).trap.any (fun x => x.cause = 7 && x.irq)) = true := by decide +kernel

/-- A watchdog kick carries the value after the last one, modulo 2^16; the first is 1. -/
theorem test_wdog_kick : gives (exec (.wdogKick 1) up) (fun t => t.saf.kicked && t.saf.lastKick = 1) = true ∧ gives (exec (.wdogKick 2) up) (fun t => !t.saf.kicked) = true := by decide +kernel
theorem test_take : gives (exec .take up) (fun t => t.dusk && t.rd Reg.SAF_STAT_TAKEOVERS [] = 1) = true := by decide +kernel
theorem test_event_latch : gives (exec (.fcuLatch 3) { up with saf := { up.saf with lines := [3] } }) (fun t => t.latched 3 && t.rd Reg.SAF_EVT_COUNT [3] = 1 && t.saf.lines = []) = true := by decide +kernel

/-- A transmit error adds 8 to TEC; above 127 the controller is error-passive, above 255 bus-off (R465). -/
theorem test_can_tx_error :
    let s := ((up.wr Reg.CAN_CTL_EN [1, 15] 1).wr Reg.CAN_CTL_TEC [1, 15] 120).setCan 31 { sending := some ⟨.main, { id := 5 }⟩ }
    gives (exec (.canTxDone 1 15 .error) s) (fun t => t.rd Reg.CAN_CTL_TEC [1, 15] = 128 && t.rd Reg.CAN_CTL_STATE [1, 15] = 1) = true
    ∧ gives (exec (.canTxDone 1 15 .error) (s.wr Reg.CAN_CTL_TEC [1, 15] 248)) (fun t => t.rd Reg.CAN_CTL_STATE [1, 15] = 2) = true := by decide +kernel

/-- A frame with a bad FCS is counted and dropped (R446). -/
theorem test_ethernet_rx : gives (exec (.ethernetRx 1 21 (List.replicate 64 0) false true false []) ((up.wr Reg.NET_PORT_EN [1, 21] 1).wr Reg.NET_PORT_STATE [1, 21] 2))
    (fun t => t.rd Reg.NET_CNT_FCS_DROP [1, 21] = 1) = true := by decide +kernel

/-- The ring: SEQ moves on, and the slot is 32 bytes at 0x3300_0000 + 32 × SEQ (R532). -/
theorem test_almanac_record : gives (exec .almanacRecord { up with alm := { up.alm with intake := [⟨0, 0x10, 41, 0, false, false, false, [], 0⟩] } })
    (fun t => t.rd Reg.ALM_SEQ [] = 1 && t.alm.intake = [] && memByte t.mem 0x3300_0020 = 0) = true := by decide +kernel

/-- A reading of 114 °C is level 3, one of 120 °C trips (Table pwr.4). -/
theorem test_thermal_sample : gives (exec (.thermalSample (114 * 8) [] []) up) (fun t => t.rd Reg.PWR_THERM_LEVEL [] = 3 && t.rd Reg.PWR_DERATE_TILE [] = 4 && !t.pwr.tripHold) = true
    ∧ gives (exec (.thermalSample (120 * 8) [] []) up) (fun t => t.pwr.tripHold && t.dusk) = true := by decide +kernel

/-- Boundary scan works only with PORST_N low and PWR_GOOD high (R625). -/
theorem test_idcode : gives (exec .idcode State.reset) (fun t => t.pwr.tdo.length = 32) = true ∧ gives (exec .idcode up) (fun t => t.pwr.tdo = []) = true := by decide +kernel

/-- VSYNC_NO counts vsyncs. -/
theorem test_vsync : gives (exec (.vsync 3) (up.wr Reg.DSP_PIPE_ENABLE [3] 1)) (fun t => t.rd Reg.DSP_PIPE_VSYNC_NO [3] = 1) = true := by decide +kernel

/-- The RTC is Epoch time × 32768 / 10^9 (R499), and Epoch time moves by whole steps (R496). -/
theorem test_rtc_sync : gives (exec .rtcSync { up with clk := { up.clk with epoch := 2000000000 } }) (fun t => t.rtc = 65536 && t.rd Reg.CLK_RTC_VALID [] = 1) = true := by decide +kernel
theorem test_epoch_go : gives (exec (.epochGo 5) up) (fun t => t.clk.epoch = 5 && t.rd Reg.CLK_EPOCH_STEPS [] = 1) = true := by decide +kernel

/-- An access of a hart that ends with a status takes an access fault of its kind (R275). -/
theorem test_hart_access_fault : gives (exec (.hartAccessFault 3 at0 0x80 0 .write (.status .decode)) up) (fun t => (t.hart 3).trap.any (fun x => x.cause = 7 && x.tval = 0x80 && x.epc = 0x40)) = true := by decide +kernel

/-- A cluster whose request is OFF loses the registers of its harts (R289). -/
theorem test_cluster_off : gives (exec (.clusterStateEntry 0) (((up.wr Reg.APC_CL_STATE [0] 0).wr Reg.APC_CL_REQ [0] 2).setHart 1 { pc := 5 })) (fun t => t.rd Reg.APC_CL_STATE [0] = 2 && t.hart 1 = {}) = true := by decide +kernel

/-! ### Witnesses: hypotheses of the statements, met together -/

theorem witness_StepTakesTheFrontCommand : ({ up with pending := [.take, .remap] } : State).pending = .take :: [.remap] := by decide +kernel

theorem witness_EmptyQueueTicks : State.reset.pending = [] ∧ State.reset.fab.posted = [] ∧ State.reset.net.ports = [] ∧ State.reset.gfx.comps = [] ∧ State.reset.cry.engines = []
    ∧ State.reset.safeUp = false ∧ State.reset.boot.mainUp = false ∧ up.safeUp = true ∧ up.pending = [] := by decide +kernel

theorem witness_WellFormedCommandsComplete :
    wellFormed up.fuses (.tileHbmRequest 63 { tag := 0, pid := 0, src := .tile (up.rd Reg.INF_TILE_PHYS [63]), kind := .read } 63 1 [] .none) = true
    ∧ wellFormed up.fuses (.draw 0 0 [⟨[], [0], []⟩]) = true ∧ wellFormed up.fuses (.hbmFullWrite 0x10_0000_0000 (List.replicate 64 0) .none) = true := by
  decide +kernel

theorem witness_EveryStepKeepsCanonicalForm :
    up.wf = true ∧ (after (step up)).isSome = true ∧ (after (step { up with pending := [.hbmFullWrite 0x10_0000_0000 (List.replicate 64 7) .none] })).isSome = true := by
  decide +kernel

theorem witness_CommandPortWritesTakeEffect :
    up.boot.mainUp = true ∧ (∀ t ∈ [0, 41], ∀ z ∈ [4, 8], (t = 0 ∨ t = 41) ∧ (z = 4 ∨ z = 8) ∧ 0 % z = 0 ∧ 0 + z ≤ 8) ∧ 4 % 4 = 0 ∧ 4 + 4 ≤ 8
    ∧ (1#64).toNat.testBit 0 = true ∧ (2#64).toNat.testBit 0 = false ∧ 0x10 ∈ [0x10, 0x20, 0x28, 0x30]
    ∧ (∀ r ∈ [0x38, 0xFFF8], 0x38 ≤ r ∧ r < 0x10000 ∧ r % 8 = 0) := by decide +kernel

theorem witness_HighHalvesAreLatched :
    up.boot.mainUp = true ∧ (gives (exec (.cpLowHalfRead 33 true) up) (fun t => t.boot.mainUp)) = true ∧ (((0 : Nat), true) ≠ (33, true)) := by decide +kernel

theorem witness_PortTurnsAwayOtherAccesses :
    up.boot.mainUp = true ∧ ((7 : Nat) < 8 ∧ (1 ≠ 0 ∧ 1 ≠ 41)) ∧ (16 ≠ 4 ∧ 16 ≠ 8) ∧ 6 % 4 ≠ 0 ∧ (32 ≠ 0 ∧ 32 ≠ 41 ∧ 32 ≠ 33) := by decide +kernel

theorem witness_ArithmeticAndMovesWriteKd :
    (∀ s ∈ [runner 0, runner 63], ∀ n ∈ [0, 63], s = runner n → ∀ op ∈ [0x10, 0x11, 0x12, 0x13, 0x14, 0x15, 0x16, 0x17, 0x1A], runs op s n 0 15 = true)
    ∧ (∀ op ∈ [0x18, 0x19], ∀ i ∈ [0, 63], runs op (runner 63) 63 0 15 0 0 0 i = true) := by decide +kernel

theorem witness_BranchesGoToTheirTargets :
    (∀ x ∈ [0, 1, 2, 3, 4, 5, 6], runs 0x20 (runner 0 { pc := 4 }) 0 0 0 1 2 x 0xFFFFFFFC = true) ∧ runs 0x21 (runner 63) 63 0 0 0 0 1 31 = true
    ∧ runs 0x22 (runner 0) 0 0 0 0 0 0 31 = true ∧ runs 0x23 (runner 0 { regs := [(15, 3)] }) = true := by decide +kernel

theorem witness_FaultingAndPrivilegedEncodings :
    let s := runner 63
    let c := s.ctx 63
    63 < 64 ∧ c.run = .running 0 ∧ c.prog = some prog ∧ prog.ending = none ∧ prog.strand < 4 ∧ c.wait = none ∧ s.cmp.state = 1 ∧ c.pc < prog.len
    ∧ s.mayServe 24 (s.ctxInst 63) = true ∧ s.partyWaits (partyCtx 63) = false ∧ (∀ op ∈ [0x70, 0x71], encodingFault c prog.len (awordOf (word op 0 0 1 0 0 0)) 0 = false)
    ∧ encodingFault c prog.len (awordOf (word 0x12 0 0 0 0 1 0)) 0 = true ∧ getBits s.cmp.faultCode 31 1 = 0
    ∧ getBits ({ s with cmp := { s.cmp with faultCode := 0x80000000#32 } } : State).cmp.faultCode 31 1 = 1 := by decide +kernel

theorem witness_ControlInstructionsRetire :
    (∀ op ∈ [0x00, 0x01, 0x02, 0x03, 0x04, 0x43], runs op (runner 0) = true ∧ runs op (runner 63) 63 = true)
    ∧ (runner 0).unseenOf 0 = false ∧ (let t : State := { runner 0 with msgs := [{ inst := 9, vec := 5, ctx := some 0 }] }; runs 0x03 t = true ∧ t.unseenOf 0 = true)
    ∧ runs 0x04 (runner 0) 0 0 15 0 0 1 = true ∧ runs 0x01 (runner 0) 0 0 0 0 0 1 = true := by decide +kernel

theorem witness_MemoryInstructionsFollowTheirAccess :
    let s := runner 0 { regs := [(1, 0x10_0000_0000#64), (2, 0x08070605_04030201#64)] } (lineUp)
    let q := runner 0 { prefetch := [⟨0, 0, 1, .ok, 9⟩] } (lineUp)
    let w := waiter 0 (.poll 0x10_0000_0000 0xFF 1 5) (lineUp)
    (∀ z ∈ [0, 3], runs 0x30 s 0 0 3 1 0 z = true ∧ runs 0x31 s 0 0 0 1 2 z = true) ∧ runs 0x32 s 0 0 0 1 2 0 100000 = true ∧ runs 0x30 q = true
    ∧ (s.ctx 0).prefetch = [] ∧ (s.ctxBus 0 .read 0x10_0000_0000 8 [] .none).1 = .done .ok [1, 2, 3, 4, 5, 6, 7, 8]
    ∧ (s.ctxBus 0 .write 0x10_0000_0000 8 (leBytes 8 7) .none).1 = .done .ok [] ∧ (s.ctxBus 0 .read 0x10_0000_0040 8 [] .uncorrectable).1 = .done .poison []
    ∧ (q.ctx 0).prefetch.find? (fun x => decide (x.pos = 0) && decide (x.addr = 0) && decide (x.size = 1) && decide (x.st ≠ .denied)) = some ⟨0, 0, 1, .ok, 9⟩
    ∧ (w.ctx 0).wait = some (.poll 0x10_0000_0000 0xFF 1 5) ∧ w.partyWaits (partyPoll 0) = false
    ∧ (let r := ((w.inRun (partyPoll 0)).spend 0 2).engineBus (w.ctxAccess 0 .read) 0x10_0000_0000 8 [] .ask .none
       r.1 = .ok ∧ r.2.1 = [1, 2, 3, 4, 5, 6, 7, 8] ∧ r.2.2.fab.stall = none) := by decide +kernel

theorem witness_SemaphoresAreHandedOver :
    let own := runner 0
    let held := fun (h : Nat) => ((runner 0).wr Reg.CMD_SEM_HELD [255] 1).wr Reg.CMD_SEM_HOLDER_CTX [255] h
    let q : State := { own with cmp := { own.cmp with semQ := [(255, 3)], handoffs := [255] } }
    let foreign := (runner 0).wr Reg.CMD_SEM_OWNER [255] 9
    let former : State := { q.wr Reg.CMD_SEM_BROKEN [255] 1 with fab := { q.fab with open_ := [{ id := 0, port := 6, tag := 0, addr := 0x10_0000_0000, write := true, source := srcCode .cmp }] } }
    (∀ s ∈ [own, held 0, held 3, q, foreign, former], ∀ op ∈ [0x60, 0x61], runs op s 0 0 0 0 0 0 255 = true) ∧ runs 0x60 (held 3) 0 0 0 0 0 0 0xFF_00FF = true
    ∧ foreign.ctxInst 0 ≠ foreign.rd Reg.CMD_SEM_OWNER [255] ∧ own.ctxInst 0 = own.rd Reg.CMD_SEM_OWNER [255] ∧ own.flag Reg.CMD_SEM_HELD [255] = false
    ∧ 255 ∉ own.cmp.handoffs ∧ (held 0).flag Reg.CMD_SEM_HELD [255] = true ∧ (held 0).rd Reg.CMD_SEM_HOLDER_CTX [255] = 0 ∧ (held 3).rd Reg.CMD_SEM_HOLDER_CTX [255] ≠ 0
    ∧ (∀ s ∈ [own, held 3, q], s.formerWrites 255 = false) ∧ former.formerWrites 255 = true ∧ 255 ∈ q.cmp.handoffs ∧ q.cmp.semQ.find? (fun e => e.1 = 255) = some (255, 3)
    ∧ ((waiter 5 (.sem 255 10)).ctx 5).wait = some (.sem 255 10) := by decide +kernel

theorem witness_WaitAndSignalAnswer :
    let s := runner 0 { regs := [(1, 9), (2, 32)], history := [(9, .poison)] }
    let o := withJob (job 0 1 9) (runner 0 { regs := [(1, 9)] })
    runs 0x52 s 0 0 3 1 = true ∧ (s.ctx 0).history.find? (fun e => e.1 = 9) = some (9, .poison) ∧ runs 0x52 o 0 0 3 1 = true ∧ runs 0x52 o 0 0 3 1 0 0 7 = true
    ∧ (o.ctx 0).history.find? (fun e => e.1 = 9) = none ∧ o.outstanding 0 9 = true ∧ (runner 0).outstanding 0 9 = false
    ∧ ((waiter 5 (.job 9 3 7)).ctx 5).wait = some (.job 9 3 7)
    ∧ runs 0x53 s 0 0 0 0 1 0 5 = true ∧ runs 0x53 s 0 0 0 0 2 0 5 = true ∧ runs 0x53 (runner 63) 63 = true ∧ ((0 : Nat) < 32 ∧ (32 : Nat) ≤ 32)
    ∧ 63 ≠ 0 ∧ 0 = (runner 63).ctxInst 63 ∧ runs 0x53 (runner 63 { regs := [(1, 9)] }) 63 0 0 0 1 = true ∧ 9 ≠ (runner 63).ctxInst 63 := by decide +kernel

theorem witness_ContextsAreReset :
    let s := runner 0 { regs := [(1, 63)] }
    let b := s.setCtx 63 { run := .running 1, prog := some { prog with start := some 0, compl := 0x10_0000_3000 } }
    let w := s.setCtx 63 { run := .waiting, prog := some prog, wait := some .frozen }
    runs 0x71 (runner 0) = true ∧ (∀ t ∈ [s, b, w], runs 0x71 t 0 0 0 1 = true ∧ t.fresh (partyCtx 0) = true)
    ∧ (s.ctx 63).within = false ∧ ((s.inRun (partyCtx 0)).resetContext 63).fab.stall = none ∧ (s.ctx 63).prog = none
    ∧ (b.ctx 63).within = false ∧ ((b.inRun (partyCtx 0)).resetContext 63).fab.stall = none ∧ (w.ctx 63).within = true := by decide +kernel

theorem witness_StagingAndItsLocks :
    let e : Staged := ⟨0x08, 0x40, 0, 3, 6⟩
    let s := runner 0 { regs := [(1, 0), (2, 6)] }
    let full := runner 0 { seqOpen := true, staged := List.replicate 256 e }
    let failed := runner 0 { seqOpen := true, seqFailed := true }
    let other : State := { s with cmp := { s.cmp with locks := [(0x08, 3)] } }
    let bad : Staged := ⟨0x08, 0xFFFF, 0, 3, 6⟩
    let grant : State := { waiter 5 (.spaceLock e) with cmp := { (waiter 5 (.spaceLock e)).cmp with lockQ := [(0x08, 5)] } }
    (∀ t ∈ [s, full, failed, other], runs 0x40 t 0 0 0 1 2 0x08 0x400040 = true ∧ runs 0x41 t 0 0 0 1 0 0x08 0x400040 = true)
    ∧ (full.ctx 0).seqFailed = false ∧ 256 ≤ (full.ctx 0).staged.length ∧ (failed.ctx 0).seqFailed = true ∧ (s.ctx 0).staged.length < 256
    ∧ (s.openSeq 0).stageStatus 0 e = .ok ∧ (s.openSeq 0).lockFree 0x08 0 = true ∧ (other.openSeq 0).stageStatus 0 e = .ok ∧ (other.openSeq 0).lockFree 0x08 0 = false
    ∧ (s.openSeq 0).stageStatus 0 bad = .decode ∧ ((runner 63).openSeq 63).stageStatus 63 e = .denied
    ∧ (∀ l ∈ grant.cmp.locks, l.1 ≠ 0x08) ∧ grant.cmp.lockQ.find? (fun e => e.1 = 0x08) = some (0x08, 5) ∧ (grant.ctx 5).wait = some (.spaceLock e) := by
  decide +kernel

theorem witness_CommitIsAllOrNothing :
    let e : Staged := ⟨0x08, 0x40, 0, 3, 6⟩
    let bad := stageOf Reg.TTU_INST_MODE [31] 5
    let s := runner 0 { seqOpen := true, staged := [e] }
    runs 0x42 s = true ∧ runs 0x42 (runner 0) = true ∧ runs 0x42 (runner 0 { seqOpen := true, seqFailed := true }) = true ∧ (s.ctx 0).seqFailed = false ∧ (s.ctx 0).staged ≠ []
    ∧ (s.judge [e]).verdict 0 = .ok ∧ (s.judge [e, bad]).verdict 0 ≠ .ok := by decide +kernel

theorem witness_FetchReadsCommittedFields :
    let s := runner 0
    let t := runner 63 {} (up.wr Reg.CMD_CTX_INST [63] 9)
    runs 0x44 s 0 0 3 0 0 0x08 0x400040 = true ∧ wordDecoded 0x08 0x40 = true ∧ s.mayReach 0 true 0x08 0x40 0 3 = true ∧ wordAbsent s.fuses 0x08 0x40 = false
    ∧ runs 0x44 s 0 0 3 0 0 0x08 0xFFFF = true ∧ wordDecoded 0x08 0xFFFF = false
    ∧ runs 0x44 t 63 0 3 0 0 0x08 0x400040 = true ∧ t.mayReach 63 true 0x08 0x40 0 3 = false
    ∧ wordDecoded 0x03 0x100 = true ∧ s.mayReach 0 true 0x03 0x100 0 1 = true ∧ wordAbsent s.fuses 0x03 0x100 = false := by decide +kernel

theorem witness_EngineJobsAreDispatched :
    let s := runner 0 { regs := [(1, 0x10_0000_0000)] } ((up.wr Reg.CRY_GRANT [1] 1).wr Reg.DSP_PIPE_ENABLE [0] 1)
    let busy : State := { s with cmp := { s.cmp with jobs := (List.range 64).map (fun k => { job 0 1 (k + 100) with uid := k }) } }
    let full := s.setPipe 0 { queue := List.replicate 4 ⟨1, 1, 0, true⟩ }
    let h := withJob (job 5 6 9) (runner 0 { regs := [(1, 9), (2, 5)] } (up.setCtx 5 { history := [(8, .ok)] }))
    let gone := runner 0 { regs := [(1, 8), (2, 5)] } (up.setCtx 5 { history := [(8, .ok)] })
    let foreign := runner 63 { regs := [(1, 9), (2, 5)] } (up.wr Reg.CMD_CTX_INST [5] 9)
    let g := partyCtx 0
    (∀ t ∈ [s, busy, full], runs 0x50 t 0 0 0 1 0 6 9 = true ∧ t.fresh g = true)
    ∧ (let r := (s.inRun g).admitJob 0 6 0x10_0000_0000 1
       r.1 = .yes (some 26) 0 ∧ r.2.fab.stall = none ∧ r.2.outstanding 0 9 = false ∧ (r.2.jobsOf 0).length < 64 ∧ (r.2.acceptJob 0 6 9 0x10_0000_0000 0 1 (some 26) 0).fab.stall = none
       ∧ r.2.noBudget 26 0 = false ∧ 6 ∈ [5, 6, 7])
    ∧ (let r := (s.inRun g).admitJob 0 6 0x10_0000_0000 0x10; r.1 = .no .denied ∧ r.2.fab.stall = none)
    ∧ (let r := (full.inRun g).admitJob 0 4 0x10_0000_0000 0; r.1 = .full ∧ r.2.fab.stall = none ∧ r.2.outstanding 0 9 = false)
    ∧ (let r := (busy.inRun g).admitJob 0 6 0x10_0000_0000 1
       r.1 = .yes (some 26) 0 ∧ r.2.fab.stall = none ∧ r.2.outstanding 0 100 = true ∧ r.2.outstanding 0 9 = false ∧ 64 ≤ (r.2.jobsOf 0).length)
    ∧ ((waiter 5 (.slot 6 9 0 0 0)).ctx 5).wait = some (.slot 6 9 0 0 0)
    ∧ runs 0x51 h 0 0 0 1 2 6 = true ∧ (h.cmp.jobs.find? (fun x => x.ctx = 5 && x.id = 9 && x.engine = 6)) = some (job 5 6 9)
    ∧ h.fresh g = true ∧ ((h.inRun g).abortJob (job 5 6 9)).fab.stall = none
    ∧ runs 0x51 gone 0 0 0 1 2 7 = true ∧ gone.fresh g = true ∧ gone.cmp.jobs = [] ∧ (gone.ctx 5).history.any (fun e => e.1 = 8) = true ∧ (gone.ctx 5).history.any (fun e => e.1 = 7) = false
    ∧ runs 0x51 foreign 63 0 0 1 2 6 = true ∧ foreign.fresh (partyCtx 63) = true ∧ foreign.ctxInst 5 ≠ foreign.ctxInst 63 := by decide +kernel

theorem witness_HandoverTakesItsSteps :
    let s := runner 0 { regs := [(1, 0x1005), (2, 31), (3, 32), (4, 0x7000), (5, 0x1000)] }
    let t : State := s.wr Reg.NET_AAS_AUTH [] 1
    let d : State := { s with enc := { s.enc with handover := some ⟨0, 0x7000, 31⟩ } }
    let p := partyCtx 0
    (∀ u ∈ [s, t, d], u.fresh p = true) ∧ runs 0x70 s 0 0 0 1 3 = true ∧ 31 < 32 ∧ runs 0x70 s 0 0 0 4 2 = true ∧ s.resExists 0x7000 = true ∧ s.resExists 0x8000 = false
    ∧ runs 0x70 s 0 0 0 1 2 = true ∧ s.resExists 0x1005 = true ∧ s.dusk = false ∧ runs 0x70 t 0 0 0 5 2 = true ∧ t.dusk = true ∧ directPath 0x1000 = true ∧ t.resExists 0x1000 = true
    ∧ directPath 0x1005 = false ∧ (∀ r ∈ [0x1000, 0x1005], (((((s.inRun p).spend 0 2).tellGap r true).wr Reg.ENC_OWN_STEP [r] 1).quiesce r).fab.stall = none)
    ∧ d.enc.handover = some ⟨0, 0x7000, 31⟩ ∧ 31 ≤ 31 ∧ ((((d.inRun p).scrub 0x7000).grantRes 0x7000 31).tellGap 0x7000 false).fab.stall = none := by decide +kernel

theorem witness_ChainsStartAndEnd :
    let rung := up.setCtx 0 { dbPending := true }
    let tenant := (((up.wr Reg.CMD_CTX_ENABLE [63] 1).wrPair Reg.CMD_CTX_DBLINE_LO Reg.CMD_CTX_DBLINE_HI [63] 0x10_0000_0000).setCtx 63 { dbPending := true })
    let line := stored tenant 0x10_0000_0000 [0, 0, 0, 0, 0, 0, 0, 0, 1]
    let begins := up.setCtx 63 { run := .running 3, nextDesc := 0x10_0000_1000 }
    let s := runner 0 {} (stored up 0x10_0000_2000 [])
    let ended := up.setCtx 5 { prog := some { prog with ending := some .poison, compl := 0x10_0000_3000, start := some 0 } }
    rung.maySample 0 = true ∧ line.maySample 63 = true ∧ line.fab.frozen.contains 0 = false ∧ line.fresh (partyCtx 63) = true ∧ line.dbLine 63 = 0x10_0000_0000
    ∧ isHbm line.fuses 0x10_0000_0000 = true
    ∧ ((line.inRun (partyCtx 63)).pay 0 [(15, 1), (hbmStack line.fuses 0x10_0000_0000, 1)]).any (fun r => (r.readThrough 0 32 0x10_0000_0000 .none false).1 = .ok) = true
    ∧ line.flag Reg.CMD_CTX_ENABLE [63] = true ∧ (memByte line.mem 0x10_0000_0008).getLsbD 0 = true
    ∧ (begins.ctx 63).prog = none ∧ (begins.ctx 63).nextDesc ≠ 0 ∧ (begins.ctx 63).wait = none ∧ begins.cmp.state = 1
    ∧ (begins.ctxBus 63 .read 0x10_0000_1000 32 [] .none).1 = .done .poison [] ∧ (lineUp.ctxBus 63 .read 0x10_0000_0000 32 [] .none).1 ≠ .waits
    ∧ (ended.ctx 5).prog.any (fun p => p.ending = some .poison) = true ∧ (ended.ctx 5).within = false ∧ ended.fresh (partyCtx 5) = true
    ∧ ((ended.inRun (partyCtx 5)).finishProgram 5 false).fab.stall = none ∧ ((ended.inRun (partyCtx 5)).finishProgram 5 true).fab.stall = none
    ∧ (s.cmp.ctxs.find? (fun e => e.2.run = .running 0 && e.2.wait.isNone)).map (fun e => e.1) = some 0
    ∧ ((s.spend 0 2).ctxBus 0 .read 0x10_0000_2000 8 [] .none).1 = .done .ok (List.replicate 8 0)
    ∧ ((s.spend 0 2).specRead ((s.spend 0 2).ctxAccess 0 .read) (0x10_0000_2000 + 8 * 1) 8 .none).any (fun r => r.1 = .ok) = true ∧ prefetchable (s.ctx 0) 0 = none := by decide +kernel

theorem witness_RunAheadIssuesLoads :
    let l := runner 0 { regs := [(1, 0x10_0000_2000#64)], ahead := [(0, false)] } (stored up 0x10_0000_2000 [])
    let p := { prog with len := 1, next := 0x10_0000_1000 }
    let x := stored (stored up 0x10_0000_1000 (leBytes 8 0 ++ leBytes 8 0x10_0000_2000 ++ leBytes 8 0 ++ leBytes 4 7 ++ leBytes 2 4)) 0x10_0000_2000 []
    let r := x.setCtx 0 { run := .running 0, prog := some p }
    prefetchable ((l.spend 0 2).ctx 0) (word 0x30 0 3 1 0 0x13 8) = some (0x10_0000_2008, 8) ∧ (∀ q ∈ ((l.spend 0 2).ctx 0).prefetch, q.pos ≠ 1)
    ∧ ((l.spend 0 2).specRead ((l.spend 0 2).ctxAccess 0 .read) 0x10_0000_2008 8 .none).any (fun e =>
        let v := e.2.2.setCtx 0 ((e.2.2.ctx 0).fetched 1 false)
        e.1 = .ok && (e.2.2.ctx 0).clearTo 1 && (v.specRead { v.ctxAccess 0 .read with pf := true } 0x10_0000_2008 8 .none).isSome) = true
    ∧ ((r.spend 0 2).specRead ((r.spend 0 2).ctxAccess 0 .read) p.next 32 .none).any (fun e =>
        let v := e.2.2.setCtx 0 ((e.2.2.ctx 0).fetched (2 ^ 16) false)
        e.1 = .ok && bitsOf (ofLeBytes e.2.1) 64 64 % 8 = 0 && bitsOf (ofLeBytes e.2.1) 224 16 = 4
          && (v.specRead (v.ctxAccess 0 .read) (bitsOf (ofLeBytes e.2.1) 64 64) 8 .none).isSome) = true
    ∧ p.len ≤ 1 ∧ (r.ctx 0).pc ≤ 1 ∧ 1 ≤ (r.ctx 0).pc + 32 ∧ p.next ≠ 0 ∧ p.next % 32 = 0 := by decide +kernel

theorem witness_GovernorWindows :
    let s := (up.wr Reg.INF_SLICE_VALID [3, 0] 1).setGov { up.inf.gov with cap := 5, left := [(3, 1)], pool := 1, active := [3] }
    let a : Access := { tag := 0, pid := 0, src := .tile (s.rd Reg.INF_TILE_PHYS [3]), kind := .write }
    let q : HeldReq := { acc := a, addr := 0x10_0000_0000, size := 1, bytes := [7], err := .none }
    let u := (s.syncPort (srcPort a.src) 1).pay 0 (portNeed a 1)
    let v := u.map (fun u => (u.checkAccess a 0x10_0000_0000 1))
    let x := v.bind (fun v => v.2.pay 0 (v.2.accessNeed a .hbm 0x10_0000_0000 1))
    up.boot.mainUp = true ∧ up.inf.gov.held = [] ∧ s.inf.gov.released = false ∧ s.inf.gov.issued < s.inf.gov.cap ∧ ({ cap := 5, issued := 5 } : Gov).cap ≤ 5
    ∧ 3 ∈ s.inf.gov.active ∧ 4 ∉ s.inf.gov.active ∧ 0 < tget 0 s.inf.gov.left 3 ∧ tget 0 s.inf.gov.left 4 = 0 ∧ 0 < s.inf.gov.pool ∧ up.inf.gov.pool = 0
    ∧ a.gate = false ∧ 3 < s.fuses.variant.tiles ∧ 63 + 1 ≤ 64 ∧ a.src = .tile (s.rd Reg.INF_TILE_PHYS [3]) ∧ ([7] : List Byte).length = 1 ∧ s.tagFits a = true
    ∧ s.inflight (srcPort a.src) < 128 ∧ s.tidBusy a = false ∧ s.fab.frozen = []
    ∧ v.any (fun v => v.1 = .ok 0x10_0000_0000 0 && v.2.targetOf 0x10_0000_0000 1 = .hbm && v.2.fab.posted.isEmpty && v.2.fab.frozen.isEmpty) = true
    ∧ x.any (fun x => x.fab.runner = none && x.logicalOf (s.rd Reg.INF_TILE_PHYS [3]) = some 3 && x.inf.gov.held.isEmpty
        && (x.inf.gov.takes 3 (govLines 0x10_0000_0000 1)).isSome && decide ((x.setGov { x.inf.gov with cap := 0 }).inf.gov.takes 3 1 = none)) = true
    ∧ q.size = 1 := by decide +kernel

theorem witness_TranslationAndItsFaults :
    let x : Txn := { id := 4, port := 0, tag := 0, addr := 0x10_0000_0000, write := false }
    let d : State := { up with ttu := { up.ttu with drains := [[4]] } }
    (up.checkAccess (by_ 0) 0x10_0000_0000 8).1 = .ok 0x10_0000_0000 0 ∧ (up.checkAccess (by_ 31 .read .debug) 0x10_0000_0000 8).1 = .fault 9 false .denied
    ∧ (by_ 31).gate = false ∧ 64 ≤ 64 ∧ (∀ t ∈ [0, 31], up.tagFits (by_ t .read .debug) = true) ∧ 31 < 32 ∧ up.flag Reg.TTU_INST_ENABLE [31] = false ∧ up.coreFault (by_ 31 .read .debug) 0x10_0000_0000 64 = false
    ∧ up.commits 0 [(Reg.TTU_INVAL_ADDR_LO, [], 0), (Reg.TTU_INVAL_ADDR_HI, [], 0), (Reg.TTU_INVAL_SCOPE, [], 1), (Reg.TTU_INVAL_INST, [], 0), (Reg.TTU_INVAL_PID, [], 0)] = true
    ∧ (∃ e ∈ ({ up with ttu := { tlb := [⟨0, 0, 1, 5, 5, 7, 0, 12, 0, 12⟩] } } : State).ttu.tlb, e.vpn = 5) ∧ d.ttu.drains = [4] :: [] ∧ d.drained [4] = true
    ∧ ({ d with fab := { d.fab with open_ := [x] } } : State).drained [4] = false := by decide +kernel

theorem witness_PeriodsAndArbitration :
    let q : OrrReq := { id := 0, tag := 0, need := [(24, 2)] }
    let s : State := { up with orr := { up.orr with waiting := [q] } }
    let w : State := { up with orr := { up.orr with waiting := [{ q with party := some (partyTile 0) }] } }
    let two := (((((up.wr Reg.INF_TILE_RES_VALID [0] 1).wr Reg.INF_SLICE_VALID [0, 0] 1).wr Reg.INF_SLICE_VALID [0, 1] 1).wr Reg.INF_SLICE_INST [0, 1] 9)).wr Reg.TTU_INST_ENABLE [9] 1
    let cl := (up.wr Reg.GFX_CL_RES_VALID [7] 1).wr Reg.GFX_SLICE_VALID [7, 0] 1
    up.boot.mainUp = true ∧ 24 < 41 ∧ wordAbsent up.fuses 0x03 (0x100 + 4 * 24) = false ∧ s.winner 24 = some q ∧ up.winner 24 = none
    ∧ w.partyWaits (partyTile 0) = true ∧ two.partyWaits (partyTile 0) = false ∧ 0 < two.fuses.variant.tiles ∧ two.fresh (partyTile 0) = true
    ∧ (two.inRun (partyTile 0)).tilePreempted 0 = false ∧ 7 < 8 ∧ cl.fresh (partyCluster 7) = true ∧ (cl.inRun (partyCluster 7)).clResident 7 = some 0
    ∧ (cl.inRun (partyCluster 7)).clSpent 7 0 = false ∧ (cl.inRun (partyCluster 7)).clIncoming 7 = none := by decide +kernel

/-- An open read transaction of port 0. -/
def txn : Txn := { id := 4, port := 0, tag := 0, addr := 0x10_0000_0000, write := false, layers := [0] }

/-- A request of tag 0 up to its target: what the TTU answers, the target, and the state after its units are paid. -/
def crossing (s : State) (a : Access) (addr size : Nat) : Option (Target × State) :=
  (((s.hartTag a).syncPort (srcPort a.src) 1).pay a.tag (portNeed a size)).bind (fun u =>
    let v := u.checkAccess a addr size
    if v.1 = .ok addr 0 then (v.2.pay a.tag (v.2.accessNeed a (v.2.targetOf addr size) addr size)).map (fun y => (v.2.targetOf addr size, y)) else none)

theorem witness_TransactionsCrossTheFabric :
    let s : State := { up with fab := { up.fab with open_ := [txn] } }
    let late : State := { up with fab := { up.fab with open_ := [{ txn with expired := true }] } }
    let p : State := { up with fab := { up.fab with posted := [⟨0, by_ 0 .write, 0x10_0000_0000, [1], 0, .none, 0⟩] } }
    let f : State := { up with fab := { up.fab with frozen := [0], open_ := [txn] } }
    let a := by_ 0
    a.gate = false ∧ a.tag < 64 ∧ up.tagFits a = true ∧ a.pcie ≠ some .msi ∧ up.pcieAddr a 0x10_0000_0000 64 = some 0x10_0000_0000
    ∧ requestParts a 0x10_0000_0000 64 = [(0x10_0000_0000, 64)] ∧ up.srcDown a = false ∧ up.inflight (srcPort a.src) < 128 ∧ up.tidBusy a = false ∧ up.fab.frozen = []
    ∧ up.boot.mainUp = true
    ∧ (crossing up a 0x10_0000_0000 64).any (fun e => e.1 = .hbm && e.2.fab.posted.isEmpty && e.2.fab.frozen.isEmpty && !e.2.linkDown .hbm && e.2.fab.runner = none
        && e.2.governs a .hbm 0x10_0000_0000 64 = none && missAt .hbm 0x10_0000_0000 64 = none
        && !e.2.isPosted a ⟨0x10_0000_0000, false, 0⟩ .hbm 64 && !e.2.isPosted (by_ 0 .write) ⟨0x10_0000_0000, false, 0⟩ .hbm 64) = true
    ∧ s.fab.open_.find? (fun t => t.id = 4 && !t.frozen && !t.expired) = some txn ∧ (∀ l ∈ txn.layers, l ∉ s.fab.frozen) ∧ (∃ l ∈ txn.layers, l ∈ f.fab.frozen)
    ∧ late.fab.open_.find? (fun t => t.id = 4 && t.expired) = some { txn with expired := true }
    ∧ p.fab.posted = ⟨0, by_ 0 .write, 0x10_0000_0000, [1], 0, .none, 0⟩ :: [] ∧ f.fab.frozen ≠ [] ∧ f.boot.mainUp = true ∧ f.boot.warm = false ∧ f.saf.restart = none := by
  decide +kernel

theorem witness_MessagesAndLinks :
    let lvl := (up.wr Reg.APC_SRC_LEVEL [1, 255] 1).wr Reg.APC_SRC_VEC [1, 255] 9
    let sent : State := { lvl with apc := { lvl.apc with asserted := [511], sentLevel := [511] } }
    let m : HeldMsg := { source := 4, behind := [4], msg := { inst := 0, vec := 9 } }
    let s : State := { up with fab := { up.fab with held := [m] } }
    let b : State := { s with fab := { s.fab with open_ := [txn] } }
    up.flag Reg.APC_SRC_LEVEL [1, 255] = false ∧ 511 ∉ up.apc.asserted ∧ 511 ∈ sent.apc.asserted ∧ lvl.flag Reg.APC_SRC_LEVEL [1, 255] = true ∧ 511 ∈ sent.apc.sentLevel
    ∧ 511 ∉ lvl.apc.sentLevel ∧ lvl.rd Reg.APC_SRC_VEC [1, 255] ≠ 0 ∧ s.fab.held.find? (fun m => m.source = 4) = some m ∧ (∀ p ∈ s.fab.posted, p.id ∉ m.behind)
    ∧ (∀ t ∈ s.fab.open_, t.id ∈ m.behind → t.expired = true) ∧ s.mayLaunch 4 = true ∧ up.mayLaunch 1 = true ∧ State.reset.mayLaunch 1 = false
    ∧ (∃ t ∈ b.fab.open_, t.id ∈ m.behind ∧ t.expired = false)
    ∧ 1 < up.fuses.variant.xds ∧ up.boot.mainUp = true ∧ (up.wr Reg.MAT_LINK_STATE [1] 1).rd Reg.MAT_LINK_STATE [1] < 2 ∧ (up.wr Reg.MAT_LINK_STATE [1] 0).rd Reg.MAT_LINK_STATE [1] < 2
    ∧ (up.wr Reg.MAT_LINK_STATE [1] 2).rd Reg.MAT_LINK_STATE [1] = 2 := by decide +kernel

theorem witness_LineReadsAndWrites :
    let p := up.poisonLine 0x10_0000_0000
    isHbm up.fuses 0x10_0000_0000 = true ∧ isHbm up.fuses (hbmEnd up.fuses - 64) = true ∧ isHbm up.fuses (hbmEnd up.fuses) = false ∧ up.hbm.verifying = false ∧ 63 < 64
    ∧ up.cacheEntry 0x10_0000_0000 = none ∧ (let u := lineUp.flush 0x10_0000_0000
       (u.lineAt 0x10_0000_0000).poisoned = false ∧ (u.lineAt 0x10_0000_0000).row = .none ∧ u.tagOk 0x10_0000_0000 (u.slotOf 0x10_0000_0000) = true
       ∧ u.mergeGood (u.slotOf 0x10_0000_003F) 0x10_0000_003F .none = true ∧ u.mergeGood (u.slotOf 0x10_0000_003F) 0x10_0000_003F .uncorrectable = false)
    ∧ (p.lineAt 0x10_0000_0000).poisoned = true ∧ p.found 0x10_0000_0000 .none = .none
    ∧ (List.replicate 64 (7 : Byte)).length = 64 ∧ 0x10_0000_003F % 64 + 1 ≤ 64 := by decide +kernel

theorem witness_KeysScrubAndSparing :
    let m := up.wr Reg.MEM_STK_SPARE [5] 1
    up.commits 0 [(Reg.MEM_KEY_REKEY, [63], 1)] = true ∧ isHbm up.fuses 0x10_0000_0000 = true ∧ up.boot.mainUp = true ∧ up.hbm.verifying = false
    ∧ ((up.poisonLine 0x10_0000_0000).lineAt 0x10_0000_0000).poisoned = true ∧ (lineUp.lineAt 0x10_0000_0000).poisoned = false ∧ (lineUp.lineAt 0x10_0000_0000).row = .none
    ∧ lineUp.found 0x10_0000_0000 .none = .none ∧ 5 < up.fuses.variant.hbmStacks ∧ m.migrating 5 = true ∧ up.migrating 5 = false
    ∧ ({ up with hbm := { up.hbm with verifying := true } } : State).hbm.verifying = true ∧ up.retainSlot 0x10_0000_0000 = none := by decide +kernel

theorem witness_EnclaveLifecycle :
    up.commits 0 [(Reg.ENC_ERT_SIZE, [63], 21), (Reg.ENC_ERT_BASE_LO, [63], 0x10_0000_0000 / 2 ^ 17), (Reg.ENC_ERT_BASE_HI, [63], 0x10), (Reg.ENC_ERT_INST, [63], 0),
      (Reg.ENC_ERT_REQ, [63], 1)] = true
    ∧ (entry 63 1).commits 0 [(Reg.ENC_ERT_REQ, [63], 2)] = true ∧ (entry 63 3).commits 0 [(Reg.ENC_ERT_REQ, [63], 3)] = true
    ∧ up.rd Reg.ENC_ERT_STATE [63] = 0 ∧ (entry 63 1).rd Reg.ENC_ERT_STATE [63] = 1 ∧ (entry 63 3).rd Reg.ENC_ERT_STATE [63] ∈ [1, 2, 3]
    ∧ (up.wr Reg.ENC_MON_STATE [] 1).rd Reg.ENC_MON_STATE [] ≠ 0 ∧ 63 < 64 ∧ up.rd Reg.ENC_MON_STATE [] = 0
    ∧ (let w := ((entry 63 1).wr Reg.ENC_ERT_SIZE [63] 6).ertStart 63 2
       let m := (w.inRun partyMonitor).measure 63
       w.fresh partyMonitor = true ∧ w.rd Reg.ENC_MON_STATE [] = 0 ∧ tget MonOp.destroy w.enc.working 63 = .seal
       ∧ ({ m.2 with enc := { m.2.enc with measures := tput m.2.enc.measures 63 (m.1 % 2 ^ 384) } }.writeReport 63).fab.stall = none)
    ∧ (let w := ((entry 63 3).wr Reg.ENC_ERT_SIZE [63] 6).ertStart 63 3
       w.fresh partyMonitor = true ∧ w.rd Reg.ENC_MON_STATE [] = 0 ∧ tget MonOp.seal w.enc.working 63 = .destroy
       ∧ ((w.inRun partyMonitor).monScrub (w.ertBase 63) (2 ^ w.rd Reg.ENC_ERT_SIZE [63])).fab.stall = none) := by decide +kernel

theorem witness_MonitorAndMailbox :
    let s := (entry 63 3).wr Reg.ENC_ERT_MBOX_INST [63] 1
    let line := stored s (s.intakeLine 63) (leBytes 8 1 ++ leBytes 8 64)
    let x := line.readThrough 0 35 (line.intakeLine 63) .none false
    let m : State := up.wr Reg.ENC_MON_STATE [] 1
    63 < 64 ∧ (List.replicate 64 (0 : Byte)).length = 64 ∧ (by_ 0 .write).gate = false ∧ s.tagFits (by_ 0 .write) = true
    ∧ (s.allow (by_ 0 .write) (s.intakeLine 63) 64).1 = .ok (s.intakeLine 63) 0 ∧ (s.allow (by_ 0 .write) (s.intakeLine 63 + 64) 64).1 = .fault 10 false .denied
    ∧ (up.allow (by_ 0 .write) 0x10_0000_0000 64).1 = .ok 0x10_0000_0000 0 ∧ 0x10_0000_0000 ≠ s.intakeLine 63 ∧ s.entryOf (s.intakeLine 63) = some 63
    ∧ s.isMail (by_ 0 .write) (s.intakeLine 63) 64 = true ∧ s.isMail (by_ 1 .write) (s.intakeLine 63) 64 = false
    ∧ x.1 = .ok ∧ (ofLeBytes (memBytes x.2.mem (line.intakeLine 63 + 8) 8) + 2 ^ 64 - ofLeBytes (memBytes x.2.mem (line.intakeLine 63) 8)) % 2 ^ 64 = 63
    ∧ up.boot.mainUp = true
    ∧ up.rd Reg.ENC_MON_STATE [] = 0 ∧ (up.wr Reg.ENC_MON_GEN [] 7).rd Reg.ENC_MON_GEN [] = 7 ∧ up.rd Reg.ENC_MON_GEN [] ≠ 7 ∧ (up.wr Reg.ENC_MON_VEC [] 5).rd Reg.ENC_MON_VEC [] ≠ 0
    ∧ m.rd Reg.ENC_MON_STATE [] = 1 ∧ m.fresh partyMonitor = true ∧ (up.wr Reg.ENC_MON_STATE [] 2).rd Reg.ENC_MON_STATE [] = 2
    ∧ (let a : State := (List.range 64).foldl State.reattest (m.inRun partyMonitor)
       let b : State := (a.wr Reg.ENC_MON_STATE [] 0).send 0 (a.rd Reg.ENC_MON_VEC [])
       (b.enc.held.foldl (fun (v : State) r => (v.wr Reg.ENC_ERT_PEND [r.1] 0).ertStart r.1 r.2) { b with enc := { b.enc with held := [] } }).fab.stall = none) := by decide +kernel

/-- A Crypto Engine job of instance 0 with its descriptor at the first line of HBM. -/
def cryJob (uid : Nat := 1) : CryJob := { uid := uid, tag := 0, desc := 0x10_0000_0000 }

/-- An engine reads the descriptor of the job that it starts, nothing stops the run, and the descriptor is admitted or not. -/
def cryRuns (s : State) (n : Nat) (adm : Bool) : Bool :=
  let j := cryJob
  let r := (s.inRun (partyJob j.uid)).dmaRead (cryAccess n j.tag) j.desc 64
  let d := ofLeBytes r.2.1
  let c := r.2.2.cryState n j 1 none
  let w := c.cryCompute n d { j with owed := Config.cryptoNs (bitsOf d 0 8) (bitsOf d 32 32) (bitsOf d 320 32) }
  s.cryStarts n = some j && s.fresh (partyJob j.uid) && r.1 = .ok && s.cryAdmits n j.tag d = adm
    && (if adm then ((w.2.cryDrop n w.1.uid).setCryEngine n { (w.2.cryDrop n w.1.uid).cryEngine n with running := some w.1 }).fab.stall.isNone
        else (r.2.2.cryDeny n j).fab.stall.isNone)

/-- Every operand that an operation reads is read without error. -/
def cryReads (s : State) (n d : Nat) (l : List (Nat × Nat)) : Bool := ((s.cryState n cryJob 1 none).cryRead n 0 l).1 = .ok && bitsOf d 0 8 ≠ 0

/-- A descriptor of an operation on key slot 31, with every operand at the first line of HBM. -/
def cryDesc (op len : Nat) : Nat := op + 31 * 2 ^ 8 + len * 2 ^ 32 + 0x10_0000_0000 * 2 ^ 64 + 0x10_0000_0000 * 2 ^ 128
  + 0x10_0000_0000 * 2 ^ 192 + 0x10_0000_0000 * 2 ^ 256 + 0x10_0000_0000 * 2 ^ 352

/-- The job of `cryJob` waits at engine 1 with a descriptor, and key slot 31 holds a key of a kind. -/
def cryWith (d kind : Nat) : State :=
  ((stored up 0x10_0000_0000 (leBytes 64 d)).wr Reg.CRY_KEY_KIND [1, 31] kind).setCryEngine 1 { waiting := [cryJob] }

theorem witness_CryptoEngineStartsItsJob :
    1 < 4 ∧ [(0x01, 0, 1), (0x10, 0, 0), (0x11, 64, 0), (0x12, 0, 0), (0x18, 0, 0), (0x19, 0, 0), (0x1A, 0, 0)].all
        (fun e => cryRuns (cryWith (cryDesc e.1 e.2.1) e.2.2) 1 true) = true
    ∧ cryRuns (cryWith (cryDesc 0xFF 0) 0) 1 false = true := by decide +kernel

theorem witness_CryptoEngineStartsItsJob_keys :
    [(0x20, 32, 3), (0x21, 32, 4), (0x22, 48, 5), (0x23, 48, 6)].all (fun e => cryRuns (cryWith (cryDesc e.1 e.2.1) e.2.2) 1 true) = true
    ∧ cryRuns (cryWith (0x30 + 31 * 2 ^ 8 + 2 ^ 13 + 16 * 2 ^ 32 + 0x10_0000_0000 * 2 ^ 64) 0) 1 true = true
    ∧ cryRuns (cryWith (2 + 31 * 2 ^ 8 + 0x10_0000_0000 * 2 ^ 64 + 0x10_0000_0040 * 2 ^ 192) 2) 1 true = true := by decide +kernel

theorem witness_CryptoEngineStartsItsJob_reads :
    cryReads (cryWith (cryDesc 1 0) 1) 1 (cryDesc 1 0) [(0x10_0000_0000, 0), (0x10_0000_0000, 12), (0x10_0000_0000, 0)] = true
    ∧ cryReads (cryWith (cryDesc 2 0) 1) 1 (cryDesc 2 0) [(0x10_0000_0000, 0), (0x10_0000_0000, 12), (0x10_0000_0000, 0), (0x10_0000_0000, 16)] = true
    ∧ cryReads (cryWith (cryDesc 0x21 32) 4) 1 (cryDesc 0x21 32) [(0x10_0000_0000, 32), (0x10_0000_0000, 64)] = true := by decide +kernel

theorem witness_CryptoJobsSwitchAndEnd :
    let s := ((up.setCryEngine 3 { running := some (cryJob 1), waiting := [{ cryJob 2 with tag := 1 }] }).wr Reg.TTU_INST_CLASS [0] 3)
    let alone := up.setCryEngine 3 { running := some (cryJob 1) }
    let r := up.setCryEngine 3 { saved := [cryJob 1] }
    let a := withJob { job 0 6 9 with uid := 1, abort := true } s
    let p := partyJob 1
    200 ≤ 200 ∧ 3 < 4 ∧ (∀ t ∈ [s, alone, a], (t.cryEngine 3).running = some (cryJob 1) ∧ t.fresh p = true)
    ∧ s.cryAborting (cryJob 1) = false ∧ a.cryAborting (cryJob 1) = true ∧ (((a.inRun p).cryAbort 3 (cryJob 1)).cryEnd 3 (cryJob 1) .aborted).fab.stall = none
    ∧ s.cryNext 3 = some { cryJob 2 with tag := 1 } ∧ s.cryRank 3 1 < s.cryRank 3 0
    ∧ (let v := s.inRun p
       let u := v.setCryEngine 3 { v.cryEngine 3 with running := none, saved := (v.cryEngine 3).saved ++ [cryJob 1] }
       (((u.cryState 3 (cryJob 1) 2 (some .preempted)).incWrap Reg.CRY_CNT_PREEMPT [3] 1).chargeJob 2 28 200).fab.stall = none)
    ∧ alone.cryNext 3 = none
    ∧ (let w := (s.inRun p).payJob 1 28 0
       (w.cryEnd 3 { cryJob 1 with failed := some .poison } .poison).fab.stall = none ∧ (cryJob 1).failed = none
       ∧ ((w.cryFinish 3 (cryJob 1)).2.cryEnd 3 (cryJob 1) (w.cryFinish 3 (cryJob 1)).1).fab.stall = none)
    ∧ (r.cryEngine 3).running = none ∧ r.cryNext 3 = some (cryJob 1) ∧ (∃ k ∈ (r.cryEngine 3).saved, k.uid = (cryJob 1).uid) ∧ r.fresh p = true
    ∧ (let v := r.inRun p
       let u := v.setCryEngine 3 { v.cryEngine 3 with running := some (cryJob 1), saved := (v.cryEngine 3).saved.filter (fun k => k.uid ≠ 1) }
       ((u.cryState 3 (cryJob 1) 1 none).chargeJob 1 28 200).fab.stall = none)
    ∧ ({ cryJob with op := 0x30, slot := 31 } : CryJob).slot < 32
    ∧ up.commits 0 [(Reg.CRY_KEY_CLEAR, [0, 31], 1)] = true := by decide +kernel

/-- Hart `h` is in enclave mode. -/
def inside (h : Nat) (s : State := up) : State := (s.wr Reg.APC_HART_IN_ENCL [h] 1).wr Reg.APC_HART_ENTRY [h] 63

theorem witness_GatesOfAnEnclave :
    let m := entry 63 3 (stored up 0x10_0000_0000 (leBytes 4 (0x0B + 63 * 2 ^ 26)))
    let P := partyHart 15
    let fetch := fun (s : State) => ((s.stand 15 at0).inRun P).gateFetch 15 at0 0 0x10_0000_0000
    15 < 16 ∧ placeValid at0 = true ∧ gateOp 0x300B = .illegal ∧ gateOp 0xFC00000B = .mark 63 ∧ gateOp 0x100B = .enter ∧ gateOp 0x200B = .exit
    ∧ ({ pc := 0, mmode := true } : HartAt).mmode = true ∧ placeValid { pc := 0, mmode := true } = true ∧ at0.mmode = false
    ∧ (∀ s ∈ [inside 15, up, m], (s.stand 15 at0).fresh P = true ∧ (((s.stand 15 at0).inRun P).takeTrap 15 24 0 false).fab.stall = none)
    ∧ ((inside 15).stand 15 at0).inEnclave 15 = true ∧ (up.stand 15 at0).inEnclave 15 = false ∧ (m.stand 15 at0).inEnclave 15 = false
    ∧ (fetch lineUp).1.bind gateMark = none ∧ ((fetch lineUp).2.takeTrap 15 24 0 false).fab.stall = none ∧ (fetch m).1 = some (0x0B + 63 * 2 ^ 26) ∧ (fetch m).2.fab.stall = none
    ∧ gateMark (0x0B + 63 * 2 ^ 26) = some 63 ∧ (fetch m).2.rd Reg.ENC_ERT_STATE [63] = 3
    ∧ (fetch m).2.inEntry 0x10_0000_0000 63 = true ∧ (fetch m).2.rd Reg.ENC_ERT_INST [63] = placeTag at0
    ∧ (let x := fetch (m.wr Reg.ENC_ERT_INST [63] 9); x.1 = some (0x0B + 63 * 2 ^ 26) ∧ x.2.rd Reg.ENC_ERT_INST [63] ≠ placeTag at0 ∧ (x.2.takeTrap 15 24 0 false).fab.stall = none) := by
  decide +kernel

theorem witness_TrapsAndInterruptsOfHarts :
    let s : State := { up with msgs := [{ inst := 31, vec := 2047 }] }
    let v : State := s.wr Reg.APC_IRQ_VALID [31] 1
    let h : State := up.setHart 15 { up.hart 15 with mtimecmp := 0, stimecmp := 0, vstimecmp := 0 }
    let guest : HartAt := { pc := 0, virt := true, vmid := 9 }
    15 < 16 ∧ placeValid at0 = true ∧ placeValid guest = true ∧ Kind.write ≠ .fetch ∧ up.barred 15 guest = true ∧ (up.wr Reg.APC_HART_VMASK [15] 0x200).barred 15 guest = false
    ∧ up.barred 15 at0 = false ∧ isHbm up.fuses 0x10_0000_0000 = true
    ∧ Status.notReady ∈ [Status.denied, .decode, .poison, .timeout, .notReady] ∧ Status.integrity ≠ .ok ∧ s.msgs = { inst := 31, vec := 2047 } :: []
    ∧ 31 < 32 ∧ 2047 < 2048 ∧ s.flag Reg.APC_IRQ_VALID [31] = false ∧ v.flag Reg.APC_IRQ_VALID [31] = true
    ∧ 6 ≤ 6 ∧ 0xFFF < 0x1000 ∧ 0xFFC % 4 = 0 ∧ 0xFFC ≠ 0 ∧ 0xFFF % 4 ≠ 0 ∧ (up.wr Reg.APC_CL_STATE [3] 2).rd Reg.APC_CL_STATE [15 / 4] = 2 ∧ up.rd Reg.APC_CL_STATE [3] ≠ 2
    ∧ (∀ k ∈ [5, 6, 7], (h.compareOf 15 k).1 ≤ (h.compareOf 15 k).2 ∧ k ∉ (h.hart 15).fired) := by decide +kernel

theorem witness_TrapsLeaveTheEnclave : (inside 15).inEnclave 15 = true ∧ up.inEnclave 15 = false := by decide +kernel

theorem witness_ClusterPowerStates :
    let a := up.wr Reg.APC_CL_STATE [3] 0
    let w := (a.wr Reg.APC_CL_STATE [3] 1).setHart 15 { up.hart 15 with mip := [7] }
    let l : State := (up.wr Reg.APC_SRC_LEVEL [4, 255] 1).wr Reg.APC_SRC_VEC [4, 255] 9
    let m : State := { l with apc := { l.apc with asserted := [256 * 4 + 255] } }
    3 < 4 ∧ (∀ r ∈ [0, 1, 2], up.commits 0 [(Reg.APC_CL_REQ, [3], r)] = true) ∧ a.rd Reg.APC_CL_STATE [3] = 0 ∧ w.rd Reg.APC_CL_STATE [3] ≤ 1
    ∧ (∀ r ∈ [0, 1, 2], (a.wr Reg.APC_CL_REQ [3] r).rd Reg.APC_CL_REQ [3] = r ∧ (a.wr Reg.APC_CL_REQ [3] r).rd Reg.APC_CL_STATE [3] = 0)
    ∧ w.rd Reg.APC_CL_STATE [3] = 1 ∧ w.wakePending 3 = true ∧ l.commits 0 [(Reg.APC_SRC_ACK, [4, 255], 1)] = true
    ∧ m.flag Reg.APC_SRC_LEVEL [4, 255] = true ∧ 256 * 4 + 255 ∈ m.apc.asserted ∧ m.rd Reg.APC_SRC_VEC [4, 255] ≠ 0 ∧ up.flag Reg.APC_SRC_LEVEL [4, 255] = false := by
  decide +kernel

/-- A tile descriptor of an operation on one-element tensors in the tile's SRAM, with parameters. -/
def desc (op : Nat) (p0 p1 p2 p3 p4 : Nat := 0) : Nat :=
  let one := fun lo => 2 ^ (lo + 64) + 2 ^ (lo + 80) + 2 ^ (lo + 96) + 2 ^ (lo + 112)
  op + (if op ≤ 0x16 then one 128 + one 512 else 0) + (if [0x01, 0x02, 0x03, 0x04, 0x06, 0x0B, 0x0C, 0x14, 0x15].contains op then one 320 else 0)
    + p0 * 2 ^ 704 + p1 * 2 ^ 768 + p2 * 2 ^ 832 + p3 * 2 ^ 896 + p4 * 2 ^ 960

/-- Tile 0 holds the last descriptor of a job of its resident, instance 0, and the governor has lines for it. -/
def tileUp (d : Nat) (waits : Bool := false) (s : State := up) : State :=
  let j : InfJob := { uid := 1, tag := 0, mask := 1, next := 0 }
  let s := withJob (job 0 1 9) (({ s with inf := { s.inf with
    jobs := [j], queues := [(0, [⟨1, 0, 0x10_0000_0000, d, waits⟩])], gov := { cap := 100, pool := 100, released := true } } }).wr Reg.INF_SLICE_VALID [0, 0] 1)
  ((s.wr Reg.INF_TILE_RES_VALID [0] 1).wr Reg.INF_TILE_RES_G [0] 0).wr Reg.INF_TILE_STATE [0] 1

/-- The parameters that an operation needs. -/
def okDesc (op : Nat) : Nat :=
  if [2, 3, 4].contains op then desc op 0 0 (2 ^ 8 + 2 ^ 12 + 2 ^ 32 + 2 ^ 36) else if op = 5 then desc op 0 0 (1 + 2 ^ 4 + 2 ^ 8 + 2 ^ 12) else if op = 7 then desc op 0 0 0 1
  else if op = 10 then desc op 0x1_0000_0000 0 0 1 else desc op

/-- Tile 0 runs the descriptor at its head to its end. -/
def tileRuns (s : State) (v : Nat) : Bool :=
  (s.tileHead 0).any (fun e =>
    let d := tdOf v
    let u := (s.inRun (partyTile 0)).payJob e.uid 22 (matrixCycles d + 5)
    let o := u.tileOp ⟨u.tileAccess 0 (u.descTag e) d.pid, 0x1_0000_0000⟩ d
    let r := if o.1 = .ok then o.2.retireDesc 0 e else (o.2.markRan 0).infFail e.uid e.addr 0 o.1
    e.desc = v && s.fresh (partyTile 0) && r.fab.stall.isNone)

/-- A Dusk descriptor at the first byte of the island SRAM. -/
def duskUp (d : Nat) : State := { up with mem := memPutBytes up.mem islandSram (leBytes 128 d) }

theorem witness_TileOperationsExecute :
    (∀ op ∈ List.range 0x17, 0 < op → tileRuns (tileUp (okDesc op)) (okDesc op) = true ∧ (tdOf (okDesc op)).op = op) ∧ 0 < up.fuses.variant.tiles
    ∧ (let u := ((tileUp (okDesc 0x16)).inRun (partyTile 0)).payJob 1 22 5
       (((u.incSat Reg.INF_PHYS_SRAM_DBE [u.rd Reg.INF_TILE_PHYS [0]] 1).markRan 0).infFail 1 0x10_0000_0000 0 .poison).fab.stall = none)
    ∧ up.saf.islandRun = true ∧ islandSram ≤ islandSram ∧ islandSram + 128 ≤ islandSram + 0x40_0000
    ∧ (∀ op ∈ [0x01, 0x02, 0x03, 0x05, 0x06, 0x07, 0x09, 0x12, 0x13, 0x16], tdOk (okDesc op) (2 ^ 64 - 1) = true ∧ duskOk (tdOf (okDesc op)) = true
      ∧ (((duskUp (okDesc op)).inRun partyDusk).tileOp ⟨{ tag := 33, pid := 0, src := .xd 0, kind := .read }, islandSram⟩ (tdOf (okDesc op))).2.fab.stall = none)
    ∧ (duskUp (okDesc 0x16)).fresh partyDusk = true
    ∧ ofLeBytes (memBytes (duskUp (okDesc 0x16)).mem islandSram 128) = okDesc 0x16 ∧ (tdOk (okDesc 0x08) (2 ^ 64 - 1) && duskOk (tdOf (okDesc 0x08))) = false := by
  decide +kernel

theorem witness_TensorResults :
    let y : Tn := ⟨[3, 1, 1, 1], [.fin false 0 0, .fin false 0 0, .fin false 0 0]⟩
    let x : Tn := ⟨[2, 1, 1, 1], [.fin false 1 0, .fin false 2 0]⟩
    let w : Tn := ⟨[2, 1, 1, 1], [.fin false 2 0, .fin false 2 0]⟩
    let d := tdOf (desc 0x0C)
    d.p3 = 0 ∧ d.p4 = 0 ∧ y.dims = [3, 1, 1, 1] ∧ y.v.length = 3 ∧ w.v.length = 2 ∧ x.dims = [2, 1, 1, 1]
    ∧ indexIn (w.v.getD 1 .nan) 3 = some 2 ∧ (∀ j, 1 < j → j < 2 → indexIn (w.v.getD j .nan) 3 ≠ some 2) ∧ (∀ j, j < 2 → indexIn (w.v.getD j .nan) 3 ≠ some 0)
    ∧ (tdOf (desc 0x01)).op = 0x01 ∧ (tdOf (desc 0x01 + 3 * 2 ^ 16)).tin = 3 ∧ (tdOf (desc 0x02 + 5 * 2 ^ 16)).tin = 5 := by
  refine ⟨by decide +kernel, by decide +kernel, rfl, rfl, rfl, rfl, by decide +kernel, fun j a b => by omega, ?_, by decide +kernel, by decide +kernel, by decide +kernel⟩
  decide +kernel

theorem witness_SyncDescriptorsHandOver :
    let P := partyTile 0
    let b := tileUp (desc 0x18 0 1)
    let b2 := tileUp (desc 0x18 0 3)
    let g := tileUp (desc 0x18 1 0x10_0000_0000 5 0 (2 ^ 43)) false lineUp
    let w := tileUp (desc 0x18 2 0x10_0000_0000 1 0xFF 5) true lineUp
    let n := tileUp (desc 0x18 2 0x10_0000_0000 1 0xFF 5)
    let e := fun (d : Nat) (waits : Bool) => (⟨1, 0, 0x10_0000_0000, d, waits⟩ : TileDesc)
    0 < up.fuses.variant.tiles ∧ up.fab.posted = [] ∧ up.fab.open_ = [] ∧ (∀ s ∈ [b, b2, g, w, n], s.fresh P = true)
    ∧ b.syncHead 0 0 = some (e (desc 0x18 0 1) false) ∧ b2.syncHead 0 0 = some (e (desc 0x18 0 3) false) ∧ b2.tileQueue 1 = []
    ∧ (let v := b.inRun P
       (((descTiles (desc 0x18 0 1)).foldl (fun (t : State) j => (t.popDesc j (e (desc 0x18 0 1) false)).markRan j) v).readChains).fab.stall = none)
    ∧ (g.syncHead 0 1).isSome = true ∧ bitAt (tdOf (desc 0x18 1 0 5 0 (2 ^ 43))).p4 43 = true
    ∧ (let v := g.inRun P
       let r := v.dmaWrite { v.tileAccess 0 0 0 with firm := true } 0x10_0000_0000 (leBytes 8 5)
       r.1 = .ok ∧ ((r.2.send 0 0).retireDesc 0 (e 0 false)).fab.stall = none)
    ∧ (let v := (tileUp (desc 0x18 1 0x10_0000_0000 5 0 (2 ^ 43))).inRun P
       let r := v.dmaWrite { v.tileAccess 0 0 0 with firm := true } 0x10_0000_0000 (leBytes 8 5)
       r.1 = .integrity ∧ ((r.2.markRan 0).infFail 1 0x10_0000_0000 0 .integrity).fab.stall = none)
    ∧ (n.syncHead 0 2).isSome = true ∧ (w.syncWaiting 0 1).isSome = true
    ∧ (let v := w.inRun P
       let r := v.dmaRead (v.tileAccess 0 0 0) 0x10_0000_0000 8
       r.1 = .ok ∧ (r.2.2.retireDesc 0 (e (desc 0x18 2 0x10_0000_0000 1 0xFF 5) true)).fab.stall = none)
    ∧ (((w.inRun P).markRan 0).infFail 1 0x10_0000_0000 0 .timeout).fab.stall = none
    ∧ (duskUp (desc 0x18 0 1)).saf.islandRun = true ∧ (duskUp (desc 0x18 0 1)).fresh partyDusk = true
    ∧ (let r := ((duskUp (desc 0x18 0 1)).inRun partyDusk).duskFetch islandSram; r.1 = .ok ∧ r.2.1.op = 0x18 ∧ r.2.1.p0 = 0 ∧ r.2.2.fab.posted = [] ∧ r.2.2.fab.open_ = [] ∧ r.2.2.fab.stall = none)
    ∧ (let r := ((duskUp (desc 0x18 1 0x10_0000_0000 5)).inRun partyDusk).duskFetch islandSram
       r.1 = .ok ∧ r.2.1.op = 0x18 ∧ r.2.1.p0 = 1 ∧ (r.2.2.dmaWrite { duskAccess with firm := true } 0x10_0000_0000 (leBytes 8 5)).2.fab.stall = none) := by decide +kernel

theorem witness_TilesSwitchBetweenGrantees :
    let e : TileDesc := ⟨2, 0, 0x10_0000_2000, desc 0x16, false⟩
    let j : InfJob := { uid := 2, tag := 9, mask := 1, next := 0 }
    let s := (((tileUp (desc 0x16)).wr Reg.INF_SLICE_VALID [0, 1] 1).wr Reg.INF_SLICE_INST [0, 1] 9).wr Reg.INF_TILE_RES_VALID [0] 0
    let t : State := { s with inf := { s.inf with jobs := s.inf.jobs ++ [j], queues := [(0, [e])] } }
    let d : State := { t with inf := { t.inf with queues := [] } }
    0 < t.fuses.variant.tiles ∧ t.fresh (partyTile 0) = true ∧ t.boot.mainUp = true ∧ t.rd Reg.INF_TILE_STATE [0] ≠ 4 ∧ t.rd Reg.INF_TILE_STATE [0] ≠ 5 ∧ t.incoming 0 = some 1
    ∧ t.yields 0 1 = true ∧ t.resident 0 = none ∧ (((t.inRun (partyTile 0)).restoreTile 0 1).syncTile 0).fab.stall = none
    ∧ up.incoming 0 = none ∧ d.infJob 2 = some j ∧ j.next = 0 ∧ (∀ k, k < 64 → ∀ e ∈ d.tileQueue k, e.uid ≠ 2) ∧ d.fresh (partyJob 2) = true
    ∧ ((d.inRun (partyJob 2)).infEnd 2 .ok).fab.stall = none ∧ d.fab.posted = [] ∧ d.fab.open_ = [] := by decide +kernel

theorem witness_GoldenAndSpares :
    let w := ((up.wr Reg.INF_PHYS_ROLE [71] 1).wr Reg.INF_GOLD_SIG_LO [] 5)
    let s : State := { w with inf := { w.inf with swaps := [(0, 71, none)] } }
    let g := tileUp (desc 0x17)
    let e : TileDesc := ⟨1, 0, 0x10_0000_0000, desc 0x17, false⟩
    g.tileHead 0 = some e ∧ (tdOf e.desc).op = 0x17 ∧ g.fresh (partyTile 0) = true
    ∧ (let v := g.inRun (partyTile 0)
       let a := v.tileAccess 0 (v.descTag e) 0
       ((((v.payJob 1 22 5).enginePay a.tag (v.goldenNeed a 2)).retireDesc 0 e).goldenResult 0 0).fab.stall = none)
    ∧ (let l : State := { w with inf := { w.inf with ran := [0] } }
       l.inf.ran = [0] ∧ l.flag Reg.INF_TILE_GOLD_OK [0] = false ∧ l.rd Reg.INF_TILE_STATE [0] ≠ 5 ∧ l.readySpares ≠ [] ∧ l.boot.mainUp = true)
    ∧ (duskUp (desc 0x17)).saf.islandRun = true ∧ (duskUp (desc 0x17)).fresh partyDusk = true
    ∧ (let r := ((duskUp (desc 0x17)).inRun partyDusk).duskFetch islandSram
       r.1 = .ok ∧ r.2.1.op = 0x17 ∧ (r.2.2.enginePay 33 (r.2.2.goldenNeed duskAccess 2)).fab.stall = none)
    ∧ w.rd Reg.INF_TILE_PHYS [0] < 72 ∧ 6 ≠ w.rd Reg.INF_GOLD_SIG_LO [] + 2 ^ 32 * w.rd Reg.INF_GOLD_SIG_HI [] ∧ w.readySpares ≠ []
    ∧ up.boot.mainUp = true ∧ (∀ k ∈ up.inf.ran, up.flag Reg.INF_TILE_GOLD_OK [k] = true) ∧ s.rd Reg.INF_TILE_PHYS [0] ≠ 71
    ∧ s.inf.swaps.find? (fun w => w.1 = 0) = some (0, 71, none) ∧ w.inf.rotating = none ∧ ({ w with inf := { w.inf with rotating := some 3 } } : State).inf.rotating.isSome = true
    ∧ w.rd Reg.INF_TILE_STATE [0] ≠ 4 ∧ w.rd Reg.INF_TILE_STATE [0] ≠ 5 ∧ 71 ∉ up.inf.waking ∧ (up.wr Reg.INF_PHYS_ROLE [71] 2).rd Reg.INF_PHYS_ROLE [71] = 2 := by decide +kernel
theorem witness_CommitsOfOneAction :
    let s := (up.wr Reg.GFX_GCTX_MODE [31] 1).wr Reg.GFX_GCTX_PEND [31] 1
    s.commits 0 [(Reg.GFX_GCTX_GROW_ADDR_LO, [31], 1), (Reg.GFX_GCTX_GROW_ADDR_HI, [31], 16), (Reg.GFX_GCTX_GROW_COUNT, [31], 1)] = true
    ∧ up.commits 0 [(Reg.DSP_PIPE_ENABLE, [3], 0)] = true ∧ up.commits 0 [(Reg.SNS_STREAM_CLR, [127], 1)] = true
    ∧ ((((up.wr Reg.SNS_STREAM_ENABLE [127] 1).wr Reg.SNS_STREAM_NBUF [127] 1).wr Reg.SNS_STREAM_SLOT_LOG2 [127] 6).wr Reg.SNS_STREAM_TMO_US [127] 1).commits 0 [(Reg.SNS_STREAM_LIE, [127], 1)] = true ∧ up.commits 0 [(Reg.CAN_CTL_RESUME, [0, 3], 1)] = true
    ∧ up.commits 0 [(Reg.NET_AAS_REQ_MAIN, [], 1)] = true ∧ up.commits 0 [(Reg.CLK_REF_SEL, [], 1)] = true := by decide +kernel

theorem witness_CommitsOfTheServices :
    up.commits 0 [(Reg.CLK_EPOCH_SET_LO, [], 5), (Reg.CLK_EPOCH_SET_HI, [], 0), (Reg.CLK_EPOCH_GO, [], 1)] = true
    ∧ up.commits 0 [(Reg.CLK_RTC_SYNC, [], 1)] = true ∧ up.commits 0 [(Reg.SAF_EVT_CLR, [27], 1)] = true ∧ up.commits 0 [(Reg.SAF_HB_SEQ, [], 7)] = true
    ∧ up.commits 0 [(Reg.ALM_BK_ACK, [], 1)] = true ∧ up.commits 0 [(Reg.ALM_WRECK_SW, [], 1)] = true ∧ up.commits 0 [(Reg.ALM_WRECK_REARM, [], 1)] = true
    ∧ (up.wr Reg.ALM_WRECK_STATE [0] 2).commits 0 [(Reg.ALM_DUMP_ADDR_LO, [], 0), (Reg.ALM_DUMP_ADDR_HI, [], 16), (Reg.ALM_DUMP_DIE, [], 0), (Reg.ALM_DUMP_GO, [], 1)] = true
    ∧ up.commits 0 [(Reg.MAT_REMAP_REMAP, [], 1)] = true ∧ up.commits 0 [(Reg.BOOT_CTRL_HART_GO, [], 2 ^ 14)] = true
    ∧ ({ up with boot := { up.boot with svn := [(5, 3)] } } : State).commits 0 [(Reg.BOOT_SVN_ADV, [4], 1)] = true ∧ up.commits 0 [(Reg.BOOT_IRST_REQ, [31], 1)] = true ∧ up.commits 0 [(Reg.PWR_PD_REQ, [7], 1)] = true
    ∧ up.commits 0 [(Reg.PWR_PD_REQ, [7], 0)] = true := by decide +kernel

/-- A pass of one bin with one primitive that covers one block. -/
def pass : Pass :=
  { width := 32, height := 32, samples := 1, pid := 0, atts := [⟨0x10_0000_0000, 0, 1, 0, 0, 128, 0⟩], depth := false, pages := [0x10_0001_0000],
    prims := [⟨[], [0], [⟨0, 0, 1⟩]⟩] }

/-- A stream of instance 0 whose next packet stands at the first line of HBM and starts with these words; cluster 0 runs it. -/
def gfxUp (words : List Nat) (p : Option Pass) (m : State := up) : State :=
  let s := stored m 0x10_0000_0000 (words.flatMap (leBytes 8))
  let s := (s.wr Reg.GFX_SLICE_VALID [0, 0] 1).wr Reg.GFX_CL_RES_VALID [0] 1
  withJob (job 0 2 9) { s with gfx := { s.gfx with jobs := [{ uid := 1, gctx := 0, inst := 0, mask := 1, pc := 0x10_0000_0000, pid := 0, pass := p }] } }

/-- A compute job of instance 0 on cluster 0. -/
def compUp (d : Nat) (started : Bool) (ended : Nat := 0) (m : State := up) : State :=
  let s := (m.wr Reg.GFX_SLICE_VALID [0, 0] 1).wr Reg.GFX_CL_RES_VALID [0] 1
  withJob (job 0 3 9) { s with gfx := { s.gfx with comps := [⟨1, 0, 1, d, started, ended, 0⟩] } }

/-- A fragment thread, and a compute thread. -/
def frag : ShId := ⟨1, 1, 0, 0⟩
def comp : ShId := ⟨1, 2, 0, 0⟩

/-- An Xkgfx instruction of a thread. -/
def xk (th : ShId) (f3 f7 : Nat) (vl : Nat := 1) : ShIssue := ⟨th, 0, 0x2B + f3 * 2 ^ 12 + f7 * 2 ^ 25, 0, 0, [0, 0, 0], 32, 1, vl⟩

theorem witness_ShaderInstructionsOfAThread :
    let P := partyJob 1
    let s := gfxUp [] (some pass)
    let c := s.inRun P
    let w := compUp (1 * 2 ^ 128 + 1 * 2 ^ 144 + 1 * 2 ^ 160 + 1 * 2 ^ 176) true
    let one := fun (th : ShId) (i : ShIssue) => ((c.running th).map (fun e => ((c.tbLd i e.1 e.2).fab.stall.isNone && (c.tbSt i e.1 e.2).fab.stall.isNone))).getD false
    (xk frag 0 0).w < 2 ^ 32 ∧ (xk frag 0 0).w % 128 = 0x2B ∧ s.fresh P = true ∧ w.fresh P = true ∧ (c.running frag).isSome = true ∧ ((w.inRun P).running comp).isSome = true
    ∧ (∀ f ∈ [0, 1, 2, 3, 4, 5], xF3 (xk frag f 0).w = f ∧ xIllegal (xk frag f 0) = false) ∧ xF7 (xk frag 4 1).w = 1 ∧ xIllegal (xk frag 4 1) = false
    ∧ xIllegal (xk frag 0 2) = true ∧ xIllegal (xk comp 5 0) = false ∧ (c.running frag).any (fun e => e.1.pass = some pass && e.1.job.isSome) = true
    ∧ (c.dmaNum (gfxAccess 0 0) 0x10_0000_0000 64).1 = .ok ∧ (c.dmaNum (gfxAccess 0 0) 0x10_0000_1000 64).1 ≠ .ok
    ∧ (c.sampleAll (gfxAccess 0 0) 0 false [] 0).1 = .ok ∧ pass.attachment 0 = some (0, ⟨0x10_0000_0000, 0, 1, 0, 0, 128, 0⟩) ∧ bitsOf 0 4 3 < pass.samples ∧ pass.px = []
    ∧ (∀ x ∈ [(2, .denied), (5, .poison), (1, .denied)], (c.shFault 0 frag 0 x.1 x.2).fab.stall = none)
    ∧ one frag (xk frag 2 0) = true ∧ one frag (xk frag 3 0) = true
    ∧ (s.compJob 1 = none ∧ frag.kind ≠ 2) ∧ comp.kind = 2 ∧ (w.compJob 1).isSome = true ∧ compThreads (2 ^ 176) = 1 ∧ compThreads (2 ^ 177) = 2
    ∧ 1 % 2 ^ 64 ≠ 0 ∧ 7 ∈ [1, 5, 7] ∧ statusFails .denied = true ∧ 31 < 32 ∧ 63 < 64 := by decide +kernel

/-- The stream reads its packet, which is well made and stands where it may. -/
def packetReads (words : List Nat) (p : Option Pass) : Bool :=
  let s := gfxUp words p
  let r := (s.inRun (partyJob 1)).packetWords 0 0x10_0000_0000
  (s.gfxJob 1).any (fun j => !j.ended) && s.fresh (partyJob 1) && s.boot.mainUp && !s.flag Reg.GFX_GCTX_PEND [0] && r.1 = .ok && packetOk (r.2.1.headD 0) r.2.1.tail
    && packetPlace (r.2.1.headD 0 % 256) p.isSome && r.2.2.syncClusters.fab.stall.isNone

/-- Stream 1 after its packet is read. -/
def packetRead (words : List Nat) (p : Option Pass) : State := ((gfxUp words p).inRun (partyJob 1)).packetWords 0 0x10_0000_0000 |>.2.2

theorem witness_PacketsOfAStream :
    let head := fun ty => ty + packetLen ty * 2 ^ 16
    let j : GfxJob := { uid := 1, gctx := 0, inst := 0, mask := 1, pc := 0x10_0000_0000, pid := 0, pass := none }
    let c := (gfxUp [] none).inRun (partyJob 1)
    packetReads [head 0] none = true ∧ packetReads [head 8, 8] none = true ∧ packetReads [head 3, 64] (some pass) = true ∧ packetReads [head 4, 64] (some pass) = true
    ∧ packetReads [head 6, 0x10_0000_0000, 0, 100000] none = true ∧ packetReads [head 7 + 2 ^ 43, 0x10_0000_0000, 5] none = true
    ∧ packetReads [head 1, 31 + 31 * 2 ^ 16 + 2 ^ 36, 0, 0, 0, 2] none = true ∧ packetReads [head 2] (some pass) = true ∧ packetReads [head 5, 0, 0, 0] (some pass) = true
    ∧ packetReads [0xFF] none = false ∧ packetReads [head 3, 64] none = false
    ∧ (let r := c.packetWords 0 0x10_0000_1000; r.1 ≠ .ok ∧ (r.2.2.gfxEnd 1 r.1).syncClusters.fab.stall = none)
    ∧ (∀ st ∈ [Status.ok, .denied, .timeout], (c.gfxEnd 1 st).syncClusters.fab.stall = none)
    ∧ (let t := packetRead [head 7 + 2 ^ 43, 0x10_0000_0000, 5] none
       let a := { gfxAccess 0 0 with firm := true }
       (t.afterWrites a (fun q =>
          let (st, r) := q.dmaWrite a 0x10_0000_0000 (leBytes 8 5)
          if st ≠ .ok then r.gfxEnd 1 st else (r.send 0 0).setGfxJob (j.past 7))).syncClusters.fab.stall = none)
    ∧ (let t := packetRead [head 6, 0x10_0000_0000, 0, 100000] none
       let r := t.dmaNum (gfxAccess 0 0) 0x10_0000_0000 8
       r.1 = .ok ∧ (r.2.2.setGfxJob { j with waits := true }).syncClusters.fab.stall = none)
    ∧ (let t := packetRead [head 1, 31 + 31 * 2 ^ 16 + 2 ^ 36, 0, 0, 0, 2] none
       (t.passBegin 1 j [31 + 31 * 2 ^ 16 + 2 ^ 36, 0, 0, 0, 2]).syncClusters.fab.stall = none)
    ∧ 8 < bitsOf (9 * 2 ^ 36) 36 4 ∧ bitsOf (8 * 2 ^ 36) 36 4 ≤ 8 ∧ pass.ok false 2 = true ∧ pass.ok false 1 = false := by decide +kernel

theorem witness_PassesAreBinnedAndStored :
    let h := 5 + packetLen 5 * 2 ^ 16
    let e := 2 + packetLen 2 * 2 ^ 16
    let t := packetRead [h, 2 ^ 32 + 3, 0, 0] (some pass)
    let u := packetRead [e] (some pass)
    let j : GfxJob := { uid := 1, gctx := 0, inst := 0, mask := 1, pc := 0x10_0000_0000, pid := 0, pass := some pass }
    let v := t.payJob 1 23 5
    let r := v.dmaNum (gfxAccess 0 0) 0 64
    let g : State := gfxUp [] (some pass) (up.wr Reg.GFX_GCTX_PEND [0] 1)
    packetReads [h, 2 ^ 32 + 3, 0, 0] (some pass) = true ∧ t.runsOn 1 0 0 = true ∧ u.runsOn 1 0 0 = true
    ∧ (∀ q ∈ pass.prims, ∀ b ∈ q.bins, b < pass.binCount) ∧ (r.2.2.gfxEnd 1 r.1).syncClusters.fab.stall = none
    ∧ (v.dmaNum (gfxAccess 0 0) 0x10_0000_0000 64).1 = .ok ∧ pass.flush = false
    ∧ (2 ^ 32 + 3) % 2 ^ 32 ≠ 0 ∧ bitsOf (2 ^ 32 + 3) 32 32 ≠ 0 ∧ ({ pass with flush := true } : Pass).flush = true
    ∧ (v.binAll j pass 0 []).syncClusters.fab.stall = none ∧ ((v.setGfxJob (j.past 5)).syncClusters.fab.stall = none)
    ∧ packetReads [e] (some pass) = true ∧ ((u.payJob 1 23 5).resolveBins j { pass with prims := [], atts := [] } false (List.range 1)).2.fab.stall = none
    ∧ pass.binOf 40 33 ∈ [pass.binOf 40 33] ∧ (40 : Nat) < 2 ^ 16 ∧ (33 : Nat) < 2 ^ 19 ∧ ({ pass with left := pass.prims } : Pass).left ≠ []
    ∧ (up.wr Reg.GFX_GCTX_MODE [31] 1).flag Reg.GFX_GCTX_MODE [31] = true ∧ (up.wr Reg.GFX_GCTX_BIN_VEC [31] 5).rd Reg.GFX_GCTX_BIN_VEC [31] ≠ 0
    ∧ g.flag Reg.GFX_GCTX_PEND [0] = true ∧ (g.gfx.jobs.find? (fun e => e.gctx = 0)).any (fun e => e.uid = 1) = true ∧ g.fresh (partyJob 1) = true
    ∧ (((g.inRun (partyJob 1)).gfxEnd 1 .timeout).syncClusters).fab.stall = none := by decide +kernel

theorem witness_ComputeJobsAndClusters :
    let P := partyJob 1
    let n := 1 * 2 ^ 128 + 1 * 2 ^ 144 + 1 * 2 ^ 160 + 1 * 2 ^ 176
    let w := n + 0x10_0000_0000 * 2 ^ 224
    let cj := fun (d : Nat) (b : Bool) => (⟨1, 0, 1, d, b, 0, 0⟩ : CompJob)
    let j := compUp n true 1
    let idle := ((compUp n true).wr Reg.GFX_CL_RES_VALID [0] 0)
    let other := ((compUp n true).wr Reg.GFX_CL_RES_G [0] 1)
    let C := partyCluster 0
    (∀ s ∈ [compUp n false, compUp w false 0 lineUp, compUp w false, j], s.fresh P = true ∧ s.boot.mainUp = true) ∧ (∀ s ∈ [idle, other, up], s.fresh C = true)
    ∧ ((compUp n false).compJob 1).any (fun j => !j.started) = true ∧ bitsOf n 224 48 = 0 ∧ bitsOf w 224 48 ≠ 0
    ∧ ((((compUp n false).inRun P).setCompJob (cj n true)).syncClusters.fab.stall = none)
    ∧ (let r := ((compUp w false 0 lineUp).inRun P).dmaNum (gfxAccess 0 0) 0x10_0000_0000 8; r.1 = .ok ∧ (r.2.2.setCompJob (cj w true)).syncClusters.fab.stall = none)
    ∧ (let r := ((compUp w false).inRun P).dmaNum (gfxAccess 0 0) 0x10_0000_0000 8; r.1 ≠ .ok ∧ (r.2.2.compEnd 1 r.1).syncClusters.fab.stall = none)
    ∧ (((compUp w false).inRun P).compEnd 1 .timeout).syncClusters.fab.stall = none
    ∧ (j.compJob 1).any (fun x => x.started && compGroups x.desc * compThreads x.desc ≤ x.ended) = true
    ∧ (((j.inRun P).payJob 1 23 5).afterWrites (gfxAccess 0 0) (fun t => (t.compEnd 1 .ok))).syncClusters.fab.stall = none
    ∧ ((j.compJob 1).map (fun x => (j.compSignal x).1)) = some .ok ∧ bitAt (2 ^ 432) 432 = true ∧ bitAt n 432 = false
    ∧ (idle.inRun C).clIncoming 0 = some 0 ∧ (idle.inRun C).clResident 0 = none ∧ ((idle.inRun C).restoreCluster 0 0).syncClusters.fab.stall = none
    ∧ (other.inRun C).clIncoming 0 = some 0 ∧ (other.inRun C).clResident 0 = some 1 ∧ (other.inRun C).clPreempted 0 0 1 = false
    ∧ (other.inRun C).clRunnable 0 1 = false ∧ 7 < 8 ∧ 3 < 4 ∧ (((compUp n true).inRun C).clResident 0 = some 0) ∧ ((compUp n true).inRun C).clIncoming 0 = none
    ∧ ((compUp n true).inRun C).clSpent 0 0 = false := by decide +kernel

/-- Pipe 3 enabled with a frame shown and another that follows. -/
def pipeUp (p : Pipe) : State := ((up.wr Reg.DSP_PIPE_ENABLE [3] 1).wr Reg.DSP_PIPE_VACT [3] 64).setPipe 3 p

/-- Two submissions to a pipe, and a period that shows the first. -/
def frameA : Frame := ⟨1, 10, 0x10_0000_0000, true⟩
def frameB : Frame := ⟨2, 11, 0x10_0000_0000, false⟩
def perA : Period := { cur := some 1, rgn := some 5, rgnPix := [7], rgnSize := 1 }

def perW : Period := { perA with band := 1, kind := 0 }
def perE : Period := { perA with cur := none, band := 2 }
def pipeW : State := pipeUp { queue := [frameA, frameB], shown := some 1, period := some perW }
def pipeE : State := pipeUp { old := [frameA], period := some perE }

def frameR : Frame := ⟨2, 11, 0x10_0000_0000, true⟩
def pipeS : State := pipeUp { queue := [frameA, frameR], shown := some 1 }
def pipeX : State := withJob { job 0 4 9 with uid := 1, abort := true } (pipeUp { queue := [frameA], shown := some 1 })
def pipeN : State := pipeUp {}

theorem witness_DisplayPipesShowFrames :
    3 < 4 ∧ (∀ s ∈ [pipeS, pipeW, pipeE, pipeX, pipeN], s.pipeOn 3 = true ∧ s.fresh (partyPipe 3) = true)
    ∧ (pipeS.pipe 3).successor (pipeS.pipe 3).shown = some frameR
    ∧ (pipeW.pipe 3).successor (pipeW.pipe 3).shown = some frameB ∧ pipeS.jobOf 1 = none
    ∧ (pipeX.pipe 3).successor (pipeX.pipe 3).shown = none ∧ (pipeX.jobOf 1).any (fun j => j.abort) = true
    ∧ (pipeN.pipe 3).successor (pipeN.pipe 3).shown = none := by decide +kernel

theorem witness_DisplayPipesProduceBands :
    let n := ((pipeUp {}).inRun (partyPipe 3)).pollReady 3
    let w := (pipeW.inRun (partyPipe 3)).pollReady 3
    let e := (pipeE.inRun (partyPipe 3)).pollReady 3
    (n.pipe 3).period = none ∧ ((((n.newPeriod 3).lateSwitch 3 0).dropForce 3 0).produceBand 3 0 []).schedule.fab.stall = none
    ∧ (w.pipe 3).period = some perW ∧ 1 < w.bandCount 3 ∧ (((w.lateSwitch 3 1).dropForce 3 1).produceBand 3 0 []).schedule.fab.stall = none
    ∧ (e.pipe 3).period = some perE ∧ e.bandCount 3 ≤ 2 ∧ ((((e.newPeriod 3).lateSwitch 3 0).dropForce 3 0).produceBand 3 0 []).schedule.fab.stall = none
    ∧ (pipeW.pipe 3).period = some perW ∧ (pipeE.pipe 3).frame none = none := by decide +kernel

theorem witness_DisplayPipesEndFrames :
    let P := partyPipe 3
    let s := pipeUp { queue := [frameA], shown := some 1 }
    let w := pipeW
    let e := pipeE
    let d := pipeUp { done := some perA, set := { crc := true } }
    (∀ s ∈ [w, e, d], s.pipeOn 3 = true ∧ s.fresh P = true) ∧ ((w.inRun P).pollReady 3).fab.stall = none ∧ ((w.inRun P).frameEnd 3 2 .timeout).fab.stall = none
    ∧ ((e.inRun P).frameEnd 3 1 .ok).fab.stall = none ∧ (((d.inRun P).setPipe 3 {}).endPeriod 3 perA).fab.stall = none
    ∧ (s.pipe 3).queue.all (fun f => f.ready) = true ∧ (w.pipe 3).queue.any (fun f => f.uid = 2 && !f.ready) = true
    ∧ (e.pipe 3).old.any (fun f => f.uid = 1) = true ∧ (d.pipe 3).set.crc = true ∧ (d.pipe 3).done = some perA ∧ perA.crcChecked = false ∧ perA.rgn.isSome = true
    ∧ perA.rgnSize ≤ perA.rgnPix.length ∧ crc32 (perA.rgnPix.flatMap (leBytes 4)) ≠ perA.rgnCrc ∧ (e.pipe 3).done = none ∧ e.bandCount 3 ≤ 2 ∧ perA.told = false
    ∧ ((pipeUp {}).wr Reg.DSP_PIPE_STATE [3] 2).rd Reg.DSP_PIPE_STATE [3] = 2 := by decide +kernel

theorem witness_SensorsAndSextant :
    let P := partySextant
    let on := ((up.wr Reg.PWR_PD_STATE [8] 2).wr Reg.SNS_STREAM_ENABLE [127] 1).wr Reg.SNS_STREAM_KIND [127] 1
    let m := on.wr Reg.SNS_STREAM_STATE [127] 3
    let k : Kept := { time := 5, q := 3 }
    let e : OpenEpoch := ⟨1, 0, 0, false, false, false⟩
    let j : FusJob := ⟨1, 0, 0x10_0000_0000⟩
    let f := withJob (job 0 5 9) ((lineUp on).setSxt { on.sxt with jobs := [j], opened := [e] })
    let g := withJob (job 0 5 9) (on.setSxt { on.sxt with jobs := [j] })
    on.takes 127 = true ∧ on.portMoves 127 = false ∧ on.fresh (partyStream 127) = true ∧ ((on.inRun (partyStream 127)).arrive 127 { stamp := 1, q := 0 }).fab.stall = none
    ∧ on.isCamera 127 = true ∧ (∀ q ∈ ([⟨3, 5, [], false⟩] : List CsiPacket), q.vc ≠ on.rd Reg.SNS_STREAM_VC [127] ∨ q.dt ≠ bitsOf (on.rd Reg.SNS_STREAM_PARSE0 [127]) 0 6)
    ∧ (on.health 127 ≠ 3) ∧ (on.wr Reg.SNS_STREAM_ERR_N [127] 1).rd Reg.SNS_STREAM_ERR_N [127] ≠ 0
    ∧ (on.wr Reg.SNS_STREAM_ERR_N [127] 1).rd Reg.SNS_STREAM_ERR_N [127] ≤ (on.stream 127).bad + 1 ∧ m.health 127 = 3 ∧ m.rd Reg.SNS_STREAM_WHY [127] ≠ 3
    ∧ max 1 (m.rd Reg.SNS_STREAM_UNMASK_N [127]) ≤ (m.stream 127).good + 1 ∧ on.flag Reg.SNS_STREAM_ENABLE [127] = true
    ∧ (m.wr Reg.SNS_STREAM_WHY [127] 3).rd Reg.SNS_STREAM_WHY [127] = 3 ∧ on.snsUp = true ∧ f.snsUp = true ∧ k.q ≠ 0 ∧ on.sxt.ego.still = true
    ∧ ({ on.sxt.ego with gz := [7] } : Ego).gz ≠ [] ∧ f.sxt.opened = [e] ∧ f.epochReady e = true ∧ f.sxt.jobs = [j] ∧ f.fresh P = true ∧ g.fresh P = true ∧ on.fresh P = true
    ∧ ((f.inRun P).release e).fab.stall = none ∧ ((f.inRun P).dmaNum (fusAccess 0) j.desc 64).1 = .ok ∧ ((f.inRun P).fusEnd 1 .denied).fab.stall = none
    ∧ (let r := (g.inRun P).dmaNum (fusAccess 0) j.desc 64; r.1 ≠ .ok ∧ (r.2.2.fusEnd 1 r.1).fab.stall = none) ∧ fusOk (2 ^ 320 + 2 ^ 328 + 2 ^ 336) = true ∧ fusOk 0 = false
    ∧ ((g.inRun P).fusEnd 1 .timeout).fab.stall = none ∧ f.sxt.jobs.any (fun x => x.uid = 1) = true := by decide +kernel
/-- A transmit job of instance 0 on XD0 with one entry at the first line of HBM, its payload in the second. -/
def txUp (e : Nat) (s : State := up) : State :=
  withJob (job 0 7 9) ((stored (stored s 0x10_0000_0040 []) 0x10_0000_0000 (leBytes 32 e)).setNet { s.net with jobs := [⟨1, 0, 1, 0, [], []⟩] })

/-- An entry of a KIND for a port or controller, with its payload at the second line of HBM. -/
def entryWord (kind port len : Nat) : Nat := kind + port * 2 ^ 8 + len * 2 ^ 32 + 0x10_0000_0040 * 2 ^ 64

/-- The run of the Gateway Engine of XD0 that takes the next entry of job 1 by `f` ends without a stop, and the entry's check answers `ok`. -/
def takesEntry (s : State) (kind : Nat) (ok : Bool) (f : State → NetJob → Job → TxEntry → State) : Bool :=
  match (s.inRun (partyNet 0)).nextEntry 1 with
  | (.entry j g x, t) => x.kind = kind && x.ok == ok && (f t j g x).fab.stall.isNone
  | _ => false

/-- The next entry of job 1 cannot be read, and its end makes no stop. -/
def entryFails (s : State) : Bool :=
  match (s.inRun (partyNet 0)).nextEntry 1 with
  | (.failed j st, t) => st ≠ .ok && (t.endEntry j ⟨j.next, 0⟩ st 0).fab.stall.isNone
  | _ => false

/-- XD0's port 21 enabled, in a state of its link. -/
def portUp (st : Nat) (s : State := up) : State := (s.wr Reg.NET_PORT_EN [0, 21] 1).wr Reg.NET_PORT_STATE [0, 21] st

theorem witness_TransmitJobsSendTheirEntries_entries :
    let P := partyNet 0
    let v : State := up.setNet { up.net with jobs := [⟨1, 0, 1, 0, [], []⟩] }
    let n := withJob (job 0 7 9) v
    let l := ((txUp (entryWord 3 7 9)).wr Reg.CAN_LIN_EN [0, 7] 1).wr Reg.CAN_LIN_MODE [0, 7] 1
    let g : Job := job 0 7 9 1
    let j : NetJob := ⟨1, 0, 1, 0, [], []⟩
    let x : TxEntry := ⟨0, entryWord 1 21 14⟩
    let y : TxEntry := ⟨0, entryWord 3 7 9⟩
    let held := up.wr Reg.ENC_OWN_STEP [ownIndex 1 0 15] 1
    let r := (lineUp up).dmaRead (netAccess 0 0) 0x10_0000_0000 14
    let q := l.dmaRead (netAccess 0 0) 0x10_0000_0040 9
    n.fresh P = true ∧ l.fresh P = true ∧ entryFails n = true
    ∧ takesEntry (portUp 2 (txUp (entryWord 1 21 14))) 1 true State.txEther = true ∧ takesEntry (txUp (entryWord 2 15 8)) 2 true State.txCan = true
    ∧ takesEntry l 3 true State.txLin = true ∧ takesEntry (txUp (entryWord 4 0 4096)) 4 true State.txDiag = true ∧ takesEntry l 3 true (fun t _ _ _ => t) = true
    ∧ takesEntry (txUp (entryWord 2 15 8)) 2 true (fun t _ _ _ => t) = true ∧ takesEntry (txUp (entryWord 1 22 14)) 1 false State.txEther = true
    ∧ x.ok = true ∧ up.rd Reg.ENC_OWN_STEP [ownIndex 0 j.xd x.port] = 0 ∧ up.rd Reg.ENC_OWN_OWNER [ownIndex 0 j.xd x.port] ≠ g.inst
    ∧ (⟨0, entryWord 2 15 8⟩ : TxEntry).ok = true ∧ held.rd Reg.ENC_OWN_STEP [ownIndex 1 0 15] ≠ 0
    ∧ r.1 = .ok ∧ up.entryOwner 0 j (job 0 7 9) x = .ok ∧ q.1 = .ok ∧ y.ok = true ∧ l.entryOwner 2 j (job 0 7 9) y = .ok ∧ q.2.2.flag Reg.CAN_LIN_EN [0, 7] = true
    ∧ q.2.2.rd Reg.CAN_LIN_MODE [0, 7] ≠ 0 := by decide +kernel

theorem witness_TransmitJobsSendTheirEntries_ports :
    let P := partyNet 0
    let c := (up.wr Reg.CAN_CTL_EN [0, 3] 1).wr Reg.CAN_CTL_MODE [0, 3] 2
    let a := (((c.wr Reg.NET_AAS_ACT_EN [] 8).wr Reg.NET_ACTID_VALID [63] 1).wr Reg.NET_ACTID_ID [63] 5)
    let j : NetJob := ⟨1, 0, 2, 2, [], [(0, .ok), (1, .timeout)]⟩
    let d := withJob (job 0 7 9) (up.setNet { up.net with jobs := [j] })
    let e : EthPend := ⟨21, 7, .entry 1 0, [1]⟩
    let m : EthPend := ⟨21, 7, .main, [1]⟩
    let q := fun (e : EthPend) (st : Nat) => (portUp st d).setNet { (portUp st d).net with queue := [e] }
    let sh : State := (q m 2).setEthPort 21 { shapers := [(7, { slope := 1, at_ := 0 })] }
    3 < 4 ∧ up.saf.islandRun = true ∧ c.canFits 0 3 { id := 5 } = true ∧ a.canFits 0 3 { id := 5 } = true ∧ a.aasBlocks 0 3 .island { id := 5 } = true
    ∧ d.netJob 1 = some j ∧ j.count ≤ j.done.length ∧ d.fresh (partyJob 1) = true
    ∧ (((d.inRun (partyJob 1)).setNet { d.net with jobs := [] }).endJob 1 j.status).fab.stall = none
    ∧ (∀ e ∈ [((0 : Nat), Status.ok)], e.2 = .ok) ∧ 1 < j.count ∧ (1, Status.timeout) ∈ j.done ∧ (∀ e ∈ j.done, e.1 = 1 → e.2 = .timeout) ∧ (∀ e ∈ j.done, e.1 < 1 → e.2 = .ok)
    ∧ (portUp 1).portOn 0 21 = true ∧ (portUp 1).fresh P = true ∧ (portUp 1).rd Reg.NET_PORT_STATE [0, 21] = 1 ∧ (portUp 2).rd Reg.NET_PORT_STATE [0, 21] = 2 ∧ (portUp 2).portOn 0 21 = true
    ∧ ((((q e 1).inRun P).wr Reg.NET_PORT_STATE [0, 21] 2).portRun 0 21).fab.stall = none ∧ (q e 1).portOn 0 21 = true ∧ (q e 1).fresh P = true
    ∧ (let c := (portUp 2).inRun P; (((c.setEthPort 21 { c.ethPort 21 with gates := 255 }).setSlopes 0 21 [(7, 1)]).portRun 0 21).fab.stall = none)
    ∧ (q e 1).net.queue.find? (fun x => x.port = 32 * 0 + 21 && x.tc = 7) = some e ∧ (q m 1).net.queue.find? (fun x => x.port = 32 * 0 + 21 && x.tc = 7) = some m
    ∧ ((((q e 1).inRun P).unqueue e).sentBy e.src .timeout 0).fab.stall = none ∧ (q e 1).rd Reg.NET_PORT_STATE [0, 21] = 1 ∧ (q m 1).rd Reg.NET_PORT_STATE [0, 21] = 1
    ∧ ((((q e 1).inRun P).unqueue e).entryDone 1 0 .notReady 0).fab.stall = none ∧ (((q m 1).inRun P).unqueue m).fab.stall = none ∧ (q m 1).fresh P = true
    ∧ sh.mayLeave m = true := by decide +kernel

/-- CAN controller 15 of XD1, with a frame on its wire. -/
def canUp : State := (up.wr Reg.CAN_CTL_EN [1, 15] 1).setCan 31 { sending := some ⟨.main, { id := 0 }⟩ }

theorem witness_NetworksReceiveAndRecover_frames :
    let P := partyNet 1
    let p := (up.wr Reg.NET_PORT_EN [1, 21] 1).wr Reg.NET_PORT_STATE [1, 21] 2
    let b := List.replicate 14 (0 : Byte)
    let c := (p.inRun P).learn 1 21 b
    let k := canUp.wr Reg.CAN_CTL_STRICT [1, 15] 1
    let r := ((up.wr Reg.NET_ROUTE_VALID [1, 0] 1).wr Reg.NET_ROUTE_SRC [1, 0] 15).wr Reg.NET_ROUTE_POL_EN [1, 0] 1
    let t := ((canUp.inRun P).recvCount 1 15).loneEnd 1 15
    let x : CanPend := ⟨.main, { id := 0 }⟩
    1 < 4 ∧ 21 < 22 ∧ p.portOn 1 21 = true ∧ p.rd Reg.NET_PORT_STATE [1, 21] ≠ 0 ∧ 1522 < (List.replicate 1523 (0 : Byte)).length ∧ (List.replicate 13 (0 : Byte)).length < 14
    ∧ b.length = 14 ∧ p.fresh P = true ∧ (∀ e ∈ ([(21, 0), (23, 0)] : List (Nat × Nat)), e.1 = 21 ∨ 22 < e.1)
    ∧ ((c.egressOf 1 21 b [(22, 0), (20, 7)]).foldl (fun t e =>
        if e.1 = 22 then t.classify 1 21 (wrapTo 64 ((p.epoch : Int) - p.rd Reg.NET_LAT_RX_LAT [1, 21])) false b else t.ethOffer 1 e.1 e.2 .main b) c).fab.stall = none
    ∧ canUp.canPowered 1 15 = true ∧ canUp.flag Reg.CAN_CTL_EN [1, 15] = true ∧ canUp.rd Reg.CAN_CTL_STATE [1, 15] ≠ 2 ∧ canUp.fresh P = true ∧ canUp.boot.mainUp = true
    ∧ (t.routeFrame 1 15 0 { id := 0 }).fab.stall = none ∧ t.fab.stall = none ∧ canUp.rd Reg.CAN_CTL_REC [1, 15] ≤ 127 ∧ k.routeFor 1 15 0 = none
    ∧ r.routeFor 1 15 0 = some 0 ∧ r.flag Reg.NET_ROUTE_POL_EN [1, 0] = true ∧ (r.police 1 0).1 = false ∧ (canUp.can (16 * 1 + 15)).sending = some x
    ∧ ((canUp.inRun P).acked 1 15 x).fab.stall = none ∧ ((canUp.inRun P).ackError 1 15).fab.stall = none
    ∧ (let c := canUp.inRun P; (((c.setCan 31 { c.can 31 with ackRun := 0 }).txError 1 15).canRetry 1 15).fab.stall = none) := by decide +kernel

theorem witness_NetworksReceiveAndRecover_recovery :
    let d := ((up.wr Reg.NET_PDU_PERIOD_MS [1, 127] 5).wr Reg.NET_DIAG_ACTIVE [1, 31] 1)
    let l := (up.wr Reg.CAN_LIN_EN [1, 7] 1).wr Reg.CAN_LIN_MODE [1, 7] 1
    let m : State := { up with net := { up.net with moves := [(true, 0x40)] } }
    up.rd Reg.CAN_CTL_TEC [1, 15] + 8 ≤ 127 ∧ 127 < (up.wr Reg.CAN_CTL_TEC [1, 15] 120).rd Reg.CAN_CTL_TEC [1, 15] + 8
    ∧ (up.wr Reg.CAN_CTL_TEC [1, 15] 120).rd Reg.CAN_CTL_TEC [1, 15] + 8 ≤ 255 ∧ 255 < (canUp.wr Reg.CAN_CTL_TEC [1, 15] 248).rd Reg.CAN_CTL_TEC [1, 15] + 8
    ∧ (∀ p ∈ (canUp.can 31).sending.toList ++ (canUp.can 31).bufs, p.src = .main)
    ∧ ((up.wr Reg.CAN_CTL_STATE [1, 15] 2).wr Reg.CAN_CTL_AUTO_BOR [1, 15] 1).rd Reg.CAN_CTL_STATE [1, 15] = 2
    ∧ ((up.wr Reg.CAN_CTL_STATE [1, 15] 2).wr Reg.CAN_CTL_AUTO_BOR [1, 15] 1).flag Reg.CAN_CTL_AUTO_BOR [1, 15] = true
    ∧ 1 < up.fuses.variant.xds ∧ d.boot.mainUp = true ∧ d.rd Reg.NET_PDU_PERIOD_MS [1, 127] ≠ 0 ∧ d.flag Reg.NET_DIAG_ACTIVE [1, 31] = true
    ∧ tget 0 d.net.passed (32 * 1 + 31) + d.rd Reg.NET_DIAG_IDLE_S [1, 31] * 1000000000 ≤ d.now
    ∧ (let w := d.wr Reg.NET_DIAG_IDLE_S [1, 31] 1; w.now < tget 0 w.net.passed (32 * 1 + 31) + w.rd Reg.NET_DIAG_IDLE_S [1, 31] * 1000000000)
    ∧ l.flag Reg.CAN_LIN_EN [1, 7] = true ∧ l.rd Reg.CAN_LIN_MODE [1, 7] = 1 ∧ m.net.moves = [(true, 0x40)] ∧ up.dusk = false := by decide +kernel

theorem witness_ReferenceAndEpochTime :
    let s := (up.wr Reg.NET_GPTP_ROLE [] 2).wr Reg.CLK_EPOCH_STEP_NS [] 1000
    let p := ((s.wr Reg.NET_PORT_EN [1, 17] 1).wr Reg.NET_PORT_STATE [1, 17] 2).wr Reg.NET_PORT_GPTP [1, 17] 1
    let c : State := { up with clk := { up.clk with fresh := true, synced := true } }
    let g : State := { up with clk := { up.clk with apcGoal := some 2000, gfxGoal := some 900 } }
    s.rd Reg.NET_GPTP_ROLE [] = 2 ∧ s.boot.mainUp = true ∧ (-1000 : Int).natAbs ≤ s.rd Reg.CLK_EPOCH_STEP_NS [] ∧ s.rd Reg.CLK_EPOCH_STEP_NS [] < (1001 : Int).natAbs
    ∧ p.gptpPort 1 17 [1] = true ∧ p.gptpPort 1 17 [1, 2] = true ∧ (-10000 : Int).natAbs ≤ 10000 ∧ up.onB = false ∧ up.refOk (!false) = true ∧ up.safeUp = true ∧ c.clk.fresh = true
    ∧ ({ c with clk := { c.clk with fresh := false } } : State).clk.synced = true ∧ g.clk.apcGoal = some 2000 ∧ g.clk.gfxGoal = some 900
    ∧ up.rd Reg.CLK_REF_SEL [] = up.rd Reg.CLK_REF_ACTIVE [] := by decide +kernel

theorem witness_SafetyEventsAndAuthority_island :
    let h : State := { up with saf := { up.saf with hbAny := false, hbTime := 5 } }
    let n : State := { up with saf := { up.saf with islandRun := false } }
    let k : State := { up with saf := { up.saf with kicked := true } }
    (∃ e ∈ List.range 28, e ∈ outerEvents ∧ e ∉ up.saf.lines ∧ e ∉ up.saf.underInjection ∧ up.latched e = false) ∧ 27 ∉ outerEvents ∧ 27 ∉ up.saf.lines ∧ n.saf.islandRun = false
    ∧ k.saf.kicked = true ∧ up.saf.kicked = false ∧ 1 ≤ 1 % 256 ∧ 100 % 256 ≤ 100 ∧ bitAt 1 0 = true ∧ bitAt 2 0 = false ∧ 5 ∈ [5] ∧ h.now < (h.wr Reg.SAF_HB_CFG_MIN_MS [] 1).saf.hbTime + (h.wr Reg.SAF_HB_CFG_MIN_MS [] 1).rd Reg.SAF_HB_CFG_MIN_MS [] * 1000000 := by decide +kernel

theorem witness_SafetyEventsAndAuthority :
    let l : State := { up with saf := { up.saf with lines := [27], underInjection := [6] } }
    let h : State := { up with saf := { up.saf with hbAny := false, hbTime := 5 } }
    let b : State := { h.wr Reg.SAF_HB_CFG_EN [] 1 with now := 10 ^ 12 }
    let r : State := { (((up.wr Reg.NET_AAS_AUTH [] 1).wr Reg.NET_AAS_REQ_MAIN [] 1).wr Reg.SAF_STAT_CONSENT [] 1).wr Reg.SAF_HB_CFG_EN [] 0 with
                       saf := { up.saf with mainInjected := true }, now := 10 ^ 12 }
    let i : State := { up with saf := { up.saf with lines := [6], underInjection := [6] } }
    up.safeUp = true ∧ 27 < 28 ∧ 27 ∈ l.saf.lines ∧ 27 ∉ l.saf.underInjection ∧ (up.wr Reg.SAF_EVT_LATCH [27] 1).latched 27 = true ∧ up.latched 27 = false
    ∧ (∃ e ∈ List.range 28, 2 ≤ up.react e) ∧ (∃ e ∈ List.range 28, up.react e = 4) ∧ 27 ∉ [5, 12, 13, 16, 17, 20, 22, 24, 26]
    ∧ up.saf.islandRun = true ∧ 1 % 2 ^ 16 = (up.saf.lastKick + 1) % 2 ^ 16 ∧ 2 % 2 ^ 16 ≠ (up.saf.lastKick + 1) % 2 ^ 16
    ∧ b.flag Reg.SAF_HB_CFG_EN [] = true ∧ b.saf.hbAny = false ∧ b.saf.hbTime + b.rd Reg.SAF_HB_CFG_MIN_MS [] * 1000000 ≤ b.now ∧ (0 : Nat) = (0xFFFF + 1) % 2 ^ 16
    ∧ b.boot.mainUp = true ∧ b.flag Reg.SAF_RST_PARKED [] = false ∧ r.mayReturn = true ∧ up.mayReturn = false
    ∧ 6 ∈ l.saf.underInjection ∧ 6 ∉ l.saf.lines ∧ 6 ∈ i.saf.lines ∧ 6 ∈ i.saf.underInjection ∧ i.latched 6 = false ∧ 63 < 64 ∧ up.saf.faultN = true ∧ 3 ∉ up.saf.lines
    ∧ 21 ∈ outerEvents ∧ 21 ∉ up.saf.lines ∧ up.latched 21 = false ∧ up.boot.mainUp = true ∧ ({ up with boot := { up.boot with mainUp := false } } : State).safeUp = true := by decide +kernel

theorem witness_AlmanacRingAndWreckBuffers :
    let r : AlmRec := ⟨0, 0x10, 0, 0, false, false, false, [], 0⟩
    let s : State := { up with alm := { up.alm with intake := [r], triggers := [(2, 7), (1, 7)] } }
    let o : State := { up.wr Reg.ALM_BK_EN [] 0x7F with pwr := { up.pwr with pwrGood := false, vbat := 0 } }
    let d : State := { up with alm := { up.alm with dump := some (0, 0x10_0000_0000) } }
    s.alm.intake = [r] ∧ 6 < 7 ∧ o.pwr.pwrGood = false ∧ o.pwr.vbat = 0 ∧ bitAt (o.rd Reg.ALM_BK_EN []) 6 = true ∧ (∀ x ∈ o.alm.bkLast, x.1 = 6 → x.2 + 1000000000 ≤ o.now)
    ∧ bitAt ((o.wr Reg.ALM_BK_EN [] 0).rd Reg.ALM_BK_EN []) 6 = false ∧ nextTrigger s.alm.triggers = some (1, 7)
    ∧ (∀ d ∈ dies s.fuses, s.rd Reg.ALM_WRECK_STATE [d] = 0) ∧ (∃ d ∈ dies s.fuses, (s.wr Reg.ALM_WRECK_STATE [2] 2).rd Reg.ALM_WRECK_STATE [d] ≠ 0)
    ∧ 2 ∈ dies up.fuses ∧ (up.wr Reg.ALM_WRECK_STATE [2] 1).rd Reg.ALM_WRECK_STATE [2] = 1 ∧ (up.wreck 2).left = 0 ∧ d.alm.dump = some (0, 0x10_0000_0000) := by decide +kernel

/-- A dump to an address that the Almanac's access does not reach: the main domain is in reset. -/
def dumpHalt : State := { up with alm := { up.alm with dump := some (0, 0x10_0000_0000) }, boot := { up.boot with mainUp := false } }

theorem leBytes_length (n v : Nat) : (leBytes n v).length = n := by
  induction n generalizing v with
  | zero => rfl
  | succ n ih => simp [leBytes, ih]

/-- A write whose first transaction fails ends there. -/
theorem dmaWrite_ends (s : State) (a : Access) (addr : Nat) (b : List Byte) (p : Nat × Nat) (ps : List (Nat × Nat))
    (hp : linePieces (b.length / 64 + 2) addr b.length = p :: ps)
    (h : (s.engineBus { a with kind := .write } p.1 p.2 ((b.drop (p.1 - addr)).take p.2) .ask).1 ≠ .ok) :
    (s.dmaWrite a addr b).2 = (s.engineBus { a with kind := .write } p.1 p.2 ((b.drop (p.1 - addr)).take p.2) .ask).2.2 := by
  have stuck : ∀ (l : List (Nat × Nat)) (f : Status × State → Nat × Nat → Status × State) (x : Status × State),
      (∀ y q, y.1 ≠ .ok → f y q = y) → x.1 ≠ .ok → l.foldl f x = x := by
    intro l f x hf hx
    induction l with
    | nil => rfl
    | cons q l ih => rw [List.foldl_cons, hf x q hx, ih]
  unfold State.dmaWrite
  rw [hp, List.foldl_cons, stuck]
  · simp
  · intro y q hy; simp [hy]
  · simpa using h

theorem witness_AlmanacRingAndWreckBuffers_dump :
    let s := dumpHalt.inRun partyAlmanac
    dumpHalt.alm.dump = some (0, 0x10_0000_0000) ∧ dumpHalt.fresh partyAlmanac = true
    ∧ ((s.dumpBytes 0).2.dmaWrite { tag := 34, pid := 0, src := .xd 0, kind := .write, firm := true } 0x10_0000_0000 (s.dumpBytes 0).1).2.fab.stall = none := by
  refine ⟨by decide +kernel, by decide +kernel, ?_⟩
  have hb : (dumpHalt.inRun partyAlmanac).dumpBytes 0 = (leBytes 65536 (dumpHalt.inRun partyAlmanac).freeVal, (dumpHalt.inRun partyAlmanac).drawn) := by rfl
  rw [hb, dmaWrite_ends (p := (0x10_0000_0000, 64)) (ps := linePieces 1025 0x10_0000_0040 65472)]
  · decide +kernel
  · rw [leBytes_length]; rfl
  · decide +kernel

theorem witness_ResetsBootAndPowerSupply :
    let w : State := { up with boot := { up.boot with mainUp := false, warm := true } }
    let r : State := { up with saf := { up.saf with restart := some 17 } }
    up.hbm.cache = [] ∧ State.reset.pwr.porstN = false ∧ State.reset.pwr.pwrGood = true ∧ (up.wr Reg.BOOT_STAT_PHASE [] 4).rd Reg.BOOT_STAT_PHASE [] = 4 ∧ up.boot.mainUp = true
    ∧ r.saf.restart = some 17 ∧ r.recentRestarts.length + 1 ≤ r.rd Reg.SAF_RST_MAX [] ∧ (r.wr Reg.SAF_RST_MAX [] 0).rd Reg.SAF_RST_MAX [] < 1
    ∧ w.boot.warm = true ∧ w.boot.mainUp = false ∧ w.boot.failed = false ∧ w.pwr.tripHold = false ∧ w.pwr.warmRstN = true ∧ w.safeUp = true ∧ up.pwr.porstN = true
    ∧ ({ up with pwr := { up.pwr with pwrGood := false } } : State).pwr.pwrGood = false ∧ 31 < 32 ∧ (up.wr Reg.BOOT_IRST_BUSY [31] 1).flag Reg.BOOT_IRST_BUSY [31] = true
    ∧ 4 < 5 ∧ 63 < 64 ∧ bitAt ((up.wr Reg.BOOT_CTRL_HART_GO [] (2 ^ 14)).rd Reg.BOOT_CTRL_HART_GO []) 14 = true ∧ 15 ∉ up.boot.released := by decide +kernel

theorem witness_WearPowerAndPins :
    let off : State := { up with pwr := { up.pwr with pwrGood := false } }
    let t : State := { up with pwr := { up.pwr with tripHold := true } }
    let g : State := { up with pwr := { up.pwr with avsGoal := [(1, 700)], avsTries := [(1, 0), (1, 0)] } }
    up.pwr.pwrGood = true ∧ up.svc.activeSec + 1 < 3600 ∧ (∀ d, d < 5 → up.rd Reg.SVC_EM [d] < 758000000) ∧ (∀ m, m < 16 → satTo 8 (([] : List Nat).getD m (up.rd Reg.SVC_AGE [m])) < 50)
    ∧ up.svc.fails = 0 ∧ up.replaceActive = false ∧ off.pwr.pwrGood = false ∧ off.rd Reg.SVC_HOURS_STANDBY [] + 1 < 110000 ∧ 11 < 12
    ∧ (up.wr Reg.PWR_PD_STATE [11] 0).rd Reg.PWR_PD_STATE [11] = 0 ∧ (up.wr Reg.PWR_PD_STATE [11] 2).rd Reg.PWR_PD_STATE [11] = 2 ∧ (∀ e ∈ up.pwr.nextReq, e.1 ≠ 8)
    ∧ (up.wr Reg.PWR_PD_STATE [8] 1).rd Reg.PWR_PD_STATE [8] = 1 ∧ (up.wr Reg.PWR_PD_STATE [8] 3).rd Reg.PWR_PD_STATE [8] = 3 ∧ up.safeUp = true ∧ up.domainOn 11 = true
    ∧ up.flag Reg.PWR_AVS_FAIL [] = false ∧ g.pwr.avsGoal.find? (fun e => e.1 = 1) = some (1, 700)
    ∧ 2 ≤ ((g.pwr.avsTries.filter (fun e => g.now < e.2 + 1000000)).filter (fun e => e.1 = 1)).length ∧ State.reset.safeUp = false
    ∧ (960 : Int) ≤ ([] : List Int).foldl max 960 ∧ ([] : List Int).foldl max 959 < (960 : Int) ∧ 3 < 4 ∧ 3 ≠ up.rd Reg.PWR_THERM_LEVEL [] ∧ up.pwr.tripHold = false
    ∧ coolEnough logicThresholds (up.rd Reg.PWR_THERM_OFFSET []) ((up.wr Reg.PWR_THERM_LEVEL [] 3).rd Reg.PWR_THERM_LEVEL []) (up.wr Reg.PWR_THERM_LEVEL [] 3).hottest = true
    ∧ t.pwr.tripHold = true ∧ t.hottest ≤ 800 ∧ (∀ k, k < t.fuses.variant.hbmStacks → signedOf 12 (t.rd Reg.PWR_HBMT_T [k]) ≤ 760)
    ∧ State.reset.pwr.porstN = false ∧ State.reset.pwr.pwrGood = true ∧ up.pwr.porstN = true := by decide +kernel

theorem witness_ResetState : 0x15 < 0x16 ∧ Reg.CMD_SEM_HELD ∈ Reg.rowsOf Reg.CMD_SEM_HELD.space ∧ Reg.CMD_SEM_HELD.reset = .const 0 := by decide +kernel

theorem witness_CommandsLeaveTheQueue : gives (exec .take { up with pending := [.remap] }) (fun t => t.pending = [.remap]) = true := by decide +kernel

end Sys2Proof.Tests
end

section
/-! O59: the state after reset. A field reads its own reset value as soon as it lies in its word and shares no bit with
another field of that word; the field table (22, Table index.1) meets this at the first and the last element of every row. -/

namespace Sys2Proof.Machine

/-- The bits of two fields do not meet. -/
abbrev Row.BitsApart (q r : Row) : Prop := r.lo + r.width ≤ q.lo ∨ q.lo + q.width ≤ r.lo

/-- At the indices `ix` the field lies within its word, its reset value fits it, decoding of the word's index finds it
there, and no other field of the word meets its bits. -/
def Row.wellPlaced (fz : Fuses) (r : Row) (ix : List Nat) : Bool :=
  let fields := fieldsAt (r.key ix / 2 ^ 17) (r.key ix % 2 ^ 17)
  decide (r.lo + r.width ≤ 32 ∧ resetValue fz r ix < 2 ^ r.width
    ∧ (r, ix) ∈ fields ∧ ∀ e ∈ fields, e.1.BitsApart r ∨ e = (r, ix))

/-- The indices of a row's first element. -/
abbrev Row.firstElement (r : Row) : List Nat := r.dims.map (fun _ => 0)

/-- The indices of a row's last element. -/
abbrev Row.lastElement (r : Row) : List Nat := r.dims.map (fun d => d.2 - 1)

/-- Setting fields one after another leaves alone a field whose bits none of them meets. -/
theorem getBits_foldl_setBits_apart (f : Row × List Nat → Nat) {r : Row} {l : List (Row × List Nat)}
    (hapart : ∀ d ∈ l, d.1.BitsApart r) (w : Word) :
    getBits (l.foldl (fun acc d => setBits acc d.1.lo d.1.width (f d)) w) r.lo r.width = getBits w r.lo r.width := by
  induction l generalizing w with
  | nil => rfl
  | cons d l ih =>
    obtain ⟨hd, hl⟩ := List.forall_mem_cons.1 hapart
    rw [List.foldl_cons, ih hl, getBits_setBits_disjoint _ _ _ _ _ _ hd]

/-- Setting fields one after another leaves in a field the value set for it, where no other of them meets its bits: the
last setting of the field counts, and those after it leave the field alone. -/
theorem getBits_foldl_setBits (f : Row × List Nat → Nat) {e : Row × List Nat} {l : List (Row × List Nat)}
    (hmem : e ∈ l) (hword : e.1.lo + e.1.width ≤ 32) (hapart : ∀ d ∈ l, d.1.BitsApart e.1 ∨ d = e) (w : Word) :
    getBits (l.foldl (fun acc d => setBits acc d.1.lo d.1.width (f d)) w) e.1.lo e.1.width = f e % 2 ^ e.1.width := by
  induction l generalizing w with
  | nil => exact absurd hmem List.not_mem_nil
  | cons d l ih =>
    obtain ⟨-, hl⟩ := List.forall_mem_cons.1 hapart
    rw [List.foldl_cons]
    by_cases hlater : e ∈ l
    · exact ih hlater hl _
    · have hrest : ∀ c ∈ l, c.1.BitsApart e.1 := fun c hc =>
        (hl c hc).resolve_right (fun hce => hlater (hce ▸ hc))
      have hed : e = d := (List.mem_cons.1 hmem).resolve_right hlater
      rw [getBits_foldl_setBits_apart f hrest, ← hed, getBits_setBits_same _ _ _ _ hword]

/-- No word is listed after reset, so each reads its reset value. -/
theorem word_reset (k : Nat) : State.reset.word k = wordReset Fuses.default k := rfl

/-- A well placed field reads after reset what the field table gives it (R10). -/
theorem rd_reset {r : Row} {ix : List Nat} (h : r.wellPlaced Fuses.default ix = true) :
    State.reset.rd r ix = resetValue Fuses.default r ix := by
  obtain ⟨hword, hfits, hmem, hapart⟩ := of_decide_eq_true h
  rw [State.rd, word_reset, wordReset,
    getBits_foldl_setBits (fun e => resetValue Fuses.default e.1 e.2) hmem hword hapart, Nat.mod_eq_of_lt hfits]

/-- Every row of the field table is well placed at its first and at its last element: the table is finite and holds only
literals, so this is evaluated. -/
theorem wellPlaced_first_last : ∀ sp < 0x16, ∀ r ∈ Reg.rowsOf sp,
    r.wellPlaced Fuses.default r.firstElement = true ∧ r.wellPlaced Fuses.default r.lastElement = true := by decide +kernel

theorem resetValue_const {r : Row} {v : Nat} (h : r.reset = .const v) (fz : Fuses) (ix : List Nat) :
    resetValue fz r ix = v := by
  simp only [resetValue, h]

/-- An unlisted byte of memory reads 0 (the model's choice, log entry 1). -/
theorem memByte_reset (a : Nat) : memByte State.reset.mem a = 0 := rfl

theorem ctx_reset (n : Nat) : State.reset.ctx n = {} := rfl

theorem ctx_k_default (r : Nat) : ({} : Ctx).k r = 0 := by
  simp only [Ctx.k, tget, ite_self]

/-- Settles O59: the fields read their reset values because the table places each well; the rest of the state is as
`State.reset` lists it (log entries 1 and 24), and a context that it does not list is idle. -/
theorem resetState : Obligations.ResetState := by
  unfold Obligations.ResetState
  refine ⟨fun sp hsp r hr v hv => ?_, memByte_reset, rfl, rfl, fun n => ?_, rfl, rfl, rfl, rfl⟩
  · obtain ⟨hfirst, hlast⟩ := wellPlaced_first_last sp hsp r hr
    exact ⟨(rd_reset hfirst).trans (resetValue_const hv _ _), (rd_reset hlast).trans (resetValue_const hv _ _)⟩
  · rw [ctx_reset]
    exact ⟨rfl, rfl, rfl, ctx_k_default⟩

end Sys2Proof.Machine
end

section
/-! O25: the window of the bandwidth governor. A tile's request is followed through its port, the TTU and Orrery to the
governor, with one lemma for each part of the way. -/

namespace Sys2Proof.Machine

/-! ### The window -/

theorem sumSnd_eq_sum (l : List (Nat × Nat)) : sumSnd l = (l.map (fun e => e.2)).sum := by
  rw [sumSnd, List.sum_eq_foldl, List.foldl_map]

/-- With nothing held the governor has nothing to issue. -/
theorem govRun_of_held_nil {s : State} (h : s.inf.gov.held = []) : s.govRun = s := by
  rw [State.govRun, h]
  exact ite_self s

/-- An opening window gives each active tile its quota, and what the division leaves over to the pool (R26). Without an
active tile the quota is 0, which division by 0 gives as well. -/
theorem execGovernorWindowOpen_up {s : State} (h : s.boot.mainUp = true) :
    let cap := governorCap s.fuses.variant.hbmStacks (s.rd Reg.INF_GOV_CTRL_SHARE [])
    let quota := cap / s.activeTiles.length
    execGovernorWindowOpen s = .next ((s.wr Reg.INF_GOV_CAP_LINES [] cap).setGov { s.inf.gov with
      cap := cap, quota := quota, left := s.activeTiles.map (fun t => (t, quota)), active := s.activeTiles,
      pool := cap - s.activeTiles.length * quota, issued := 0, released := false }).govRun := by
  have hquota : ∀ c : Nat, (if s.activeTiles.isEmpty then 0 else c / s.activeTiles.length) = c / s.activeTiles.length := by
    intro c
    cases s.activeTiles with
    | nil => exact (Nat.div_zero c).symm
    | cons t l => rfl
  simp only [execGovernorWindowOpen, h, hquota]
  rfl

/-- The release point moves what is left of all quotas into the pool (R27). -/
theorem execGovernorReleasePoint_unreleased {s : State} (h : s.inf.gov.released = false) :
    execGovernorReleasePoint s = .next (s.setGov { s.inf.gov with
      left := [], pool := s.inf.gov.pool + (s.inf.gov.left.map (fun e => e.2)).sum, released := true }).govRun := by
  simp only [execGovernorReleasePoint, h, sumSnd_eq_sum]
  rfl

/-! ### One line of a tile -/

/-- The governor may give tile `t` a line: CAP is not reached, and the tile was active as the window opened or the release
point has passed. -/
def Gov.opensFor (g : Gov) (t : Nat) : Prop := g.issued < g.cap ∧ (g.released = true ∨ t ∈ g.active)

theorem Gov.take_of_not_opensFor {g : Gov} {t : Nat} (h : ¬ g.opensFor t) : g.take t = none := by
  rcases Nat.lt_or_ge g.issued g.cap with hcap | hcap
  · have hrel : g.released = false := Bool.eq_false_iff.2 fun hr => h ⟨hcap, .inl hr⟩
    have hact : g.active.contains t = false := Bool.eq_false_iff.2 fun hc => h ⟨hcap, .inr (List.contains_iff_mem.1 hc)⟩
    simp only [Gov.take, hrel, hact, Bool.or_false, Bool.not_false, Bool.or_true, if_true]
  · simp only [Gov.take, hcap, decide_true, Bool.true_or, if_true]

theorem Gov.take_of_opensFor {g : Gov} {t : Nat} (h : g.opensFor t) :
    g.take t =
      if tget 0 g.left t > 0 then some { g with left := tput g.left t (tget 0 g.left t - 1), issued := g.issued + 1 }
      else if g.pool > 0 then some { g with pool := g.pool - 1, issued := g.issued + 1 }
      else none := by
  refine if_neg ?_
  obtain ⟨hcap, hrel | hact⟩ := h
  · simpa [hrel] using hcap
  · simpa [hact] using hcap

/-- A tile with lines left takes one of its own quota, and the other tiles keep theirs. -/
theorem Gov.take_of_left {g : Gov} {t : Nat} (h : g.opensFor t) (hleft : 0 < tget 0 g.left t) :
    ∃ l, g.take t = some { g with left := l, issued := g.issued + 1 }
      ∧ ∀ u, tget 0 l u = if u = t then tget 0 g.left t - 1 else tget 0 g.left u := by
  refine ⟨_, (take_of_opensFor h).trans (if_pos hleft), fun u => ?_⟩
  by_cases hu : u = t
  · rw [if_pos hu, hu, tget_tput_same]
  · rw [if_neg hu, tget_tput_ne _ _ _ hu]

/-- A tile with no line left takes one of the pool. -/
theorem Gov.take_of_pool {g : Gov} {t : Nat} (h : g.opensFor t) (hleft : tget 0 g.left t = 0) (hpool : 0 < g.pool) :
    g.take t = some { g with pool := g.pool - 1, issued := g.issued + 1 } := by
  rw [take_of_opensFor h, hleft, if_neg (Nat.lt_irrefl 0), if_pos hpool]

theorem Gov.take_of_empty {g : Gov} {t : Nat} (hleft : tget 0 g.left t = 0) (hpool : g.pool = 0) : g.take t = none := by
  by_cases h : g.opensFor t
  · simp [take_of_opensFor h, hleft, hpool]
  · exact take_of_not_opensFor h

/-! ### What the governor says of a request -/

/-- A request that no engine's command makes finds nothing paid for beforehand. -/
theorem hasPaid_of_no_runner {s : State} (h : s.fab.runner = none) (e : Nat × Nat) : s.hasPaid e = false := by
  simp only [State.hasPaid, h]

/-- A tile that holds no request takes its lines at once where the governor has them. -/
theorem govPass_of_takes {s : State} {t lines : Nat} {g : Gov} (hrun : s.fab.runner = none)
    (hheld : ∀ q ∈ s.inf.gov.held, q.tile ≠ t) (htakes : s.inf.gov.takes t lines = some g) :
    s.govPass t lines = some (s.setGov g) := by
  have hany : s.inf.gov.held.any (fun q => q.tile = t) = false := by simpa using hheld
  have halone : s.fab.runner.isSome = false := by rw [hrun, Option.isSome_none]
  simp only [State.govPass, hasPaid_of_no_runner hrun, hany, htakes, halone, Option.map_some, Bool.false_eq_true, if_false]
  rfl

/-- A request stands behind an earlier one of its tile, and waits where the governor has no lines for it. -/
theorem govPass_eq_none {s : State} {t lines : Nat} (hrun : s.fab.runner = none)
    (h : (∃ q ∈ s.inf.gov.held, q.tile = t) ∨ s.inf.gov.takes t lines = none) : s.govPass t lines = none := by
  simp only [State.govPass, hasPaid_of_no_runner hrun, Bool.false_eq_true, if_false]
  rcases h with hheld | htakes
  · have hany : s.inf.gov.held.any (fun q => q.tile = t) = true := by simpa using hheld
    rw [if_pos hany]
  · rw [htakes, Option.map_none, ite_self]

/-! ### The way of a tile's request to HBM -/

/-- A request that asks for its first time, of an initiator that is on the CD, passes on to its port where no freeze and
no earlier transaction stops it (R182 to R184, R198). -/
theorem bus_ask_tile {s : State} {q : HeldReq} {p : Nat} (hsrc : q.acc.src = .tile p) (hadm : q.adm = none)
    (hup : s.boot.mainUp = true) (hroom : s.inflight (srcPort q.acc.src) < 128) (htid : s.tidBusy q.acc = false)
    (hfrozen : s.fab.frozen = []) :
    s.bus q .ask = (s.syncPort (srcPort q.acc.src) 1).busIn q .ask := by
  have hdown : s.srcDown q.acc = false := by simp only [State.srcDown, hsrc, srcXd]
  have hlayers : s.frozenIn (sourceLayers q.acc) = none := by simp [State.frozenIn, hfrozen]
  have htag : s.hartTag q.acc = s := by simp only [State.hartTag, hsrc]
  have hfree : decide (s.inflight (srcPort q.acc.src) ≥ 128) = false := decide_eq_false (Nat.not_le.2 hroom)
  simp only [State.bus, hup, hdown, hadm, hfree, htid, hlayers, htag, Bool.not_true, Bool.or_false, Bool.and_false,
    Bool.false_eq_true, if_false]

/-- A request that its port serves and the TTU admits goes on beyond the TTU. -/
theorem busIn_of_admitted {s u v : State} {q : HeldReq} {pa mt : Nat} (hpaid : q.paid = false)
    (hport : s.pay q.acc.tag (portNeed q.acc q.size) = some u)
    (httu : u.checkAccess q.acc q.addr q.size = (.ok pa mt, v)) :
    s.busIn q .ask = v.busOn q ⟨pa, v.winPosted pa, mt⟩ .ask := by
  obtain ⟨acc, addr, size, bytes, err, adm, paid⟩ := q
  subst hpaid
  simp only [State.busIn, State.claimUnits, hport, httu, Bool.false_eq_true, if_false]

/-- No write crosses a bridge between a tile and HBM, so none is posted (R201). -/
theorem isPosted_tile_hbm (s : State) {a : Access} {p : Nat} (hsrc : a.src = .tile p) (m : Admitted) (size : Nat) :
    s.isPosted a m .hbm size = false := by
  simp [State.isPosted, postedLayer, hsrc, srcXd, Target.layers]

/-- Beyond the TTU a tile's request to HBM meets only Orrery and the governor where nothing is frozen or posted. -/
theorem busOn_tile_hbm {s x : State} {q : HeldReq} {m : Admitted} {p t : Nat} (hsrc : q.acc.src = .tile p)
    (hpaid : q.paid = false) (hhbm : s.targetOf m.pa q.size = .hbm) (hposted : s.fab.posted = [])
    (hfrozen : s.fab.frozen = []) (hpay : s.pay q.acc.tag (s.accessNeed q.acc .hbm m.pa q.size) = some x)
    (htile : x.logicalOf p = some t) :
    s.busOn q m .ask = (x.govPass t (govLines m.pa q.size)).elim (.governed t { q with adm := some m, paid := true }, x)
      (fun y => y.busAct { q with adm := some m, paid := true } m .hbm) := by
  have hdrain : s.drainSource (srcCode q.acc.src) = s := by simp [State.drainSource, hposted, State.drainList]
  have hlink : s.linkDown .hbm = false := rfl
  have hblocked : s.blockedBy (srcCode q.acc.src) .hbm m.pa q.size = false := by simp [State.blockedBy, hposted]
  have hlayers : s.frozenIn (0 :: Target.hbm.layers) = none := by simp [State.frozenIn, hfrozen]
  have hgoverns : x.governs q.acc .hbm m.pa q.size = some (t, govLines m.pa q.size) := by
    simp only [State.governs, hsrc, htile, Option.map_some]
  simp only [State.busOn, hhbm, isPosted_tile_hbm s hsrc, hdrain, hlink, hblocked, hlayers, State.claimUnits, hpaid, hpay,
    hgoverns, Bool.false_eq_true, if_false, Bool.not_false, Bool.false_and, Bool.true_and, Option.any_none, Bool.or_false]
  cases x.govPass t (govLines m.pa q.size) <;> rfl

/-- HBM has no hole: no access to it misses. -/
theorem missAt_hbm (pa size : Nat) : missAt .hbm pa size = none := rfl

theorem targetRead_hbm (s : State) (a : Access) (mt pa size : Nat) (e : RowError) :
    s.targetRead a mt .hbm pa size e = s.hbmRead mt a.tag pa size e := rfl

/-- A tile's read of HBM is answered with what its row gives. -/
theorem busAct_tile_hbm_read {s y : State} {q : HeldReq} {m : Admitted} {p : Nat} {st : Status} {bs : List Byte}
    (hsrc : q.acc.src = .tile p) (hrun : s.fab.runner = none) (herr : q.err ≠ .silent) (hkind : q.acc.kind ≠ .write)
    (hread : s.hbmRead m.memtype q.acc.tag m.pa q.size q.err = (st, bs, y)) :
    s.busAct q m .hbm = (.done st bs, y.traceAccess q.acc .hbm m.pa false st) := by
  unfold State.busAct
  simp only [hrun, isPosted_tile_hbm s hsrc, missAt_hbm, herr, hkind, targetRead_hbm, hread,
    Option.isSome_none, Bool.false_and, Bool.or_false, decide_false, Bool.false_eq_true, if_false]

/-- A tile's write to HBM is answered once it has been made. -/
theorem busAct_tile_hbm_write {s y : State} {q : HeldReq} {m : Admitted} {p : Nat} {st : Status}
    (hsrc : q.acc.src = .tile p) (hrun : s.fab.runner = none) (herr : q.err ≠ .silent) (hkind : q.acc.kind = .write)
    (hwrite : s.targetWrite q.acc m.memtype .hbm m.pa q.bytes q.err = (st, y)) :
    s.busAct q m .hbm = (.done st [], y.traceAccess q.acc .hbm m.pa false st) := by
  unfold State.busAct
  simp only [hrun, isPosted_tile_hbm s hsrc, missAt_hbm, herr, hkind, hwrite,
    Option.isSome_none, Bool.false_and, Bool.or_false, decide_false, Bool.false_eq_true, if_false, if_true]

/-- A request answers what the fabric says of it. -/
theorem request_of_bus {s t : State} {q : HeldReq} {r : Bus} (h : s.bus q .ask = (r, t)) :
    s.request q = t.busAnswer r := by
  simp only [State.request, h]

/-- A well-formed request with a tag of its tile is a request of the tile's port (R30). -/
theorem execTileHbmRequest_of_wellFormed {s : State} {t : Nat} {a : Access} {addr size : Nat} {w : List Byte} (e : RowError)
    (hgate : a.gate = false) (htile : t < s.fuses.variant.tiles) (hsize : size ≠ 0) (hline : addr % 64 + size ≤ 64)
    (hsrc : a.src = .tile (s.rd Reg.INF_TILE_PHYS [t])) (hlen : a.kind = .write → w.length = size)
    (htag : s.tagFits a = true) :
    execTileHbmRequest t a addr size w e s =
      .next (s.request { acc := a, addr := addr, size := size, bytes := w, err := e }) := by
  have hwf : (a.gate || t ≥ s.fuses.variant.tiles || size = 0 || addr % 64 + size > 64
      || a.src ≠ .tile (s.rd Reg.INF_TILE_PHYS [t]) || (a.kind = .write && w.length ≠ size)) = false := by
    simpa [hgate, htile, hsize, hline, hsrc] using hlen
  rw [execTileHbmRequest, hwf, htag]
  rfl

/-! ### O25 -/

/-- Settles O25: the window's commands by their equations, a line of a tile by the branches of `Gov.take`, and a request
by the way that it takes to the governor, which passes it to HBM or holds it. -/
theorem governorWindows : Obligations.GovernorWindows := by
  unfold Obligations.GovernorWindows
  intro s
  refine ⟨fun hup => ?_, fun hrel => ?_, fun g t => ⟨?_,
    fun hcap hopen => Gov.take_of_left ⟨hcap, hopen⟩, fun hcap hopen => Gov.take_of_pool ⟨hcap, hopen⟩,
    Gov.take_of_empty⟩, ?_⟩
  · have hopen := execGovernorWindowOpen_up hup
    exact ⟨hopen, fun hheld => hopen.trans (congrArg _ (govRun_of_held_nil hheld))⟩
  · have hpoint := execGovernorReleasePoint_unreleased hrel
    exact ⟨hpoint, fun hheld => hpoint.trans (congrArg _ (govRun_of_held_nil hheld))⟩
  · intro h
    refine Gov.take_of_not_opensFor fun ⟨hcap, hopen⟩ => ?_
    rcases h with hspent | ⟨hrel, hact⟩
    · omega
    · simp [hrel, hact] at hopen
  · intro t a addr size w e hgate htile hsize hline hsrc hlen htag q
    have hexec : exec (.tileHbmRequest t a addr size w e) s = .next (s.request q) :=
      execTileHbmRequest_of_wellFormed e hgate htile hsize hline hsrc hlen htag
    refine ⟨hexec, fun u v x pa mt hup hroom htid hfree hport httu hhbm hposted hfrozen hpay hrun hlog => ?_⟩
    let m : Admitted := ⟨pa, v.winPosted pa, mt⟩
    have hbus : s.bus q .ask = (x.govPass t (govLines pa size)).elim (.governed t { q with adm := some m, paid := true }, x)
        (fun y => y.busAct { q with adm := some m, paid := true } m .hbm) := by
      rw [bus_ask_tile (q := q) hsrc rfl hup hroom htid hfree, busIn_of_admitted (q := q) rfl hport httu,
        busOn_tile_hbm (q := q) (m := m) hsrc rfl hhbm hposted hfrozen hpay hlog]
    refine ⟨fun g hheld htakes herr => ?_, fun hwait => ?_⟩
    · rw [govPass_of_takes hrun hheld htakes, Option.elim_some] at hbus
      refine ⟨fun hkind st bs y hread => ?_, fun hkind st y hwrite => ?_⟩
      · rw [hexec, request_of_bus (hbus.trans (busAct_tile_hbm_read hsrc hrun herr hkind hread))]
        rfl
      · rw [hexec, request_of_bus (hbus.trans (busAct_tile_hbm_write hsrc hrun herr hkind hwrite))]
        rfl
    · rw [govPass_eq_none hrun hwait, Option.elim_none] at hbus
      rw [hexec, request_of_bus hbus]
      rfl

end Sys2Proof.Machine
end

section
/-! O26: translation, the record of a fault, and invalidation. The record is followed field by field: one lemma says which
fields of an element of a table a write to another of its fields leaves alone. -/

namespace Sys2Proof.Machine

/-! ### Fields of one element of a table -/

/-- Two fields of the same element of a table lie in different words, or in bits of one word that do not meet. -/
abbrev Row.Beside (q r : Row) : Prop :=
  q.space = r.space ∧ q.dims = r.dims ∧ (q.base ≠ r.base ∨ q.lo + q.width ≤ r.lo ∨ r.lo + r.width ≤ q.lo)

theorem rd_wr_beside (s : State) {q r : Row} (ix : List Nat) (v : Nat) (h : q.Beside r) :
    (s.wr r ix v).rd q ix = s.rd q ix := by
  obtain ⟨hspace, hdims, hbase | hbits⟩ := h
  · refine rd_wr_ne s r q ix ix v fun hkey => hbase ?_
    simp only [Row.key, wordKey, hspace, hdims] at hkey
    omega
  · exact rd_wr_other s r q ix ix v (.inr hbits)

theorem satTo_lt (n v : Nat) : satTo n v < 2 ^ n := by
  have hpos : 0 < 2 ^ n := Nat.two_pow_pos n
  rw [satTo]
  split <;> omega

/-- A saturating counter reads one count more, up to its greatest value. -/
theorem rd_incSat_same (s : State) (r : Row) (ix : List Nat) (n : Nat) (h : r.lo + r.width ≤ 32) :
    (s.incSat r ix n).rd r ix = satTo r.width (s.rd r ix + n) := by
  rw [State.incSat, rd_wr_same s r ix _ h, Nat.mod_eq_of_lt (satTo_lt _ _)]

theorem incSat_frame (s : State) (r : Row) (ix : List Nat) (n : Nat) :
    s.incSat r ix n = { s with words := (s.incSat r ix n).words } := rfl

theorem word_incSat_ne (s : State) (r : Row) (ix : List Nat) (n : Nat) {k : Nat} (h : k ≠ r.key ix) :
    (s.incSat r ix n).word k = s.word k := word_wr_ne s r ix _ h

/-! ### The record of a fault (R139) -/

/-- The fields FLT_* of the access's tag as a fault sets them (Table ttu.2). -/
def State.faultFields (s : State) (a : Access) (addr cause : Nat) (stage1 : Bool) : State :=
  let s := s.wrPair Reg.TTU_INST_FLT_LO Reg.TTU_INST_FLT_HI [a.tag] (addr % 2 ^ 48)
  let s := s.wr Reg.TTU_INST_FLT_CAUSE [a.tag] cause
  let s := s.wr Reg.TTU_INST_FLT_WRITE [a.tag] (if a.kind = .write then 1 else 0)
  let s := s.wr Reg.TTU_INST_FLT_STAGE1 [a.tag] (if stage1 then 1 else 0)
  (s.wr Reg.TTU_INST_FLT_PID [a.tag] a.pid).incSat Reg.TTU_INST_FLT_COUNT [a.tag] 1

theorem rd_faultFields_cause (s : State) (a : Access) (addr cause : Nat) (stage1 : Bool) :
    (s.faultFields a addr cause stage1).rd Reg.TTU_INST_FLT_CAUSE [a.tag] = cause % 2 ^ 4 := by
  simp (disch := decide) only [State.faultFields, State.incSat, rd_wr_beside, rd_wr_same, Reg.TTU_INST_FLT_CAUSE]

theorem rd_faultFields_write (s : State) (a : Access) (addr cause : Nat) (stage1 : Bool) :
    (s.faultFields a addr cause stage1).rd Reg.TTU_INST_FLT_WRITE [a.tag] = if a.kind = .write then 1 else 0 := by
  simp (disch := decide) only [State.faultFields, State.incSat, rd_wr_beside, rd_wr_same]
  split <;> rfl

theorem rd_faultFields_pid (s : State) (a : Access) (addr cause : Nat) (stage1 : Bool) :
    (s.faultFields a addr cause stage1).rd Reg.TTU_INST_FLT_PID [a.tag] = a.pid % 2 ^ 20 := by
  simp (disch := decide) only [State.faultFields, State.incSat, rd_wr_beside, rd_wr_same]
  rfl

theorem rd_faultFields_count (s : State) (a : Access) (addr cause : Nat) (stage1 : Bool) :
    (s.faultFields a addr cause stage1).rd Reg.TTU_INST_FLT_COUNT [a.tag] =
      satTo Reg.TTU_INST_FLT_COUNT.width (s.rd Reg.TTU_INST_FLT_COUNT [a.tag] + 1) := by
  rw [State.faultFields, rd_incSat_same _ _ _ _ (by decide)]
  simp (disch := decide) only [State.wrPair, rd_wr_beside]

theorem rdPair_faultFields (s : State) (a : Access) (addr cause : Nat) (stage1 : Bool) :
    (s.faultFields a addr cause stage1).rdPair Reg.TTU_INST_FLT_LO Reg.TTU_INST_FLT_HI [a.tag] = addr % 2 ^ 48 := by
  simp (disch := decide) only [State.faultFields, State.wrPair, State.rdPair, State.incSat, rd_wr_beside, rd_wr_same]
  simp only [Reg.TTU_INST_FLT_LO, Reg.TTU_INST_FLT_HI, Nat.shiftRight_eq_div_pow]
  omega

/-- What follows the fields where the cause counts: the violation, the Almanac's record and the message. -/
theorem ttuFault_of_counting {s : State} {a : Access} {addr cause : Nat} {stage1 : Bool} (htag : a.tag < 32)
    (hcounts : causeCounts cause = true) :
    let t := ((s.faultFields a addr cause stage1).violation a.tag).record 0x20 a.tag
      (leBytes 1 cause ++ leBytes 6 addr ++ leBytes 3 a.pid)
    s.ttuFault a addr cause stage1 = t.send a.tag (t.rd Reg.TTU_INST_FLT_VEC [a.tag]) := by
  simp only [State.ttuFault, htag, hcounts, if_true]
  rfl

theorem send_frame (s : State) (inst vec : Nat) : s.send inst vec = { s with msgs := (s.send inst vec).msgs } := by
  unfold State.send
  split <;> rfl

theorem word_record_ne (s : State) (code tag : Nat) (payload : List Byte) {k : Nat} (h : k ≠ Reg.ALM_STAT_LOST.key []) :
    (s.record code tag payload).word k = s.word k := by
  have hlost := word_incSat_ne s Reg.ALM_STAT_LOST [] 1 h
  unfold State.record
  split
  · rfl
  · generalize s.incSat Reg.ALM_STAT_LOST [] 1 = t at hlost ⊢
    exact hlost

/-- A record changes the Almanac's intake and, where that is full, its count of lost records (R534). -/
theorem record_frame (s : State) (code tag : Nat) (payload : List Byte) :
    s.record code tag payload =
      { s with words := (s.record code tag payload).words, alm := (s.record code tag payload).alm } := by
  unfold State.record
  split
  · rfl
  · rw [incSat_frame]

/-- The row is one of the fields that the TTU holds for each of the 32 instances. -/
abbrev Row.OfInstance (r : Row) : Prop := r.space = 0x02 ∧ r.base < 8 ∧ r.dims = [(8, 32)]

/-- Where its cause counts, a fault leaves the TTU's fields of its tag as `faultFields` sets them. -/
theorem rd_ttuFault_of_counting {s : State} {a : Access} {addr cause : Nat} {stage1 : Bool} (htag : a.tag < 32)
    (hcounts : causeCounts cause = true) {r : Row} (hr : r.OfInstance) :
    (s.ttuFault a addr cause stage1).rd r [a.tag] = (s.faultFields a addr cause stage1).rd r [a.tag] := by
  obtain ⟨hspace, hbase, hdims⟩ := hr
  have hkey : r.key [a.tag] = 0x02 * 2 ^ 17 + (r.base + 8 * a.tag) := by
    simp only [Row.key, wordKey, hspace, hdims, joinOffset, Nat.add_zero]
  have hviol : Reg.CMD_VIOL_COUNT.key [a.tag] = 0x01 * 2 ^ 17 + (0x40 + 1 * a.tag) := rfl
  have hlost : Reg.ALM_STAT_LOST.key [] = 0x12 * 2 ^ 17 + 4 := rfl
  rw [ttuFault_of_counting htag hcounts, send_frame]
  exact congrArg (getBits · r.lo r.width)
    ((word_record_ne _ _ _ _ (by omega)).trans (word_incSat_ne _ _ _ _ (by omega)))

theorem rdPair_ttuFault_of_counting {s : State} {a : Access} {addr cause : Nat} {stage1 : Bool} (htag : a.tag < 32)
    (hcounts : causeCounts cause = true) {lo hi : Row} (hlo : lo.OfInstance) (hhi : hi.OfInstance) :
    (s.ttuFault a addr cause stage1).rdPair lo hi [a.tag] = (s.faultFields a addr cause stage1).rdPair lo hi [a.tag] := by
  simp only [State.rdPair, rd_ttuFault_of_counting htag hcounts hlo, rd_ttuFault_of_counting htag hcounts hhi]

theorem ttuFault_of_counting_ttu {s : State} {a : Access} {addr cause : Nat} {stage1 : Bool} (htag : a.tag < 32)
    (hcounts : causeCounts cause = true) : (s.ttuFault a addr cause stage1).ttu = s.ttu := by
  rw [ttuFault_of_counting htag hcounts, send_frame, record_frame]
  rfl

theorem ttuFault_of_counting_mem {s : State} {a : Access} {addr cause : Nat} {stage1 : Bool} (htag : a.tag < 32)
    (hcounts : causeCounts cause = true) : (s.ttuFault a addr cause stage1).mem = s.mem := by
  rw [ttuFault_of_counting htag hcounts, send_frame, record_frame]
  rfl

/-! ### Translation -/

/-- What TTU_TRANSLATE answers for the outcome of its access. -/
def State.translateAnswer : Trans × State → State
  | (.ok pa mt, t) => t.answer .ok (pa % 2 ^ 48 + 2 ^ 48 * mt)
  | (.fault _ _ st, t) => t.answer st 0
  | (.stuck _ _, t) => t.answer .queued 0

/-- A well-formed access with a tag that its port applies goes through the TTU (R129). -/
theorem execTtuTranslate_of_wellFormed {s : State} {a : Access} {addr size : Nat} (hgate : a.gate = false)
    (hsize : size ≠ 0) (hmax : size ≤ 64) (htag : s.tagFits a = true) :
    execTtuTranslate a addr size s = .next (State.translateAnswer (s.checkAccess a addr size)) := by
  have hwf : (a.gate || size = 0 || size > 64) = false := by simp [hgate, hsize, hmax]
  rw [execTtuTranslate, hwf, htag]
  rcases s.checkAccess a addr size with ⟨_ | _ | _, t⟩ <;> rfl

/-- An access whose tag is disabled and that no core refuses is a fault of cause 9 (R131, R244). -/
theorem checkAccess_of_disabled {s : State} {a : Access} {addr size : Nat} (htag : a.tag < 32)
    (hdisabled : s.flag Reg.TTU_INST_ENABLE [a.tag] = false) (hcore : s.coreFault a addr size = false) :
    s.checkAccess a addr size = (.fault 9 false .denied, s.ttuFault a addr 9 false) := by
  have htables : s.tables a addr size = (.fault 9 false .denied, s) := by
    simp only [State.tables, htag, hdisabled, Bool.not_false, if_true]
  have hallow : s.allow a addr size = (.fault 9 false .denied, s) := by
    simp only [State.allow, hcore, htables, Bool.false_eq_true, if_false]
  simp only [State.checkAccess, hallow]

/-! ### Invalidation (R142) -/

/-- A commit that succeeds leaves the state after its commit point, and answers ST_OK (R62, R63). -/
theorem commitOf_of_commits {s : State} {n : Nat} {l : List (Row × List Nat × Nat)} (h : s.commits n l = true) :
    s.commitOf n l = .next ((s.committed l).answer .ok 0) := by
  simp only [State.commits, Bool.and_eq_true, decide_eq_true_eq] at h
  obtain ⟨⟨⟨⟨⟨⟨hctx, hup⟩, hstate⟩, henable⟩, hholds⟩, hstage⟩, hverdict⟩ := h
  have hruns : (n ≥ 64 || !s.boot.mainUp || s.cmp.state ≠ 1 || !s.flag Reg.CMD_CTX_ENABLE [n]) = false := by
    simp [hup, hstate, henable, hctx]
  have hstaged : ((entriesOf l).map (s.stageStatus n)).find? (· ≠ .ok) = none := by
    simpa [List.find?_eq_none] using hstage
  have hcommit : s.commit n (entriesOf l) = (.ok, s.committed l) := by
    simp only [State.commit, hverdict]
    rfl
  have hone : s.commitOne n (entriesOf l) = (s.committed l).answer .ok 0 := by
    simp only [State.commitOne, hruns, hstaged, hcommit, Bool.false_eq_true, if_false]
  rw [State.commitOf, if_pos hholds]
  exact congrArg _ hone

/-- An invalidation drops the entries that it covers, and no other. -/
theorem mem_tlb_invalidate {s : State} {e : TlbEntry} (h : e ∈ s.ttu.tlb) :
    e ∈ s.invalidate.ttu.tlb ↔ s.invalCovers e = false := by
  have htlb : s.invalidate.ttu.tlb = s.ttu.tlb.filter (fun e => !s.invalCovers e) := rfl
  simp [htlb, h]

/-! ### O26 -/

/-- Settles O26: an access is answered as `checkAccess` decides it; one whose tag is disabled is a fault of cause 9, whose
record is read field by field; an invalidation is a commit, and its drain ends once its transactions have. -/
theorem translationAndItsFaults : Obligations.TranslationAndItsFaults := by
  unfold Obligations.TranslationAndItsFaults
  intro s
  refine ⟨fun a addr size hgate hsize hmax hfits => ?_, fun n scope inst pid addr => ?_,
    fun e he => mem_tlb_invalidate he, fun ids rest hdrains => ⟨fun hdone => ?_, fun hopen => ?_⟩⟩
  · have hexec : exec (.ttuTranslate a addr size) s = .next (State.translateAnswer (s.checkAccess a addr size)) :=
      execTtuTranslate_of_wellFormed hgate hsize hmax hfits
    refine ⟨fun pa mt t h => ?_, fun c st1 st t h => ?_, fun f st1 t h => ?_, fun htag hdisabled hcore => ?_⟩
    · rw [hexec, h]
      rfl
    · rw [hexec, h]
      rfl
    · rw [hexec, h]
      rfl
    · rw [checkAccess_of_disabled htag hdisabled hcore] at hexec
      have hcounts : causeCounts 9 = true := rfl
      refine ⟨_, hexec, rfl, ?_, ?_, ?_, ?_, ?_,
        ttuFault_of_counting_ttu htag hcounts, ttuFault_of_counting_mem htag hcounts⟩
      · exact (rd_ttuFault_of_counting htag hcounts (by decide)).trans (rd_faultFields_cause s a addr 9 false)
      · exact (rd_ttuFault_of_counting htag hcounts (by decide)).trans (rd_faultFields_write s a addr 9 false)
      · exact (rd_ttuFault_of_counting htag hcounts (by decide)).trans (rd_faultFields_pid s a addr 9 false)
      · exact (rdPair_ttuFault_of_counting htag hcounts (by decide) (by decide)).trans (rdPair_faultFields s a addr 9 false)
      · exact (rd_ttuFault_of_counting htag hcounts (by decide)).trans (rd_faultFields_count s a addr 9 false)
  · intro l h
    exact commitOf_of_commits h
  · show execInvalidationDrainDone s = _
    simp only [execInvalidationDrainDone, hdrains, hdone, if_true]
    rfl
  · show execInvalidationDrainDone s = _
    simp only [execInvalidationDrainDone, hdrains, hopen, Bool.false_eq_true, if_false]

end Sys2Proof.Machine
end

section
/-! O28: a request on its way through the fabric, and how freezes, late answers and failed posted writes end. The way is
cut at its stations, the port, the TTU and Orrery, with one lemma for each, and at its end one for each outcome. -/

namespace Sys2Proof.Machine

/-! ### The way of a request -/

/-- A well-formed request with a tag that its port applies enters the fabric as its transactions (R129, R143). -/
theorem execFabricRequest_of_wellFormed {s : State} {a : Access} {addr size x : Nat} {w : List Byte} (e : RowError)
    (hgate : a.gate = false) (htag : a.tag < 64) (hsize : size ≠ 0) (hmax : size ≤ 64)
    (hlen : a.kind = .write → w.length = size) (hfits : s.tagFits a = true) (hmsi : a.pcie ≠ some .msi)
    (hx : s.pcieAddr a addr size = some x) :
    execFabricRequest a addr size w e s = .next (s.requests a x w e (requestParts a x size)) := by
  have hwf : (a.gate || a.tag ≥ 64 || size = 0 || size > 64 || (a.kind = .write && w.length ≠ size)) = false := by
    simpa [hgate, htag, hsize, hmax] using hlen
  rw [execFabricRequest, hwf, hfits, hx, if_neg hmsi]
  rfl

/-- A request that is one transaction is answered as its access ends. -/
theorem requests_singleton (s : State) (a : Access) (x size : Nat) (w : List Byte) (e : RowError) :
    s.requests a x w e [(x, size)] = s.request { acc := a, addr := x, size := size, bytes := w, err := e } := by
  simp only [State.requests, Nat.sub_self, List.drop_zero]

/-- A request that asks for its first time passes on to its port where its link is up and no freeze and no earlier
transaction stops it (R182 to R184, R193, R198). -/
theorem bus_ask_of_free {s : State} {q : HeldReq} (hadm : q.adm = none) (hup : s.boot.mainUp = true)
    (hdown : s.srcDown q.acc = false) (hroom : s.inflight (srcPort q.acc.src) < 128) (htid : s.tidBusy q.acc = false)
    (hfrozen : s.fab.frozen = []) :
    s.bus q .ask = ((s.hartTag q.acc).syncPort (srcPort q.acc.src) 1).busIn q .ask := by
  have hlayers : s.frozenIn (sourceLayers q.acc) = none := by simp [State.frozenIn, hfrozen]
  have hfree : decide (s.inflight (srcPort q.acc.src) ≥ 128) = false := decide_eq_false (Nat.not_le.2 hroom)
  simp only [State.bus, hup, hdown, hadm, hfree, htid, hlayers, Bool.not_true, Bool.or_false, Bool.and_false,
    Bool.false_eq_true, if_false]

/-- Beyond the TTU a request that the governor does not decide meets only Orrery, where nothing is frozen or posted and its
target's link is up (R163, R193). -/
theorem busOn_of_free {s y : State} {q : HeldReq} {m : Admitted} (hpaid : q.paid = false) (hposted : s.fab.posted = [])
    (hfrozen : s.fab.frozen = []) (hlink : s.linkDown (s.targetOf m.pa q.size) = false)
    (hpay : s.pay q.acc.tag (s.accessNeed q.acc (s.targetOf m.pa q.size) m.pa q.size) = some y)
    (hgov : y.governs q.acc (s.targetOf m.pa q.size) m.pa q.size = none) :
    s.busOn q m .ask = y.busAct { q with adm := some m, paid := true } m (s.targetOf m.pa q.size) := by
  have hdrain : s.drainSource (srcCode q.acc.src) = s := by simp [State.drainSource, hposted, State.drainList]
  have hblocked : s.blockedBy (srcCode q.acc.src) (s.targetOf m.pa q.size) m.pa q.size = false := by
    simp [State.blockedBy, hposted]
  have hlayers : s.frozenIn (0 :: (s.targetOf m.pa q.size).layers) = none := by simp [State.frozenIn, hfrozen]
  simp only [State.busOn, hdrain, ite_self, hlink, hblocked, hlayers, State.claimUnits, hpaid, hpay, hgov,
    Bool.false_eq_true, if_false, Bool.false_and, Bool.and_false, Option.any_none, Bool.or_false]

/-! ### What a request meets at its target -/

/-- A write that its window posts enters its bridge, and is answered at once (R201). -/
theorem busAct_of_posted {s : State} {q : HeldReq} {m : Admitted} {t : Target} (hrun : s.fab.runner = none)
    (hposted : s.isPosted q.acc m t q.size = true) :
    let p : Posted := ⟨s.fab.nextId, q.acc, m.pa, q.bytes, (postedLayer q.acc t).getD 0, q.err, m.memtype⟩
    s.busAct q m t = (.done .ok [], ({ s with fab := { s.fab with
      posted := s.fab.posted ++ [p], nextId := s.fab.nextId + 1 } }).traceAccess q.acc t m.pa true .ok) := by
  unfold State.busAct
  simp only [hrun, hposted, Option.isSome_none, Bool.false_eq_true, if_false, if_true]

section
variable {s : State} {q : HeldReq} {m : Admitted} {t : Target} (hrun : s.fab.runner = none)
  (hposted : s.isPosted q.acc m t q.size = false) (hfound : missAt t m.pa q.size = none)
include hrun hposted hfound

/-- A request whose target does not respond stays open (R186). -/
theorem busAct_of_silent (herr : q.err = .silent) :
    s.busAct q m t = (.waits s.fab.nextId none, s.openTxn { s.txnOf q t t.endLayer with rx := none }) := by
  unfold State.busAct
  simp only [hrun, hposted, hfound, herr, Option.isSome_none, Bool.false_and, Bool.or_false, decide_true,
    Bool.false_eq_true, if_false, if_true]

/-- A read is answered with what its target gives. -/
theorem busAct_of_read (herr : q.err ≠ .silent) (hkind : q.acc.kind ≠ .write) {st : Status} {bs : List Byte} {z : State}
    (hread : s.targetRead q.acc m.memtype t m.pa q.size q.err = (st, bs, z)) :
    s.busAct q m t = (.done st bs, z.traceAccess q.acc t m.pa false st) := by
  unfold State.busAct
  simp only [hrun, hposted, hfound, herr, hkind, hread, Option.isSome_none, Bool.false_and, Bool.or_false, decide_false,
    Bool.false_eq_true, if_false]

/-- A write that is not posted is answered once it has been made. -/
theorem busAct_of_write (herr : q.err ≠ .silent) (hkind : q.acc.kind = .write) {st : Status} {z : State}
    (hwrite : s.targetWrite q.acc m.memtype t m.pa q.bytes q.err = (st, z)) :
    s.busAct q m t = (.done st [], z.traceAccess q.acc t m.pa false st) := by
  unfold State.busAct
  simp only [hrun, hposted, hfound, herr, hkind, hwrite, Option.isSome_none, Bool.false_and, Bool.or_false, decide_false,
    Bool.false_eq_true, if_false, if_true]

end

/-! ### What tracing and opening leave unchanged -/

theorem wreckPush_frame (s : State) (t : Trace) (d : Nat) : s.wreckPush t d = { s with alm := (s.wreckPush t d).alm } := by
  unfold State.wreckPush
  generalize s.rd Reg.ALM_WRECK_STATE [d] = st
  dsimp only
  split <;> rfl

/-- Tracing an access changes the Almanac's wreck buffers and draws a free value: nothing else. -/
theorem traceAccess_frame (s : State) (a : Access) (t : Target) (addr : Nat) (posted : Bool) (st : Status) :
    s.traceAccess a t addr posted st =
      { s with alm := (s.traceAccess a t addr posted st).alm, free := (s.traceAccess a t addr posted st).free } := by
  have hfold : ∀ (rq rs : Trace) (l : List Nat) (u : State),
      l.foldl (fun u d => (u.wreckPush rq d).wreckPush rs d) u =
        { u with alm := (l.foldl (fun u d => (u.wreckPush rq d).wreckPush rs d) u).alm } := by
    intro rq rs l
    induction l with
    | nil => exact fun u => rfl
    | cons d l ih =>
      intro u
      rw [List.foldl_cons, ih, wreckPush_frame (u.wreckPush rq d), wreckPush_frame u]
  unfold State.traceAccess
  dsimp only
  rw [hfold]
  cases a.tid <;> rfl

theorem wr_frame (s : State) (r : Row) (ix : List Nat) (v : Nat) : s.wr r ix v = { s with words := (s.wr r ix v).words } :=
  rfl

/-- Bringing the counters of a port's tracker up to date changes words only. -/
theorem syncPort_frame (s : State) (p extra : Nat) : s.syncPort p extra = { s with words := (s.syncPort p extra).words } := by
  unfold State.syncPort
  dsimp only
  split
  · rw [wr_frame, wr_frame s]
  · rw [wr_frame]

theorem openTxn_fab (s : State) (x : Txn) :
    (s.openTxn x).fab = { s.fab with open_ := s.fab.open_ ++ [x], nextId := max s.fab.nextId (x.id + 1) } := by
  rw [State.openTxn, syncPort_frame]

theorem openTxn_mem (s : State) (x : Txn) : (s.openTxn x).mem = s.mem := by
  rw [State.openTxn, syncPort_frame]

/-! ### What the initiator of a posted or an open transaction sees -/

/-- What a posted write leaves: it stands in its bridge, and its initiator has ST_OK. -/
theorem busAnswer_of_posted (s : State) (a : Access) (t : Target) (pa : Nat) (p : Posted) (next : Nat) :
    let u : State := { s with fab := { s.fab with posted := s.fab.posted ++ [p], nextId := next } }
    let z := (u.traceAccess a t pa true .ok).busAnswer (.done .ok [])
    z.resp = ⟨.ok, 0⟩ ∧ z.mem = s.mem ∧ z.fab.posted = s.fab.posted ++ [p] := by
  intro u
  rw [traceAccess_frame]
  exact ⟨rfl, rfl, rfl⟩

/-- What a transaction that stays open leaves (R186): it is among the open ones, and the next takes the number after it. -/
theorem busAnswer_of_open (s : State) {x : Txn} (hid : x.id = s.fab.nextId) :
    let z := (s.openTxn x).busAnswer (.waits s.fab.nextId none)
    z.resp = ⟨.queued, 0⟩ ∧ z.fab.nextId = s.fab.nextId + 1 ∧ z.mem = s.mem ∧ x ∈ z.fab.open_ := by
  refine ⟨rfl, ?_, openTxn_mem s x, ?_⟩
  · show (s.openTxn x).fab.nextId = _
    rw [openTxn_fab, hid]
    exact Nat.max_eq_right (Nat.le_succ _)
  · show x ∈ (s.openTxn x).fab.open_
    rw [openTxn_fab]
    exact List.mem_append_right _ (List.mem_singleton_self x)

/-! ### Timeouts, late responses, posted errors and freezes -/

theorem execFabricTimeout_of_frozen {s : State} {id : Nat} {x : Txn}
    (hx : s.fab.open_.find? (fun t => t.id = id && !t.frozen && !t.expired) = some x)
    (hfrozen : ∃ l ∈ x.layers, l ∈ s.fab.frozen) : execFabricTimeout id s = .next s := by
  have hany : x.layers.any s.fab.frozen.contains = true := by simpa using hfrozen
  simp only [execFabricTimeout, hx, hany, if_true]

theorem execFabricTimeout_of_free {s : State} {id : Nat} {x : Txn}
    (hx : s.fab.open_.find? (fun t => t.id = id && !t.frozen && !t.expired) = some x)
    (hfree : ∀ l ∈ x.layers, l ∉ s.fab.frozen) :
    execFabricTimeout id s = .next ((({ s with fab := { s.fab with
      open_ := s.fab.open_.map (fun (y : Txn) => if y.id = id then { y with expired := true } else y) } }).syncPort
        x.port 0).endTxn x .timeout).retryHeld := by
  have hany : x.layers.any s.fab.frozen.contains = false := by simpa using hfree
  simp only [execFabricTimeout, hx, hany, Bool.false_eq_true, if_false]

theorem execLateResponse_of_expired {s : State} {id : Nat} {x : Txn}
    (hx : s.fab.open_.find? (fun t => t.id = id && t.expired) = some x) :
    execLateResponse id s = .next (({ s with fab := { s.fab with
      open_ := s.fab.open_.filter (fun (y : Txn) => y.id ≠ id) } }).incWrap Reg.MAT_TRK_LATE [x.port] 1) := by
  simp only [execLateResponse, hx]

theorem execPostedWriteError_cons {s : State} {p : Posted} {rest : List Posted} (st : Status)
    (hposted : s.fab.posted = p :: rest) :
    execPostedWriteError st s =
      .next (({ s with fab := { s.fab with posted := rest } }).postedError p.acc p.addr p.layer st) := by
  simp only [execPostedWriteError, hposted]

theorem execFreezeRelease_of_frozen {s : State} (hfrozen : s.fab.frozen ≠ []) :
    execFreezeRelease s = .next ((s.fab.open_.filter (fun t => t.frozen)).foldl State.resumeOne
      ({ s with fab := { s.fab with frozen := [] } }.wr Reg.MAT_FREEZE_FROZEN [] 0)).retryHeld := by
  have hempty : s.fab.frozen.isEmpty = false := by simpa using hfrozen
  simp only [execFreezeRelease, hempty, Bool.false_eq_true, if_false]

theorem execFreezeLimitExpiry_of_frozen {s : State} (hfrozen : s.fab.frozen ≠ []) (hup : s.boot.mainUp = true)
    (hwarm : s.boot.warm = false) (hrestart : s.saf.restart = none) :
    execFreezeLimitExpiry s = .next { s with saf := { s.saf with restart := some 17 } } := by
  have hempty : s.fab.frozen.isEmpty = false := by simpa using hfrozen
  simp only [execFreezeLimitExpiry, hempty, hup, hwarm, hrestart, Option.isNone_none, Bool.not_false, Bool.and_true,
    if_true]

/-! ### O28 -/

/-- Settles O28: a request is followed from its port through the TTU and Orrery to its target, where it is posted, stays
open or is answered; the other commands are read off their equations. -/
theorem transactionsCrossTheFabric : Obligations.TransactionsCrossTheFabric := by
  unfold Obligations.TransactionsCrossTheFabric
  intro s
  refine ⟨?_, fun id x hx => ⟨execFabricTimeout_of_frozen hx, execFabricTimeout_of_free hx⟩,
    fun id x hx => execLateResponse_of_expired hx, fun p rest st hposted => execPostedWriteError_cons st hposted,
    execFreezeRelease_of_frozen, execFreezeLimitExpiry_of_frozen⟩
  intro a addr size w e x hgate htag hsize hmax hlen hfits hmsi hx
  have hexec : exec (.fabricRequest a addr size w e) s = .next (s.requests a x w e (requestParts a x size)) :=
    execFabricRequest_of_wellFormed e hgate htag hsize hmax hlen hfits hmsi hx
  refine ⟨hexec, fun hparts => ?_⟩
  intro q
  rw [hparts, requests_singleton] at hexec
  have hanswer : ∀ r t, s.bus q .ask = (r, t) → exec (.fabricRequest a addr size w e) s = .next (t.busAnswer r) :=
    fun r t hbus => hexec.trans (congrArg _ (request_of_bus hbus))
  refine ⟨hanswer, ?_⟩
  intro u v y pa mt hup hdown hroom htid hfree hport httu t m hposted hfrozen hlink hpay hrun hgov
  have hbus : s.bus q .ask = y.busAct { q with adm := some m, paid := true } m t := by
    rw [bus_ask_of_free (q := q) rfl hup hdown hroom htid hfree, busIn_of_admitted (q := q) rfl hport httu]
    exact busOn_of_free (q := { q with paid := false }) (m := m) rfl hposted hfrozen hlink hpay hgov
  refine ⟨fun hpost => ?_, fun hpost hfound => ⟨fun herr => ?_, fun herr hkind st z hwrite => ?_,
    fun herr hkind st bs z hread => ?_⟩⟩
  · exact ⟨_, hanswer _ _ (hbus.trans (busAct_of_posted hrun hpost)), busAnswer_of_posted y a t pa _ _⟩
  · obtain ⟨hresp, hnext, hmem, hopen⟩ := busAnswer_of_open y (x := { y.txnOf q t t.endLayer with rx := none }) rfl
    exact ⟨_, hanswer _ _ (hbus.trans (busAct_of_silent hrun hpost hfound herr)), hresp, hnext, hmem, _, hopen,
      rfl, rfl, rfl, rfl, rfl, rfl⟩
  · exact hanswer _ _ (hbus.trans (busAct_of_write hrun hpost hfound herr hkind hwrite))
  · exact hanswer _ _ (hbus.trans (busAct_of_read hrun hpost hfound herr hkind hread))

end Sys2Proof.Machine
end

section
/-! The commands of an engine as attempts (log entry 40): an attempt waits, runs to its end, or stops at an access. -/

namespace Sys2Proof.Machine

/-! ### Attempts -/

theorem attempt_of_waits {s : State} {p : Nat} {u : Option Nat} {f : State → Host.Outcome State Fault Refusal}
    (hwaits : s.partyWaits p = true) : s.attempt p u f = .next s := by
  rw [State.attempt, if_pos hwaits]

section
variable {s t : State} {p : Nat} {u : Option Nat} {f : State → Host.Outcome State Fault Refusal}
  (hwaits : s.partyWaits p = false) (hrun : f (s.inRun p) = .next t)
include hwaits hrun

/-- An attempt that no access stops leaves what its run leaves. -/
theorem attempt_of_unstopped (hstall : t.fab.stall = none) : s.attempt p u f = .next (t.ended p) := by
  have hrun' : f { s with fab := { s.fab with runner := some p, stall := none, spent := [] } } = .next t := hrun
  simp only [State.attempt, hwaits, hrun', hstall, Bool.false_eq_true, if_false]

theorem attempt_of_stopped {x : Stall} (hstall : t.fab.stall = some x) :
    s.attempt p u f = .next (s.stalled t p u x) := by
  have hrun' : f { s with fab := { s.fab with runner := some p, stall := none, spent := [] } } = .next t := hrun
  simp only [State.attempt, hwaits, hrun', hstall, Bool.false_eq_true, if_false]

end

theorem partyWaits_of_fresh {s : State} {p : Nat} (h : s.fresh p = true) : s.partyWaits p = false := by
  simp only [State.fresh, Bool.and_eq_true, Bool.not_eq_true'] at h
  obtain ⟨⟨⟨⟨⟨hwaits, -⟩, -⟩, -⟩, -⟩, -⟩ := h
  exact hwaits

/-- Nothing is left of a run of a fresh engine in which nothing happens. -/
theorem ended_inRun_of_fresh {s : State} {p : Nat} (h : s.fresh p = true) : (s.inRun p).ended p = s := by
  simp only [State.fresh, Bool.and_eq_true, Option.isNone_iff_eq_none, List.isEmpty_iff, List.all_eq_true] at h
  obtain ⟨⟨⟨⟨⟨-, hrunner⟩, hstall⟩, hspent⟩, hanswers⟩, hprepaid⟩ := h
  have hans : s.fab.answers.filter (fun e => e.1 ≠ p) = s.fab.answers := List.filter_eq_self.2 hanswers
  have hpre : s.orr.prepaid.filter (fun e => e.1 / 64 ≠ p) = s.orr.prepaid := List.filter_eq_self.2 hprepaid
  calc (s.inRun p).ended p
      = { s with orr := { s.orr with prepaid := s.orr.prepaid.filter (fun e => e.1 / 64 ≠ p) }
                 fab := { s.fab with runner := none, stall := none, spent := [],
                                     answers := s.fab.answers.filter (fun e => e.1 ≠ p) } } := rfl
    _ = { s with fab := { s.fab with runner := s.fab.runner, stall := s.fab.stall, spent := s.fab.spent } } := by
      rw [hpre, hans, hrunner, hstall, hspent]
    _ = s := rfl

/-- An attempt of a fresh engine in which nothing happens leaves the state as it was. -/
theorem attempt_of_idle {s : State} {p : Nat} {u : Option Nat} {f : State → Host.Outcome State Fault Refusal}
    (hfresh : s.fresh p = true) (hrun : f (s.inRun p) = .next (s.inRun p)) : s.attempt p u f = .next s := by
  have hended := ended_inRun_of_fresh hfresh
  rw [attempt_of_unstopped (partyWaits_of_fresh hfresh) hrun rfl, hended]

/-! ### What a stopped attempt leaves unchanged -/

theorem raise_frame (s : State) (e : Nat) : s.raise e = { s with saf := (s.raise e).saf } := by
  unfold State.raise
  split <;> rfl

theorem freeze_mem_cmp (s : State) (tag : Nat) (write : Bool) (pa l : Nat) :
    (s.freeze tag write pa l).mem = s.mem ∧ (s.freeze tag write pa l).cmp = s.cmp := by
  rw [State.freeze, raise_frame]
  simp only [State.decLog, State.incSat, State.wrPair, wreckTrigger_mem, wreckTrigger_cmp, wr_mem, wr_cmp, and_self]

theorem openTxn_cmp (s : State) (x : Txn) : (s.openTxn x).cmp = s.cmp := by
  rw [State.openTxn, syncPort_frame]

/-- A stopped attempt has changed neither memory nor the CMP. -/
theorem stalled_mem_cmp (s t : State) (p : Nat) (u : Option Nat) (x : Stall) :
    (s.stalled t p u x).mem = s.mem ∧ (s.stalled t p u x).cmp = s.cmp := by
  cases x with
  | need tag l => exact ⟨rfl, rfl⟩
  | governor k q => exact ⟨rfl, rfl⟩
  | open_ y froze =>
    unfold State.stalled
    dsimp only
    rw [openTxn_mem, openTxn_cmp]
    cases froze with
    | none => exact ⟨rfl, rfl⟩
    | some f => exact freeze_mem_cmp _ _ _ _ _

end Sys2Proof.Machine
end

section
/-! O27: a period boundary, an arbitration instant, and a slice that gives way. The boundary's own words are read after
its passes over the requests and the resources, all of whose writes lie in tables behind PERIOD_NO. -/

namespace Sys2Proof.Machine

/-! ### The boundary (R157 to R160, R165) -/

/-- A write to a table leaves alone a field of a word before the table. -/
theorem rd_wr_before (s : State) {q r : Row} {jx : List Nat} (ix : List Nat) (v : Nat)
    (h : q.key jx < wordKey r.space r.base) : (s.wr r ix v).rd q jx = s.rd q jx := by
  refine rd_wr_ne s r q ix jx v ?_
  simp only [Row.key, wordKey] at h ⊢
  omega

/-- A pass of steps that each leave a field alone leaves it alone. -/
theorem rd_foldl {α : Type} {q : Row} {jx : List Nat} {f : State → α → State}
    (hf : ∀ s a, (f s a).rd q jx = s.rd q jx) (l : List α) (s : State) : (l.foldl f s).rd q jx = s.rd q jx := by
  induction l generalizing s with
  | nil => rfl
  | cons a l ih => rw [List.foldl_cons, ih, hf]

theorem rd_lt (s : State) (r : Row) (ix : List Nat) : s.rd r ix < 2 ^ r.width :=
  Nat.mod_lt _ (Nat.two_pow_pos _)

theorem rd_raise (s : State) (e : Nat) (q : Row) (jx : List Nat) : (s.raise e).rd q jx = s.rd q jx := by
  rw [raise_frame]
  rfl

theorem rd_record_before (s : State) (code tag : Nat) (payload : List Byte) {q : Row} {jx : List Nat}
    (h : q.key jx < wordKey Reg.ALM_STAT_LOST.space Reg.ALM_STAT_LOST.base) :
    (s.record code tag payload).rd q jx = s.rd q jx := by
  have hne : q.key jx ≠ Reg.ALM_STAT_LOST.key [] := Nat.ne_of_lt h
  simp only [State.rd, word_record_ne s code tag payload hne]

theorem rd_periodNo_deferReq (s : State) (q : OrrReq) :
    (s.deferReq q).rd Reg.ORR_STAT_PERIOD_NO [] = s.rd Reg.ORR_STAT_PERIOD_NO [] := by
  have hpass : ∀ l : List (Nat × Nat), (l.foldl (fun s e =>
      (s.incWrap Reg.ORR_CNT_DEFERRED [activity e.1 q.tag] 1).wr Reg.ORR_BUDGET_LAST [activity e.1 q.tag]
        (statusCode .deferred)) s).rd Reg.ORR_STAT_PERIOD_NO [] = s.rd Reg.ORR_STAT_PERIOD_NO [] := by
    refine fun l => rd_foldl (fun s e => ?_) l s
    simp (disch := decide) only [State.incWrap, rd_wr_before]
  rw [State.deferReq]
  split
  · rfl
  · cases q.ctx <;> cases q.job <;> exact hpass q.need

theorem rd_periodNo_setEff (s : State) (r : Nat) (e : Nat × Nat) :
    (s.setEff r e).rd Reg.ORR_STAT_PERIOD_NO [] = s.rd Reg.ORR_STAT_PERIOD_NO [] := by
  show ((s.wr Reg.ORR_BUDGET_EFF [activity r e.1] e.2).wr Reg.ORR_BUDGET_USED [activity r e.1] 0).rd
    Reg.ORR_STAT_PERIOD_NO [] = _
  simp (disch := decide) only [rd_wr_before]

theorem rd_periodNo_boundaryRes (p : Nat) (s : State) (r : Nat) :
    (s.boundaryRes p r).rd Reg.ORR_STAT_PERIOD_NO [] = s.rd Reg.ORR_STAT_PERIOD_NO [] := by
  have hrows : ∀ (l : List (Nat × Nat)) (cap level factor last : Nat), (l.foldl (fun t e => t.setEff r e)
      ((((s.wr Reg.ORR_RES_CAP [r] cap).wr Reg.ORR_RES_LEVEL [r] level).wr Reg.ORR_RES_FACTOR [r] factor).wr
        Reg.ORR_RES_SLACK_LAST [r] last)).rd Reg.ORR_STAT_PERIOD_NO [] = s.rd Reg.ORR_STAT_PERIOD_NO [] := by
    intro l cap level factor last
    rw [rd_foldl (fun t e => rd_periodNo_setEff t r e)]
    simp (disch := decide) only [rd_wr_before]
  unfold State.boundaryRes
  dsimp only
  split
  · rw [rd_raise, rd_record_before _ _ _ _ (by decide)]
    exact hrows _ _ _ _ _
  · exact hrows _ _ _ _ _

/-- The state of a boundary after its passes over the waiting requests and over the resources. -/
def State.renewed (s : State) : State :=
  let t := s.orr.waiting.foldl State.deferReq s
  (presentRes t.fuses).foldl (State.boundaryRes (s.rd Reg.ORR_CFG_PERIOD [])) t

theorem rd_periodNo_renewed (s : State) : s.renewed.rd Reg.ORR_STAT_PERIOD_NO [] = s.rd Reg.ORR_STAT_PERIOD_NO [] := by
  rw [State.renewed, rd_foldl (rd_periodNo_boundaryRes _), rd_foldl rd_periodNo_deferReq]

/-- After its passes the boundary starts the accounts of the period anew, and sets ACTIVE_PERIOD and PERIOD_NO. -/
theorem boundary_eq (s : State) :
    s.boundary = (({ s.renewed with orr := { s.renewed.orr with
      slackNow := [], used := [], slackOff := s.renewed.slackOffNow } }).wr Reg.ORR_ACTIVE_PERIOD []
        (s.rd Reg.ORR_CFG_PERIOD [])).incWrap Reg.ORR_STAT_PERIOD_NO [] 1 := rfl

/-- The boundary takes CFG.PERIOD as the running period, counts it, and leaves no unit as used. -/
theorem boundary_period (s : State) :
    s.boundary.rd Reg.ORR_ACTIVE_PERIOD [] = s.rd Reg.ORR_CFG_PERIOD [] ∧ s.boundary.orr.used = []
      ∧ s.boundary.orr.slackNow = []
      ∧ s.boundary.rd Reg.ORR_STAT_PERIOD_NO [] = (s.rd Reg.ORR_STAT_PERIOD_NO [] + 1) % 2 ^ 32 := by
  have hcount := rd_periodNo_renewed s
  rw [boundary_eq]
  generalize s.renewed = t at hcount ⊢
  refine ⟨?_, rfl, rfl, ?_⟩
  · rw [State.incWrap, rd_wr_beside _ _ _ (by decide), rd_wr_same _ _ _ _ (by decide)]
    exact Nat.mod_eq_of_lt (rd_lt s _ _)
  · rw [State.incWrap, rd_wr_same _ _ _ _ (by decide), rd_wr_beside _ _ _ (by decide), ← hcount]
    rfl

/-! ### Arbitration (R163) -/

/-- A resource of the variant arbitrates while the main domain is up. -/
theorem execOrreryArbitration_present {s : State} {r : Nat} (hr : r < 41)
    (hpresent : wordAbsent s.fuses 0x03 (0x100 + 4 * r) = false) (hup : s.boot.mainUp = true) :
    execOrreryArbitration r s = .next ((s.arbitrate r).issueGranted.schedule) := by
  have hres : (presentRes s.fuses).contains r = true := by simp [presentRes, hr, hpresent]
  simp only [execOrreryArbitration, hres, hup, Bool.not_true, Bool.false_eq_true, if_false]

theorem arbitrate_of_winner {s : State} {r : Nat} {q : OrrReq} (h : s.winner r = some q) :
    s.arbitrate r = s.grantReq r q := by
  simp only [State.arbitrate, h]

theorem arbitrate_of_no_winner {s : State} {r : Nat} (h : s.winner r = none) : s.arbitrate r = s := by
  simp only [State.arbitrate, h]

/-! ### Slices (R171, R172) -/

theorem execSlicePreempt_tile {s : State} {k : Nat} (hk : k < s.fuses.variant.tiles) :
    execSlicePreempt false k s =
      s.attempt (partyTile k) none (fun s => if s.tilePreempted k then go (s.switchTile k) else go s) := by
  simp only [execSlicePreempt, Nat.not_le.2 hk, ge_iff_le, Bool.false_eq_true, if_false]

section
variable {s : State} {k r : Nat} (hk : k < 8) (hfresh : s.fresh (partyCluster k) = true)
  (hres : (s.inRun (partyCluster k)).clResident k = some r)
include hk hfresh hres

/-- A cluster whose resident gives way switches. -/
theorem execSlicePreempt_cluster_of_due
    (hdue : (s.inRun (partyCluster k)).clSpent k r = true
      ∨ ∃ g, (s.inRun (partyCluster k)).clIncoming k = some g ∧ (s.inRun (partyCluster k)).clPreempted k g r = true)
    (hstall : ((s.inRun (partyCluster k)).switchCluster k).fab.stall = none) :
    execSlicePreempt true k s = .next (((s.inRun (partyCluster k)).switchCluster k).ended (partyCluster k)) := by
  simp only [execSlicePreempt, Nat.not_le.2 hk, ge_iff_le, if_true, if_false]
  refine attempt_of_unstopped (partyWaits_of_fresh hfresh) ?_ hstall
  rcases hdue with hspent | ⟨g, hnext, hpre⟩
  · simp only [hres, hspent, Bool.true_or, if_true]
  · simp only [hres, hnext, hpre, Bool.or_true, if_true]

theorem execSlicePreempt_cluster_of_not_due (hspent : (s.inRun (partyCluster k)).clSpent k r = false)
    (hpre : ∀ g, (s.inRun (partyCluster k)).clIncoming k = some g → (s.inRun (partyCluster k)).clPreempted k g r = false) :
    execSlicePreempt true k s = .next s := by
  simp only [execSlicePreempt, Nat.not_le.2 hk, ge_iff_le, if_true, if_false]
  refine attempt_of_idle hfresh ?_
  cases hnext : (s.inRun (partyCluster k)).clIncoming k with
  | none => simp only [hres, hspent, Bool.or_false, Bool.false_eq_true, if_false]
  | some g => simp only [hres, hspent, hpre g hnext, Bool.or_false, Bool.false_eq_true, if_false]

end

/-! ### O27 -/

/-- Settles O27: the boundary by its passes, an arbitration instant by its winner, and the commands of a slice as attempts
of its engine, which wait, run to their end, stop, or find nothing to do. -/
theorem periodsAndArbitration : Obligations.PeriodsAndArbitration := by
  unfold Obligations.PeriodsAndArbitration
  intro s
  refine ⟨fun hup => ?_, boundary_period s, fun r hr hpresent hup => ?_, fun p u f => ?_,
    fun k hk hfresh => ?_, fun k r hk hfresh => ?_⟩
  · show execPeriodBoundary s = _
    simp only [execPeriodBoundary, hup, Bool.not_true, Bool.false_eq_true, if_false]
  · have hexec : exec (.orreryArbitration r) s = .next ((s.arbitrate r).issueGranted.schedule) :=
      execOrreryArbitration_present hr hpresent hup
    exact ⟨fun q hwin => by rw [hexec, arbitrate_of_winner hwin], fun hnone => by rw [hexec, arbitrate_of_no_winner hnone]⟩
  · refine ⟨attempt_of_waits, fun t hwaits hrun => ⟨attempt_of_unstopped hwaits hrun, fun x hstall => ?_⟩⟩
    obtain ⟨hmem, hcmp⟩ := stalled_mem_cmp s t p u x
    exact ⟨_, attempt_of_stopped hwaits hrun hstall, rfl, hmem, hcmp⟩
  · have hexec : exec (.slicePreempt false k) s = _ := execSlicePreempt_tile hk
    refine ⟨fun hpre hstall => ?_, fun hstay => ?_⟩
    · exact hexec.trans (attempt_of_unstopped (partyWaits_of_fresh hfresh) (if_pos hpre) hstall)
    · exact hexec.trans (attempt_of_idle hfresh (if_neg (Bool.eq_false_iff.1 hstay)))
  · intro v hres
    exact ⟨execSlicePreempt_cluster_of_due hk hfresh hres, execSlicePreempt_cluster_of_not_due hk hfresh hres⟩

end Sys2Proof.Machine
end

section
/-! O49: compute jobs and the switches of a cluster, as attempts of their engines, and the holds of R363. -/

namespace Sys2Proof.Machine

/-! ### Compute jobs (R359, R360) -/

/-- The command of a job of graphics leaves what its run does, where no access stops it. -/
theorem jobRun_of_fresh {s t : State} {u : Nat} {f : State → State} (hfresh : s.fresh (partyJob u) = true)
    (hrun : f (s.inRun (partyJob u)) = t) (hstall : t.syncClusters.fab.stall = none) :
    s.jobRun u f = .next (t.syncClusters.ended (partyJob u)) :=
  attempt_of_unstopped (partyWaits_of_fresh hfresh) (congrArg goG hrun) hstall

section
variable {s : State} {u : Nat} {j : CompJob} (hjob : (s.inRun (partyJob u)).compJob u = some j)
  (hfresh : s.fresh (partyJob u) = true)
include hjob hfresh

/-- A job with no wait address starts. -/
theorem execComputeJobStart_of_no_wait (hstarted : j.started = false) (hup : (s.inRun (partyJob u)).boot.mainUp = true)
    (hword : bitsOf j.desc 224 48 = 0)
    (hstall : ((s.inRun (partyJob u)).setCompJob { j with started := true }).syncClusters.fab.stall = none) :
    execComputeJobStart u s =
      .next (((s.inRun (partyJob u)).setCompJob { j with started := true }).syncClusters.ended (partyJob u)) := by
  refine jobRun_of_fresh hfresh ?_ hstall
  simp only [hjob, hstarted, hup, hword, Bool.not_true, Bool.or_false, Bool.false_eq_true, if_false, if_true]

/-- What the read of its wait word decides of a job: it ends, starts, or goes on waiting. -/
def State.compWaited (t : State) (u : Nat) (j : CompJob) (st : Status) (v : Nat) : State :=
  if st ≠ .ok then t.compEnd u st
  else if v % 2 ^ 32 &&& bitsOf j.desc 320 32 = bitsOf j.desc 288 32 then t.setCompJob { j with started := true }
  else t

theorem execComputeJobStart_of_wait (hstarted : j.started = false) (hup : (s.inRun (partyJob u)).boot.mainUp = true)
    (hword : bitsOf j.desc 224 48 ≠ 0) {st : Status} {v : Nat} {t : State}
    (hread : (s.inRun (partyJob u)).dmaNum (gfxAccess j.inst (compPid j.desc)) (bitsOf j.desc 224 48) 8 = (st, v, t))
    (hstall : (t.compWaited u j st v).syncClusters.fab.stall = none) :
    execComputeJobStart u s = .next ((t.compWaited u j st v).syncClusters.ended (partyJob u)) := by
  refine jobRun_of_fresh hfresh ?_ hstall
  simp only [hjob, hstarted, hup, hword, hread, Bool.not_true, Bool.or_false, Bool.false_eq_true, if_false]
  rfl

theorem execComputeWaitTimeout_of_wait (hstarted : j.started = false) (hword : bitsOf j.desc 224 48 ≠ 0)
    (hstall : ((s.inRun (partyJob u)).compEnd u .timeout).syncClusters.fab.stall = none) :
    execComputeWaitTimeout u s =
      .next (((s.inRun (partyJob u)).compEnd u .timeout).syncClusters.ended (partyJob u)) := by
  refine jobRun_of_fresh hfresh ?_ hstall
  simp only [hjob, hstarted, hword, decide_false, Bool.or_false, Bool.false_eq_true, if_false]

/-- The end of a job whose writes are visible: its signal, its message, and its record. -/
def State.compFinish (t : State) (u : Nat) (j : CompJob) : State :=
  let (st, r) := t.compSignal j
  if st ≠ .ok then r.compEnd u st
  else if bitAt j.desc 432 then (r.send j.inst (bitsOf j.desc 433 11)).compEnd u .ok else r.compEnd u .ok

theorem execComputeJobComplete_of_ended {cyc : Nat} (hstarted : j.started = true)
    (hended : compGroups j.desc * compThreads j.desc ≤ j.ended)
    (hstall : (((s.inRun (partyJob u)).payJob u 23 (cyc - j.ran)).afterWrites (gfxAccess j.inst 0)
      (fun t => t.compFinish u j)).syncClusters.fab.stall = none) :
    execComputeJobComplete u cyc s = .next ((((s.inRun (partyJob u)).payJob u 23 (cyc - j.ran)).afterWrites
      (gfxAccess j.inst 0) (fun t => t.compFinish u j)).syncClusters.ended (partyJob u)) := by
  refine jobRun_of_fresh hfresh ?_ hstall
  simp only [hjob, hstarted, Nat.not_lt.2 hended, decide_false, Bool.not_true, Bool.or_false, Bool.false_eq_true, if_false]
  congr 1
  funext t
  rw [State.compFinish]
  rcases t.compSignal j with ⟨st, r⟩
  dsimp only
  split
  · rfl
  · split <;> rfl

end

/-! ### Switching (R171, R172, R361) -/

section
variable {v : State} {c : Nat} (hup : v.boot.mainUp = true)
include hup

/-- A cluster with no resident takes the grantee that is next. -/
theorem switchCluster_of_vacant {g : Nat} (hres : v.clResident c = none) (hnext : v.clIncoming c = some g) :
    v.switchCluster c = (v.restoreCluster c g).syncClusters := by
  simp only [State.switchCluster, hup, hres, hnext, Bool.not_true, Bool.false_eq_true, if_false]

/-- With no grantee next, the resident leaves the cluster when its allowance no longer carries it. -/
theorem switchCluster_of_no_next {r : Nat} (hres : v.clResident c = some r) (hnext : v.clIncoming c = none) :
    v.switchCluster c = if v.clSpent c r then ((v.clEvict c r).wr Reg.GFX_CL_RES_VALID [c] 0).syncClusters else v := by
  simp only [State.switchCluster, hup, hres, hnext, Bool.not_true, Bool.false_eq_true, if_false]

theorem switchCluster_of_next {r g : Nat} (hres : v.clResident c = some r) (hnext : v.clIncoming c = some g) :
    v.switchCluster c =
      if v.clPreempted c g r || v.clSpent c r then ((v.clEvict c r).restoreCluster c g).syncClusters
      else if v.clRunnable c r then v
      else ((v.saveCluster c r).restoreCluster c g).syncClusters := by
  simp only [State.switchCluster, hup, hres, hnext, Bool.not_true, Bool.false_eq_true, if_false]

end

/-- A resident with no work to run is neither pre-empted nor spent. -/
theorem clPreempted_clSpent_of_not_runnable {v : State} {c r : Nat} (h : v.clRunnable c r = false) (g : Nat) :
    v.clPreempted c g r = false ∧ v.clSpent c r = false := by
  simp only [State.clPreempted, State.clSpent, h, Bool.false_and, and_self]

section
variable {s : State} {c : Nat} (hc : c < 8) (hfresh : s.fresh (partyCluster c) = true)
include hc hfresh

theorem execClusterSwitch_of_switch {t : State} (hswitch : (s.inRun (partyCluster c)).switchCluster c = t)
    (hstall : t.fab.stall = none) : execClusterSwitch c s = .next (t.ended (partyCluster c)) := by
  rw [execClusterSwitch, if_neg (Nat.not_le.2 hc)]
  exact attempt_of_unstopped (partyWaits_of_fresh hfresh) (congrArg go hswitch) hstall

theorem execClusterSwitch_of_stay (hstay : (s.inRun (partyCluster c)).switchCluster c = s.inRun (partyCluster c)) :
    execClusterSwitch c s = .next s := by
  rw [execClusterSwitch, if_neg (Nat.not_le.2 hc)]
  exact attempt_of_idle hfresh (congrArg go hstay)

end

/-- A restored grantee is the resident of the cluster. -/
theorem rd_restoreCluster (s : State) (c g : Nat) :
    (s.restoreCluster c g).rd Reg.GFX_CL_RES_G [c] = g % 4 ∧ (s.restoreCluster c g).rd Reg.GFX_CL_RES_VALID [c] = 1 := by
  have hset : ∃ t : State, s.restoreCluster c g = (t.wr Reg.GFX_CL_RES_G [c] g).wr Reg.GFX_CL_RES_VALID [c] 1 :=
    ⟨_, rfl⟩
  obtain ⟨t, ht⟩ := hset
  rw [ht, rd_wr_beside _ _ _ (by decide), rd_wr_same _ _ _ _ (by decide), rd_wr_same _ _ _ _ (by decide)]
  exact ⟨rfl, rfl⟩

/-! ### Deadlines (R363) -/

/-- The clusters, with the context, of the streams that feed display pipe `d`. -/
def State.deadlineHolds (s : State) (d : Nat) : List (Nat × Nat) :=
  (s.gfx.jobs.filter (fun j => s.rd Reg.GFX_GCTX_DL_PIPE [j.gctx] = d + 1)).flatMap
    (fun j => ((List.range 8).filter (fun c => bitAt j.mask c)).map (fun c => (c, j.gctx)))

theorem mem_deadlineHolds {s : State} {d c n : Nat} :
    (c, n) ∈ s.deadlineHolds d ↔
      ∃ j ∈ s.gfx.jobs, j.gctx = n ∧ s.rd Reg.GFX_GCTX_DL_PIPE [n] = d + 1 ∧ bitAt j.mask c = true ∧ c < 8 := by
  simp only [State.deadlineHolds, List.mem_flatMap, List.mem_filter, List.mem_map, List.mem_range, decide_eq_true_eq,
    Prod.mk.injEq]
  constructor
  · rintro ⟨j, ⟨hj, hpipe⟩, x, ⟨hx, hbit⟩, rfl, rfl⟩
    exact ⟨j, hj, rfl, hpipe, hbit, hx⟩
  · rintro ⟨j, hj, rfl, hpipe, hbit, hc⟩
    exact ⟨j, ⟨hj, hpipe⟩, c, ⟨hc, hbit⟩, rfl, rfl⟩

/-- The C2 and C3 compute jobs that those clusters run for others than their contexts (R363). -/
def State.deadlineHits (s : State) (d : Nat) : List CompJob :=
  s.gfx.comps.filter (fun k => (s.deadlineHolds d).any (fun h =>
    s.rd Reg.GFX_GCTX_INST [h.2] ≠ k.inst && 2 ≤ s.classOf k.inst && !s.heldFor h.1 k.inst
      && (match s.clResident h.1 with | some g => s.compOn h.1 g k | none => false)))

/-- Such a job bears the tag that a slice names, in 6 bits. -/
theorem inst_lt_of_mem_deadlineHits {s : State} {d : Nat} {k : CompJob} (h : k ∈ s.deadlineHits d) : k.inst < 64 := by
  simp only [State.deadlineHits, List.mem_filter, List.any_eq_true, Bool.and_eq_true] at h
  obtain ⟨-, e, -, -, hon⟩ := h
  cases hres : s.clResident e.1 with
  | none => simp [hres] at hon
  | some g =>
    simp only [hres, State.compOn, Bool.and_eq_true, decide_eq_true_eq] at hon
    obtain ⟨⟨⟨-, hinst⟩, -⟩, -⟩ := hon
    rw [hinst]
    exact rd_lt s Reg.GFX_SLICE_INST [e.1, g]

/-- The jobs counted, each in CSTAT.DL_PREEMPT of its own tag. -/
def State.countHits (s : State) (l : List CompJob) : State :=
  l.foldl (fun s k => s.incSat Reg.GFX_CSTAT_DL_PREEMPT [k.inst] 1) s

theorem execDeadlinePreempt_of_pipe {s : State} {d : Nat} (hd : d < 4) :
    execDeadlinePreempt d s =
      let t := s.countHits (s.deadlineHits d)
      .next (t.setGfx { t.gfx with holds := (t.gfx.holds ++ s.deadlineHolds d).eraseDups }).syncClusters := by
  rw [execDeadlinePreempt, if_neg (Nat.not_le.2 hd)]
  rfl

/-- A pass of steps that each change words only changes words only. -/
theorem foldl_words_frame {α : Type} {f : State → α → State} (hf : ∀ s a, f s a = { s with words := (f s a).words })
    (l : List α) (s : State) : l.foldl f s = { s with words := (l.foldl f s).words } := by
  induction l generalizing s with
  | nil => rfl
  | cons a l ih => rw [List.foldl_cons, ih, hf]

theorem countHits_frame (s : State) (l : List CompJob) : s.countHits l = { s with words := (s.countHits l).words } :=
  foldl_words_frame (fun s _ => incSat_frame s _ _ _) l s

theorem syncClusters_frame (s : State) : s.syncClusters = { s with words := s.syncClusters.words } :=
  foldl_words_frame (fun _ _ => rfl) _ s

theorem wordsWithin_foldl {α : Type} {f : State → α → State} {l : List α} {spaces : List Nat}
    (hf : ∀ a ∈ l, ∀ s, wordsWithin s (f s a) spaces) (s : State) : wordsWithin s (l.foldl f s) spaces := by
  induction l generalizing s with
  | nil => exact fun _ _ => rfl
  | cons a l ih =>
    obtain ⟨ha, hl⟩ := List.forall_mem_cons.1 hf
    exact fun k hk => (ih hl (f s a) k hk).trans (ha s k hk)

theorem wordsWithin_wr (s : State) (r : Row) (ix : List Nat) (v : Nat) {spaces : List Nat}
    (h : r.key ix / 2 ^ 17 ∈ spaces) : wordsWithin s (s.wr r ix v) spaces :=
  fun _ hk => word_wr_ne s r ix v fun hkey => hk (hkey ▸ h)

theorem wordsWithin_countHits (s : State) (d : Nat) : wordsWithin s (s.countHits (s.deadlineHits d)) [0x09] := by
  refine wordsWithin_foldl (fun k hk t => wordsWithin_wr t _ _ _ ?_) s
  have hinst := inst_lt_of_mem_deadlineHits hk
  have hkey : Reg.GFX_CSTAT_DL_PREEMPT.key [k.inst] = 0x09 * 2 ^ 17 + (0x200 + 4 * k.inst) := rfl
  rw [List.mem_singleton]
  omega

theorem wordsWithin_syncClusters (s : State) : wordsWithin s s.syncClusters [0x09] := by
  refine wordsWithin_foldl (fun c hc s => wordsWithin_wr s _ _ _ ?_) s
  have hlt : c < 8 := List.mem_range.1 hc
  have hkey : Reg.GFX_CL_STATE.key [c] = 0x09 * 2 ^ 17 + (0x180 + 1 * c) := rfl
  rw [List.mem_singleton]
  omega

/-- DEADLINE_PREEMPT adds its holds, and changes only counts and states of clusters beside. -/
theorem execDeadlinePreempt_holds (s : State) {d : Nat} (hd : d < 4) :
    ∃ t : State, execDeadlinePreempt d s = .next t ∧ t.mem = s.mem
      ∧ t.gfx = { s.gfx with holds := (s.gfx.holds ++ s.deadlineHolds d).eraseDups } ∧ wordsWithin s t [0x09] := by
  refine ⟨_, execDeadlinePreempt_of_pipe hd, ?_, ?_, fun k hk => ?_⟩
  · rw [syncClusters_frame, setGfx_mem, countHits_frame]
  · rw [syncClusters_frame, countHits_frame]
    rfl
  · exact (wordsWithin_syncClusters _ k hk).trans (wordsWithin_countHits s d k hk)

/-! ### O49 -/

/-- Settles O49: the commands of a compute job and of a cluster by what a fresh attempt runs, in the branches of R359 and
R361, and DEADLINE_PREEMPT by its holds and by the words that it counts in. -/
theorem computeJobsAndClusters : Obligations.ComputeJobsAndClusters := by
  unfold Obligations.ComputeJobsAndClusters
  intro s run
  refine ⟨fun u j hjob hfresh hstarted hup => ?_, fun u j cyc hjob hfresh hstarted hended => ?_,
    fun c hc hup hfresh => ?_, fun c g _ => rd_restoreCluster s c g, fun d hd => ?_⟩
  · intro c go_
    refine ⟨execComputeJobStart_of_no_wait hjob hfresh hstarted hup, fun hword st v t hread => ?_,
      execComputeWaitTimeout_of_wait hjob hfresh hstarted⟩
    have hgo : go_ (t.compWaited u j st v) := execComputeJobStart_of_wait hjob hfresh hstarted hup hword hread
    refine ⟨fun hfail => ?_, fun hok hmet => ?_, fun hok hunmet => ?_⟩
    · rwa [State.compWaited, if_pos hfail] at hgo
    · rwa [State.compWaited, if_neg (fun hfail => hfail hok), if_pos hmet] at hgo
    · rwa [State.compWaited, if_neg (fun hfail => hfail hok), if_neg hunmet] at hgo
  · exact execComputeJobComplete_of_ended hjob hfresh hstarted hended
  · intro v done
    have hdone : ∀ t : State, v.switchCluster c = t.syncClusters → done t :=
      fun t hswitch => execClusterSwitch_of_switch hc hfresh hswitch
    have hup' : v.boot.mainUp = true := hup
    refine ⟨fun r hres hnext => ?_, fun g hnext => ⟨fun hres => hdone _ (switchCluster_of_vacant hup' hres hnext),
      fun r hres => ?_⟩⟩
    · have hswitch := switchCluster_of_no_next hup' hres hnext
      exact ⟨fun hspent => hdone _ (hswitch.trans (if_pos hspent)),
        fun hkept => execClusterSwitch_of_stay hc hfresh (hswitch.trans (if_neg (Bool.eq_false_iff.1 hkept)))⟩
    · have hswitch := switchCluster_of_next hup' hres hnext
      refine ⟨fun hout => ?_, fun hpre hspent hruns => ?_, fun hidle => ?_⟩
      · exact hdone _ (hswitch.trans (if_pos (Bool.or_eq_true_iff.2 hout)))
      · refine execClusterSwitch_of_stay hc hfresh (hswitch.trans ?_)
        simp only [hpre, hspent, hruns, Bool.or_false, Bool.false_eq_true, if_false, if_true]
        rfl
      · obtain ⟨hpre, hspent⟩ := clPreempted_clSpent_of_not_runnable hidle g
        refine hdone _ (hswitch.trans ?_)
        simp only [hpre, hspent, hidle, Bool.or_false, Bool.false_eq_true, if_false]
  · obtain ⟨t, hexec, hmem, hgfx, hwords⟩ := execDeadlinePreempt_holds s hd
    refine ⟨t, hexec, hmem, by rw [hgfx], by rw [hgfx], hwords, fun c n hstream => ?_, fun e he => ?_⟩
    · rw [hgfx]
      exact List.mem_eraseDups.2 (List.mem_append_right _ (mem_deadlineHolds.2 hstream))
    · rw [hgfx]
      exact List.mem_eraseDups.2 (List.mem_append_left _ he)

end Sys2Proof.Machine
end

section
/-! O29: the messages of interrupt sources, the messages that a bridge holds, and a link that goes down and comes back.
Each command is read off an equation for each of its outcomes. -/

namespace Sys2Proof.Machine

/-! ### Interrupt sources -/

/-- The state once source `k` has risen: it is asserted, and listed last. -/
def State.risen (s : State) (k : Nat) : State :=
  { s with apc := { s.apc with asserted := s.apc.asserted.filter (· ≠ k) ++ [k] } }

theorem execSourceInterrupt_of_fall (d x : Nat) (s : State) :
    execSourceInterrupt d x false s =
      .next { s with apc := { s.apc with asserted := s.apc.asserted.filter (· ≠ 256 * d + x) } } := rfl

/-- A source that rises is asserted. An edge source then sends unless it was asserted before; a level source sends, and is
marked as having sent, where it has a vector and has not sent since its last ACK (R285). -/
theorem execSourceInterrupt_of_rise (d x : Nat) (s : State) :
    execSourceInterrupt d x true s =
      if s.flag Reg.APC_SRC_LEVEL [d, x] = true then
        if 256 * d + x ∈ s.apc.sentLevel ∨ s.rd Reg.APC_SRC_VEC [d, x] = 0 then .next (s.risen (256 * d + x))
        else .next (({ s.risen (256 * d + x) with apc := { (s.risen (256 * d + x)).apc with
          sentLevel := s.apc.sentLevel ++ [256 * d + x] } }).sourceSend d x)
      else if 256 * d + x ∈ s.apc.asserted then .next (s.risen (256 * d + x))
      else .next ((s.risen (256 * d + x)).sourceSend d x) := by
  have hvec : (s.risen (256 * d + x)).rd Reg.APC_SRC_VEC [d, x] = s.rd Reg.APC_SRC_VEC [d, x] := rfl
  simp only [State.risen] at hvec ⊢
  simp only [execSourceInterrupt, hvec, Bool.not_true, Bool.false_eq_true, if_false, Bool.or_eq_true,
    Bool.not_eq_true', List.contains_iff_mem, decide_eq_true_eq, ← Bool.not_eq_true, ite_not]

/-! ### Messages that a bridge holds -/

section
variable {s : State} {src : Nat} {m : HeldMsg} (hm : s.fab.held.find? (fun m => m.source = src) = some m)
include hm

/-- The oldest message of a die goes on once every write ahead of it is visible and its link has a credit (R205, R206). -/
theorem execInterruptMessageRelease_of_clear (hposted : ∀ p ∈ s.fab.posted, p.id ∉ m.behind)
    (hopen : ∀ t ∈ s.fab.open_, t.id ∈ m.behind → t.expired = true) (hlink : s.mayLaunch src = true) :
    execInterruptMessageRelease src s =
      .next (({ s with fab := { s.fab with held := s.fab.held.erase m } }).launch src m.msg) := by
  have hnoPosted : s.fab.posted.any (fun p => m.behind.contains p.id) = false := by simpa using hposted
  have hnoOpen : s.fab.open_.any (fun t => m.behind.contains t.id && !t.expired) = false := by simpa using hopen
  simp only [execInterruptMessageRelease, hm, hnoPosted, hnoOpen, hlink, Bool.not_true, Bool.or_false,
    Bool.false_eq_true, if_false]

/-- An earlier write that is not visible, or a link without a credit, holds the message back (R205, R206). -/
theorem execInterruptMessageRelease_of_blocked (hblocked : (∃ p ∈ s.fab.posted, p.id ∈ m.behind)
      ∨ (∃ t ∈ s.fab.open_, t.id ∈ m.behind ∧ t.expired = false) ∨ s.mayLaunch src = false) :
    execInterruptMessageRelease src s = .next s := by
  have hhold : (s.fab.posted.any (fun p => m.behind.contains p.id)
      || s.fab.open_.any (fun t => m.behind.contains t.id && !t.expired) || !s.mayLaunch src) = true := by
    simpa [or_assoc] using hblocked
  simp only [execInterruptMessageRelease, hm, hhold, if_true]

end

/-! ### Links -/

/-- The posted writes that link-down of port `n` loses: those in its bridge on their way to the XD, and those that the XD
has sent (R193). -/
def linkLoses (n : Nat) (p : Posted) : Bool := decide (p.layer = 1 + n) || decide (p.acc.src = .xd n)

/-- Port `n` in link-down, with the transition and its retries counted (R193). -/
def State.linkDropped (s : State) (n retries : Nat) : State :=
  ((s.wr Reg.MAT_LINK_STATE [n] 2).incSat Reg.MAT_LINK_DOWN [n] 1).incWrap Reg.MAT_LINK_RETRY [n] retries

/-- A port that is up or in training goes down (R193): its posted writes are lost, each is reported, and the event is
raised. -/
theorem execLinkDown_of_active {s : State} {n : Nat} (retries : Nat) (hn : n < s.fuses.variant.xds)
    (hup : s.boot.mainUp = true) (hactive : s.rd Reg.MAT_LINK_STATE [n] < 2) :
    execLinkDown n retries s = .next (((s.fab.posted.filter (linkLoses n)).foldl
      (fun (v : State) p => v.postedError p.acc p.addr p.layer .timeout)
      { s.linkDropped n retries with fab := { s.fab with posted := s.fab.posted.filter (fun p => !linkLoses n p) } }).raise 16) := by
  have hgo : (decide (n ≥ s.fuses.variant.xds) || !s.boot.mainUp || decide (s.rd Reg.MAT_LINK_STATE [n] ≥ 2)) = false := by
    simp [hn, hup, hactive]
  simp only [execLinkDown, hgo, Bool.false_eq_true, if_false]
  rfl

theorem execLinkRetrainDone_of_down {s : State} {n : Nat} (hdown : s.rd Reg.MAT_LINK_STATE [n] = 2) :
    execLinkRetrainDone n s = .next (s.wr Reg.MAT_LINK_STATE [n] 1) := if_pos hdown

theorem execLinkRetrainExpiry_of_down {s : State} {n : Nat} (hdown : s.rd Reg.MAT_LINK_STATE [n] = 2) :
    execLinkRetrainExpiry n s = .next (s.wr Reg.MAT_LINK_STATE [n] 3) := if_pos hdown

/-! ### O29 -/

/-- Settles O29: the branch of R285 that a rising source takes is chosen by its kind and by what it has sent; the other
commands are read off their equations. -/
theorem messagesAndLinks : Obligations.MessagesAndLinks := by
  unfold Obligations.MessagesAndLinks
  intro s
  refine ⟨fun d x => ?_,
    fun src m hm => ⟨execInterruptMessageRelease_of_clear hm, execInterruptMessageRelease_of_blocked hm⟩,
    fun n retries => execLinkDown_of_active retries,
    fun n hdown => ⟨execLinkRetrainDone_of_down hdown, execLinkRetrainExpiry_of_down hdown⟩⟩
  have hrise := execSourceInterrupt_of_rise d x s
  refine ⟨execSourceInterrupt_of_fall d x s, fun hedge hnew => ?_, fun hedge hon => ?_, fun hlevel hquiet => ?_,
    fun hlevel hunsent hvec => ?_⟩
  · rwa [if_neg (Bool.eq_false_iff.1 hedge), if_neg hnew] at hrise
  · rwa [if_neg (Bool.eq_false_iff.1 hedge), if_pos hon] at hrise
  · rwa [if_pos hlevel, if_pos hquiet] at hrise
  · rwa [if_pos hlevel, if_neg (not_or.2 ⟨hunsent, hvec⟩)] at hrise

end Sys2Proof.Machine
end

section
/-! What the reads and writes of lines rest on, and that reports, counts and repairs (R227, R228, R233 to R237) leave it as
it is. The equations of `State.lineStore` say it once for each operation; the statements about lines cite them. -/

namespace Sys2Proof.Machine

/-! ### The line store -/

/-- What the meaning of a line rests on: the bytes, the stored lines, the generations of the keys, what the verification
pass has set, and the words of spaces up to the key slots and the retained ranges. -/
structure LineStore where
  mem : List Host.Cell
  lines : List (Nat × Line)
  serials : List (Nat × Nat)
  blank : Bool
  doomed : List (Nat × Nat)
  word : Nat → Word

/-- The line store of a state: of its words, those before MEM.ERR. -/
def State.lineStore (s : State) : LineStore where
  mem := s.mem
  lines := s.hbm.lines
  serials := s.hbm.serials
  blank := s.hbm.blank
  doomed := s.hbm.doomed
  word := fun k => if k < Reg.MEM_ERR_ADDR_LO.key [] then s.word k else 0

/-- The row lies at MEM.ERR or behind it. -/
abbrev Row.Behind (r : Row) : Prop := Reg.MEM_ERR_ADDR_LO.key [] ≤ wordKey r.space r.base

section
variable {s t : State}

theorem mem_of_lineStore (h : t.lineStore = s.lineStore) : t.mem = s.mem := congrArg LineStore.mem h

theorem lines_of_lineStore (h : t.lineStore = s.lineStore) : t.hbm.lines = s.hbm.lines := congrArg LineStore.lines h

theorem serials_of_lineStore (h : t.lineStore = s.lineStore) : t.hbm.serials = s.hbm.serials :=
  congrArg LineStore.serials h

theorem lineAt_of_lineStore (h : t.lineStore = s.lineStore) (pa : Nat) : t.lineAt pa = s.lineAt pa :=
  congrArg (fun v : LineStore => tget { slot := 0, serial := 0, poisoned := v.blank } v.lines (pa / 64)) h

end

/-! ### Words -/

@[simp] theorem lineStore_wr (s : State) {r : Row} (ix : List Nat) (v : Nat) (h : r.Behind) :
    (s.wr r ix v).lineStore = s.lineStore := by
  have hword : ∀ k < Reg.MEM_ERR_ADDR_LO.key [], (s.wr r ix v).word k = s.word k := by
    refine fun k hk => word_wr_ne s r ix v (Nat.ne_of_lt (Nat.lt_of_lt_of_le hk (Nat.le_trans h ?_)))
    exact Nat.add_le_add_left (Nat.le_add_right _ _) _
  simp +contextual only [State.lineStore, wr_mem, wr_hbm, hword]

@[simp] theorem lineStore_incSat (s : State) {r : Row} (ix : List Nat) (n : Nat) (h : r.Behind) :
    (s.incSat r ix n).lineStore = s.lineStore := lineStore_wr s ix _ h

@[simp] theorem lineStore_incWrap (s : State) {r : Row} (ix : List Nat) (n : Nat) (h : r.Behind) :
    (s.incWrap r ix n).lineStore = s.lineStore := lineStore_wr s ix _ h

@[simp] theorem lineStore_wrPair (s : State) {lo hi : Row} (ix : List Nat) (v : Nat) (hlo : lo.Behind) (hhi : hi.Behind) :
    (s.wrPair lo hi ix v).lineStore = s.lineStore := by
  rw [State.wrPair, lineStore_wr _ _ _ hhi, lineStore_wr _ _ _ hlo]

/-- A field before MEM.ERR reads what the line store holds of its word. -/
theorem rd_of_lineStore {s t : State} (h : t.lineStore.word = s.lineStore.word) {r : Row} {ix : List Nat}
    (hr : r.key ix < Reg.MEM_ERR_ADDR_LO.key []) : t.rd r ix = s.rd r ix := by
  have hword := congrFun h (r.key ix)
  simp only [State.lineStore, hr, if_true] at hword
  rw [State.rd, State.rd, hword]

/-! ### Records, events and messages -/

@[simp] theorem lineStore_drawn (s : State) : s.drawn.lineStore = s.lineStore := rfl

@[simp] theorem lineStore_setSpare (s : State) (k : Nat) (x : Spare) : (s.setSpare k x).lineStore = s.lineStore := rfl

@[simp] theorem lineStore_setCan (s : State) (k : Nat) (c : CanCtl) : (s.setCan k c).lineStore = s.lineStore := rfl

/-- The rest of the memory controllers' own state is no part of the line store. -/
theorem lineStore_setHbm (s : State) {h : Hbm} (hlines : h.lines = s.hbm.lines) (hserials : h.serials = s.hbm.serials)
    (hblank : h.blank = s.hbm.blank) (hdoomed : h.doomed = s.hbm.doomed) :
    ({ s with hbm := h } : State).lineStore = s.lineStore := by
  simp only [State.lineStore, hlines, hserials, hblank, hdoomed]
  rfl

@[simp] theorem lineStore_send (s : State) (inst vec : Nat) : (s.send inst vec).lineStore = s.lineStore := by
  rw [send_frame]
  rfl

@[simp] theorem lineStore_raise (s : State) (e : Nat) : (s.raise e).lineStore = s.lineStore := by
  rw [raise_frame]
  rfl

@[simp] theorem lineStore_record (s : State) (code tag : Nat) (payload : List Byte) :
    (s.record code tag payload).lineStore = s.lineStore := by
  unfold State.record
  split
  · rfl
  · have hlost := lineStore_incSat s [] 1 (r := Reg.ALM_STAT_LOST) (by decide)
    generalize s.incSat Reg.ALM_STAT_LOST [] 1 = t at hlost ⊢
    exact hlost

/-- A pass of steps that each leave the line store as it is leaves it as it is. -/
theorem lineStore_foldl {α : Type} {f : State → α → State} (hf : ∀ s a, (f s a).lineStore = s.lineStore) (l : List α)
    (s : State) : (l.foldl f s).lineStore = s.lineStore := by
  induction l generalizing s with
  | nil => rfl
  | cons a l ih => rw [List.foldl_cons, ih, hf]

/-! ### Causes of a Replace Request (R578, R582, R586) -/

@[simp] theorem lineStore_writeLog (s : State) : s.writeLog.lineStore = s.lineStore := by
  have hseq := lineStore_incWrap s [] 1 (r := Reg.SVC_LOG_SEQ) (by decide)
  unfold State.writeLog
  generalize s.incWrap Reg.SVC_LOG_SEQ [] 1 = t at hseq ⊢
  exact hseq

theorem lineStore_canKick (s : State) (n c : Nat) : (s.canKick n c).lineStore = s.lineStore := by
  unfold State.canKick
  dsimp only
  split
  · rfl
  · split <;> rfl

theorem lineStore_canOffer (s : State) (n c : Nat) (src : TxSrc) (f : CanFrame) :
    (s.canOffer n c src f).2.lineStore = s.lineStore := by
  unfold State.canOffer
  dsimp only
  split
  · unfold State.countBlock
    split <;> simp (disch := decide) only [lineStore_incSat]
  · split
    · rfl
    · rw [lineStore_canKick, lineStore_setCan]

@[simp] theorem lineStore_sendReplaceFrame (s : State) : s.sendReplaceFrame.lineStore = s.lineStore := by
  unfold State.sendReplaceFrame
  dsimp only
  split
  · rfl
  · generalize hrolled : ({ s with svc := { s.svc with rolling := (s.svc.rolling + 1) % 16 } } : State) = t
    have ht : t.lineStore = s.lineStore := hrolled ▸ rfl
    split
    · rw [lineStore_incSat _ _ _ (by decide), ht]
    · have hoffer := lineStore_canOffer t 0 (s.rd Reg.SVC_CFG_FRAME_CTL []) .replace
        { id := s.rd Reg.SVC_FRAME_ID [], ide := s.flag Reg.SVC_FRAME_IDE [], data := s.replaceData }
      split
      case h_1 heq =>
        rw [heq] at hoffer
        exact hoffer.trans ht
      case h_2 heq =>
        rw [heq] at hoffer
        exact (lineStore_incSat _ _ _ (by decide)).trans (hoffer.trans ht)

@[simp] theorem lineStore_raiseCause (s : State) (b : Nat) : (s.raiseCause b).lineStore = s.lineStore := by
  unfold State.raiseCause State.raiseCauses
  dsimp only
  split
  · rfl
  · simp (disch := decide) only [lineStore_sendReplaceFrame, lineStore_writeLog, lineStore_send, lineStore_raise, lineStore_wr]

/-! ### Error logs (R227, R228) -/

@[simp] theorem lineStore_countKind (s : State) (kind : Nat) : (s.countKind kind).lineStore = s.lineStore :=
  lineStore_incSat s _ 1 (r := Reg.MEM_CNT) (by decide)

@[simp] theorem lineStore_logMem (s : State) (kind tag pa : Nat) : (s.logMem kind tag pa).lineStore = s.lineStore := by
  simp (disch := decide) only [State.logMem, lineStore_record, lineStore_countKind, lineStore_wr, lineStore_wrPair]

@[simp] theorem lineStore_reportOwner (s : State) (owner kind pa : Nat) :
    (s.reportOwner owner kind pa).lineStore = s.lineStore := by
  unfold State.reportOwner
  split
  · simp (disch := decide) only [State.reportInst, lineStore_send, lineStore_incSat, lineStore_wr, lineStore_wrPair]
  · rw [lineStore_raise]

@[simp] theorem lineStore_reportPoisoned (s : State) (owner pa : Nat) :
    (s.reportPoisoned owner pa).lineStore = s.lineStore := by
  unfold State.reportPoisoned
  split
  · rw [lineStore_reportOwner]
    rfl
  · split
    · rw [lineStore_incSat _ _ _ (by decide)]
    · rfl

/-! ### Row repair and sparing (R233 to R237) -/

@[simp] theorem lineStore_repairRow (s : State) (pc row grp : Nat) : (s.repairRow pc row grp).lineStore = s.lineStore := by
  unfold State.repairRow
  extract_lets stack used spent hbm
  split
  · rw [lineStore_raiseCause]
  · have hspent : spent.lineStore = s.lineStore := by
      simp (disch := decide) only [spent, lineStore_incWrap, lineStore_wr]
    exact (lineStore_setHbm spent rfl rfl rfl rfl).trans hspent

@[simp] theorem lineStore_furtherChannel (s : State) (stack pc : Nat) :
    (s.furtherChannel stack pc).lineStore = s.lineStore := by
  unfold State.furtherChannel
  split
  · rfl
  · dsimp only
    rw [lineStore_raiseCause, lineStore_raise]
    split
    · rfl
    · rw [lineStore_wr _ _ _ (by decide)]
      rfl

@[simp] theorem lineStore_migrate (s : State) (pc : Nat) : (s.migrate pc).lineStore = s.lineStore := by
  unfold State.migrate
  extract_lets stack sp
  split
  · simp (disch := decide) only [lineStore_setSpare, lineStore_wr]
  · split
    · rfl
    · rw [lineStore_furtherChannel]

@[simp] theorem lineStore_tallyRow (s : State) (pa : Nat) : (s.tallyRow pa).lineStore = s.lineStore := by
  unfold State.tallyRow State.tally
  extract_lets old lines tallies rows hbm tallied repaired
  have htallied : tallied.lineStore = s.lineStore := lineStore_setHbm s rfl rfl rfl rfl
  have hrepaired : repaired.lineStore = s.lineStore := by
    unfold repaired
    split
    · rw [lineStore_repairRow, htallied]
    · exact htallied
  split
  · rw [lineStore_migrate, hrepaired]
  · exact hrepaired

@[simp] theorem lineStore_badRow (s : State) (pa : Nat) (kind2 : Bool) : (s.badRow pa kind2).lineStore = s.lineStore := by
  unfold State.badRow
  extract_lets pc row repaired recent hbm logged
  have hrepaired : repaired.lineStore = s.lineStore := lineStore_repairRow s _ _ _
  have hlogged : logged.lineStore = s.lineStore := (lineStore_setHbm repaired rfl rfl rfl rfl).trans hrepaired
  split
  · exact hrepaired
  · split
    · rw [lineStore_migrate, hlogged]
    · exact hlogged

/-! ### Bytes -/

theorem memBytes_memPutBytes_same (m : List Host.Cell) (a : Nat) (b : List Byte) :
    memBytes (memPutBytes m a b) a b.length = b := by
  induction b generalizing m a with
  | nil => rfl
  | cons y ys ih =>
    have hfirst : memByte (memPutBytes (memPut m a y) (a + 1) ys) a = y := by
      rw [memByte_memPutBytes, if_neg (by omega), memByte_memPut_same]
    rw [memPutBytes, List.length_cons, memBytes, hfirst, ih]

/-- A write of bytes changes no byte beside them. -/
theorem bytesWithin_of_memPutBytes {s t : State} {a : Nat} {b : List Byte} (h : t.mem = memPutBytes s.mem a b) :
    bytesWithin s t a b.length := by
  intro x hx
  rw [h, memByte_memPutBytes, if_neg hx]

/-! ### Poison, corrections and the system cache (R221, R226) -/

/-- Poisoning a line changes its bytes and its metadata, and nothing else of the line store. -/
theorem lineStore_poisonLine (s : State) (pa : Nat) :
    (s.poisonLine pa).lineStore =
      { s.lineStore with mem := (s.poisonLine pa).mem, lines := tput s.hbm.lines (pa / 64) Line.poison } := by
  simp only [State.lineStore, State.poisonLine]
  rfl

theorem lineAt_poisonLine (s : State) (pa : Nat) : (s.poisonLine pa).lineAt pa = Line.poison := tget_tput_same _ _ _ _

/-- A line that does not stand in the system cache holds zeros once it is poisoned. -/
theorem mem_poisonLine_of_uncached {s : State} {pa : Nat} (h : s.cacheEntry pa = none) :
    (s.poisonLine pa).mem = memPutBytes s.mem (pa / 64 * 64) (List.replicate 64 0) := by
  simp [State.poisonLine, h]

theorem bytesWithin_poisonLine (s : State) (pa : Nat) : bytesWithin s (s.poisonLine pa) (pa / 64 * 64) 64 := by
  cases hcached : (s.cacheEntry pa).isSome with
  | true =>
    have hmem : (s.poisonLine pa).mem = s.mem := by simp [State.poisonLine, hcached]
    exact fun x _ => by rw [hmem]
  | false => exact bytesWithin_of_memPutBytes (mem_poisonLine_of_uncached (by simpa using hcached))

theorem rewritten_frame (s : State) (pa : Nat) :
    s.rewritten pa = { s with hbm := { s.hbm with lines := (s.rewritten pa).hbm.lines } } := by
  unfold State.rewritten
  split <;> rfl

theorem lineStore_rewritten (s : State) (pa : Nat) :
    (s.rewritten pa).lineStore = { s.lineStore with lines := (s.rewritten pa).hbm.lines } := by
  generalize hframe : (s.rewritten pa).hbm.lines = l
  have hrewritten := rewritten_frame s pa
  rw [hframe] at hrewritten
  rw [hrewritten]
  simp only [State.lineStore, State.word]

/-- A correction replaces the metadata of its line at most. -/
theorem lines_rewritten (s : State) (pa : Nat) :
    (s.rewritten pa).hbm.lines = s.hbm.lines ∨ ∃ l, (s.rewritten pa).hbm.lines = tput s.hbm.lines (pa / 64) l := by
  unfold State.rewritten
  split
  · exact .inl rfl
  · exact .inr ⟨_, rfl⟩

theorem cacheEntry_evict (s : State) (c : CacheLine) {pa : Nat} (h : c.line = pa / 64) :
    (s.evict c).cacheEntry pa = none := by
  have hcache : (s.evict c).hbm.cache = (s.uncache c.line).hbm.cache := by
    unfold State.evict
    dsimp only
    split
    · rfl
    · split <;> rfl
  rw [State.cacheEntry, hcache]
  simp [State.uncache, h, List.find?_eq_none]

/-- A line that was given up does not stand in the system cache. -/
theorem cacheEntry_flush (s : State) (pa : Nat) : (s.flush pa).cacheEntry pa = none := by
  unfold State.flush
  cases h : s.cacheEntry pa with
  | none => exact h
  | some c => exact cacheEntry_evict s c (by simpa using List.find?_some h)

theorem flush_of_uncached {s : State} {pa : Nat} (h : s.cacheEntry pa = none) : s.flush pa = s := by
  rw [State.flush, h]

end Sys2Proof.Machine
end

section
/-! O30: reads and writes of a line in its memory controller (R222 to R225). Each command is read off what its branch of the
controller leaves; the reports of a poisoned or failed line leave the line store as it is. -/

namespace Sys2Proof.Machine

/-! ### Reads (R222) -/

theorem execHbmRead_of_reachable {s t : State} {tag pa : Nat} {e : RowError} {c : Bool} {st : Status}
    (hhbm : isHbm s.fuses pa = true) (hpass : s.hbm.verifying = false) (htag : tag < 64)
    (hread : (s.flush pa).readLineSlot ((s.flush pa).slotOf pa) tag pa e c = (st, t)) :
    execHbmRead tag pa e c s =
      .next (t.answer st (if st = .ok then ofLeBytes (memBytes t.mem (pa / 64 * 64) 64) else 0)) := by
  simp [execHbmRead, State.readLine, hhbm, hpass, htag, hread]

section
variable {u : State} {slot tag pa : Nat}

/-- A line that decodes and whose tag verifies passes, and nothing changes. -/
theorem readLineSlot_of_good {c : Bool} (hclean : (u.lineAt pa).poisoned = false) (hrow : (u.lineAt pa).row = .none)
    (htag : u.tagOk pa slot = true) : u.readLineSlot slot tag pa .none c = (.ok, u) := by
  simp [State.readLineSlot, State.found, State.isPoison, hclean, hrow, htag]

/-- A line that shows the poison syndrome answers ST_POISON; unless the read is cancelled it is logged and reported, which
leaves the line store as it is (R228). -/
theorem readLineSlot_of_poison {e : RowError} (c : Bool) (hpoison : (u.lineAt pa).poisoned = true)
    (hfound : u.found pa e = .none) :
    ∃ t, u.readLineSlot slot tag pa e c = (.poison, t) ∧ t.lineStore = u.lineStore := by
  have hshows : u.isPoison pa (u.found pa e) = true := by simp [State.isPoison, hpoison, hfound]
  cases c with
  | true => exact ⟨u, by simp [State.readLineSlot, hshows], rfl⟩
  | false => exact ⟨_, by simp only [State.readLineSlot, hshows]; rfl, by rw [lineStore_reportPoisoned, lineStore_logMem]⟩

end

/-! ### Full writes (R223) -/

/-- The state after a full write: the bytes, and a fresh line under the slot of the address. -/
def State.filled (s : State) (pa : Nat) (bytes : List Byte) : State :=
  let t := s.uncache (pa / 64)
  { t with mem := memPutBytes s.mem (pa / 64 * 64) bytes
           hbm := { t.hbm with lines := tput s.hbm.lines (pa / 64) (s.freshLine pa (s.slotOf pa) bytes) } }

theorem writeLine_of_reachable {s : State} (hpass : s.hbm.verifying = false) (pa : Nat) (bytes : List Byte) :
    s.writeLine pa bytes = (.ok, s.filled pa bytes) := by
  rw [State.writeLine, hpass]
  rfl

theorem lineAt_filled (s : State) (pa : Nat) (bytes : List Byte) :
    (s.filled pa bytes).lineAt pa = s.freshLine pa (s.slotOf pa) bytes := tget_tput_same _ _ _ _

/-- The state once errors have come to stand in the symbols of a stored line. -/
def State.struck (s : State) (pa : Nat) (e : RowError) : State :=
  if e ≠ .none then s.setLine pa { s.lineAt pa with row := e } else s

theorem struck_frame (s : State) (pa : Nat) (e : RowError) :
    s.struck pa e = { s with hbm := { s.hbm with lines := (s.struck pa e).hbm.lines } } := by
  unfold State.struck
  split <;> rfl

theorem lineAt_setLine (s : State) (pa : Nat) (l : Line) : (s.setLine pa l).lineAt pa = l := tget_tput_same _ _ _ _

theorem lineAt_struck {s : State} {pa : Nat} (hrow : (s.lineAt pa).row = .none) (e : RowError) :
    (s.struck pa e).lineAt pa = { s.lineAt pa with row := e } := by
  unfold State.struck
  split
  case isTrue => rw [lineAt_setLine]
  case isFalse h => rw [Decidable.of_not_not h, ← hrow]

theorem execHbmFullWrite_of_reachable {s : State} {pa : Nat} {bytes : List Byte} (hhbm : isHbm s.fuses pa = true)
    (hpass : s.hbm.verifying = false) (hlen : bytes.length = 64) (e : RowError) :
    execHbmFullWrite pa bytes e s = .next (((s.filled pa bytes).struck pa e).answer .ok 0) := by
  simp [execHbmFullWrite, State.struck, hhbm, hlen, writeLine_of_reachable hpass]

/-! ### Partial writes (R224, R225) -/

theorem execHbmPartialWrite_of_fits {s t : State} {tag pa : Nat} {bytes : List Byte} {e : RowError} {st : Status}
    (hhbm : isHbm s.fuses pa = true) (htag : tag < 64) (hne : bytes ≠ []) (hfits : pa % 64 + bytes.length ≤ 64)
    (hmerge : s.mergeLine tag pa bytes e = (st, t)) :
    execHbmPartialWrite tag pa bytes e s = .next (t.answer st 0) := by
  simp [execHbmPartialWrite, hhbm, htag, hne, hfits, hmerge]

/-- Bytes merged into a line whose read has passed: the line gets a fresh tag under the slot. -/
def State.merged (s : State) (slot pa : Nat) (bytes : List Byte) : State :=
  let s := { s with mem := memPutBytes s.mem pa bytes }
  s.setLine pa (s.freshLine pa slot (s.lineBytes pa))

theorem mem_merged (s : State) (slot pa : Nat) (bytes : List Byte) :
    (s.merged slot pa bytes).mem = memPutBytes s.mem pa bytes := rfl

theorem lineAt_merged (s : State) (slot pa : Nat) (bytes : List Byte) :
    (s.merged slot pa bytes).lineAt pa = s.freshLine pa slot ((s.merged slot pa bytes).lineBytes pa) :=
  lineAt_setLine _ _ _

section
variable {s : State} {tag pa : Nat} {bytes : List Byte} {e : RowError} (hpass : s.hbm.verifying = false)
include hpass

/-- A line that passes takes the bytes; one with a row in error has been corrected, counted and tallied before, which leaves
its bytes and the generations of the keys as they were. -/
theorem mergeLine_of_good (hgood : (s.flush pa).mergeGood ((s.flush pa).slotOf pa) pa e = true) :
    ∃ v : State, s.mergeLine tag pa bytes e = (.ok, v.merged ((s.flush pa).slotOf pa) pa bytes)
      ∧ v.mem = (s.flush pa).mem ∧ v.hbm.serials = (s.flush pa).hbm.serials
      ∧ ((s.flush pa).found pa e = .none → v = s.flush pa) := by
  refine ⟨_, by rw [State.mergeLine, hpass]; exact if_pos hgood, ?_⟩
  split
  case isTrue hone =>
    have hstore : ((((s.flush pa).rewritten pa).countKind 1).tallyRow pa).lineStore =
        ((s.flush pa).rewritten pa).lineStore := by rw [lineStore_tallyRow, lineStore_countKind]
    refine ⟨?_, ?_, fun hnone => by rw [hone] at hnone; contradiction⟩
    · rw [mem_of_lineStore hstore, rewritten_frame]
    · rw [serials_of_lineStore hstore, rewritten_frame]
  case isFalse => exact ⟨rfl, rfl, fun _ => rfl⟩

/-- A line that does not pass is poisoned, logged and reported, and nothing is merged. -/
theorem mergeLine_of_bad (hbad : (s.flush pa).mergeGood ((s.flush pa).slotOf pa) pa e = false) :
    ∃ t : State, s.mergeLine tag pa bytes e = (.integrity, t) ∧ t.lineStore = ((s.flush pa).poisonLine pa).lineStore := by
  refine ⟨_, by rw [State.mergeLine, hpass]; exact if_neg (Bool.eq_false_iff.1 hbad), ?_⟩
  rw [lineStore_reportOwner, lineStore_logMem]

end

/-! ### O30 -/

/-- Settles O30: a read by the two kinds of line, a full write by the state that it leaves, and a partial write by whether
its line passes R222. -/
theorem lineReadsAndWrites : Obligations.LineReadsAndWrites := by
  unfold Obligations.LineReadsAndWrites
  intro s pa hhbm hpass u
  refine ⟨flush_of_uncached, fun tag c htag hclean hrow hok => ?_, fun tag e c htag hpoison hfound => ?_,
    fun bytes e hlen => ?_, fun tag bytes e htag hne hfits => ⟨fun hgood => ?_, fun hbad => ?_⟩⟩
  · exact execHbmRead_of_reachable hhbm hpass htag (readLineSlot_of_good hclean hrow hok)
  · obtain ⟨t, hread, hstore⟩ := readLineSlot_of_poison (slot := u.slotOf pa) (tag := tag) c hpoison hfound
    exact ⟨_, execHbmRead_of_reachable hhbm hpass htag hread, rfl, mem_of_lineStore hstore, lines_of_lineStore hstore⟩
  · have hmem : ((s.filled pa bytes).struck pa e).mem = memPutBytes s.mem (pa / 64 * 64) bytes := by
      rw [struck_frame]
      rfl
    have hline : ((s.filled pa bytes).struck pa e).lineAt pa = { s.freshLine pa (s.slotOf pa) bytes with row := e } := by
      rw [lineAt_struck (by rw [lineAt_filled]; rfl), lineAt_filled]
    refine ⟨_, execHbmFullWrite_of_reachable hhbm hpass hlen e, rfl, ?_, ?_, hline, ?_⟩
    · rw [answer_mem, hmem, ← hlen, memBytes_memPutBytes_same]
    · have hwithin := bytesWithin_of_memPutBytes hmem
      rw [hlen] at hwithin
      exact hwithin
    · rw [struck_frame]
      rfl
  · obtain ⟨v, hmerge, hmem, hserials, hsame⟩ := mergeLine_of_good (tag := tag) (bytes := bytes) hpass hgood
    have hput : (v.merged (u.slotOf pa) pa bytes).mem = memPutBytes u.mem pa bytes := by rw [mem_merged, hmem]
    have hserial : v.serialOf (u.slotOf pa) = u.serialOf (u.slotOf pa) := congrArg (tget 1 · _) hserials
    refine ⟨_, execHbmPartialWrite_of_fits hhbm htag hne hfits hmerge, rfl, ?_, bytesWithin_of_memPutBytes hput, ?_,
      fun hnone => ?_⟩
    · rw [answer_mem, hput, memBytes_memPutBytes_same]
    · refine (lineAt_merged v (u.slotOf pa) pa bytes).trans ?_
      rw [State.freshLine, hserial]
      rfl
    · rw [hsame hnone]
      rfl
  · obtain ⟨t, hmerge, hstore⟩ := mergeLine_of_bad (tag := tag) (bytes := bytes) hpass hbad
    have hmem := mem_of_lineStore hstore
    refine ⟨_, execHbmPartialWrite_of_fits hhbm htag hne hfits hmerge, rfl, ?_, ?_, fun x hx => ?_⟩
    · exact congrArg Line.poisoned ((lineAt_of_lineStore hstore pa).trans (lineAt_poisonLine u pa))
    · rw [answer_mem, hmem, mem_poisonLine_of_uncached (cacheEntry_flush s pa)]
      exact memBytes_memPutBytes_same _ _ (List.replicate 64 0)
    · rw [answer_mem, hmem]
      exact bytesWithin_poisonLine u pa x hx

end Sys2Proof.Machine
end

section
/-! O31: keys, patrol scrub, migration to the spare, and the verification pass. The pass is followed by one line number: what a
step does to the entries of a line, and that no step changes which ranges are retained. -/

namespace Sys2Proof.Machine

/-! ### Keys (R220) -/

section
variable (s : State) (k : Nat)

theorem serialOf_newKey_same : (s.newKey k).serialOf k = s.serialOf k + 1 := tget_tput_same _ _ _ _

theorem keyOf_newKey_same : (s.newKey k).keyOf k = s.freeVal % 2 ^ 128 := tget_tput_same _ _ _ _

theorem serialOf_newKey_ne {j : Nat} (h : j ≠ k) : (s.newKey k).serialOf j = s.serialOf j := tget_tput_ne _ _ _ h

theorem keyOf_newKey_ne {j : Nat} (h : j ≠ k) : (s.newKey k).keyOf j = s.keyOf j := tget_tput_ne _ _ _ h

theorem rd_newKey_gen : (s.newKey k).rd Reg.MEM_KEY_GEN [k] = (s.rd Reg.MEM_KEY_GEN [k] + 1) % 2 ^ 8 :=
  rd_wr_same _ _ _ _ (by decide)

end

/-! ### Patrol scrub (R232, R233) -/

theorem scrubLine_of_clean {s : State} {pa : Nat} {e : RowError} (h : s.found pa e = .none) : s.scrubLine pa e = s := by
  simp [State.scrubLine, h]

theorem scrubLine_of_one {s : State} {pa : Nat} (hclean : (s.lineAt pa).poisoned = false) :
    s.scrubLine pa .one = ((s.rewritten pa).countKind 6).tallyRow pa := by
  simp [State.scrubLine, State.found, State.isPoison, hclean]

/-- An uncorrectable line is poisoned; the log and the repair of its row leave the line store as it is. -/
theorem lineStore_scrubLine_of_uncorrectable (s : State) (pa : Nat) :
    (s.scrubLine pa .uncorrectable).lineStore = (s.poisonLine pa).lineStore := by
  have hscrub : s.scrubLine pa .uncorrectable = ((s.poisonLine pa).logMem 7 0 pa).badRow pa false := by
    simp [State.scrubLine, State.found, State.isPoison]
  rw [hscrub, lineStore_badRow, lineStore_logMem]

theorem scrubSpare_of_clean (s : State) (stack idx : Nat) (row : Bool) : s.scrubSpare stack idx row .none = s :=
  ite_self s

section
variable {s : State} (hup : s.boot.mainUp = true) (hpass : s.hbm.verifying = false)
include hup hpass

theorem execPatrolScrub_line {pa : Nat} (hhbm : isHbm s.fuses pa = true) (e : RowError) :
    execPatrolScrub (.line pa) e false s = .next (s.scrubLine pa e) := by
  simp [execPatrolScrub, hhbm, hup, hpass]

/-- The last line of a pass: PASSES counts, and the row tallies start again (R232). -/
theorem execPatrolScrub_line_last {pa : Nat} (hhbm : isHbm s.fuses pa = true) {e : RowError}
    (hclean : s.scrubLine pa e = s) :
    execPatrolScrub (.line pa) e true s =
      .next { s.wr Reg.MEM_SCRUB_PASSES [] (s.rd Reg.MEM_SCRUB_PASSES [] + 1) with
        hbm := { s.hbm with tallies := [], rows := [] } } := by
  have hruns : ¬(!s.boot.mainUp || s.hbm.verifying) = true := by simp [hup, hpass]
  rw [execPatrolScrub, if_neg (by simp [hhbm]), if_neg hruns]
  dsimp only
  rw [hclean]
  rfl

theorem execPatrolScrub_spare {k : Nat} (hk : k < s.fuses.variant.hbmStacks) (idx : Nat) (e : RowError) :
    execPatrolScrub (.spare k idx) e false s = .next (s.scrubSpare k idx false e)
      ∧ execPatrolScrub (.spareRow k idx) e false s = .next (s.scrubSpare k idx true e) := by
  simp [execPatrolScrub, hk, hup, hpass]

end

/-! ### Migration to the spare (R235, R236) -/

theorem execMigrationDone_of_idle {s : State} {k : Nat} (h : s.migrating k = false) :
    execMigrationDone k s = .next s := if_neg (Bool.eq_false_iff.1 h)

theorem execMigrationDone_of_migrating {s : State} {k : Nat} (h : s.migrating k = true) :
    let u := s.copyTo k pcBytes
    execMigrationDone k s = .next ((u.wr Reg.MEM_STK_SPARE [k]
      (if u.hbm.further.any (fun pc => pc / 32 = k || pc = sparePc k) then 3 else 2)).wr Reg.MEM_STK_PROGRESS [k]
        u.freeVal).drawn := if_pos h

/-! ### Entries of a table -/

theorem mem_tput {α : Type} {t : List (Nat × α)} {k : Nat} {v : α} {e : Nat × α} (h : e ∈ tput t k v) :
    e = (k, v) ∨ e ∈ t ∧ e.1 ≠ k :=
  (mem_tins h).imp_right mem_tdel

/-- A table reads its default, or what one of its entries holds. -/
theorem tget_eq_or_mem {α : Type} (d : α) (t : List (Nat × α)) (k : Nat) : tget d t k = d ∨ (k, tget d t k) ∈ t := by
  induction t with
  | nil => exact .inl rfl
  | cons e t ih =>
    obtain ⟨a, v⟩ := e
    by_cases ha : a = k
    · simp [tget, ha]
    · simpa [tget, ha, Ne.symm ha] using ih

/-! ### One line in the verification pass (R238) -/

/-- What a store becomes when only bytes and the entries of line `n` change. -/
def LineStore.EditsLine (v w : LineStore) (n : Nat) : Prop :=
  w = { v with mem := w.mem, lines := w.lines } ∧ (w.lines = v.lines ∨ ∃ l, w.lines = tput v.lines n l)

theorem editsLine_refl (v : LineStore) (n : Nat) : v.EditsLine v n := ⟨rfl, .inl rfl⟩

theorem editsLine_poisonLine (s : State) (n : Nat) : s.lineStore.EditsLine (s.poisonLine (n * 64)).lineStore n := by
  refine ⟨by rw [lineStore_poisonLine], .inr ⟨Line.poison, ?_⟩⟩
  rw [lineStore_poisonLine, Nat.mul_div_cancel n (by decide)]
  rfl

theorem editsLine_rewritten (s : State) (n : Nat) : s.lineStore.EditsLine (s.rewritten (n * 64)).lineStore n := by
  have hlines := lines_rewritten s (n * 64)
  rw [Nat.mul_div_cancel n (by decide)] at hlines
  exact ⟨by rw [lineStore_rewritten], hlines⟩

@[simp] theorem lineStore_passError (s : State) (kind slot pa : Nat) :
    (s.passError kind slot pa).lineStore = s.lineStore := by
  unfold State.passError
  extract_lets owner logged paired counted hbm
  have hlogged : logged.lineStore = s.lineStore := lineStore_logMem s kind 0 pa
  split
  · have hcounted : counted.lineStore = s.lineStore := by
      simp (disch := decide) only [counted, paired, lineStore_incSat, lineStore_wr, lineStore_wrPair, hlogged]
    exact (lineStore_setHbm counted rfl rfl rfl rfl).trans hcounted
  · rw [lineStore_raise, hlogged]

theorem passLine_of_unretained {found : List (Nat × RowError)} {s : State} {l : Nat × Line}
    (h : s.retainSlot (l.1 * 64) = none) : State.passLine found s l = s.poisonLine (l.1 * 64) := by
  simp [State.passLine, h]

theorem editsLine_passLine (found : List (Nat × RowError)) (s : State) (l : Nat × Line) :
    s.lineStore.EditsLine (State.passLine found s l).lineStore l.1 := by
  unfold State.passLine
  extract_lets pa e
  split
  · exact editsLine_poisonLine s l.1
  · split
    · exact editsLine_refl _ _
    · clear_value e
      split
      · rw [lineStore_badRow, lineStore_passError]
        exact editsLine_poisonLine s l.1
      · rw [lineStore_passError]
        exact editsLine_poisonLine s l.1
      · split
        · rw [lineStore_badRow, lineStore_passError]
          exact editsLine_poisonLine s l.1
        · split
          · rw [lineStore_tallyRow, lineStore_countKind]
            exact editsLine_rewritten s l.1
          · rw [lineStore_passError]
            exact editsLine_poisonLine s l.1
      · split
        · exact editsLine_refl _ _
        · rw [lineStore_passError]
          exact editsLine_poisonLine s l.1

/-- The retained ranges of a list of numbers are those that each of them gives. -/
theorem filterMap_retained_congr {s t : State} {l : List Nat} (h : ∀ j ∈ l, t.retained j = s.retained j) :
    l.filterMap t.retained = l.filterMap s.retained := by
  induction l with
  | nil => rw [List.filterMap_nil, List.filterMap_nil]
  | cons j l ih =>
    obtain ⟨hj, hl⟩ := List.forall_mem_cons.1 h
    rw [List.filterMap_cons, List.filterMap_cons, hj, ih hl]

/-- Which slot retains an address rests on the retained ranges and on the ranges that are poisoned in any case. -/
theorem retainSlot_congr {s t : State} (hword : t.lineStore.word = s.lineStore.word)
    (hdoomed : t.lineStore.doomed = s.lineStore.doomed) (pa : Nat) : t.retainSlot pa = s.retainSlot pa := by
  have hrow : ∀ r ∈ [Reg.MEM_RETAIN_VALID, Reg.MEM_RETAIN_BASE, Reg.MEM_RETAIN_LEN, Reg.MEM_RETAIN_SLOT],
      ∀ j ∈ List.range 16, t.rd r [j] = s.rd r [j] := by
    have hkey : ∀ r ∈ [Reg.MEM_RETAIN_VALID, Reg.MEM_RETAIN_BASE, Reg.MEM_RETAIN_LEN, Reg.MEM_RETAIN_SLOT],
      ∀ j ∈ List.range 16, r.key [j] < Reg.MEM_ERR_ADDR_LO.key [] := by decide
    exact fun r hr j hj => rd_of_lineStore hword (hkey r hr j hj)
  have hretained : (List.range 16).filterMap t.retained = (List.range 16).filterMap s.retained := by
    refine filterMap_retained_congr fun j hj => ?_
    simp only [List.forall_mem_cons] at hrow
    obtain ⟨hvalid, hbase, hlen, hslot, -⟩ := hrow
    have hflag : t.flag Reg.MEM_RETAIN_VALID [j] = s.flag Reg.MEM_RETAIN_VALID [j] := by
      rw [State.flag, State.flag, hvalid j hj]
    simp only [State.retained, hflag, hbase j hj, hlen j hj, hslot j hj]
  have hranges : t.hbm.doomed = s.hbm.doomed := hdoomed
  rw [State.retainSlot, State.retainSlot, hranges, hretained]

theorem retainSlot_passLine (found : List (Nat × RowError)) (s : State) (l : Nat × Line) (pa : Nat) :
    (State.passLine found s l).retainSlot pa = s.retainSlot pa := by
  obtain ⟨hframe, -⟩ := editsLine_passLine found s l
  exact retainSlot_congr (by rw [hframe]) (by rw [hframe]) pa

/-! ### The whole pass (R238, R240) -/

/-- Every entry of line `n` is poisoned. -/
def State.entriesPoisoned (s : State) (n : Nat) : Prop := ∀ e ∈ s.hbm.lines, e.1 = n → e.2.poisoned = true

/-- The pass over stored lines poisons a line that no range retains: the step of one of its entries poisons all of them, and
the steps of other lines leave them alone. -/
theorem entriesPoisoned_foldl_passLine (found : List (Nat × RowError)) {n : Nat} (l : List (Nat × Line)) (s : State)
    (hfree : s.retainSlot (n * 64) = none) (h : s.entriesPoisoned n ∨ ∃ e ∈ l, e.1 = n) :
    (l.foldl (State.passLine found) s).entriesPoisoned n := by
  induction l generalizing s with
  | nil => exact h.resolve_right (by simp)
  | cons x l ih =>
    refine ih (State.passLine found s x) (by rw [retainSlot_passLine, hfree]) ?_
    by_cases hx : x.1 = n
    · refine .inl fun e he hen => ?_
      rw [passLine_of_unretained (by rw [hx, hfree])] at he
      have hkey : x.1 * 64 / 64 = n := by omega
      have hput : e ∈ tput s.hbm.lines (x.1 * 64 / 64) Line.poison := he
      rcases mem_tput hput with rfl | ⟨-, hne⟩
      · rfl
      · exact absurd (hen.trans hkey.symm) hne
    · refine h.imp (fun hs e he hen => hs e ?_ hen) (fun ⟨e, he, hen⟩ => ⟨e, ?_, hen⟩)
      · have hlines : (State.passLine found s x).hbm.lines = s.hbm.lines
            ∨ ∃ y, (State.passLine found s x).hbm.lines = tput s.hbm.lines x.1 y := (editsLine_passLine found s x).2
        rcases hlines with hsame | ⟨y, hput⟩
        · rwa [hsame] at he
        · rw [hput] at he
          rcases mem_tput he with rfl | ⟨hmem, -⟩
          · exact absurd hen hx
          · exact hmem
      · exact (List.mem_cons.1 he).resolve_left fun hex => hx (hex ▸ hen)

theorem lineStore_passBulk (s : State) (slot b len n : Nat) : (s.passBulk slot b len n).lineStore = s.lineStore := by
  have hstep : ∀ (s : State) (_ : Nat), ((s.passError 3 slot (s.freeLine b len)).drawn).lineStore = s.lineStore :=
    fun s _ => by rw [lineStore_drawn, lineStore_passError]
  unfold State.passBulk
  extract_lets room logged owner last more counted owned
  have hlogged : logged.lineStore = s.lineStore := lineStore_foldl hstep _ s
  split
  · exact hlogged
  · have hcounted : counted.lineStore = s.lineStore := by
      rw [lineStore_incSat _ _ _ (by decide), hstep _ 0, hlogged]
    have howned : owned.lineStore = s.lineStore := by
      unfold owned
      split
      · rw [lineStore_incSat _ _ _ (by decide), hcounted]
      · exact hcounted
    rw [lineStore_incSat _ _ _ (by decide), howned]

theorem tellErrors_hbm (s : State) :
    s.tellErrors.hbm = { s.hbm with unreported := s.hbm.unreported.filter (fun i => !s.flag Reg.TTU_INST_ENABLE [i]) } := by
  have hsend : ∀ (l : List Nat) (t : State),
      (l.foldl (fun s i => s.send i (s.rd Reg.TTU_INST_FLT_VEC [i])) t).hbm = t.hbm := by
    intro l
    induction l with
    | nil => exact fun t => rfl
    | cons i l ih =>
      intro t
      rw [List.foldl_cons, ih, send_frame]
  exact hsend _ _

/-- The state once the pass has ended over lines as `s` holds them: every line that is poisoned is unlisted, and unlisted
lines are poisoned. -/
def State.passEnded (s : State) : State :=
  State.tellErrors { s with hbm := { s.hbm with
    verifying := false, blank := true, doomed := [], lines := s.hbm.lines.filter (fun e => !e.2.poisoned) } }

theorem poisoned_passEnded {s : State} {pa : Nat} (h : s.entriesPoisoned (pa / 64)) :
    (s.passEnded.lineAt pa).poisoned = true := by
  have hlines : s.passEnded.hbm.lines = s.hbm.lines.filter (fun e => !e.2.poisoned) := by
    rw [State.passEnded, tellErrors_hbm]
  have hblank : s.passEnded.hbm.blank = true := by rw [State.passEnded, tellErrors_hbm]
  unfold State.lineAt
  rw [hlines, hblank]
  rcases tget_eq_or_mem { slot := 0, serial := 0, poisoned := true } (s.hbm.lines.filter (fun e => !e.2.poisoned)) (pa / 64)
    with hdefault | hmem
  · rw [hdefault]
  · exact h _ (List.mem_filter.1 hmem).1 rfl

/-- The pass over the stored lines, then the errors of never-written lines, which leave the line store as it is, then the
end of the pass. -/
theorem execHbmVerifyPassDone_of_verifying {s : State} (found : List (Nat × RowError)) (h : s.hbm.verifying = true) :
    ∃ u : State, execHbmVerifyPassDone found s = .next u.passEnded.finishLoad
      ∧ u.lineStore = (s.hbm.lines.foldl (State.passLine found) s).lineStore := by
  refine ⟨_, by rw [execHbmVerifyPassDone, h]; rfl, ?_⟩
  split
  · rfl
  · exact lineStore_foldl (fun t r => lineStore_passBulk t _ _ _ _) _ _

/-! ### O31 -/

/-- Settles O31: REKEY is a commit, the scrub and the migration are read off their branches, and the verification pass
poisons every line that no range retains. -/
theorem keysScrubAndSparing : Obligations.KeysScrubAndSparing := by
  unfold Obligations.KeysScrubAndSparing
  intro s
  refine ⟨fun k => commitOf_of_commits, fun k => ⟨serialOf_newKey_same s k,
      fun j hj => ⟨serialOf_newKey_ne s k hj, keyOf_newKey_ne s k hj⟩, keyOf_newKey_same s k, rd_newKey_gen s k, rfl, rfl⟩,
    fun pa hhbm hup hpass => ⟨fun e hclean => ?_, fun hclean => ?_, fun _ => ?_, fun hrow => ?_⟩,
    fun k idx hk hup hpass => ?_,
    fun k => ⟨execMigrationDone_of_migrating, execMigrationDone_of_idle⟩, fun found hpass => ?_⟩
  · exact (execPatrolScrub_line hup hpass hhbm e).trans (congrArg _ (scrubLine_of_clean hclean))
  · exact (execPatrolScrub_line hup hpass hhbm .one).trans (congrArg _ (scrubLine_of_one hclean))
  · have hstore := lineStore_scrubLine_of_uncorrectable s pa
    refine ⟨_, execPatrolScrub_line hup hpass hhbm .uncorrectable, ?_, fun x hx => ?_⟩
    · rw [lineAt_of_lineStore hstore, lineAt_poisonLine]
      rfl
    · rw [mem_of_lineStore hstore]
      exact bytesWithin_poisonLine s pa x hx
  · exact execPatrolScrub_line_last hup hpass hhbm (scrubLine_of_clean hrow)
  · obtain ⟨hspare, hspareRow⟩ := execPatrolScrub_spare hup hpass hk idx .none
    exact ⟨hspare.trans (congrArg _ (scrubSpare_of_clean s k idx false)),
      hspareRow.trans (congrArg _ (scrubSpare_of_clean s k idx true))⟩
  · obtain ⟨u, hexec, hstore⟩ := execHbmVerifyPassDone_of_verifying found hpass
    refine ⟨u.passEnded, hexec, by rw [State.passEnded, tellErrors_hbm], by rw [State.passEnded, tellErrors_hbm],
      fun pa hfree => poisoned_passEnded fun e he => ?_⟩
    have hpoisoned := entriesPoisoned_foldl_passLine found s.hbm.lines s hfree (by
      by_cases h : ∃ e ∈ s.hbm.lines, e.1 = pa / 64
      · exact .inr h
      · exact .inl fun e he hen => absurd ⟨e, he, hen⟩ h)
    exact hpoisoned e (lines_of_lineStore hstore ▸ he)

end Sys2Proof.Machine
end

section
/-! O34: the start of a job on a Crypto Engine. What a job computes is read off the branch of its operation, from the
operands that it has read. -/

namespace Sys2Proof.Machine

/-! ### What an operation gives (R263 to R266) -/

/-- Job `k` is job `j` with the OP and the slot that word `v` of a descriptor spells, and the KIND that a KEYLOAD names. -/
def CryJob.Spells (v : Nat) (j k : CryJob) : Prop :=
  k.uid = j.uid ∧ k.owed = j.owed ∧ k.op = bitsOf v 0 8 ∧ k.slot = bitsOf v 8 5
    ∧ (bitsOf v 0 8 = 0x30 → k.kind = bitsOf v 13 3)

/-- Whatever an operation gives, its job spells its descriptor. -/
theorem cryCompute_spells (s : State) (n v : Nat) (j : CryJob) : j.Spells v (s.cryCompute n v j).1 := by
  unfold State.cryCompute
  extract_lets op slot len kind keyB job src iv aad wants
  have hjob : j.Spells v job := ⟨rfl, rfl, rfl, rfl, fun h => if_pos h⟩
  split
  clear_value job
  dsimp only
  repeat' split
  all_goals exact hjob

section
variable {s w : State} {n v : Nat} {j : CryJob}

/-- The key of the slot that a descriptor names, in the bytes of its KIND. -/
def State.keyBytes (s : State) (n v : Nat) : List Byte :=
  leBytes (keyLen (s.rd Reg.CRY_KEY_KIND [n, bitsOf v 8 5])) (s.cryKey n (bitsOf v 8 5))

theorem cryCompute_encrypt {s0 iv ad : List Byte} (hop : bitsOf v 0 8 = 0x01)
    (hread : s.cryRead n j.tag [(bitsOf v 64 64, bitsOf v 32 32), (bitsOf v 192 64, 12), (bitsOf v 256 64, bitsOf v 320 32)]
      = (.ok, [s0, iv, ad], w)) :
    let k := (s.cryCompute n v j).1
    k.out = xorBytes s0 (Config.gcmStream (s.keyBytes n v) iv (bitsOf v 32 32) % 2 ^ (8 * bitsOf v 32 32))
      ∧ k.tagOut = leBytes 16 (Config.gcmTag (s.keyBytes n v) iv ad k.out) := by
  simp [State.cryCompute, hop, hread, State.keyBytes]

theorem cryCompute_decrypt {s0 iv ad tg : List Byte} (hop : bitsOf v 0 8 = 0x02)
    (hread : s.cryRead n j.tag [(bitsOf v 64 64, bitsOf v 32 32), (bitsOf v 192 64, 12), (bitsOf v 256 64, bitsOf v 320 32),
      (bitsOf v 352 64, 16)] = (.ok, [s0, iv, ad, tg], w)) :
    let k := (s.cryCompute n v j).1
    (leBytes 16 (Config.gcmTag (s.keyBytes n v) iv ad s0) = tg →
        k.out = xorBytes s0 (Config.gcmStream (s.keyBytes n v) iv (bitsOf v 32 32) % 2 ^ (8 * bitsOf v 32 32)) ∧ k.bad = j.bad)
      ∧ (leBytes 16 (Config.gcmTag (s.keyBytes n v) iv ad s0) ≠ tg →
        k.out = List.replicate (bitsOf v 32 32) 0 ∧ k.bad = true) := by
  simp only [State.keyBytes]
  constructor <;> intro htag <;> simp [State.cryCompute, hop, hread, htag]

theorem cryCompute_hash {s0 : List Byte} (hop : bitsOf v 0 8 ∈ [0x10, 0x11, 0x12, 0x18, 0x19, 0x1A])
    (hread : s.cryRead n j.tag [(bitsOf v 64 64, bitsOf v 32 32)] = (.ok, [s0], w)) :
    (s.cryCompute n v j).1.out = leBytes (digestLen (bitsOf v 0 8)) (Config.hash (bitsOf v 0 8) s0) := by
  have hbranch : ∀ op ∈ [0x10, 0x11, 0x12, 0x18, 0x19, 0x1A], op ≠ 0x01 ∧ op ≠ 0x02 ∧ op ≠ 0x21 ∧ op ≠ 0x23 ∧ ¬op ≤ 0x02
      ∧ op < 0x20 := by decide
  obtain ⟨hencrypt, hdecrypt, hverify, hverify', hgcm, hhash⟩ := hbranch _ hop
  simp only [State.cryCompute, hencrypt, hdecrypt, hverify, hverify', hgcm, hhash, if_false, if_true, hread, ne_eq,
    not_true_eq_false, List.getD_cons_zero]

theorem cryCompute_sign {s0 : List Byte} (hop : bitsOf v 0 8 ∈ [0x20, 0x22])
    (hread : s.cryRead n j.tag [(bitsOf v 64 64, bitsOf v 32 32)] = (.ok, [s0], w)) :
    (s.cryCompute n v j).1.out = leBytes (2 * digestLen (bitsOf v 0 8))
      (Config.sign (bitsOf v 0 8) (ofLeBytes (s.keyBytes n v)) s0 w.freeVal) := by
  simp only [List.mem_cons, List.not_mem_nil, or_false] at hop
  rcases hop with hop | hop <;> simp [State.cryCompute, hop, hread, State.keyBytes]

theorem cryCompute_verify {s0 sg : List Byte} (hop : bitsOf v 0 8 ∈ [0x21, 0x23])
    (hread : s.cryRead n j.tag [(bitsOf v 64 64, bitsOf v 32 32), (bitsOf v 192 64, if bitsOf v 0 8 = 0x21 then 64 else 96)]
      = (.ok, [s0, sg], w)) :
    (s.cryCompute n v j).1.bad = !Config.verify (bitsOf v 0 8) (ofLeBytes (s.keyBytes n v)) s0 sg := by
  simp only [List.mem_cons, List.not_mem_nil, or_false] at hop
  rcases hop with hop | hop <;> simp only [hop, reduceIte, Nat.reduceEqDiff] at hread <;>
    simp [State.cryCompute, hop, hread, State.keyBytes]

theorem cryCompute_keyload {s0 : List Byte} (hop : bitsOf v 0 8 = 0x30)
    (hread : s.cryRead n j.tag [(bitsOf v 64 64, bitsOf v 32 32)] = (.ok, [s0], w)) :
    (s.cryCompute n v j).1.out = s0 := by
  simp [State.cryCompute, hop, hread]

end

/-! ### The start of a job (R264, R266, R269) -/

/-- The job with what it owes and what its operation has given, and the state that it leaves (R264, R267). -/
def State.cryBegun (t : State) (n d : Nat) (j : CryJob) : CryJob × State :=
  (t.cryState n j 1 none).cryCompute n d
    { j with owed := Config.cryptoNs (bitsOf d 0 8) (bitsOf d 32 32) (bitsOf d 320 32) }

/-- Engine `n` runs a job, wherever the job stood before. -/
def State.cryTakes (t : State) (n : Nat) (j : CryJob) : State :=
  (t.cryDrop n j.uid).setCryEngine n { (t.cryDrop n j.uid).cryEngine n with running := some j }

theorem cryEngine_setCryEngine_same (s : State) (n : Nat) (x : CryEngine) : (s.setCryEngine n x).cryEngine n = x :=
  tget_tput_same _ _ _ _

section
variable {s t : State} {n op : Nat} {j : CryJob} {b : List Byte}

/-- An engine that can start a job attempts it as a command of the job. -/
theorem cryOp_of_starts (hn : n < 4) (hstarts : s.cryStarts n = some j) (op : Nat) :
    s.cryOp n op = s.attempt (partyJob j.uid) (some j.uid) (fun s => go (s.cryStart n op j)) := by
  simp only [State.cryOp, ge_iff_le, Nat.not_le.2 hn, if_false, hstarts]

variable (hread : s.dmaRead (cryAccess n j.tag) j.desc 64 = (.ok, b, t))
include hread

theorem cryStart_of_admitted (hadm : s.cryAdmits n j.tag (ofLeBytes b) = true) :
    s.cryStart n (bitsOf (ofLeBytes b) 0 8) j =
      (t.cryBegun n (ofLeBytes b) j).2.cryTakes n (t.cryBegun n (ofLeBytes b) j).1 := by
  simp only [State.cryStart, hread, hadm, ne_eq, not_true_eq_false, Bool.not_true, Bool.false_eq_true, if_false]
  rfl

/-- A job that R264 or R266 does not take ends with ST_DENIED, whatever the operation that the command names. -/
theorem cryStart_of_denied (hadm : s.cryAdmits n j.tag (ofLeBytes b) = false) (op : Nat) :
    s.cryStart n op j = t.cryDeny n j := by
  simp only [State.cryStart, hread, hadm, ne_eq, not_true_eq_false, Bool.not_false, if_true, if_false]

end

/-! ### O34 -/

/-- Settles O34: each of the thirteen commands is the attempt to start the next job, which runs or is denied as its
descriptor is admitted or not; what the job has computed is read off the branch of its operation. -/
theorem cryptoEngineStartsItsJob : Obligations.CryptoEngineStartsItsJob := by
  unfold Obligations.CryptoEngineStartsItsJob
  intro s t n j b d op len p c r u z x hn hstarts hfresh hread
  have hrun : ∀ {op' : Nat} {v : State}, (s.inRun p).cryStart n op' j = v → v.fab.stall = none →
      s.cryOp n op' = .next (v.ended p) := fun {op'} {v} hstart hstall => by
    rw [cryOp_of_starts hn hstarts]
    exact attempt_of_unstopped (partyWaits_of_fresh hfresh) (congrArg go hstart) hstall
  refine ⟨fun hadm hstall => ?_, fun hadm hstall => ?_, ?_⟩
  · obtain ⟨huid, howed, hop, -, -⟩ :=
      cryCompute_spells c n d { j with owed := Config.cryptoNs op len (bitsOf d 320 32) }
    have hrunning : (z.cryEngine n).running = some r.1 :=
      congrArg CryEngine.running (cryEngine_setCryEngine_same (r.2.cryDrop n r.1.uid) n _)
    have hstart : ∀ op', op = op' → s.cryOp n op' = .next z := fun op' h =>
      h ▸ hrun (cryStart_of_admitted hread hadm) hstall
    exact ⟨hrunning, huid, hop, howed, hstart 0x01, hstart 0x02, hstart 0x10, hstart 0x11, hstart 0x12, hstart 0x18,
      hstart 0x19, hstart 0x1A, hstart 0x20, hstart 0x21, hstart 0x22, hstart 0x23, hstart 0x30⟩
  · have hdeny : ∀ op', s.cryOp n op' = .next x := fun op' => hrun (cryStart_of_denied hread hadm op') hstall
    exact ⟨hdeny 0x01, hdeny 0x02, hdeny 0x10, hdeny 0x11, hdeny 0x12, hdeny 0x18, hdeny 0x19, hdeny 0x1A, hdeny 0x20,
      hdeny 0x21, hdeny 0x22, hdeny 0x23, hdeny 0x30⟩
  · intro key src aad
    obtain ⟨-, -, -, hslot, hkind⟩ :=
      cryCompute_spells c n d { j with owed := Config.cryptoNs op len (bitsOf d 320 32) }
    exact ⟨fun s0 iv ad w hop hops => cryCompute_encrypt hop hops, fun s0 iv ad tg w hop hops => cryCompute_decrypt hop hops,
      fun s0 w hop hops => cryCompute_hash hop hops, fun s0 w hop hops => cryCompute_sign hop hops,
      fun s0 sg w hop hops => cryCompute_verify hop hops,
      fun s0 w hop hops => ⟨cryCompute_keyload hop hops, hslot, hkind hop⟩⟩

end Sys2Proof.Machine
end

section
/-! Commits that cover fields of ENC and of CRY alone: their entries write those fields, and of the actions of a commit
(R63) only that on keys and enclaves follows. -/

namespace Sys2Proof.Machine

/-! ### Entries and the words that they leave (R101) -/

/-- Staging may change the whole field: no read-only bit and no reserved element lies in it. -/
abbrev Row.stageable (r : Row) (ix : List Nat) : Prop :=
  maskBits r.lo r.width &&& stageMask r.space (r.base + joinOffset r.dims ix) = maskBits r.lo r.width

/-- The entry that stages a value into a whole field writes the field. -/
theorem applyEntry_stageOf (s : State) {r : Row} {ix : List Nat} (v : Nat) (h : r.stageable ix) :
    s.applyEntry (stageOf r ix v) = s.wr r ix v := by
  have hfield : (BitVec.ofNat 32 (v % 2 ^ r.width) <<< r.lo) &&& maskBits r.lo r.width
      = BitVec.ofNat 32 ((v % 2 ^ r.width) <<< r.lo) := by
    refine BitVec.eq_of_getLsbD_eq fun i hi => ?_
    rw [BitVec.getLsbD_and, testBit_maskBits, BitVec.getLsbD_shiftLeft, BitVec.getLsbD_ofNat, BitVec.getLsbD_ofNat,
      Nat.testBit_shiftLeft, Nat.testBit_mod_two_pow]
    by_cases hlo : r.lo ≤ i
    · by_cases hhi : i < r.lo + r.width
      · simp [hi, hlo, hhi, Nat.not_lt.2 hlo, show i - r.lo < 32 by omega]
      · simp [hi, hlo, hhi, show ¬(i - r.lo < r.width) by omega]
    · simp [hi, hlo]
  simp only [State.applyEntry, stageOf, h, hfield]
  rfl

/-! ### The actions of the commit (R63) -/

section
variable {j : Judge} (hc : ∀ f ∈ j.c, f.1.space = 0x06 ∨ f.1.space = 0x15)
include hc

theorem at_of_elsewhere {rs : List Row} (h : ∀ r ∈ rs, r.space ≠ 0x06 ∧ r.space ≠ 0x15) : j.at_ rs = [] := by
  have hnone : ∀ f ∈ j.c, f.1 ∉ rs := fun f hf hmem => by
    obtain ⟨henc, hcry⟩ := h f.1 hmem
    exact (hc f hf).elim henc hcry
  have hmap : j.c.filterMap (fun f => if rs.contains f.1 then some f.2 else none) = [] := by
    simpa [List.filterMap_eq_nil_iff] using fun r ix hf => hnone (r, ix) hf
  rw [Judge.at_, hmap, List.eraseDups_nil]

theorem keys_of_elsewhere {rs : List Row} (h : ∀ r ∈ rs, r.space ≠ 0x06 ∧ r.space ≠ 0x15) : j.keys rs = [] := by
  simp [Judge.keys, at_of_elsewhere hc h]

theorem fired_of_elsewhere {r : Row} (h : ∀ q ∈ [r], q.space ≠ 0x06 ∧ q.space ≠ 0x15) : j.fired r = [] := by
  simp [Judge.fired, at_of_elsewhere hc h]

/-- Only the action on keys and enclaves follows, where the two fields that a commit tests without covering them stay as
they are. -/
theorem apply_of_encCry (hso : ∀ f ∈ j.c, f.1.acc = .so)
    (hsextant : j.t.flag Reg.SXT_CFG_ENABLE [] = j.s.flag Reg.SXT_CFG_ENABLE [])
    (hbeat : j.t.flag Reg.SAF_HB_CFG_EN [] = j.s.flag Reg.SAF_HB_CFG_EN []) : j.apply = j.doKeys j.t := by
  have hlock : j.lockOnce j.t = j.t := by
    have honce : j.c.filter (fun f => f.1.acc = .wonce) = [] :=
      List.filter_eq_nil_iff.2 fun f hf => by simp [hso f hf]
    simp only [Judge.lockOnce, honce, List.map_nil, List.append_nil]
  have httu : ∀ s, j.doTtu s = s := fun s => by
    simp (disch := decide) only [Judge.doTtu, keys_of_elsewhere hc, at_of_elsewhere hc]
    rfl
  have hapc : ∀ s, j.doApc s = s := fun s => by
    simp (disch := decide) only [Judge.doApc, fired_of_elsewhere hc, keys_of_elsewhere hc]
    rfl
  have hgrants : ∀ s, j.doGrants s = s := fun s => by
    simp (disch := decide) only [Judge.doGrants, keys_of_elsewhere hc]
    rfl
  have hsensors : ∀ s, j.doSensors s = s := fun s => by
    simp (disch := decide) only [Judge.doSensors, Judge.doSextant, Judge.rises, Judge.falls, hsextant,
      fired_of_elsewhere hc, keys_of_elsewhere hc, Bool.not_and_self, Bool.and_not_self, Bool.false_eq_true, if_false]
    rfl
  have hnet : ∀ s, j.doNet s = s := fun s => by
    simp (disch := decide) only [Judge.doNet, fired_of_elsewhere hc, at_of_elsewhere hc]
    rfl
  have hclk : ∀ s, j.doClk s = s := fun s => by
    simp (disch := decide) only [Judge.doClk, fired_of_elsewhere hc, at_of_elsewhere hc, keys_of_elsewhere hc]
    rfl
  have hsafety : ∀ s, j.doSafety s = s := fun s => by
    simp (disch := decide) only [Judge.doSafety, Judge.doHeartbeat, Judge.rises, hbeat, fired_of_elsewhere hc,
      at_of_elsewhere hc, Bool.not_and_self, Bool.false_eq_true, if_false, List.isEmpty_nil, Bool.true_or, if_true]
    rfl
  have hboot : ∀ s, j.doBoot s = s := fun s => by
    simp (disch := decide) only [Judge.doBoot, fired_of_elsewhere hc, at_of_elsewhere hc, keys_of_elsewhere hc]
    rfl
  rw [Judge.apply, hlock, httu, hapc, hgrants, hsensors, hnet, hclk, hsafety, hboot]

end

/-! ### A commit of one field -/

theorem at_of_single {j : Judge} {r : Row} {ix : List Nat} (hc : j.c = [(r, ix)]) : j.at_ [r] = [ix] := by
  simp [Judge.at_, hc, List.eraseDups_cons]

theorem at_of_other {j : Judge} {q r : Row} {ix : List Nat} (hc : j.c = [(r, ix)]) (h : r ≠ q) : j.at_ [q] = [] := by
  simp [Judge.at_, hc, h]

/-- A commit of one such field is judged on it alone, and leaves what the action on keys and enclaves leaves. -/
theorem committed_single (s : State) {r : Row} {ix : List Nat} (v : Nat) (hstage : r.stageable ix)
    (hcovers : (stageOf r ix v).covers = [(r, ix)]) (hspace : r.space = 0x06 ∨ r.space = 0x15) (hso : r.acc = .so)
    (hsextant : Reg.SXT_CFG_ENABLE.key [] ≠ r.key ix) (hbeat : Reg.SAF_HB_CFG_EN.key [] ≠ r.key ix) :
    ∃ j : Judge, j.c = [(r, ix)] ∧ j.t = s.wr r ix v ∧ s.committed [(r, ix, v)] = j.doKeys (s.wr r ix v) := by
  have hc : (s.judge (entriesOf [(r, ix, v)])).c = [(r, ix)] := by
    show ([stageOf r ix v].flatMap Staged.covers).eraseDups = _
    simp [hcovers, List.eraseDups_cons]
  have ht : (s.judge (entriesOf [(r, ix, v)])).t = s.wr r ix v := applyEntry_stageOf s v hstage
  refine ⟨_, hc, ht, ?_⟩
  rw [State.committed, apply_of_encCry (by simpa [hc] using hspace) (by simpa [hc] using hso), ht]
  · exact ht ▸ flag_wr_ne s r _ ix [] v hsextant
  · exact ht ▸ flag_wr_ne s r _ ix [] v hbeat

end Sys2Proof.Machine
end

section
/-! O35: the jobs of a Crypto Engine at their switch boundaries and at their end, and the clearing of a key slot, which is
the commit of one field. -/

namespace Sys2Proof.Machine

/-! ### A commit of CLEAR (R266; Table enc.6) -/

/-- CLEAR of a slot may be staged, and its entry covers no other field: the table is finite, so this is evaluated. -/
theorem clear_staged : ∀ n < 4, ∀ k < 32, (stageOf Reg.CRY_KEY_CLEAR [n, k] 1).covers = [(Reg.CRY_KEY_CLEAR, [n, k])]
    ∧ Reg.CRY_KEY_CLEAR.stageable [n, k] := by
  decide +kernel

/-- Of the actions on keys and enclaves, a commit that covers CLEAR alone does that of CLEAR. -/
theorem doKeys_of_clear {j : Judge} {ix : List Nat} (hc : j.c = [(Reg.CRY_KEY_CLEAR, ix)])
    (hflag : j.t.flag Reg.CRY_KEY_CLEAR ix = true) (s : State) :
    j.doKeys s = (s.wr Reg.CRY_KEY_CLEAR ix 0).cryClear (ix.getD 0 0) (ix.getD 1 0) := by
  have hclear : j.fired Reg.CRY_KEY_CLEAR = [ix] := by simp [Judge.fired, at_of_single hc, hflag]
  have hrekey : j.fired Reg.MEM_KEY_REKEY = [] := by simp [Judge.fired, at_of_other (q := Reg.MEM_KEY_REKEY) hc (by decide)]
  have hreq : j.keys [Reg.ENC_ERT_REQ] = [] := by simp [Judge.keys, at_of_other (q := Reg.ENC_ERT_REQ) hc (by decide)]
  simp only [Judge.doKeys, hrekey, hreq, hclear]
  rfl

/-- A commit of CLEAR clears the slot; CLEAR itself reads 0 again. -/
theorem committed_clear (s : State) {n k : Nat} (hn : n < 4) (hk : k < 32) :
    s.committed [(Reg.CRY_KEY_CLEAR, [n, k], 1)] =
      ((s.wr Reg.CRY_KEY_CLEAR [n, k] 1).wr Reg.CRY_KEY_CLEAR [n, k] 0).cryClear n k := by
  obtain ⟨hcovers, hstage⟩ := clear_staged n hn k hk
  have hbelow : ∀ r : Row, r.key [] < wordKey 0x15 0 → r.key [] ≠ Reg.CRY_KEY_CLEAR.key [n, k] := fun r hr =>
    Nat.ne_of_lt (Nat.lt_of_lt_of_le hr (Nat.add_le_add_left (Nat.zero_le _) _))
  obtain ⟨j, hc, ht, hcommitted⟩ := committed_single s 1 hstage hcovers (.inr rfl) rfl (hbelow _ (by decide))
    (hbelow _ (by decide))
  have hflag : j.t.flag Reg.CRY_KEY_CLEAR [n, k] = true := by
    rw [ht, flag_wr_same _ _ _ _ (by decide)]
    rfl
  rw [hcommitted, doKeys_of_clear hc hflag]
  rfl

/-! ### Key slots (R266; Table enc.6) -/

theorem cryKey_cryClear_same (s : State) (n k : Nat) : (s.cryClear n k).cryKey n k = 0 := tget_tdel_same _ _ _

theorem cryKey_cryClear_ne (s : State) (n : Nat) {i k : Nat} (h : i ≠ k) : (s.cryClear n k).cryKey n i = s.cryKey n i :=
  tget_tdel_ne _ _ (by omega)

theorem rd_cryClear_kind (s : State) (n k : Nat) : (s.cryClear n k).rd Reg.CRY_KEY_KIND [n, k] = 0 :=
  rd_wr_same _ _ _ _ (by decide)

/-- Erasing a key touches KIND alone of its word. -/
theorem rd_cryClear_clear (s : State) (n k : Nat) :
    (s.cryClear n k).rd Reg.CRY_KEY_CLEAR [n, k] = s.rd Reg.CRY_KEY_CLEAR [n, k] :=
  rd_wr_beside _ _ _ (by decide)

theorem execCryptoKeyClear_of_commits {s : State} {n k : Nat}
    (h : s.commits 0 [(Reg.CRY_KEY_CLEAR, [n, k], 1)] = true) :
    ∃ t, execCryptoKeyClear n k s = .next t ∧ t = (s.committed [(Reg.CRY_KEY_CLEAR, [n, k], 1)]).answer .ok 0
      ∧ t.cryKey n k = 0 ∧ t.rd Reg.CRY_KEY_KIND [n, k] = 0 ∧ t.rd Reg.CRY_KEY_CLEAR [n, k] = 0 ∧ t.mem = s.mem := by
  have hix : n < 4 ∧ k < 32 := by
    simp only [State.commits, Bool.and_eq_true] at h
    obtain ⟨⟨⟨-, hholds⟩, -⟩, -⟩ := h
    simpa [Row.holds, Reg.CRY_KEY_CLEAR] using hholds
  have hcommitted := committed_clear s hix.1 hix.2
  generalize hu : (s.wr Reg.CRY_KEY_CLEAR [n, k] 1).wr Reg.CRY_KEY_CLEAR [n, k] 0 = u at hcommitted
  have hclear : u.rd Reg.CRY_KEY_CLEAR [n, k] = 0 := hu ▸ rd_wr_same _ _ _ _ (by decide)
  have hmem : u.mem = s.mem := hu ▸ rfl
  refine ⟨_, commitOf_of_commits h, rfl, ?_⟩
  rw [hcommitted]
  exact ⟨cryKey_cryClear_same u n k, rd_cryClear_kind u n k, (rd_cryClear_clear u n k).trans hclear, hmem⟩

/-- A finished KEYLOAD leaves its key in the slot, with its KIND. -/
theorem cryFinish_of_keyload (s : State) (n : Nat) {j : CryJob} (hop : j.op = 0x30) :
    (s.cryFinish n j).1 = .ok ∧ (s.cryFinish n j).2.cryKey n j.slot = ofLeBytes j.out
      ∧ (s.cryFinish n j).2.rd Reg.CRY_KEY_KIND [n, j.slot] = j.kind % 2 ^ 3 ∧ (s.cryFinish n j).2.mem = s.mem := by
  rw [State.cryFinish, if_pos hop]
  exact ⟨rfl, tget_tput_same _ _ _ _, rd_wr_same _ _ _ _ (by decide), rfl⟩

/-! ### Switch boundaries (R267, R268, R270) -/

/-- Which job an engine takes next does not rest on whether a command runs. -/
theorem cryNext_inRun (s : State) (p n : Nat) : (s.inRun p).cryNext n = s.cryNext n := by
  have hbest : ∀ l, (s.inRun p).cryBest n l = s.cryBest n l := fun l => by
    induction l with
    | nil => rfl
    | cons j l ih =>
      have hserve : (s.inRun p).mayServe (25 + n) j.tag = s.mayServe (25 + n) j.tag := rfl
      have hrank : ∀ tag, (s.inRun p).cryRank n tag = s.cryRank n tag := fun _ => rfl
      simp only [State.cryBest, ih, hserve, hrank]
  exact hbest _

/-- Engine `n` gives up job `j`, which it saves, for job `k`, which pays for the save (R267, R268). -/
def State.cryYields (v : State) (n save : Nat) (j k : CryJob) : State :=
  let u := v.setCryEngine n { v.cryEngine n with running := none, saved := (v.cryEngine n).saved ++ [j] }
  ((u.cryState n j 2 (some .preempted)).incWrap Reg.CRY_CNT_PREEMPT [n] 1).chargeJob k.uid (25 + n) save

/-- Engine `n` goes on with job `j`, which pays for its restore (R268). -/
def State.cryGoesOn (v : State) (n restore : Nat) (j : CryJob) : State :=
  let u := v.setCryEngine n { v.cryEngine n with running := some j, saved := (v.cryEngine n).saved.filter (fun k => k.uid ≠ j.uid) }
  (u.cryState n j 1 none).chargeJob j.uid (25 + n) restore

section
variable {s t : State} {n : Nat} {j : CryJob} (hn : n < 4) (hrunning : (s.cryEngine n).running = some j)
  (hfresh : s.fresh (partyJob j.uid) = true)
include hn hrunning hfresh

section
variable {save : Nat} (hsave : save ≤ 200)
include hsave

theorem execCryptoPreempt_of_abort (habort : s.cryAborting j = true)
    (ht : ((s.inRun (partyJob j.uid)).cryAbort n j).cryEnd n j .aborted = t) (hstall : t.fab.stall = none) :
    execCryptoPreempt n save s = .next (t.ended (partyJob j.uid)) := by
  have hshape : (decide (n ≥ 4) || decide (save > 200)) = false := by simp [hn, hsave]
  have haborting : (s.inRun (partyJob j.uid)).cryAborting j = true := habort
  simp only [execCryptoPreempt, hshape, Bool.false_eq_true, if_false, hrunning]
  exact attempt_of_unstopped (partyWaits_of_fresh hfresh) ((if_pos haborting).trans (congrArg go ht)) hstall

/-- A next job of higher rank takes the engine. -/
theorem execCryptoPreempt_of_higher (habort : s.cryAborting j = false) {k : CryJob} (hnext : s.cryNext n = some k)
    (hrank : s.cryRank n k.tag < s.cryRank n j.tag)
    (hstall : ((s.inRun (partyJob j.uid)).cryYields n save j k).fab.stall = none) :
    execCryptoPreempt n save s =
      .next (((s.inRun (partyJob j.uid)).cryYields n save j k).ended (partyJob j.uid)) := by
  have hshape : (decide (n ≥ 4) || decide (save > 200)) = false := by simp [hn, hsave]
  have haborting : (s.inRun (partyJob j.uid)).cryAborting j = false := habort
  have hranks : (s.inRun (partyJob j.uid)).cryRank n k.tag < (s.inRun (partyJob j.uid)).cryRank n j.tag := hrank
  simp only [execCryptoPreempt, hshape, Bool.false_eq_true, if_false, hrunning]
  refine attempt_of_unstopped (partyWaits_of_fresh hfresh) ?_ hstall
  simp only [haborting, cryNext_inRun, hnext, hranks, Bool.false_eq_true, if_false, if_true]
  rfl

/-- With no next job of higher rank the running job stays. -/
theorem execCryptoPreempt_of_not_higher (habort : s.cryAborting j = false)
    (hrank : ∀ k, s.cryNext n = some k → s.cryRank n j.tag ≤ s.cryRank n k.tag) :
    execCryptoPreempt n save s = .next s := by
  have hshape : (decide (n ≥ 4) || decide (save > 200)) = false := by simp [hn, hsave]
  have haborting : (s.inRun (partyJob j.uid)).cryAborting j = false := habort
  simp only [execCryptoPreempt, hshape, Bool.false_eq_true, if_false, hrunning]
  refine attempt_of_idle hfresh ?_
  simp only [haborting, cryNext_inRun, Bool.false_eq_true, if_false]
  cases hnext : s.cryNext n with
  | none => rfl
  | some k =>
    have hranks : (s.inRun (partyJob j.uid)).cryRank n j.tag ≤ (s.inRun (partyJob j.uid)).cryRank n k.tag := hrank k hnext
    exact if_neg (Nat.not_lt.2 hranks)

end

theorem execCryptoJobDone_of_abort (habort : s.cryAborting j = true)
    (ht : ((s.inRun (partyJob j.uid)).cryAbort n j).cryEnd n j .aborted = t) (hstall : t.fab.stall = none) :
    execCryptoJobDone n s = .next (t.ended (partyJob j.uid)) := by
  have haborting : (s.inRun (partyJob j.uid)).cryAborting j = true := habort
  simp only [execCryptoJobDone, ge_iff_le, Nat.not_le.2 hn, if_false, hrunning]
  exact attempt_of_unstopped (partyWaits_of_fresh hfresh) ((if_pos haborting).trans (congrArg go ht)) hstall

theorem execCryptoJobDone_of_done (habort : s.cryAborting j = false)
    (ht : (s.inRun (partyJob j.uid)).cryDone n j = t) (hstall : t.fab.stall = none) :
    execCryptoJobDone n s = .next (t.ended (partyJob j.uid)) := by
  have haborting : ¬(s.inRun (partyJob j.uid)).cryAborting j = true := Bool.eq_false_iff.1 habort
  simp only [execCryptoJobDone, ge_iff_le, Nat.not_le.2 hn, if_false, hrunning]
  exact attempt_of_unstopped (partyWaits_of_fresh hfresh) ((if_neg haborting).trans (congrArg go ht)) hstall

end

theorem cryDone_of_failed (v : State) (n : Nat) {j : CryJob} {st : Status} (h : j.failed = some st) :
    v.cryDone n j = (v.payJob j.uid (25 + n) j.owed).cryEnd n j st := by
  simp only [State.cryDone, h]

theorem cryDone_of_not_failed (v : State) (n : Nat) {j : CryJob} (h : j.failed = none) :
    v.cryDone n j = ((v.payJob j.uid (25 + n) j.owed).cryFinish n j).2.cryEnd n j
      ((v.payJob j.uid (25 + n) j.owed).cryFinish n j).1 := by
  simp only [State.cryDone, h]

/-- An idle engine whose next job is a saved one goes on with it. -/
theorem execCryptoResume_of_saved {s : State} {n restore : Nat} {j : CryJob} (hn : n < 4) (hrestore : restore ≤ 200)
    (hidle : (s.cryEngine n).running = none) (hnext : s.cryNext n = some j)
    (hsaved : ∃ k ∈ (s.cryEngine n).saved, k.uid = j.uid) (hfresh : s.fresh (partyJob j.uid) = true)
    (hstall : ((s.inRun (partyJob j.uid)).cryGoesOn n restore j).fab.stall = none) :
    execCryptoResume n restore s =
      .next (((s.inRun (partyJob j.uid)).cryGoesOn n restore j).ended (partyJob j.uid)) := by
  have hshape : (decide (n ≥ 4) || decide (restore > 200)) = false := by simp [hn, hrestore]
  have hany : (s.cryEngine n).saved.any (fun k => k.uid = j.uid) = true := by simpa using hsaved
  simp only [execCryptoResume, hshape, Bool.false_eq_true, if_false, hidle, hnext, hany, if_true]
  exact attempt_of_unstopped (partyWaits_of_fresh hfresh) rfl hstall

/-! ### O35 -/

/-- Settles O35: the commands of a job are attempts of its engine in the branches of R267 to R270, and CLEAR is the action
of a commit that covers no other field. -/
theorem cryptoJobsSwitchAndEnd : Obligations.CryptoJobsSwitchAndEnd := by
  unfold Obligations.CryptoJobsSwitchAndEnd
  intro s n hn
  refine ⟨fun j save hsave hrunning hfresh => ?_, fun restore j hrestore hidle hnext hsaved hfresh hstall =>
      execCryptoResume_of_saved hn hrestore hidle hnext hsaved hfresh hstall,
    fun j hop _ => cryFinish_of_keyload s n hop, fun k => ⟨execCryptoKeyClear_of_commits, cryKey_cryClear_same s n k,
      rd_cryClear_kind s n k, fun i hi => cryKey_cryClear_ne s n hi⟩⟩
  refine ⟨fun habort hstall => ⟨execCryptoPreempt_of_abort hn hrunning hfresh hsave habort rfl hstall,
      execCryptoJobDone_of_abort hn hrunning hfresh habort rfl hstall⟩,
    fun k habort hnext hrank hstall => execCryptoPreempt_of_higher hn hrunning hfresh hsave habort hnext hrank hstall,
    execCryptoPreempt_of_not_higher hn hrunning hfresh hsave, fun habort => ⟨fun st hfailed hstall => ?_, fun hfailed hstall => ?_⟩⟩
  · exact execCryptoJobDone_of_done hn hrunning hfresh habort (cryDone_of_failed _ n hfailed) hstall
  · exact execCryptoJobDone_of_done hn hrunning hfresh habort (cryDone_of_not_failed _ n hfailed) hstall

end Sys2Proof.Machine
end

section
/-! O32, refuted. A DESTROY evicts the harts of its entry (R246), and the save-area writes of an evicted hart first complete
the hart's posted writes (R204). One that fails is recorded in MAT.PERR of its tag (R202). The statement speaks of every
state, so also of one that holds a posted write whose tag is none of the 42 that MAT.PERR has: its record then falls on a
word of another space, here on that of REQ. The first of the 25 lines of the save area does this; it also freezes layer 0
(R198), so that each of the others stands before that layer and changes no word beyond MAT. -/

namespace Sys2Proof.Machine

/-! ### The DESTROY of a commit -/

/-- Of the actions on keys and enclaves, a commit that covers REQ of an entry alone does that of REQ. -/
theorem doKeys_of_req {j : Judge} {e : Nat} (hc : j.c = [(Reg.ENC_ERT_REQ, [e])]) (hreq : j.t.rd Reg.ENC_ERT_REQ [e] ≠ 0)
    (s : State) : j.doKeys s = (s.wr Reg.ENC_ERT_REQ [e] 0).ertRequest e (j.t.rd Reg.ENC_ERT_REQ [e]) := by
  have hkeys : j.keys [Reg.ENC_ERT_REQ] = [e] := by simp [Judge.keys, at_of_single hc, List.eraseDups_cons]
  have hrekey : j.fired Reg.MEM_KEY_REKEY = [] := by simp [Judge.fired, at_of_other (q := Reg.MEM_KEY_REKEY) hc (by decide)]
  have hclear : j.fired Reg.CRY_KEY_CLEAR = [] := by simp [Judge.fired, at_of_other (q := Reg.CRY_KEY_CLEAR) hc (by decide)]
  simp only [Judge.doKeys, hkeys, hrekey, hclear]
  exact if_neg hreq

/-- A committed DESTROY of entry 0, as the Monitor starts it. -/
theorem committed_destroy (s : State) : s.committed [(Reg.ENC_ERT_REQ, [0], 3)] =
    ((s.wr Reg.ENC_ERT_REQ [0] 3).wr Reg.ENC_ERT_REQ [0] 0).ertRequest 0 3 := by
  obtain ⟨j, hc, ht, hcommitted⟩ := committed_single s (r := Reg.ENC_ERT_REQ) (ix := [0]) 3 (by decide +kernel)
    (by decide +kernel) (.inl rfl) rfl (by decide) (by decide)
  have hreq : j.t.rd Reg.ENC_ERT_REQ [0] = 3 := by
    rw [ht]
    exact rd_wr_same _ _ _ _ (by decide)
  rw [hcommitted, doKeys_of_req hc (by simp [hreq]), hreq]

/-- A DESTROY that the Monitor starts leaves REQ of its entry as the evicted harts leave it. -/
theorem rd_req_ertRequest_destroy {s : State} {e : Nat} (hmon : s.rd Reg.ENC_MON_STATE [] = 0) (hlegal : s.ertLegal e 3 = true) :
    (s.ertRequest e 3).rd Reg.ENC_ERT_REQ [e] = (s.evictHarts e).rd Reg.ENC_ERT_REQ [e] := by
  have hstart : s.ertRequest e 3 = ((s.evictHarts e).wr Reg.ENC_ERT_STATE [e] 4).setWork e (some .destroy) := by
    simp [State.ertRequest, State.ertStart, hmon, hlegal]
  rw [hstart]
  exact rd_wr_beside (s.evictHarts e) [e] 4 (by decide)

/-! ### Lines before a frozen layer (R198) -/

theorem rd_of_word {s t : State} {r : Row} {ix : List Nat} (h : t.word (r.key ix) = s.word (r.key ix)) :
    t.rd r ix = s.rd r ix := by
  rw [State.rd, State.rd, h]

/-- The state `t` differs from `s` in no word from space 5 on, in no frozen layer, and not in the boot. -/
structure State.SameBeyondMat (s t : State) : Prop where
  boot : t.boot = s.boot
  frozen : t.fab.frozen = s.fab.frozen
  word : ∀ k, wordKey 5 0 ≤ k → t.word k = s.word k

theorem State.SameBeyondMat.trans {s t u : State} (hst : s.SameBeyondMat t) (htu : t.SameBeyondMat u) : s.SameBeyondMat u :=
  ⟨htu.boot.trans hst.boot, htu.frozen.trans hst.frozen, fun k hk => (htu.word k hk).trans (hst.word k hk)⟩

/-- What leaves the words and the fuses alone changes no word. -/
theorem sameBeyondMat_of_words {s t : State} (hboot : t.boot = s.boot) (hfrozen : t.fab.frozen = s.fab.frozen)
    (hfuses : t.fuses = s.fuses) (hwords : t.words = s.words) : s.SameBeyondMat t :=
  ⟨hboot, hfrozen, fun k _ => by rw [State.word, State.word, hfuses, hwords]⟩

theorem sameBeyondMat_wr (s : State) {r : Row} {ix : List Nat} (v : Nat) (h : r.key ix < wordKey 5 0) :
    s.SameBeyondMat (s.wr r ix v) :=
  ⟨wr_boot s r ix v, congrArg _ (wr_fab s r ix v), fun _ hk => word_wr_ne s r ix v (by omega)⟩

/-- The port of hart 0 counts its transactions in words of MAT. -/
theorem sameBeyondMat_syncPort (s : State) (extra : Nat) : s.SameBeyondMat (s.syncPort 0 extra) := by
  have hcount := sameBeyondMat_wr s (r := Reg.MAT_TRK_INFLIGHT) (ix := [0]) (s.inflight 0) (by decide)
  dsimp only [State.syncPort]
  split
  · exact hcount.trans (sameBeyondMat_wr _ _ (by decide))
  · exact hcount

theorem sameBeyondMat_openTxn (s : State) {t : Txn} (h : t.port = 0) : s.SameBeyondMat (s.openTxn t) := by
  have hopen : s.SameBeyondMat { s with fab := { s.fab with
      open_ := s.fab.open_ ++ [t], nextId := max s.fab.nextId (t.id + 1) } } := sameBeyondMat_of_words rfl rfl rfl rfl
  rw [State.openTxn, h]
  exact hopen.trans (sameBeyondMat_syncPort _ 0)

/-- While layer 0 is frozen, a line of hart 0 stands before it, or waits at its initiator. -/
theorem sameBeyondMat_putLine {s : State} {a : Access} (ha : a.src = .hart 0) (hup : s.boot.mainUp = true)
    (hfrozen : s.frozenIn [0] = some 0) (addr : Nat) (bytes : List Byte) : s.SameBeyondMat (s.putLine a addr bytes) := by
  have hxd : srcXd a.src = none := ha ▸ rfl
  have hlayers : s.frozenIn (sourceLayers a) = some 0 := by simp only [sourceLayers, hxd, List.nil_append, hfrozen]
  have hdown : s.srcDown a = false := by simp only [State.srcDown, hxd]
  have hbus : ∀ q : HeldReq, q.acc = a → q.adm = none → s.bus q .never = s.standBefore q (.commandPort 0) 0 := by
    intro q hq hadm
    simp [State.bus, hq, hadm, hup, hdown, hlayers]
  rw [State.putLine, hbus _ rfl rfl, State.standBefore]
  by_cases hroom : s.roomAt a (.commandPort 0) 0 = true
  · rw [if_pos hroom]
    exact sameBeyondMat_openTxn s (congrArg srcPort ha)
  · rw [if_neg hroom]
    exact sameBeyondMat_of_words rfl rfl rfl rfl

/-- So do all the lines of a list. -/
theorem sameBeyondMat_foldl_putLine {a : Access} (ha : a.src = .hart 0) (addr : Nat → Nat) (bytes : Nat → List Byte)
    (l : List Nat) {s : State} (hup : s.boot.mainUp = true) (hfrozen : s.frozenIn [0] = some 0) :
    s.SameBeyondMat (l.foldl (fun s k => s.putLine a (addr k) (bytes k)) s) := by
  induction l generalizing s with
  | nil => exact sameBeyondMat_of_words rfl rfl rfl rfl
  | cons k l ih =>
    have hline := sameBeyondMat_putLine ha hup hfrozen (addr k) (bytes k)
    refine hline.trans (ih (by rw [hline.boot, hup]) ?_)
    rw [State.frozenIn, hline.frozen]
    exact hfrozen

/-! ### The eviction of hart 0 -/

/-- The state after the first line that hart 0 writes to its save area. -/
def State.firstLine (s : State) (base : Nat) (bytes : List Byte) : State :=
  s.putLine { tag := s.rd Reg.APC_HART_TAG [0], pid := 0, src := .hart 0, kind := .write, virt := (s.hart 0).virt, firm := true }
    (base + 64 * 0) ((bytes.drop (64 * 0)).take 64)

/-- Where the first line leaves layer 0 frozen, the rest of the save area changes no word beyond MAT. -/
theorem sameBeyondMat_writeSave {s u : State} {base : Nat} {bytes : List Byte} (hu : s.firstLine base bytes = u)
    (hup : u.boot.mainUp = true) (hfrozen : u.frozenIn [0] = some 0) : u.SameBeyondMat (s.writeSave 0 base bytes) := by
  subst hu
  rw [State.writeSave, List.range_succ_eq_map, List.foldl_cons]
  exact sameBeyondMat_foldl_putLine rfl _ _ _ hup hfrozen

theorem word_setHart (s : State) (h : Nat) (x : Hart) (k : Nat) : (s.setHart h x).word k = s.word k := by
  simp [State.word]

/-- Of its words, a trap from enclave mode changes, beside those that the save area changes, the one of the mode. -/
theorem word_takeTrap {s : State} {h : Nat} (hencl : s.inEnclave h = true) (cause tval : Nat) (irq : Bool) {k : Nat}
    (hk : k ≠ Reg.APC_HART_IN_ENCL.key [h]) : (s.takeTrap h cause tval irq).word k =
      (s.writeSave h (s.ertBase (s.rd Reg.APC_HART_ENTRY [h]) + 2048 * h) (s.hart h).saved).word k := by
  simp only [State.takeTrap, State.asyncExit, hencl, Bool.not_true, Bool.false_eq_true, if_false, word_setHart,
    word_wr_ne _ _ _ _ hk]

/-- Where no hart beyond hart 0 is in enclave mode once hart 0 has left it, the eviction is that of hart 0. -/
theorem evictHarts_of_only {s : State} {e : Nat} (hencl : s.inEnclave 0 = true) (hentry : s.rd Reg.APC_HART_ENTRY [0] = e)
    (hothers : ∀ h < 15, (s.takeTrap 0 24 0 false).inEnclave (h + 1) = false) :
    s.evictHarts e = s.takeTrap 0 24 0 false := by
  have hrest : ∀ l : List Nat, (∀ h ∈ l, (s.takeTrap 0 24 0 false).inEnclave h = false) → l.foldl (fun s h =>
      if s.inEnclave h && s.rd Reg.APC_HART_ENTRY [h] = e then s.takeTrap h 24 0 false else s) (s.takeTrap 0 24 0 false)
        = s.takeTrap 0 24 0 false := fun l hl => by
    induction l with
    | nil => rfl
    | cons h l ih =>
      rw [List.foldl_cons, hl h (by simp)]
      exact ih fun h' hh' => hl h' (List.mem_cons_of_mem _ hh')
  rw [State.evictHarts, List.range_succ_eq_map, List.foldl_cons, hencl, hentry]
  simp only [Bool.true_and, decide_true, if_true]
  exact hrest _ fun h hh => by
    obtain ⟨k, hk, rfl⟩ := List.mem_map.1 hh
    exact hothers k (List.mem_range.1 hk)

/-! ### The counterexample -/

/-- A posted write of hart 0 to XD0, whose link is down, under a tag for which the word of MAT.PERR.STATUS, at
4 × 65472 + 0x102 of space 0x04, is the word of ENC.ERT[0].REQ, 2 of space 0x06. -/
def strayWrite : Posted :=
  { id := 0, acc := { tag := 65472, pid := 0, src := .hart 0, kind := .write }, addr := 0x8_0000_0000, bytes := [0], layer := 0 }

/-- A posted write of hart 0 to an address with no target: layer 0, in its freezing mode, freezes on it. -/
def freezingWrite : Posted :=
  { id := 1, acc := { tag := 0, pid := 0, src := .hart 0, kind := .write }, addr := 0x20_0000, bytes := [0], layer := 0 }

/-- A posted write of hart 0 into the first line of its save area, behind the one that freezes layer 0. -/
def blockingWrite : Posted :=
  { id := 2, acc := { tag := 0, pid := 0, src := .hart 0, kind := .write }, addr := 0x10_0000_0000, bytes := [0], layer := 0 }

/-- The main domain and the CMP run, entry 0 is ACTIVE over the first 2 MB of HBM, hart 0 is in enclave mode for it, and its
posted writes have not completed. -/
def strayState : State :=
  let s : State := { State.reset with
    boot := { mainUp := true, cold := false }, cmp := { state := 1 },
    fab := { posted := [strayWrite, freezingWrite, blockingWrite] } }
  ((((s.wr Reg.ENC_ERT_STATE [0] 3).wrPair Reg.ENC_ERT_BASE_LO Reg.ENC_ERT_BASE_HI [0] 0x10_0000_0000).wr Reg.ENC_ERT_SIZE [0]
    21).wr Reg.APC_HART_IN_ENCL [0] 1).wr Reg.MAT_DECODE_MODE [0] 1

/-- The state in which the DESTROY starts: the commit has put REQ back to 0. -/
def strayStart : State := (strayState.wr Reg.ENC_ERT_REQ [0] 3).wr Reg.ENC_ERT_REQ [0] 0

/-- The DESTROY is admitted, while the Monitor runs. -/
theorem strayState_commits : strayState.commits 0 [(Reg.ENC_ERT_REQ, [0], 3)] = true
    ∧ strayState.rd Reg.ENC_MON_STATE [] = 0 := by
  decide +kernel

/-- The DESTROY starts, and evicts hart 0. -/
theorem strayStart_evicts : strayStart.rd Reg.ENC_MON_STATE [] = 0 ∧ strayStart.ertLegal 0 3 = true
    ∧ strayStart.inEnclave 0 = true ∧ strayStart.rd Reg.APC_HART_ENTRY [0] = 0
    ∧ strayStart.ertBase 0 + 2048 * 0 = 0x10_0000_0000 := by
  decide +kernel

/-- The state after the first line that the evicted hart writes. -/
def strayLine : State := strayStart.firstLine 0x10_0000_0000 (strayStart.hart 0).saved

/-- The stray write has failed with ST_NOT_READY, whose low bits REQ now reads, and layer 0 is frozen. -/
theorem strayLine_spec : strayLine.boot.mainUp = true ∧ strayLine.frozenIn [0] = some 0 ∧ strayLine.rd Reg.ENC_ERT_REQ [0] = 3
    ∧ ∀ h < 15, strayLine.inEnclave (h + 1) = false := by
  decide +kernel

/-- The trap of hart 0 leaves the words beyond MAT, but for that of its mode, as the first line left them. -/
theorem word_strayTrap {k : Nat} (hk : wordKey 5 0 ≤ k) (hmode : k ≠ Reg.APC_HART_IN_ENCL.key [0]) :
    (strayStart.takeTrap 0 24 0 false).word k = strayLine.word k := by
  obtain ⟨-, -, hencl, hentry, hbase⟩ := strayStart_evicts
  obtain ⟨hup, hfrozen, -, -⟩ := strayLine_spec
  have hsave : strayLine.SameBeyondMat (strayStart.writeSave 0 0x10_0000_0000 (strayStart.hart 0).saved) :=
    sameBeyondMat_writeSave rfl hup hfrozen
  rw [word_takeTrap hencl _ _ _ hmode, hentry, hbase]
  exact hsave.word k hk

/-- REQ, which the commit has set to 0, reads the low bits of ST_NOT_READY once hart 0 is evicted. -/
theorem strayState_req : (strayState.committed [(Reg.ENC_ERT_REQ, [0], 3)]).rd Reg.ENC_ERT_REQ [0] = 3 := by
  obtain ⟨hmon, hlegal, hencl, hentry, -⟩ := strayStart_evicts
  obtain ⟨-, -, hreq, hothers⟩ := strayLine_spec
  have honly : ∀ h < 15, (strayStart.takeTrap 0 24 0 false).inEnclave (h + 1) = false := fun h hh => by
    have hkeys : ∀ h < 15, wordKey 5 0 ≤ Reg.APC_HART_IN_ENCL.key [h + 1]
        ∧ Reg.APC_HART_IN_ENCL.key [h + 1] ≠ Reg.APC_HART_IN_ENCL.key [0] := by decide
    obtain ⟨hbeyond, hmode⟩ := hkeys h hh
    have hout := hothers h hh
    simp only [State.inEnclave, State.flag] at hout ⊢
    rw [rd_of_word (word_strayTrap hbeyond hmode), hout]
  calc (strayState.committed [(Reg.ENC_ERT_REQ, [0], 3)]).rd Reg.ENC_ERT_REQ [0]
      = (strayStart.evictHarts 0).rd Reg.ENC_ERT_REQ [0] := by
        rw [committed_destroy]
        exact rd_req_ertRequest_destroy hmon hlegal
    _ = (strayStart.takeTrap 0 24 0 false).rd Reg.ENC_ERT_REQ [0] := by rw [evictHarts_of_only hencl hentry honly]
    _ = strayLine.rd Reg.ENC_ERT_REQ [0] := rd_of_word (word_strayTrap (by decide) (by decide))
    _ = 3 := hreq

/-! ### O32 -/

theorem rd_answer (s : State) (st : Status) (data : Nat) (r : Row) (ix : List Nat) :
    (s.answer st data).rd r ix = s.rd r ix := rfl

/-- Refutes O32: after a DESTROY, REQ need not read 0 where a posted write of an evicted hart has a tag that no party has. -/
theorem not_enclaveLifecycle : ¬ Obligations.EnclaveLifecycle := by
  unfold Obligations.EnclaveLifecycle
  intro h
  obtain ⟨hcommits, hmon⟩ := strayState_commits
  obtain ⟨-, -, hdestroy, -⟩ := h strayState 0
  obtain ⟨t, -, ht, hdone⟩ := hdestroy hcommits
  obtain ⟨-, hreq, -⟩ := hdone hmon
  rw [ht, rd_answer, strayState_req] at hreq
  exact absurd hreq (by decide)

end Sys2Proof.Machine
end

section
/-! What the operations on harts leave: a hart reads as it was set, a set hart changes no word, a write of a word changes no
hart, and a trap is taken inside or outside enclave mode (R281). -/

namespace Sys2Proof.Machine

/-! ### Harts and words -/

@[simp] theorem hart_setHart_same (s : State) (h : Nat) (x : Hart) : (s.setHart h x).hart h = x := tget_tput_same _ _ _ _

theorem hart_setHart_ne (s : State) {g h : Nat} (x : Hart) (hne : g ≠ h) : (s.setHart h x).hart g = s.hart g :=
  tget_tput_ne _ _ _ hne

@[simp] theorem rd_setHart (s : State) (h : Nat) (x : Hart) (r : Row) (ix : List Nat) : (s.setHart h x).rd r ix = s.rd r ix :=
  rd_of_word (word_setHart s h x _)

@[simp] theorem inEnclave_setHart (s : State) (h : Nat) (x : Hart) (g : Nat) : (s.setHart h x).inEnclave g = s.inEnclave g := by
  simp only [State.inEnclave, State.flag, rd_setHart]

@[simp] theorem hart_wr (s : State) (r : Row) (ix : List Nat) (v g : Nat) : (s.wr r ix v).hart g = s.hart g := rfl

@[simp] theorem hart_ended (s : State) (p h : Nat) : (s.ended p).hart h = s.hart h := rfl

theorem inEnclave_wr_inEncl (s : State) (h v : Nat) :
    (s.wr Reg.APC_HART_IN_ENCL [h] v).inEnclave h = decide (v % 2 = 1) :=
  flag_wr_same _ _ _ _ (by decide)

/-! ### Traps and asynchronous exits (R281) -/

/-- The hart once it has taken a trap, in the mode that delegation gives. -/
def Hart.trapped (x : Hart) (cause tval epc : Nat) (irq : Bool) : Hart :=
  { x with mmode := x.trapMode cause irq = 0, virt := x.trapMode cause irq = 2,
           trap := some { cause := cause, tval := tval, epc := epc, irq := irq, mode := x.trapMode cause irq } }

/-- The hart as an asynchronous exit clears it (Table apc.3). -/
def Hart.cleared (x : Hart) : Hart :=
  { x with x := [], f := [], v := [], fcsr := 0, vtype := villType, vl := 0, vstart := 0, async := true }

/-- The state once a hart in enclave mode has written its save area in the control region of its entry (Table apc.4). -/
def State.hartSaved (s : State) (h : Nat) : State :=
  s.writeSave h (s.ertBase (s.rd Reg.APC_HART_ENTRY [h]) + 2048 * h) (s.hart h).saved

section
variable {s : State} {h : Nat}

theorem takeTrap_of_outside (hout : s.inEnclave h = false) (cause tval : Nat) (irq : Bool) :
    s.takeTrap h cause tval irq = s.setHart h ((s.hart h).trapped cause tval (s.hart h).pc irq) := by
  have hstay : s.asyncExit h = s := by simp only [State.asyncExit, hout, Bool.not_false, if_true]
  simp only [State.takeTrap, hstay, hout, Bool.false_eq_true, if_false]
  rfl

theorem asyncExit_of_inside (hin : s.inEnclave h = true) :
    s.asyncExit h = ((s.hartSaved h).setHart h ((s.hartSaved h).hart h).cleared).wr Reg.APC_HART_IN_ENCL [h] 0 := by
  simp only [State.asyncExit, hin, Bool.not_true, Bool.false_eq_true, if_false]
  rfl

/-- In enclave mode the trap is that of the exited hart, at its resume address and with xtval 0. -/
theorem takeTrap_of_inside {y : State} (hin : s.inEnclave h = true) (hy : s.hartSaved h = y) (cause tval : Nat) (irq : Bool) :
    s.takeTrap h cause tval irq = ((y.setHart h (y.hart h).cleared).wr Reg.APC_HART_IN_ENCL [h] 0).setHart h
      ((y.hart h).cleared.trapped cause 0 (y.hart h).resume irq) := by
  simp only [State.takeTrap, asyncExit_of_inside hin, hin, if_true, hart_wr, hart_setHart_same, hy]
  rfl

end

end Sys2Proof.Machine
end

section
/-! O38: a trap that is taken in enclave mode, after the asynchronous exit, and one that is taken outside it. -/

namespace Sys2Proof.Machine

/-! ### The save area (Table apc.4) -/

theorem length_leBytes (n v : Nat) : (leBytes n v).length = n := by
  induction n generalizing v with
  | zero => rfl
  | succ n ih => rw [leBytes, List.length_cons, ih]

/-- `n` numbers of `w` bytes each. -/
theorem length_flatMap_leBytes (n w : Nat) (f : Nat → Nat) :
    ((List.range n).flatMap (fun k => leBytes w (f k))).length = n * w := by
  simp only [List.length_flatMap, length_leBytes, List.map_const', List.length_range, List.sum_replicate_nat]

/-- The save area is 25 full lines. -/
theorem length_saved (x : Hart) : x.saved.length = 25 * 64 := by
  simp only [Hart.saved, List.length_append, length_leBytes, length_flatMap_leBytes, List.length_replicate]

/-! ### O38 -/

/-- Settles O38: a trap in enclave mode is that of the exited hart, one outside it that of the hart as it stands. -/
theorem trapsLeaveTheEnclave : Obligations.TrapsLeaveTheEnclave := by
  unfold Obligations.TrapsLeaveTheEnclave
  intro s h cause tval irq t x
  refine ⟨fun hin => ?_, fun hout => takeTrap_of_outside hout cause tval irq⟩
  intro y m
  have hword : ∀ k, k ≠ Reg.APC_HART_IN_ENCL.key [h] → t.word k = y.word k :=
    fun k hk => word_takeTrap hin cause tval irq hk
  have htrap := takeTrap_of_inside hin (y := y) rfl cause tval irq
  change t = _ at htrap
  clear_value t y
  have hhart : t.hart h = (y.hart h).cleared.trapped cause 0 (y.hart h).resume irq := by rw [htrap, hart_setHart_same]
  refine ⟨?_, hhart, ?_, fun g hg => ?_, hword, length_saved x, by rw [hhart]; rfl⟩
  · rw [htrap, inEnclave_setHart, inEnclave_wr_inEncl]
    rfl
  · rw [htrap, setHart_mem, wr_mem, setHart_mem]
  · rw [htrap, hart_setHart_ne _ _ hg, hart_wr, hart_setHart_ne _ _ hg]

end Sys2Proof.Machine
end

section
/-! O36: the three gate instructions. GATE.ENTER is followed through the checks of R279, with one lemma for each of their
outcomes. -/

namespace Sys2Proof.Machine

/-! ### The registers that a gate passes (Table apc.3) -/

theorem tget_filter_fst {α : Type} (d : α) (p : Nat → Bool) (t : List (Nat × α)) (k : Nat) :
    tget d (t.filter (fun e => p e.1)) k = if p k then tget d t k else d := by
  induction t with
  | nil => simp [tget]
  | cons e t ih =>
    obtain ⟨a, v⟩ := e
    by_cases hp : p a = true
    · by_cases ha : a = k
      · subst ha
        simp [tget, hp]
      · simpa [tget, hp, ha] using ih
    · by_cases ha : a = k
      · subst ha
        simpa [tget, hp] using ih
      · simpa [tget, hp, ha] using ih

theorem tget_passedX (t : List (Nat × DWord)) (k : Nat) :
    tget 0 (passedX t) k = if 10 ≤ k ∧ k ≤ 17 then tget 0 t k else 0 := by
  have hfilter := tget_filter_fst (0 : DWord) (fun i => decide (10 ≤ i) && decide (i ≤ 17)) t k
  simp only [Bool.and_eq_true, decide_eq_true_eq] at hfilter
  exact hfilter

/-! ### Words of custom-0 (R278, Table apc.2) -/

/-- A mark names its entry in 6 bits. -/
theorem lt_of_gateMark {w e : Nat} (h : gateMark w = some e) : e < 64 := by
  have hmark : gateOp w = .mark e := by
    unfold gateMark at h
    split at h
    · rename_i he
      rw [he, Option.some.inj h]
    · contradiction
  unfold gateOp at hmark
  extract_lets f3 at hmark
  by_cases hzero : f3 = 0
  · simp only [hzero, if_true] at hmark
    split at hmark
    · contradiction
    · split at hmark
      · contradiction
      · split at hmark
        · exact GateOp.mark.inj hmark ▸ Nat.mod_lt _ (Nat.two_pow_pos 6)
        · contradiction
  · simp only [hzero, if_false] at hmark
    repeat' split at hmark
    all_goals contradiction

section
variable {s : State} {h w : Nat} {p : HartAt} {is : GateOp → Bool} {f : State → Host.Outcome State Fault Refusal}
  (hh : h < 16) (hplace : placeValid p = true)
include hh hplace

theorem gateRun_of_illegal (hop : gateOp w = .illegal) : s.gateRun h p w is f = .next ((s.stand h p).takeTrap h 2 w false) := by
  simp [State.gateRun, Nat.not_le.2 hh, hplace, hop, go]

theorem gateRun_of_legal (hop : gateOp w ≠ .illegal) (his : is (gateOp w) = true) : s.gateRun h p w is f = f (s.stand h p) := by
  simp [State.gateRun, Nat.not_le.2 hh, hplace, hop, his]

end

/-! ### The checks of GATE.ENTER (R279) -/

/-- The gate fault: cause 24, with rs1 in xtval. -/
def State.gateFault (s : State) (h rs1 : Nat) : State := s.takeTrap h 24 rs1 false

/-- What is checked of the mark: its entry is ACTIVE, contains the mark, and is the tag's. -/
def State.markServes (s : State) (p : HartAt) (pa e : Nat) : Prop :=
  s.rd Reg.ENC_ERT_STATE [e] = 3 ∧ s.inEntry pa e = true ∧ s.rd Reg.ENC_ERT_INST [e] = placeTag p

theorem gateEnter_of_inside {v : State} {h : Nat} (hin : v.inEnclave h = true) (p : HartAt) (rs1 : Nat) (pa : Option Nat) :
    v.gateEnter h p rs1 pa = v.gateFault h rs1 := if_pos hin

section
variable {v : State} {h : Nat} (hout : v.inEnclave h = false)
include hout

theorem gateEnter_of_no_page (p : HartAt) (rs1 : Nat) : v.gateEnter h p rs1 none = v.gateFault h rs1 :=
  if_neg (Bool.eq_false_iff.1 hout)

variable {p : HartAt} {rs1 pa : Nat} {w : Option Nat} {t : State} (hfetch : v.gateFetch h p rs1 pa = (w, t))
include hfetch

theorem gateEnter_of_no_mark (hmark : w.bind gateMark = none) : v.gateEnter h p rs1 (some pa) = t.gateFault h rs1 := by
  simp only [State.gateEnter, hout, hfetch, hmark, Bool.false_eq_true, if_false]
  rfl

theorem gateEnter_of_mark {e : Nat} (hmark : w.bind gateMark = some e) :
    (t.markServes p pa e → v.gateEnter h p rs1 (some pa) = t.enterGate h p.pc rs1 e)
      ∧ (¬t.markServes p pa e → v.gateEnter h p rs1 (some pa) = t.gateFault h rs1) := by
  have hchecks : (decide (t.rd Reg.ENC_ERT_STATE [e] = 3) && t.inEntry pa e
      && decide (t.rd Reg.ENC_ERT_INST [e] = placeTag p)) = true ↔ t.markServes p pa e := by
    simp only [State.markServes, Bool.and_eq_true, decide_eq_true_eq, and_assoc]
  simp only [State.gateEnter, hout, hfetch, hmark, Bool.false_eq_true, if_false]
  exact ⟨fun hserves => if_pos (hchecks.2 hserves), fun hfails => if_neg (mt hchecks.1 hfails)⟩

end

/-- A hart whose checks have passed is in enclave mode for the entry, with its resume address and its registers (Table apc.3). -/
theorem enterGate_spec (t : State) (h pc rs1 : Nat) {e : Nat} (he : e < 64) :
    let r := t.enterGate h pc rs1 e
    r.inEnclave h = true ∧ r.rd Reg.APC_HART_ENTRY [h] = e
      ∧ r.hart h = { t.hart h with x := passedX (t.hart h).x, resume := pc, pc := rs1 + 4, lastEntry := e }
      ∧ (∀ g, g ≠ h → r.hart g = t.hart g) ∧ r.mem = t.mem := by
  refine ⟨inEnclave_wr_inEncl _ _ _, ?_, hart_setHart_same _ _ _, fun g hg => hart_setHart_ne _ _ hg, rfl⟩
  rw [State.enterGate, rd_wr_beside _ _ _ (by decide), rd_wr_same _ _ _ _ (by decide)]
  exact Nat.mod_eq_of_lt he

/-! ### The instructions -/

/-- The state that GATE.EXIT leaves (R280, Table apc.3). -/
def State.exitGate (u : State) (h rs1 : Nat) : State :=
  (u.setHart h { u.hart h with x := passedX (u.hart h).x, f := [], v := [], fcsr := 0, vtype := villType, vl := 0, vstart := 0,
                               pc := rs1, async := false }).wr Reg.APC_HART_IN_ENCL [h] 0

theorem exitGate_spec (u : State) (h rs1 : Nat) :
    let r := u.exitGate h rs1
    r.inEnclave h = false
      ∧ r.hart h = { u.hart h with x := passedX (u.hart h).x, f := [], v := [], fcsr := 0, vtype := villType, vl := 0,
                                   vstart := 0, pc := rs1, async := false }
      ∧ (∀ g, g ≠ h → r.hart g = u.hart g) ∧ r.mem = u.mem :=
  ⟨inEnclave_wr_inEncl _ _ _, hart_setHart_same _ _ _, fun _ hg => hart_setHart_ne _ _ hg, rfl⟩

section
variable {s : State} {h w rs1 : Nat} {p : HartAt} (hh : h < 16) (hplace : placeValid p = true)
include hh hplace

/-- A word of custom-0 that is none of the three is illegal to each of them. -/
theorem execGates_of_illegal (hop : gateOp w = .illegal) :
    execGateMark h p w s = .next ((s.stand h p).takeTrap h 2 w false)
      ∧ execGateExit h p w rs1 s = .next ((s.stand h p).takeTrap h 2 w false)
      ∧ ∀ pa, execGateEnter h p w rs1 pa s = .next ((s.stand h p).takeTrap h 2 w false) :=
  ⟨gateRun_of_illegal hh hplace hop, gateRun_of_illegal hh hplace hop, fun _ => gateRun_of_illegal hh hplace hop⟩

theorem execGateMark_of_mark {e : Nat} (hop : gateOp w = .mark e) : execGateMark h p w s = .next (s.stand h p) :=
  gateRun_of_legal hh hplace (by simp [hop]) (by simp [hop])

theorem execGateEnter_of_mmode (hop : gateOp w = .enter) (hm : p.mmode = true) (pa : Option Nat) :
    execGateEnter h p w rs1 pa s = .next ((s.stand h p).takeTrap h 2 w false) := by
  rw [execGateEnter, gateRun_of_legal hh hplace (by simp [hop]) (by simp [hop])]
  exact if_pos hm

/-- Below M-mode GATE.ENTER leaves what its checks leave, where no access stops it. -/
theorem execGateEnter_of_fresh (hop : gateOp w = .enter) (hm : p.mmode = false)
    (hfresh : (s.stand h p).fresh (partyHart h) = true) {pa : Option Nat} {t : State}
    (hchecks : ((s.stand h p).inRun (partyHart h)).gateEnter h p rs1 pa = t) (hstall : t.fab.stall = none) :
    execGateEnter h p w rs1 pa s = .next (t.ended (partyHart h)) := by
  rw [execGateEnter, gateRun_of_legal hh hplace (by simp [hop]) (by simp [hop]), if_neg (by simp [hm])]
  exact attempt_of_unstopped (partyWaits_of_fresh hfresh) (congrArg go hchecks) hstall

theorem execGateExit_of_exit (hop : gateOp w = .exit) :
    execGateExit h p w rs1 s = .next (if (s.stand h p).inEnclave h then (s.stand h p).exitGate h rs1
      else (s.stand h p).takeTrap h 2 w false) := by
  rw [execGateExit, gateRun_of_legal hh hplace (by simp [hop]) (by simp [hop])]
  split <;> rfl

end

/-- The operands that place a hart leave its registers, the other harts and memory alone. -/
theorem stand_spec (s : State) (h : Nat) (p : HartAt) :
    ((s.stand h p).hart h).x = (s.hart h).x ∧ (∀ g, g ≠ h → (s.stand h p).hart g = s.hart g)
      ∧ (s.stand h p).mem = s.mem := by
  have hseen : ((s.hart h).seen p.virt p.vmid).x = (s.hart h).x := by
    unfold Hart.seen
    dsimp only
    split <;> rfl
  refine ⟨?_, fun g hg => hart_setHart_ne _ _ hg, rfl⟩
  rw [State.stand, hart_wr, hart_setHart_same, hseen]

/-! ### O36 -/

/-- Settles O36: a word is judged first, GATE.ENTER by the outcome of its checks, GATE.EXIT by the mode; xtval of an illegal
word holds the word (log entry 12). -/
theorem gatesOfAnEnclave : Obligations.GatesOfAnEnclave := by
  unfold Obligations.GatesOfAnEnclave
  intro s h w rs1 p hh hplace u P v
  refine ⟨execGates_of_illegal hh hplace, fun e hop => execGateMark_of_mark hh hplace hop,
    fun pa hop hm => execGateEnter_of_mmode hh hplace hop hm pa, fun hop hm hfresh => ?_, fun hop => ?_⟩
  · have hexec : ∀ {pa : Option Nat} {t : State}, v.gateEnter h p rs1 pa = t → t.fab.stall = none →
        exec (.gateEnter h p w rs1 pa) s = .next (t.ended P) := execGateEnter_of_fresh hh hplace hop hm hfresh
    refine ⟨fun pa hin => hexec (gateEnter_of_inside (v := v) hin p rs1 pa),
      fun hout => hexec (gateEnter_of_no_page (v := v) hout p rs1), fun pa x t hout hfetch hstall => ?_,
      fun pa m t e hout hfetch hstall hmark hstate hrange hinst => ?_⟩
    · refine ⟨fun hnone => hexec (gateEnter_of_no_mark (v := v) hout hfetch hnone) hstall, fun m e hx hmark hfails => ?_⟩
      have hbind : x.bind gateMark = some e := by rw [hx, Option.bind_some, hmark]
      exact hexec ((gateEnter_of_mark (v := v) hout hfetch hbind).2 hfails) hstall
    · have hgate : v.gateEnter h p rs1 (some pa) = t.enterGate h p.pc rs1 e :=
        (gateEnter_of_mark (v := v) hout hfetch hmark).1 ⟨hstate, hrange, hinst⟩
      obtain ⟨hin, hentry, hhart, hothers, hmem⟩ := enterGate_spec t h p.pc rs1 (lt_of_gateMark hmark)
      refine ⟨_, hexec hgate hstall, hin, hentry, fun k => ?_, ?_, hothers, hmem⟩
      · rw [hart_ended, hhart]
        exact tget_passedX _ k
      · rw [hart_ended, hhart]
  · have hexec : exec (.gateExit h p w rs1) s =
        .next (if u.inEnclave h then u.exitGate h rs1 else u.takeTrap h 2 w false) := execGateExit_of_exit hh hplace hop
    refine ⟨fun hin => ?_, fun hout => by rw [hexec, if_neg (Bool.eq_false_iff.1 hout)]⟩
    obtain ⟨hx, hothers, hmem⟩ := stand_spec s h p
    obtain ⟨hleft, hhart, hrest, hkept⟩ := exitGate_spec u h rs1
    refine ⟨u.exitGate h rs1, by rw [hexec, if_pos hin], hleft, fun k => ?_, by rw [hhart],
      fun g hg => (hrest g hg).trans (hothers g hg), hkept.trans hmem⟩
    rw [hhart, ← hx]
    exact tget_passedX _ k

end Sys2Proof.Machine
end

section
/-! O37: failed accesses, store errors, messages that reach an interrupt file, the registers of a cluster window, and timers.
Each command is read off an equation for each of its outcomes. -/

namespace Sys2Proof.Machine

/-! ### Failed accesses (R274 to R276) -/

section
variable {s : State} {h : Nat} {p : HartAt} {k : Kind} {st : Status} (hh : h < 16) (hplace : placeValid p = true)
include hh hplace

theorem accessFault_legal : (decide (h ≥ 16) || !placeValid p) = false := by simp [hh, hplace]

/-- A misaligned AMO or LR/SC (Table apc.1). -/
theorem execHartAccessFault_of_misaligned (va pa : Nat) (hk : k ≠ .fetch) :
    execHartAccessFault h p va pa k .misaligned s =
      .next ((s.stand h p).takeTrap h (if k = .read then 4 else 6) va false) := by
  simp only [execHartAccessFault, accessFault_legal hh hplace, hk, Bool.false_eq_true, if_false]

/-- A guest outside VMASK: the access is recorded, not made (R274). -/
theorem execHartAccessFault_of_barred (va pa : Nat) (hbar : s.barred h p = true) :
    execHartAccessFault h p va pa k (.status st) s =
      .next (((s.stand h p).barRecord h p (accessCause k) va).takeTrap h (accessCause k) va false) := by
  simp only [execHartAccessFault, accessFault_legal hh hplace, hbar, Bool.false_eq_true, if_false, if_true]

variable (hbar : s.barred h p = false)
include hbar

/-- An access that a failing status ends (R275). -/
theorem execHartAccessFault_of_status (va pa : Nat) (hst : st ∈ [Status.denied, .decode, .poison, .timeout, .notReady]) :
    execHartAccessFault h p va pa k (.status st) s = .next ((s.stand h p).accessFault h va k st) := by
  have hstatus : ∀ st ∈ [Status.denied, .decode, .poison, .timeout, .notReady], st ≠ .integrity ∧ faultStatus st = true := by
    decide
  obtain ⟨hne, hfault⟩ := hstatus st hst
  simp only [execHartAccessFault, accessFault_legal hh hplace, hbar, hne, hfault, decide_false, Bool.and_false,
    Bool.false_eq_true, if_false, if_true]

/-- A fill for a write whose line fails in HBM: the line is treated as R224 says before the fault (R276). -/
theorem execHartAccessFault_of_integrity (va : Nat) {pa : Nat} (hhbm : isHbm s.fuses pa = true) :
    execHartAccessFault h p va pa .write (.status .integrity) s =
      .next (((s.stand h p).mergeFails (s.slotOf pa) (placeTag p) pa).2.accessFault h va .write .integrity) := by
  simp only [execHartAccessFault, accessFault_legal hh hplace, hbar, hhbm, decide_true, Bool.and_self, Bool.false_eq_true,
    if_false, if_true]

end

/-! ### Store errors (R277) -/

theorem execStoreError_of_fails {s : State} {h addr : Nat} {st : Status} (at_ : Option HartAt) (hh : h < 16) (hst : st ≠ .ok) :
    execStoreError h addr st at_ s = .next ((s.storeError h addr st).takeIrq h 16 at_) := by
  simp only [execStoreError, ge_iff_le, Nat.not_le.2 hh, hst, decide_false, Bool.or_false, Bool.false_eq_true, if_false]

/-! ### Messages (R283, R284) -/

theorem rd_setEip (s : State) (h f id : Nat) (r : Row) (ix : List Nat) : (s.setEip h f id).rd r ix = s.rd r ix := by
  unfold State.setEip
  split
  · rfl
  · dsimp only
    split
    · rfl
    · exact rd_setHart ..

/-- A message with a valid route changes no word. -/
theorem flag_valid_deliver_of_routed {s : State} {m : Msg} (hroute : s.flag Reg.APC_IRQ_VALID [m.inst] = true) :
    (s.deliver m).flag Reg.APC_IRQ_VALID [m.inst] = true := by
  rw [State.deliver, if_pos hroute, State.flag, rd_setEip]
  exact hroute

section
variable {s : State} {m : Msg} (hroute : s.flag Reg.APC_IRQ_VALID [m.inst] = false)
include hroute

theorem deliver_of_unrouted :
    s.deliver m = s.wr Reg.APC_IPEND [m.inst, m.vec / 32] (s.rd Reg.APC_IPEND [m.inst, m.vec / 32] ||| 2 ^ (m.vec % 32)) :=
  if_neg (Bool.eq_false_iff.1 hroute)

/-- A message without a valid route is pending in IPEND. -/
theorem bitAt_ipend_deliver :
    bitAt ((s.deliver m).rd Reg.APC_IPEND [m.inst, m.vec / 32]) (m.vec % 32) = true := by
  have hbit : m.vec % 32 < 32 := Nat.mod_lt _ (by decide)
  rw [deliver_of_unrouted hroute, rd_wr_same _ _ _ _ (by decide), show Reg.APC_IPEND.width = 32 from rfl, bitAt,
    Nat.testBit_mod_two_pow, Nat.testBit_or, Nat.testBit_two_pow_self, Bool.or_true, Bool.and_true]
  exact decide_eq_true hbit

/-- IPEND lies behind the routes. -/
theorem flag_valid_deliver_of_unrouted (hinst : m.inst < 32) : (s.deliver m).flag Reg.APC_IRQ_VALID [m.inst] = false := by
  rw [deliver_of_unrouted hroute, flag_wr_ne, hroute]
  simp only [Row.key, wordKey, joinOffset, Reg.APC_IRQ_VALID, Reg.APC_IPEND]
  omega

end

theorem execIrqDeliver_cons {s : State} {m : Msg} {rest : List Msg} (at_ : Option HartAt) (hmsgs : s.msgs = m :: rest) :
    let u := ({ s with msgs := rest }).deliver m
    execIrqDeliver at_ s = .next (if u.flag Reg.APC_IRQ_VALID [m.inst] then
      u.takeIrq (u.rd Reg.APC_IRQ_HART [m.inst]) (fileCause (u.rd Reg.APC_IRQ_FILE [m.inst])) at_ else u) := by
  intro u
  simp only [execIrqDeliver, hmsgs]
  split <;> rfl

/-! ### The registers of a cluster window (R287) -/

/-- A compare with the value `old` after a write of `size` bytes at its byte `off`. -/
def compareWritten (old off size v : Nat) : Nat :=
  if size = 8 then v
  else if off = 0 then old / 2 ^ 32 * 2 ^ 32 + v % 2 ^ 32
  else old % 2 ^ 32 + v % 2 ^ 32 * 2 ^ 32

section
variable {s : State} {h f off size v : Nat}

/-- Where the page of an interrupt file lies in its cluster's window. -/
theorem page_offset (hf : f ≤ 6) (hoff : off < 0x1000) :
    let x := 0x1000 * (8 * (h % 4) + f) + off
    x < 0x80000 ∧ x % 4 = off % 4 ∧ x % 0x1000 = off ∧ 4 * (h / 4) + x / 0x8000 = h ∧ x / 0x1000 % 8 = f := by
  omega

theorem clusterWrite_page (hf : f ≤ 6) (hoff : off < 0x1000) :
    s.clusterWrite (h / 4) (0x1000 * (8 * (h % 4) + f) + off) size v =
      if size = 4 ∧ off % 4 = 0 then (.ok, if off = 0 then s.setEip h f (v % 2 ^ 32) else s) else (.denied, s) := by
  obtain ⟨hwin, halign, hreg, hhart, hfile⟩ := page_offset (h := h) hf hoff
  simp only [State.clusterWrite, hwin, halign, hreg, hhart, hfile, if_true, Bool.and_eq_true, decide_eq_true_eq]

/-- Where the compare of a hart lies in its cluster's window. -/
theorem compare_offset (hoff : off < 8) :
    let x := 0x80000 + 8 * (h % 4) + off
    ¬x < 0x80000 ∧ x % 4 = off % 4 ∧ x % 8 = off ∧ 4 * (h / 4) + (x - 0x80000) / 8 = h := by
  omega

theorem clusterWrite_compare (hoff : off < 8) (hsize : size = 4 ∨ size = 8) (halign : off % size = 0) :
    s.clusterWrite (h / 4) (0x80000 + 8 * (h % 4) + off) size v =
      (.ok, s.setMtimecmp h (compareWritten (s.hart h).mtimecmp off size v)) := by
  obtain ⟨hwin, hfour, height, hhart⟩ := compare_offset (h := h) hoff
  have haligned : (0x80000 + 8 * (h % 4) + off) % size = 0 := by
    rcases hsize with rfl | rfl
    · rw [hfour, halign]
    · omega
  have hlegal : ((size = 4 || size = 8) && (0x80000 + 8 * (h % 4) + off) % size = 0) = true := by
    simpa [haligned] using hsize
  simp only [State.clusterWrite, hwin, hlegal, height, hhart, compareWritten, if_false, if_true]

section
variable (hh : h < 16) (hf : f ≤ 6) (hoff : off < 0x1000)
include hh hf hoff

theorem page_legal : (decide (h ≥ 16) || decide (f > 6) || decide (off ≥ 0x1000)) = false := by simp [hh, hf, hoff]

theorem execSeteipnumWrite_of_off (hstate : s.rd Reg.APC_CL_STATE [h / 4] = 2) :
    execSeteipnumWrite h f off size v s = .next (s.answer .decode 0) := by
  simp only [execSeteipnumWrite, page_legal hh hf hoff, hstate, Bool.false_eq_true, if_false, if_true]

theorem execSeteipnumWrite_of_on (hstate : s.rd Reg.APC_CL_STATE [h / 4] ≠ 2) :
    execSeteipnumWrite h f off size v s = .next (if size = 4 ∧ off % 4 = 0
      then (if off = 0 then s.setEip h f (v % 2 ^ 32) else s).answer .ok 0 else s.answer .denied 0) := by
  simp only [execSeteipnumWrite, page_legal hh hf hoff, hstate, clusterWrite_page hf hoff, Bool.false_eq_true, if_false]
  split <;> rfl

end

section
variable (hh : h < 16) (hoff : off < 8)
include hh hoff

theorem compare_legal : (decide (h ≥ 16) || decide (off ≥ 8)) = false := by simp [hh, hoff]

theorem execMtimecmpWrite_of_off (hstate : s.rd Reg.APC_CL_STATE [h / 4] = 2) :
    execMtimecmpWrite h off size v s = .next (s.answer .decode 0) := by
  simp only [execMtimecmpWrite, compare_legal hh hoff, hstate, Bool.false_eq_true, if_false, if_true]

theorem execMtimecmpWrite_of_on (hstate : s.rd Reg.APC_CL_STATE [h / 4] ≠ 2) (hsize : size = 4 ∨ size = 8)
    (halign : off % size = 0) :
    execMtimecmpWrite h off size v s =
      .next ((s.setMtimecmp h (compareWritten (s.hart h).mtimecmp off size v)).answer .ok 0) := by
  simp only [execMtimecmpWrite, compare_legal hh hoff, hstate, clusterWrite_compare hoff hsize halign, Bool.false_eq_true, if_false]

end

end

/-! ### Timers (R286, R288) -/

theorem execTimerCompare_of_reached {s : State} {h k : Nat} (at_ : Option HartAt) (hh : h < 16) (hk : k ∈ [5, 6, 7])
    (hreached : (s.compareOf h k).1 ≤ (s.compareOf h k).2) (hnew : k ∉ (s.hart h).fired) :
    execTimerCompare h k at_ s = .next ((s.setHart h { s.hart h with
      fired := (s.hart h).fired ++ [k], mip := (s.hart h).mip.filter (· ≠ k) ++ [k] }).takeIrq h k at_) := by
  have hnamed : ∀ k ∈ [5, 6, 7], (decide (k = 5) || decide (k = 6) || decide (k = 7)) = true := by decide
  have hshape : (decide (h ≥ 16) || !(decide (k = 5) || decide (k = 6) || decide (k = 7))) = false := by
    rw [hnamed k hk, decide_eq_false (Nat.not_le.2 hh)]
    rfl
  have hfires : (decide ((s.compareOf h k).2 < (s.compareOf h k).1) || (s.hart h).fired.contains k) = false := by
    simp [hreached, hnew]
  simp only [execTimerCompare, hshape, hfires, Bool.false_eq_true, if_false]

/-! ### O37 -/

/-- Settles O37: each command by the equation of its outcome; a trap that may follow at once is that of `State.takeIrq`. -/
theorem trapsAndInterruptsOfHarts : Obligations.TrapsAndInterruptsOfHarts := by
  unfold Obligations.TrapsAndInterruptsOfHarts
  intro s h hh taken
  have htaken : ∀ t g c at_, taken t g c at_ = State.takeIrq t g c at_ := fun t g c at_ => by
    cases at_ <;> rfl
  refine ⟨fun p va pa k hplace => ⟨execHartAccessFault_of_misaligned hh hplace va pa,
      fun st hbar => execHartAccessFault_of_barred hh hplace va pa hbar,
      fun st hbar hst => execHartAccessFault_of_status hh hplace hbar va pa hst,
      fun hbar hhbm => execHartAccessFault_of_integrity hh hplace hbar va hhbm⟩,
    fun addr st at_ hst => (execStoreError_of_fails at_ hh hst).trans (congrArg _ (htaken _ _ _ _).symm),
    fun m rest at_ hmsgs => ?_,
    fun f off size v hf hoff => ⟨fun hstate => execSeteipnumWrite_of_off hh hf hoff hstate, fun hstate => ?_⟩,
    fun v => ⟨fun hstate => execMtimecmpWrite_of_off hh (by decide) hstate, fun hstate => ?_⟩,
    fun k at_ hk hreached hnew =>
      (execTimerCompare_of_reached at_ hh hk hreached hnew).trans (congrArg _ (htaken _ _ _ _).symm)⟩
  · intro u
    have hexec : exec (.irqDeliver at_) s = .next (if u.flag Reg.APC_IRQ_VALID [m.inst] then
        u.takeIrq (u.rd Reg.APC_IRQ_HART [m.inst]) (fileCause (u.rd Reg.APC_IRQ_FILE [m.inst])) at_ else u) :=
      execIrqDeliver_cons at_ hmsgs
    refine ⟨fun hroute hinst _ => ?_, fun hroute => ?_⟩
    · have hstill : u.flag Reg.APC_IRQ_VALID [m.inst] = false := flag_valid_deliver_of_unrouted hroute hinst
      exact ⟨by rw [hexec, if_neg (Bool.eq_false_iff.1 hstill)], bitAt_ipend_deliver hroute⟩
    · have hstill : u.flag Reg.APC_IRQ_VALID [m.inst] = true := flag_valid_deliver_of_routed hroute
      rw [hexec, if_pos hstill, htaken]
  · refine ⟨(execSeteipnumWrite_of_on hh hf (by decide) hstate).trans rfl, fun hne halign => ?_, fun hbad => ?_⟩
    · exact (execSeteipnumWrite_of_on hh hf hoff hstate).trans (by rw [if_pos ⟨rfl, halign⟩, if_neg hne])
    · exact (execSeteipnumWrite_of_on hh hf hoff hstate).trans (by rw [if_neg (by omega)])
  · exact ⟨execMtimecmpWrite_of_on hh (by decide) hstate (by decide) (by decide),
      execMtimecmpWrite_of_on hh (by decide) hstate (by decide) (by decide),
      execMtimecmpWrite_of_on hh (by decide) hstate (by decide) (by decide)⟩

end Sys2Proof.Machine
end

section
/-! Commits whose fields lie in one space: of the actions of R63, each is idle where the commit covers no field of the spaces
that it acts on. A commit of one field of APC thus does the actions of the application cores alone. -/

namespace Sys2Proof.Machine

/-! ### Idle actions (R63) -/

section
variable {j : Judge} {sp : Nat} (hc : ∀ f ∈ j.c, f.1.space = sp)
include hc

section
variable {rs : List Row} {spaces : List Nat} (hsp : sp ∉ spaces) (hrs : ∀ r ∈ rs, r.space ∈ spaces)
include hsp hrs

theorem at_of_other_space : j.at_ rs = [] := by
  have hnone : ∀ f ∈ j.c, f.1 ∉ rs := fun f hf hmem => hsp (hc f hf ▸ hrs f.1 hmem)
  have hmap : j.c.filterMap (fun f => if rs.contains f.1 then some f.2 else none) = [] := by
    simpa [List.filterMap_eq_nil_iff] using fun r ix hf => hnone (r, ix) hf
  rw [Judge.at_, hmap, List.eraseDups_nil]

theorem keys_of_other_space : j.keys rs = [] := by
  rw [Judge.keys, at_of_other_space hc hsp hrs, List.map_nil, List.eraseDups_nil]

end

theorem fired_of_other_space {r : Row} {spaces : List Nat} (hsp : sp ∉ spaces) (hr : ∀ q ∈ [r], q.space ∈ spaces) :
    j.fired r = [] := by
  rw [Judge.fired, at_of_other_space hc hsp hr, List.filter_nil]

theorem doTtu_of_other_space (hsp : sp ∉ [0x01, 0x02]) (s : State) : j.doTtu s = s := by
  simp (disch := decide) only [Judge.doTtu, keys_of_other_space hc hsp, at_of_other_space hc hsp]
  rfl

theorem doKeys_of_other_space (hsp : sp ∉ [0x05, 0x06, 0x15]) (s : State) : j.doKeys s = s := by
  simp (disch := decide) only [Judge.doKeys, keys_of_other_space hc hsp, fired_of_other_space hc hsp]
  rfl

theorem doGrants_of_other_space (hsp : sp ∉ [0x08, 0x09]) (s : State) : j.doGrants s = s := by
  simp (disch := decide) only [Judge.doGrants, keys_of_other_space hc hsp]
  rfl

/-- Sextant is judged by its ENABLE, which the commit leaves as it was. -/
theorem doSensors_of_other_space (hsp : sp ∉ [0x0A, 0x0B])
    (hsextant : j.t.flag Reg.SXT_CFG_ENABLE [] = j.s.flag Reg.SXT_CFG_ENABLE []) (s : State) : j.doSensors s = s := by
  simp (disch := decide) only [Judge.doSensors, Judge.doSextant, Judge.rises, Judge.falls, hsextant,
    keys_of_other_space hc hsp, fired_of_other_space hc hsp, Bool.not_and_self, Bool.and_not_self, Bool.false_eq_true, if_false]
  rfl

theorem doNet_of_other_space (hsp : sp ∉ [0x0D, 0x0E]) (s : State) : j.doNet s = s := by
  simp (disch := decide) only [Judge.doNet, at_of_other_space hc hsp, fired_of_other_space hc hsp]
  rfl

theorem doClk_of_other_space (hsp : sp ∉ [0x0D, 0x0F, 0x10]) (s : State) : j.doClk s = s := by
  simp (disch := decide) only [Judge.doClk, at_of_other_space hc hsp, keys_of_other_space hc hsp, fired_of_other_space hc hsp]
  rfl

/-- The heartbeat is judged by its EN, which the commit leaves as it was. -/
theorem doSafety_of_other_space (hsp : sp ∉ [0x11, 0x12])
    (hbeat : j.t.flag Reg.SAF_HB_CFG_EN [] = j.s.flag Reg.SAF_HB_CFG_EN []) (s : State) : j.doSafety s = s := by
  simp (disch := decide) only [Judge.doSafety, Judge.doHeartbeat, Judge.rises, hbeat, at_of_other_space hc hsp,
    fired_of_other_space hc hsp, Bool.not_and_self, Bool.false_eq_true, if_false, List.isEmpty_nil, Bool.true_or, if_true]
  rfl

theorem doBoot_of_other_space (hsp : sp ∉ [0x13, 0x14]) (s : State) : j.doBoot s = s := by
  simp (disch := decide) only [Judge.doBoot, at_of_other_space hc hsp, keys_of_other_space hc hsp, fired_of_other_space hc hsp]
  rfl

end

theorem lockOnce_of_so {j : Judge} (hso : ∀ f ∈ j.c, f.1.acc = .so) (s : State) : j.lockOnce s = s := by
  have honce : j.c.filter (fun f => f.1.acc = .wonce) = [] :=
    List.filter_eq_nil_iff.2 fun f hf => by simp [hso f hf]
  simp only [Judge.lockOnce, honce, List.map_nil, List.append_nil]

theorem apply_of_apc {j : Judge} (hc : ∀ f ∈ j.c, f.1.space = 0x07) (hso : ∀ f ∈ j.c, f.1.acc = .so)
    (hsextant : j.t.flag Reg.SXT_CFG_ENABLE [] = j.s.flag Reg.SXT_CFG_ENABLE [])
    (hbeat : j.t.flag Reg.SAF_HB_CFG_EN [] = j.s.flag Reg.SAF_HB_CFG_EN []) : j.apply = j.doApc j.t := by
  rw [Judge.apply, lockOnce_of_so hso, doTtu_of_other_space hc (by decide), doKeys_of_other_space hc (by decide),
    doGrants_of_other_space hc (by decide), doSensors_of_other_space hc (by decide) hsextant,
    doNet_of_other_space hc (by decide), doClk_of_other_space hc (by decide),
    doSafety_of_other_space hc (by decide) hbeat, doBoot_of_other_space hc (by decide)]

/-! ### A commit of one field -/

/-- The one field of a commit names an element of its row. -/
theorem holds_of_commits {s : State} {n v : Nat} {r : Row} {ix : List Nat} (h : s.commits n [(r, ix, v)] = true) :
    r.holds ix = true := by
  simp only [State.commits, Bool.and_eq_true] at h
  obtain ⟨⟨⟨-, hholds⟩, -⟩, -⟩ := h
  simpa using hholds

/-- A commit of one field is judged on that field alone, in the words that its write leaves. -/
theorem judge_single (s : State) {r : Row} {ix : List Nat} (v : Nat) (hstage : r.stageable ix)
    (hcovers : (stageOf r ix v).covers = [(r, ix)]) :
    s.judge (entriesOf [(r, ix, v)]) = ⟨s, s.wr r ix v, [stageOf r ix v], [(r, ix)]⟩ := by
  have himage : s.image [stageOf r ix v] = s.wr r ix v := applyEntry_stageOf s v hstage
  have hfields : ([stageOf r ix v].flatMap Staged.covers).eraseDups = [(r, ix)] := by
    simp [hcovers, List.eraseDups_cons]
  rw [entriesOf, List.map_singleton, State.judge, himage, hfields]

theorem committed_apc (s : State) {r : Row} {ix : List Nat} (v : Nat) (hstage : r.stageable ix)
    (hcovers : (stageOf r ix v).covers = [(r, ix)]) (hspace : r.space = 0x07) (hso : r.acc = .so)
    (hix : r.base + joinOffset r.dims ix < 2 ^ 17) :
    ∃ j : Judge, j.c = [(r, ix)] ∧ j.t = s.wr r ix v ∧ s.committed [(r, ix, v)] = j.doApc (s.wr r ix v) := by
  have hbehind : ∀ q : Row, wordKey 0x08 0 ≤ q.key [] → q.key [] ≠ r.key ix := fun q hq => by
    rw [Row.key, Row.key, wordKey, wordKey, hspace] at *
    omega
  refine ⟨⟨s, s.wr r ix v, [stageOf r ix v], [(r, ix)]⟩, rfl, rfl, ?_⟩
  rw [State.committed, judge_single s v hstage hcovers]
  exact apply_of_apc (by simpa using hspace) (by simpa using hso)
    (flag_wr_ne s r _ ix [] v (hbehind _ (by decide))) (flag_wr_ne s r _ ix [] v (hbehind _ (by decide)))

end Sys2Proof.Machine
end

section
/-! O39: the power states of a cluster, which the commits of REQ ask for and the commands of the cluster enter and leave, and
the acknowledgement of a level source. -/

namespace Sys2Proof.Machine

/-! ### Passes over numbered elements -/

/-- What every step of a pass keeps, the pass keeps. -/
theorem foldl_keeps {α β : Type} {g : State → β} {f : State → α → State} (hf : ∀ s a, g (f s a) = g s) (l : List α)
    (s : State) : g (l.foldl f s) = g s := by
  induction l generalizing s with
  | nil => rfl
  | cons a l ih => rw [List.foldl_cons, ih, hf]

/-- Where the step of an element sets what the steps of the others keep, the pass sets it as soon as it has the element. -/
theorem foldl_sets {α β : Type} [DecidableEq α] {g : State → β} {f : State → α → State} {a : α} {v : β}
    (hf : ∀ s b, g (f s b) = if a = b then v else g s) (l : List α) (s : State) :
    g (l.foldl f s) = if a ∈ l then v else g s := by
  induction l generalizing s with
  | nil => rfl
  | cons b l ih =>
    rw [List.foldl_cons, ih, hf]
    by_cases hl : a ∈ l
    · rw [if_pos hl, if_pos (List.mem_cons_of_mem b hl)]
    · simp only [List.mem_cons, hl, or_false, if_false]

/-! ### Harts of a cluster -/

theorem mem_clusterHarts {h c : Nat} : h ∈ clusterHarts c ↔ h / 4 = c := by
  simp only [clusterHarts, List.mem_cons, List.not_mem_nil, or_false]
  omega

/-- The row is one of the fields of STAT, which each hart has. -/
abbrev Row.OfHartStat (r : Row) : Prop := r.space = 0x07 ∧ r.base = 1 ∧ r.dims = [(8, 16)]

/-- The row is one of the fields of the first word of a cluster. -/
abbrev Row.OfCluster (r : Row) : Prop := r.space = 0x07 ∧ r.base = 0x80 ∧ r.dims = [(4, 4)]

/-- STAT of a hart is an odd word, REQ and STATE of a cluster lie in an even one. -/
theorem rd_cluster_wr_hart (s : State) {q r : Row} (c h v : Nat) (hq : q.OfCluster) (hr : r.OfHartStat) :
    (s.wr r [h] v).rd q [c] = s.rd q [c] := by
  obtain ⟨hqs, hqb, hqd⟩ := hq
  obtain ⟨hrs, hrb, hrd⟩ := hr
  refine rd_wr_ne s r q [h] [c] v ?_
  simp only [Row.key, wordKey, joinOffset, hqs, hqb, hqd, hrs, hrb, hrd]
  omega

theorem rd_run_wr_run (s : State) (g h v : Nat) :
    (s.wr Reg.APC_HART_RUN [h] v).rd Reg.APC_HART_RUN [g] = if g = h then v % 4 else s.rd Reg.APC_HART_RUN [g] := by
  split
  · rename_i hgh
    rw [hgh, rd_wr_same _ _ _ _ (by decide)]
    rfl
  · rename_i hgh
    refine rd_wr_ne s _ _ [h] [g] v fun hkey => hgh ?_
    simp only [Row.key, wordKey, joinOffset, Reg.APC_HART_RUN] at hkey
    omega

/-! ### Power states (R289, R290, Table apc.6) -/

/-- The cluster in a power state, with RUN of its harts set. -/
def State.clusterSet (s : State) (c st run : Nat) : State :=
  (clusterHarts c).foldl (fun s h => s.wr Reg.APC_HART_RUN [h] run) (s.wr Reg.APC_CL_STATE [c] st)

theorem clusterSet_spec (s : State) (c st run : Nat) :
    let t := s.clusterSet c st run
    t.rd Reg.APC_CL_STATE [c] = st % 4 ∧ (∀ h, h / 4 = c → t.rd Reg.APC_HART_RUN [h] = run % 4)
      ∧ t.apc = s.apc ∧ t.mem = s.mem := by
  refine ⟨?_, fun h hh => ?_, foldl_keeps (g := State.apc) (fun s h => wr_apc s _ [h] run) _ _,
    foldl_keeps (g := State.mem) (fun s h => wr_mem s _ [h] run) _ _⟩
  · rw [State.clusterSet, rd_foldl fun s h => rd_cluster_wr_hart s c h run (by decide) (by decide),
      rd_wr_same _ _ _ _ (by decide)]
    rfl
  · rw [State.clusterSet, foldl_sets (g := (State.rd · Reg.APC_HART_RUN [h])) (fun s b => rd_run_wr_run s h b run),
      if_pos (mem_clusterHarts.2 hh)]

/-- The cluster in OFF: nothing of its harts is kept. -/
def State.clusterEmptied (s : State) (c : Nat) : State :=
  (clusterHarts c).foldl (fun s h => (s.setHart h {}).wr Reg.APC_HART_RUN [h] 3) (s.wr Reg.APC_CL_STATE [c] 2)

theorem hart_clusterEmptied (s : State) (c h : Nat) :
    (s.clusterEmptied c).hart h = if h / 4 = c then {} else s.hart h := by
  have hstep : ∀ (s : State) (b : Nat),
      ((s.setHart b {}).wr Reg.APC_HART_RUN [b] 3).hart h = if h = b then {} else s.hart h := by
    intro s b
    split
    · rename_i hb
      rw [hart_wr, hb, hart_setHart_same]
    · rename_i hb
      rw [hart_wr, hart_setHart_ne _ _ hb]
  rw [State.clusterEmptied, foldl_sets (g := (State.hart · h)) hstep, hart_wr]
  simp only [mem_clusterHarts]

theorem clusterEmptied_spec (s : State) (c : Nat) :
    let t := s.clusterEmptied c
    t.rd Reg.APC_CL_STATE [c] = 2 ∧ (∀ h, h / 4 = c → t.rd Reg.APC_HART_RUN [h] = 3) ∧ t.mem = s.mem := by
  refine ⟨?_, fun h hh => ?_, foldl_keeps (g := State.mem) (fun s h => wr_mem (s.setHart h {}) _ [h] 3) _ _⟩
  · rw [State.clusterEmptied, rd_foldl, rd_wr_same _ _ _ _ (by decide)]
    · rfl
    · intro s b
      rw [rd_cluster_wr_hart _ _ _ _ (by decide) (by decide), rd_setHart]
  · rw [State.clusterEmptied, foldl_sets (g := (State.rd · Reg.APC_HART_RUN [h])), if_pos (mem_clusterHarts.2 hh)]
    intro s b
    rw [rd_run_wr_run, rd_setHart]

/-- A hart of cluster `c` that returns to RUN from power state `st`: from OFF it starts at BOOT. -/
def State.hartStarts (c st : Nat) (s : State) (h : Nat) : State :=
  let t := s.wr Reg.APC_HART_RUN [h] 0
  if st = 2 then ((t.setHart h { pc := t.bootAddr c }).wr Reg.APC_HART_IN_ENCL [h] 0).wr Reg.APC_HART_TAG [h] 0 else t

/-- What a start of a hart keeps, a cluster that returns to RUN keeps, once its STATE is 0. -/
theorem clusterRun_keeps {β : Type} {g : State → β} (s : State) (c : Nat)
    (hg : ∀ st s h, g (State.hartStarts c st s h) = g s) :
    g (s.clusterRun c) = g (s.wr Reg.APC_CL_STATE [c] 0) := by
  have hpass := foldl_keeps (hg (s.rd Reg.APC_CL_STATE [c])) (clusterHarts c) (s.wr Reg.APC_CL_STATE [c] 0)
  unfold State.clusterRun
  extract_lets st t
  split
  · rfl
  · exact hpass

theorem rd_cluster_hartStarts {q : Row} (hq : q.OfCluster) (c st : Nat) (s : State) (h : Nat) :
    (State.hartStarts c st s h).rd q [c] = s.rd q [c] := by
  have hwr : ∀ {r : Row} (s : State), r.OfHartStat → (s.wr r [h] 0).rd q [c] = s.rd q [c] :=
    fun s hr => rd_cluster_wr_hart s c h 0 hq hr
  unfold State.hartStarts
  extract_lets t
  split
  · rw [hwr _ (by decide), hwr _ (by decide), rd_setHart, hwr _ (by decide)]
  · exact hwr s (by decide)

theorem hartStarts_mem (c st : Nat) (s : State) (h : Nat) : (State.hartStarts c st s h).mem = s.mem := by
  unfold State.hartStarts
  extract_lets t
  split <;> rfl

theorem clusterRun_spec (s : State) (c : Nat) :
    (s.clusterRun c).rd Reg.APC_CL_STATE [c] = 0
      ∧ (s.clusterRun c).rd Reg.APC_CL_REQ [c] = s.rd Reg.APC_CL_REQ [c] ∧ (s.clusterRun c).mem = s.mem := by
  refine ⟨?_, ?_, clusterRun_keeps (g := State.mem) s c (hartStarts_mem c)⟩
  · rw [clusterRun_keeps (g := (State.rd · Reg.APC_CL_STATE [c])) s c (rd_cluster_hartStarts (by decide) c)]
    exact rd_wr_same _ _ _ _ (by decide)
  · rw [clusterRun_keeps (g := (State.rd · Reg.APC_CL_REQ [c])) s c (rd_cluster_hartStarts (by decide) c)]
    exact rd_wr_beside _ _ _ (by decide)

section
variable {s : State} {c : Nat}

/-- A cluster in RETAIN returns to RUN with its state. -/
theorem clusterRun_of_retain (hstate : s.rd Reg.APC_CL_STATE [c] = 1) : s.clusterRun c = s.clusterSet c 0 0 := by
  simp only [State.clusterRun, hstate]
  rfl

variable (hc : c < 4)
include hc

theorem execClusterStateEntry_of_retain (hstate : s.rd Reg.APC_CL_STATE [c] = 0) (hreq : s.rd Reg.APC_CL_REQ [c] = 1) :
    execClusterStateEntry c s = .next (s.clusterSet c 1 1) := by
  simp only [execClusterStateEntry, ge_iff_le, Nat.not_le.2 hc, hstate, hreq, decide_true, Bool.and_self, if_false, if_true]
  rfl

theorem execClusterStateEntry_of_run (hreq : s.rd Reg.APC_CL_REQ [c] = 0) : execClusterStateEntry c s = .next s := by
  simp [execClusterStateEntry, Nat.not_le.2 hc, hreq, go]

theorem execClusterStateEntry_of_off (hstate : s.rd Reg.APC_CL_STATE [c] ≤ 1) (hreq : s.rd Reg.APC_CL_REQ [c] = 2) :
    execClusterStateEntry c s = .next (s.clusterEmptied c) := by
  simp [execClusterStateEntry, Nat.not_le.2 hc, hstate, hreq, go, State.clusterEmptied]

theorem execClusterWake_of_pending (hstate : s.rd Reg.APC_CL_STATE [c] = 1) (hpending : s.wakePending c = true) :
    execClusterWake c s = .next (s.clusterSet c 0 0) := by
  simp only [execClusterWake, ge_iff_le, Nat.not_le.2 hc, hstate, hpending, clusterRun_of_retain hstate, decide_true,
    Bool.and_self, if_false, if_true]

end

/-! ### Commits of REQ (R289) -/

/-- REQ of a cluster may be staged, and its entry covers no other field: the table is finite, so this is evaluated. -/
theorem clReq_staged : ∀ c < 4, ∀ v < 3, (stageOf Reg.APC_CL_REQ [c] v).covers = [(Reg.APC_CL_REQ, [c])]
    ∧ Reg.APC_CL_REQ.stageable [c] ∧ Reg.APC_CL_REQ.base + joinOffset Reg.APC_CL_REQ.dims [c] < 2 ^ 17 := by
  decide +kernel

/-- Of the actions of the application cores, a commit that covers REQ alone does that of REQ. -/
theorem doApc_of_req {j : Judge} {c : Nat} (hc : j.c = [(Reg.APC_CL_REQ, [c])]) (s : State) :
    j.doApc s = if j.t.rd Reg.APC_CL_REQ [c] = 0 then s.clusterRun c else s := by
  have hkeys : j.keys [Reg.APC_CL_REQ] = [c] := by simp [Judge.keys, at_of_single hc, List.eraseDups_cons]
  have hvalid : j.fired Reg.APC_IRQ_VALID = [] := by simp [Judge.fired, at_of_other (q := Reg.APC_IRQ_VALID) hc (by decide)]
  have hack : j.fired Reg.APC_SRC_ACK = [] := by simp [Judge.fired, at_of_other (q := Reg.APC_SRC_ACK) hc (by decide)]
  simp only [Judge.doApc, hkeys, hvalid, hack]
  rfl

theorem committed_clReq (s : State) {c v : Nat} (hc : c < 4) (hv : v < 3) :
    s.committed [(Reg.APC_CL_REQ, [c], v)] =
      if v = 0 then (s.wr Reg.APC_CL_REQ [c] v).clusterRun c else s.wr Reg.APC_CL_REQ [c] v := by
  obtain ⟨hcovers, hstage, hix⟩ := clReq_staged c hc v hv
  obtain ⟨j, hjc, ht, hcommitted⟩ := committed_apc s v hstage hcovers rfl rfl hix
  have hreq : j.t.rd Reg.APC_CL_REQ [c] = v := by
    rw [ht, rd_wr_same _ _ _ _ (by decide)]
    exact Nat.mod_eq_of_lt (Nat.lt_succ_of_lt hv)
  rw [hcommitted, doApc_of_req hjc, hreq]

section
variable {s : State} {c : Nat} (hc : c < 4)
include hc

/-- REQ = 0 brings the cluster to RUN. -/
theorem execClusterRun_of_commits (h : s.commits 0 [(Reg.APC_CL_REQ, [c], 0)] = true) :
    ∃ t, execClusterRun c s = .next t ∧ t = (s.committed [(Reg.APC_CL_REQ, [c], 0)]).answer .ok 0
      ∧ t.rd Reg.APC_CL_REQ [c] = 0 ∧ t.rd Reg.APC_CL_STATE [c] = 0 ∧ t.mem = s.mem := by
  refine ⟨_, commitOf_of_commits h, rfl, ?_⟩
  simp only [rd_answer, answer_mem]
  rw [committed_clReq s hc (by decide), if_pos rfl]
  obtain ⟨hstate, hreq, hmem⟩ := clusterRun_spec (s.wr Reg.APC_CL_REQ [c] 0) c
  exact ⟨hreq.trans (rd_wr_same _ _ _ _ (by decide)), hstate, hmem⟩

/-- REQ = 1 and REQ = 2 stand until the harts meet the entry condition. -/
theorem commitOf_clReq_of_commits {v : Nat} (hv : v = 1 ∨ v = 2) (h : s.commits 0 [(Reg.APC_CL_REQ, [c], v)] = true) :
    ∃ t, s.commitOf 0 [(Reg.APC_CL_REQ, [c], v)] = .next t ∧ t = (s.committed [(Reg.APC_CL_REQ, [c], v)]).answer .ok 0
      ∧ t.rd Reg.APC_CL_REQ [c] = v ∧ t.rd Reg.APC_CL_STATE [c] = s.rd Reg.APC_CL_STATE [c] ∧ t.apc = s.apc ∧ t.mem = s.mem := by
  refine ⟨_, commitOf_of_commits h, rfl, ?_⟩
  simp only [rd_answer, answer_mem, answer_apc]
  rw [committed_clReq s hc (by omega), if_neg (by omega)]
  refine ⟨(rd_wr_same _ _ _ _ (by decide)).trans (Nat.mod_eq_of_lt ?_), rd_wr_beside _ _ _ (by decide), rfl, rfl⟩
  rcases hv with rfl | rfl <;> decide

end

/-! ### Acknowledged sources (R285) -/

/-- Source `k` is re-armed: it has not sent since. -/
def State.rearmed (s : State) (k : Nat) : State :=
  { s with apc := { s.apc with sentLevel := s.apc.sentLevel.filter (· ≠ k) } }

section
variable {s : State} {d x : Nat}

theorem sourceAck_of_quiet (h : s.flag Reg.APC_SRC_LEVEL [d, x] = false ∨ 256 * d + x ∉ s.apc.asserted
    ∨ s.rd Reg.APC_SRC_VEC [d, x] = 0) : s.sourceAck d x = s.rearmed (256 * d + x) := by
  refine if_neg ?_
  show ¬((s.flag Reg.APC_SRC_LEVEL [d, x] && s.apc.asserted.contains (256 * d + x)
    && decide (s.rd Reg.APC_SRC_VEC [d, x] ≠ 0)) = true)
  rcases h with h | h | h <;> simp [h]

/-- A level source that is still asserted and has a vector sends again, behind the earlier writes of its die. -/
theorem sourceAck_of_asserted (hlevel : s.flag Reg.APC_SRC_LEVEL [d, x] = true) (hon : 256 * d + x ∈ s.apc.asserted)
    (hvec : s.rd Reg.APC_SRC_VEC [d, x] ≠ 0) :
    let t := s.rearmed (256 * d + x)
    s.sourceAck d x = { t with
      apc := { t.apc with sentLevel := t.apc.sentLevel ++ [256 * d + x] }
      fab := { s.fab with held := s.fab.held ++ [⟨d, some (256 * d + x), s.unseen d,
        { inst := s.rd Reg.ENC_OWN_OWNER [ownIndex 7 (srcDie d) x], vec := s.rd Reg.APC_SRC_VEC [d, x] }⟩] } } := by
  intro t
  have hsends : (s.flag Reg.APC_SRC_LEVEL [d, x] && s.apc.asserted.contains (256 * d + x)
      && decide (s.rd Reg.APC_SRC_VEC [d, x] ≠ 0)) = true := by simp [hlevel, hon, hvec]
  refine (if_pos hsends).trans ?_
  rw [State.sourceSend, State.sendBehind]
  exact if_neg hvec

end

/-- An acknowledgement changes no word and no byte. -/
theorem sourceAck_frame (s : State) (d x : Nat) :
    s.sourceAck d x = { s with apc := (s.sourceAck d x).apc, fab := (s.sourceAck d x).fab } := by
  by_cases h : s.flag Reg.APC_SRC_LEVEL [d, x] = false ∨ 256 * d + x ∉ s.apc.asserted ∨ s.rd Reg.APC_SRC_VEC [d, x] = 0
  · rw [sourceAck_of_quiet h]
    rfl
  · obtain ⟨hlevel, hquiet⟩ := not_or.1 h
    obtain ⟨hon, hvec⟩ := not_or.1 hquiet
    rw [sourceAck_of_asserted (Bool.of_not_eq_false hlevel) (Decidable.of_not_not hon) hvec]
    rfl

/-- The outermost table of a row ends at or before word `b`. -/
def Row.endsBy (r : Row) (b : Nat) : Bool := r.dims.head?.any (fun e => 0 < e.1 && r.base + e.2 * e.1 ≤ b)

/-- A word behind a row's table is none of the row's. -/
theorem hit_of_endsBy {r : Row} {b w : Nat} (hends : r.endsBy b = true) (hw : b ≤ w) : r.hit w = none := by
  obtain ⟨e, hhead, he⟩ := (Option.any_eq_true _ _).1 hends
  obtain ⟨ds, hdims⟩ := List.head?_eq_some_iff.1 hhead
  simp only [Bool.and_eq_true, decide_eq_true_eq] at he
  obtain ⟨hpos, hend⟩ := he
  have hout : ¬(w - r.base) / e.1 < e.2 := by
    rw [Nat.div_lt_iff_lt_mul hpos]
    omega
  rw [Row.hit, if_neg (by omega), hdims, splitOffset, if_neg hout]

/-- Behind the other tables of APC the word of a source holds VEC, ACK and LEVEL. -/
theorem fieldsAt_src {d x : Nat} (hd : d < 5) (hx : x < 256) :
    fieldsAt 0x07 (0x2000 + (256 * d + x)) =
      [(Reg.APC_SRC_VEC, [d, x]), (Reg.APC_SRC_ACK, [d, x]), (Reg.APC_SRC_LEVEL, [d, x])] := by
  have hrows : Reg.rowsOf 0x07 = Reg.rowsAPC.take 17 ++ [Reg.APC_SRC_VEC, Reg.APC_SRC_ACK, Reg.APC_SRC_LEVEL] := rfl
  have hends : ∀ r ∈ Reg.rowsAPC.take 17, r.endsBy 0x2000 = true := by decide
  have hbehind : (Reg.rowsAPC.take 17).filterMap
      (fun r => (r.hit (0x2000 + (256 * d + x))).map (fun ix => (r, ix))) = [] :=
    List.filterMap_eq_nil_iff.2 fun r hr => by rw [hit_of_endsBy (hends r hr) (by omega), Option.map_none]
  have hsplit : splitOffset [(256, 5), (1, 256)] (256 * d + x) = some [d, x] := by
    have hdie : (256 * d + x) / 256 = d := by omega
    have hsource : (256 * d + x) % 256 = x := by omega
    simp [splitOffset, hdie, hsource, hd, hx, Nat.mod_one]
  have hhit : ∀ r : Row, r.base = 0x2000 → r.dims = [(256, 5), (1, 256)] →
      r.hit (0x2000 + (256 * d + x)) = some [d, x] := fun r hbase hdims => by
    rw [Row.hit, if_neg (by omega), hbase, hdims, Nat.add_sub_cancel_left, hsplit]
  rw [fieldsAt, hrows, List.filterMap_append, hbehind, List.nil_append]
  simp [hhit Reg.APC_SRC_VEC rfl rfl, hhit Reg.APC_SRC_ACK rfl rfl, hhit Reg.APC_SRC_LEVEL rfl rfl]

/-- ACK of a source may be staged, and its entry covers no other field. -/
theorem srcAck_staged {d x : Nat} (hd : d < 5) (hx : x < 256) :
    (stageOf Reg.APC_SRC_ACK [d, x] 1).covers = [(Reg.APC_SRC_ACK, [d, x])] ∧ Reg.APC_SRC_ACK.stageable [d, x]
      ∧ Reg.APC_SRC_ACK.base + joinOffset Reg.APC_SRC_ACK.dims [d, x] < 2 ^ 17 := by
  have hword : Reg.APC_SRC_ACK.base + joinOffset Reg.APC_SRC_ACK.dims [d, x] = 0x2000 + (256 * d + x) := by
    simp [joinOffset, Reg.APC_SRC_ACK]
  have hlive : liveFields Reg.APC_SRC_ACK.space (0x2000 + (256 * d + x)) =
      [(Reg.APC_SRC_VEC, [d, x]), (Reg.APC_SRC_ACK, [d, x]), (Reg.APC_SRC_LEVEL, [d, x])] := fieldsAt_src hd hx
  refine ⟨?_, ?_, by omega⟩
  · rw [Staged.covers, stageOf, hword, coveredAt, hlive]
    rfl
  · rw [Row.stageable, hword, stageMask, hlive]
    simp only [List.foldl_cons, List.foldl_nil]
    decide

/-- Of the actions of the application cores, a commit that covers ACK alone does that of ACK. -/
theorem doApc_of_ack {j : Judge} {d x : Nat} (hc : j.c = [(Reg.APC_SRC_ACK, [d, x])])
    (hflag : j.t.flag Reg.APC_SRC_ACK [d, x] = true) (s : State) :
    j.doApc s = (s.wr Reg.APC_SRC_ACK [d, x] 0).sourceAck d x := by
  have hack : j.fired Reg.APC_SRC_ACK = [[d, x]] := by simp [Judge.fired, at_of_single hc, hflag]
  have hvalid : j.fired Reg.APC_IRQ_VALID = [] := by simp [Judge.fired, at_of_other (q := Reg.APC_IRQ_VALID) hc (by decide)]
  have hkeys : j.keys [Reg.APC_CL_REQ] = [] := by simp [Judge.keys, at_of_other (q := Reg.APC_CL_REQ) hc (by decide)]
  simp only [Judge.doApc, hkeys, hvalid, hack]
  rfl

theorem committed_srcAck (s : State) {d x : Nat} (hd : d < 5) (hx : x < 256) :
    s.committed [(Reg.APC_SRC_ACK, [d, x], 1)] =
      ((s.wr Reg.APC_SRC_ACK [d, x] 1).wr Reg.APC_SRC_ACK [d, x] 0).sourceAck d x := by
  obtain ⟨hcovers, hstage, hix⟩ := srcAck_staged hd hx
  obtain ⟨j, hjc, ht, hcommitted⟩ := committed_apc s 1 hstage hcovers rfl rfl hix
  have hflag : j.t.flag Reg.APC_SRC_ACK [d, x] = true := by
    rw [ht, flag_wr_same _ _ _ _ (by decide)]
    rfl
  rw [hcommitted, doApc_of_ack hjc hflag]

theorem execSourceAck_of_commits {s : State} {n d x : Nat} (h : s.commits n [(Reg.APC_SRC_ACK, [d, x], 1)] = true) :
    ∃ t, execSourceAck n d x s = .next t ∧ t = (s.committed [(Reg.APC_SRC_ACK, [d, x], 1)]).answer .ok 0
      ∧ t.rd Reg.APC_SRC_ACK [d, x] = 0 ∧ t.mem = s.mem
      ∧ (s.flag Reg.APC_SRC_LEVEL [d, x] = false → 256 * d + x ∉ t.apc.sentLevel) := by
  obtain ⟨hd, hx⟩ : d < 5 ∧ x < 256 := by simpa [Row.holds, Reg.APC_SRC_ACK] using holds_of_commits h
  have hcommitted := committed_srcAck s hd hx
  generalize hu : (s.wr Reg.APC_SRC_ACK [d, x] 1).wr Reg.APC_SRC_ACK [d, x] 0 = u at hcommitted
  have hack : u.rd Reg.APC_SRC_ACK [d, x] = 0 := hu ▸ rd_wr_same _ _ _ _ (by decide)
  have hmem : u.mem = s.mem := hu ▸ rfl
  have hlevel : u.flag Reg.APC_SRC_LEVEL [d, x] = s.flag Reg.APC_SRC_LEVEL [d, x] := by
    rw [← hu]
    simp (disch := decide) only [State.flag, rd_wr_beside]
  refine ⟨_, commitOf_of_commits h, rfl, ?_, ?_, fun hedge => ?_⟩
  · rw [rd_answer, hcommitted, sourceAck_frame]
    exact hack
  · rw [answer_mem, hcommitted, sourceAck_frame]
    exact hmem
  · rw [answer_apc, hcommitted, sourceAck_of_quiet (.inl (hlevel.trans hedge))]
    simp [State.rearmed]

/-! ### O39 -/

/-- Settles O39: the requests are commits of REQ, a cluster enters and leaves its states by passes over its harts, and an
acknowledged source sends again or not as R285 says. RETAIN to OFF is the model's reading (log entry 12). -/
theorem clusterPowerStates : Obligations.ClusterPowerStates := by
  unfold Obligations.ClusterPowerStates
  intro s c hc
  refine ⟨execClusterRun_of_commits hc, commitOf_clReq_of_commits hc (.inl rfl), commitOf_clReq_of_commits hc (.inr rfl),
    fun hstate => ⟨fun hreq => ?_, execClusterStateEntry_of_run hc⟩, fun hstate hreq => ?_, fun hstate hpending => ?_,
    fun n d x => ⟨execSourceAck_of_commits, fun hlevel hon hvec => ?_, fun hquiet => ?_⟩⟩
  · exact ⟨_, execClusterStateEntry_of_retain hc hstate hreq, clusterSet_spec s c 1 1⟩
  · obtain ⟨hoff, hrun, hmem⟩ := clusterEmptied_spec s c
    refine ⟨_, execClusterStateEntry_of_off hc hstate hreq, hoff, fun h hh => ⟨hrun h hh, ?_⟩, fun h hh => ?_, hmem⟩
    · rw [hart_clusterEmptied, if_pos hh]
    · rw [hart_clusterEmptied, if_neg hh]
  · exact ⟨_, execClusterWake_of_pending hc hstate hpending, clusterSet_spec s c 0 0⟩
  · rw [sourceAck_of_asserted hlevel hon hvec]
    exact ⟨List.mem_append_right _ (List.mem_singleton_self _), List.length_append⟩
  · exact sourceAck_of_quiet (hquiet.imp_right .inl)

end Sys2Proof.Machine
end

section
/-! The commands of logical tiles and of the Dusk inference unit as attempts (log entry 40), and initiators whose writes
are all visible (R185). -/

namespace Sys2Proof.Machine

/-! ### Attempts of a tile -/

section
variable {s t : State} {k : Nat} {f : State → State} (hk : k < s.fuses.variant.tiles)
  (hfresh : s.fresh (partyTile k) = true)
include hk hfresh

/-- The command of a fresh tile that no access stops leaves what its run leaves. -/
theorem tileAttempt_of_unstopped (hrun : f (s.inRun (partyTile k)) = t) (hstall : t.fab.stall = none) :
    s.tileAttempt k f = .next (t.ended (partyTile k)) := by
  rw [State.tileAttempt, if_neg (Nat.not_le.2 hk)]
  exact attempt_of_unstopped (partyWaits_of_fresh hfresh) (congrArg Host.Outcome.next hrun) hstall

/-- The command of a fresh tile in whose run nothing happens leaves the state as it was. -/
theorem tileAttempt_of_idle (hrun : f (s.inRun (partyTile k)) = s.inRun (partyTile k)) : s.tileAttempt k f = .next s := by
  rw [State.tileAttempt, if_neg (Nat.not_le.2 hk)]
  exact attempt_of_idle hfresh (congrArg Host.Outcome.next hrun)

end

/-! ### Attempts of the Dusk inference unit (R335) -/

/-- A descriptor in the island's SRAM is read at once, and admitted as R308 and R335 say. -/
theorem duskFetch_of_island {s : State} {a : Nat} (hlo : islandSram ≤ a) (hhi : a + 128 ≤ islandSram + 0x40_0000) :
    let v := ofLeBytes (memBytes s.mem a 128)
    s.duskFetch a = (if tdOk v (2 ^ 64 - 1) && duskOk (tdOf v) then .ok else .denied, tdOf v, s) := by
  have hrange : (decide (islandSram ≤ a) && decide (a + 128 ≤ islandSram + 0x40_0000)) = true := by
    rw [decide_eq_true hlo, decide_eq_true hhi, Bool.and_self]
  simp only [State.duskFetch, hrange, if_true, ne_eq, not_true_eq_false, if_false]

section
variable {s : State} {a : Nat} {what : Td → Bool} {act : State → Td → State} (hisland : s.saf.islandRun = true)
  (hfresh : s.fresh partyDusk = true)
include hisland hfresh

/-- A descriptor that is admitted, and that the command names, is executed. -/
theorem duskAttempt_of_admitted {d : Td} {t u : State} (hfetch : (s.inRun partyDusk).duskFetch a = (.ok, d, t))
    (hwhat : what d = true) (hact : act t d = u) (hstall : u.fab.stall = none) :
    s.duskAttempt a what act = .next (u.ended partyDusk) := by
  have hrun : (s.inRun partyDusk).saf.islandRun = true := hisland
  refine attempt_of_unstopped (partyWaits_of_fresh hfresh) (congrArg Host.Outcome.next ?_) hstall
  simp only [State.duskDo, hrun, hfetch, hwhat, hact, Bool.not_true, Bool.false_eq_true, if_false, if_true, ne_eq,
    not_true_eq_false]

/-- A descriptor that is not admitted is answered with ST_DENIED. -/
theorem duskAttempt_of_denied {d : Td} (hfetch : (s.inRun partyDusk).duskFetch a = (.denied, d, s.inRun partyDusk)) :
    s.duskAttempt a what act = .next (s.answer .denied 0) := by
  have hrun : (s.inRun partyDusk).saf.islandRun = true := hisland
  have hdo : (s.inRun partyDusk).duskDo a what act = (s.inRun partyDusk).answer .denied 0 := by
    simp only [State.duskDo, hrun, hfetch, Bool.not_true, Bool.false_eq_true, if_false, ne_eq, reduceCtorEq,
      not_false_eq_true, if_true]
  have hended : ((s.inRun partyDusk).answer .denied 0).ended partyDusk = s.answer .denied 0 :=
    congrArg (fun t : State => t.answer .denied 0) (ended_inRun_of_fresh hfresh)
  rw [← hended]
  exact attempt_of_unstopped (partyWaits_of_fresh hfresh) (congrArg Host.Outcome.next hdo) rfl

end

/-! ### Writes that are visible (R185) -/

section
variable {s : State} (hposted : s.fab.posted = []) (hopen : s.fab.open_ = [])
include hposted hopen

theorem afterWrites_of_quiet (a : Access) (f : State → State) : s.afterWrites a f = f s := by
  have hdrain : s.drainSource (srcCode a.src) = s := by
    rw [State.drainSource, hposted]
    rfl
  simp only [State.afterWrites, hdrain, hposted, hopen, List.any_nil, Bool.or_self, Bool.false_eq_true, if_false]

theorem afterAll_of_quiet (l : List Access) (f : State → State) : State.afterAll l s f = f s := by
  induction l with
  | nil => rfl
  | cons a l ih => rw [State.afterAll, afterWrites_of_quiet hposted hopen, ih]

end

end Sys2Proof.Machine
end

section
/-! O40: an operation of a tile on the descriptor at its head, and of the Dusk inference unit on one that it reads. -/

namespace Sys2Proof.Machine

/-! ### Operations of a tile (R294, R302, R304, R311) -/

/-- The units of the operation that a descriptor spells are paid, those of the matrix unit and `cyc` more. -/
def State.tilePaid (s : State) (cyc : Nat) (e : TileDesc) : State :=
  s.payJob e.uid 22 (matrixCycles (tdOf e.desc) + cyc)

/-- The operation of a descriptor on tile `k`, with the access of its job. -/
def State.tileComputes (u : State) (k : Nat) (e : TileDesc) : Status × State :=
  let d := tdOf e.desc
  u.tileOp ⟨u.tileAccess k (u.descTag e) d.pid, 0x1_0000_0000 + k * 0x20_0000⟩ d

/-- A descriptor retires on ST_OK, and ends its job on another status. -/
def State.tileSettles (k : Nat) (e : TileDesc) (o : Status × State) : State :=
  if o.1 = .ok then o.2.retireDesc k e else (o.2.markRan k).infFail e.uid e.addr k o.1

/-- A double-bit error of the tile's SRAM counts for its physical tile, and ends the job (R294). -/
def State.sramFails (u : State) (k : Nat) (e : TileDesc) : State :=
  ((u.incSat Reg.INF_PHYS_SRAM_DBE [u.rd Reg.INF_TILE_PHYS [k]] 1).markRan k).infFail e.uid e.addr k .poison

theorem tileRun_of_head {v : State} {k op : Nat} {e : TileDesc} (hhead : v.tileHead k = some e)
    (hop : (tdOf e.desc).op = op) (cyc : Nat) (dbe : Bool) :
    v.tileRun k op cyc dbe = if dbe then (v.tilePaid cyc e).sramFails k e
      else State.tileSettles k e ((v.tilePaid cyc e).tileComputes k e) := by
  simp only [State.tileRun, hhead, hop, ne_eq, not_true_eq_false, if_false]
  rfl

section
variable {s : State} {k cyc : Nat} {e : TileDesc} (hk : k < s.fuses.variant.tiles) (hhead : s.tileHead k = some e)
  (hfresh : s.fresh (partyTile k) = true)
include hk hhead hfresh

theorem infOp_tile {t : State} {op : Nat} (dbe : Bool)
    (ht : (if dbe then ((s.inRun (partyTile k)).tilePaid cyc e).sramFails k e
      else State.tileSettles k e (((s.inRun (partyTile k)).tilePaid cyc e).tileComputes k e)) = t)
    (hstall : t.fab.stall = none) (hop : (tdOf e.desc).op = op) :
    s.infOp (.tile k) op cyc dbe = .next (t.ended (partyTile k)) :=
  have hrunhead : (s.inRun (partyTile k)).tileHead k = some e := hhead
  tileAttempt_of_unstopped hk hfresh ((tileRun_of_head hrunhead hop cyc dbe).trans ht) hstall

end

/-! ### Operations of the Dusk inference unit (R308, R335) -/

section
variable {s : State} {a : Nat} (hisland : s.saf.islandRun = true) (hlo : islandSram ≤ a)
  (hhi : a + 128 ≤ islandSram + 0x40_0000) (hfresh : s.fresh partyDusk = true)
include hisland hlo hhi hfresh

theorem duskRun_of_admitted {v : Nat} (hv : ofLeBytes (memBytes s.mem a 128) = v)
    (hok : tdOk v (2 ^ 64 - 1) = true) (hdusk : duskOk (tdOf v) = true) {o : Status × State}
    (ho : (s.inRun partyDusk).tileOp ⟨duskAccess, islandSram⟩ (tdOf v) = o) (hstall : (o.2.answer o.1 0).fab.stall = none)
    {op : Nat} (hop : (tdOf v).op = op) : s.duskRun a op = .next ((o.2.answer o.1 0).ended partyDusk) := by
  have hfetch : (s.inRun partyDusk).duskFetch a = (.ok, tdOf v, s.inRun partyDusk) := by
    rw [duskFetch_of_island hlo hhi]
    show (if tdOk (ofLeBytes (memBytes s.mem a 128)) _ && duskOk (tdOf (ofLeBytes (memBytes s.mem a 128))) then _ else _,
      tdOf (ofLeBytes (memBytes s.mem a 128)), _) = _
    rw [hv, hok, hdusk]
    rfl
  subst ho
  exact duskAttempt_of_admitted hisland hfresh hfetch (decide_eq_true hop) rfl hstall

theorem duskRun_of_denied {v : Nat} (hv : ofLeBytes (memBytes s.mem a 128) = v)
    (hbad : (tdOk v (2 ^ 64 - 1) && duskOk (tdOf v)) = false) (op : Nat) :
    s.duskRun a op = .next (s.answer .denied 0) := by
  refine duskAttempt_of_denied hisland hfresh (d := tdOf v) ?_
  rw [duskFetch_of_island hlo hhi]
  show (if tdOk (ofLeBytes (memBytes s.mem a 128)) _ && duskOk (tdOf (ofLeBytes (memBytes s.mem a 128))) then _ else _,
    tdOf (ofLeBytes (memBytes s.mem a 128)), _) = _
  rw [hv, hbad]
  rfl

end

/-! ### O40 -/

/-- Settles O40: the 22 commands of a tile are one run with their operation's number, and so are the commands of the Dusk
inference unit, each as an attempt (log entry 40). -/
theorem tileOperationsExecute : Obligations.TileOperationsExecute := by
  unfold Obligations.TileOperationsExecute
  refine ⟨fun s k cyc e => ?_, fun s a cyc => ?_⟩
  · intro P d u o r f hk hhead hfresh
    refine ⟨fun hstall => ?_, fun hstall => ?_⟩
    · have run : ∀ op, d.op = op → s.infOp (.tile k) op cyc false = .next (r.ended P) :=
        fun op => infOp_tile hk hhead hfresh false rfl hstall
      exact ⟨run _, run _, run _, run _, run _, run _, run _, run _, run _, run _, run _, run _, run _, run _, run _, run _,
        run _, run _, run _, run _, run _, run _⟩
    · have run : ∀ op, d.op = op → s.infOp (.tile k) op cyc true = .next (f.ended P) :=
        fun op => infOp_tile hk hhead hfresh true rfl hstall
      exact ⟨run _, run _, run _, run _, run _, run _, run _, run _, run _, run _, run _, run _, run _, run _, run _, run _,
        run _, run _, run _, run _, run _, run _⟩
  · intro v d hisland hlo hhi hfresh
    refine ⟨fun hok hdusk => ?_, fun hbad op => duskRun_of_denied hisland hlo hhi hfresh rfl hbad op⟩
    intro o r hstall
    have run : ∀ op, d.op = op → s.duskRun a op = .next (r.ended partyDusk) :=
      fun op => duskRun_of_admitted (v := v) (o := o) hisland hlo hhi hfresh rfl hok hdusk rfl hstall
    exact ⟨run _, run _, run _, run _, run _, run _, run _, run _, run _, run _⟩

end Sys2Proof.Machine
end

section
/-! O41: a row of minus infinity, the places that SCATTER stores into, and the cycles of the matrix unit. -/

namespace Sys2Proof.Machine

/-! ### SOFTMAX of a row (R320) -/

theorem softmaxRow_of_all_neg_inf {l : List Fl} (h : ∀ v ∈ l, v = .inf true) :
    softmaxRow l = l.map (fun _ => .fin false 0 0) := by
  rw [softmaxRow, if_pos (List.all_eq_true.2 fun v hv => decide_eq_true (h v hv))]

/-! ### Stores in the order of their positions (R310) -/

/-- A list after the stores of positions 0 to `m` − 1, in this order: position `k` stores `value k` at `place k`, where
that names a place. -/
def storedInOrder {α : Type} (place : Nat → Option Nat) (value : Nat → α) (m : Nat) (l : List α) : List α :=
  (List.range m).foldl (fun l k => (place k).elim l (fun p => l.set p (value k))) l

section
variable {α : Type} (place : Nat → Option Nat) (value : Nat → α) (l : List α)

theorem storedInOrder_succ (m : Nat) :
    storedInOrder place value (m + 1) l =
      (place m).elim (storedInOrder place value m l) (fun p => (storedInOrder place value m l).set p (value m)) := by
  rw [storedInOrder, List.range_succ, List.foldl_append]
  rfl

theorem length_storedInOrder (m : Nat) : (storedInOrder place value m l).length = l.length := by
  induction m with
  | zero => rfl
  | succ m ih =>
    rw [storedInOrder_succ]
    cases place m with
    | none => exact ih
    | some p => exact List.length_set.trans ih

variable {place value l} {p : Nat} (d : α)

/-- A place that no position from `k` on names holds what it held before position `k`. -/
theorem getD_storedInOrder_of_unnamed {k m : Nat} (hkm : k ≤ m) (h : ∀ j, k ≤ j → j < m → place j ≠ some p) :
    (storedInOrder place value m l).getD p d = (storedInOrder place value k l).getD p d := by
  induction hkm with
  | refl => rfl
  | @step m hkm ih =>
    have hprev := ih fun j hkj hjm => h j hkj (Nat.lt_succ_of_lt hjm)
    rw [storedInOrder_succ]
    cases hm : place m with
    | none => exact hprev
    | some q =>
      have hne : q ≠ p := fun hq => h m hkm (Nat.lt_succ_self m) (hq ▸ hm)
      rw [← hprev]
      simp only [Option.elim_some, List.getD_eq_getElem?_getD, List.getElem?_set_ne hne]

/-- The last position that names a place leaves its value there. -/
theorem getD_storedInOrder_of_last {k m : Nat} (hp : p < l.length) (hkm : k < m) (hk : place k = some p)
    (hlast : ∀ j, k < j → j < m → place j ≠ some p) : (storedInOrder place value m l).getD p d = value k := by
  have hlen : p < (storedInOrder place value k l).length := by rwa [length_storedInOrder]
  rw [getD_storedInOrder_of_unnamed d (Nat.succ_le_of_lt hkm) hlast, storedInOrder_succ, hk]
  simp only [Option.elim_some, List.getD_eq_getElem?_getD, List.getElem?_set_self hlen, Option.getD_some]

end

/-! ### SCATTER on one dimension (R310) -/

theorem positions_of_one_dimension (m : Nat) : positions [m, 1, 1, 1] = (List.range m).map (fun k => [k, 0, 0, 0]) := by
  have hrest : positions [1, 1, 1] = [[0, 0, 0]] := rfl
  rw [positions, hrest, List.flatMap_singleton]

theorem flatIndex_of_one_dimension (n i : Nat) : flatIndex [n, 1, 1, 1] [i, 0, 0, 0] = i := by
  simp only [flatIndex, Nat.mul_zero, Nat.add_zero]

/-- SCATTER with P4 = 0 on one dimension is the stores of the index positions in their order. -/
theorem scatter_of_one_dimension {d : Td} {x w y : Tn} {n m : Nat} (haxis : d.p3 = 0) (hstore : d.p4 = 0)
    (hy : y.dims = [n, 1, 1, 1]) (hw : w.v.length = m) (hx : x.dims = [m, 1, 1, 1]) :
    scatter d x w y = some (storedInOrder (fun k => indexIn (w.v.getD k .nan) n) (fun k => x.at_ [k, 0, 0, 0]) m y.v) := by
  have hshape : x.dims = setNth y.dims d.p3 w.v.length := by rw [haxis, hw, hy, hx]; rfl
  rw [scatter, if_pos hshape, hx, positions_of_one_dimension, List.foldl_map, storedInOrder, haxis, hstore, hy]
  congr 2
  funext l k
  show (match indexIn (w.v.getD k .nan) n with
    | some i => l.set (flatIndex [n, 1, 1, 1] [i, 0, 0, 0]) (x.at_ [k, 0, 0, 0])
    | none => l) = _
  cases indexIn (w.v.getD k .nan) n with
  | none => rfl
  | some i => exact congrArg (fun p => l.set p (x.at_ [k, 0, 0, 0])) (flatIndex_of_one_dimension n i)

/-! ### Cycles of the matrix unit (R311) -/

/-- The INF cycles of a step of the matrix unit: one at INT8 and FP8, two at FP16 and BF16. -/
def Td.stepCycles (d : Td) : Nat := if d.tin = 4 || d.tin = 5 then 2 else 1

theorem stepCycles_of_byte {d : Td} (h : d.tin ≤ 3) : d.stepCycles = 1 := by
  rw [Td.stepCycles, if_neg]
  simp only [Bool.or_eq_true, decide_eq_true_eq]
  omega

theorem stepCycles_of_half {d : Td} (h : d.tin = 4 ∨ d.tin = 5) : d.stepCycles = 2 := by
  rw [Td.stepCycles, if_pos]
  simpa only [Bool.or_eq_true, decide_eq_true_eq] using h

theorem matrixCycles_of_gemm {d : Td} (h : d.op = 0x01) :
    matrixCycles d = d.x.d1 * ceilDiv d.x.d0 (if d.sparse then 64 else 32) * ceilDiv d.w.d0 64 * d.stepCycles := by
  rw [matrixCycles, if_pos h]
  rfl

theorem matrixCycles_of_conv2d {d : Td} (h : d.op = 0x02) :
    matrixCycles d = d.y.d1 * d.y.d2 * d.y.d3 * ceilDiv (d.w.d0 * d.w.d1 * d.w.d2) (if d.sparse then 64 else 32)
      * ceilDiv d.w.d3 64 * d.stepCycles := by
  have hgemm : d.op ≠ 0x01 := by rw [h]; decide
  rw [matrixCycles, if_neg hgemm, if_pos h]
  rfl

/-! ### O41 -/

/-- Settles O41: SCATTER by its stores in the order of the index positions (R310), of which the last one to a place
stands; SOFTMAX and the cycles by the branch that is taken (R311, R320). -/
theorem tensorResults : Obligations.TensorResults := by
  unfold Obligations.TensorResults
  refine ⟨fun n => ?_, fun d x w y n m haxis hstore hy hlen hw hx => ?_, fun d hop => ?_, fun d hop => ?_⟩
  · rw [softmaxRow_of_all_neg_inf fun v => List.eq_of_mem_replicate, List.map_replicate]
  · refine ⟨_, scatter_of_one_dimension haxis hstore hy hw hx, (length_storedInOrder _ _ _ _).trans hlen,
      fun p k hp hk hplace hlast => ?_, fun p _ hnone => ?_⟩
    · exact getD_storedInOrder_of_last (place := fun k => indexIn (w.v.getD k .nan) n) _ (hlen ▸ hp) hk hplace hlast
    · exact getD_storedInOrder_of_unnamed (place := fun k => indexIn (w.v.getD k .nan) n) _ (Nat.zero_le m)
        fun j _ => hnone j
  · rw [matrixCycles_of_gemm hop]
    exact ⟨fun h => by rw [stepCycles_of_byte h, Nat.mul_one], fun h => by rw [stepCycles_of_half h, Nat.mul_comm]⟩
  · rw [matrixCycles_of_conv2d hop]
    exact ⟨fun h => by rw [stepCycles_of_byte h, Nat.mul_one], fun h => by rw [stepCycles_of_half h, Nat.mul_comm]⟩

end Sys2Proof.Machine
end

section
/-! O42: the three modes of SYNC on a tile, and those that the Dusk inference unit executes. -/

namespace Sys2Proof.Machine

/-! ### A tile that waits -/

theorem syncTile_frame (s : State) (t : Nat) : s.syncTile t = { s with words := (s.syncTile t).words } := by
  rw [State.syncTile]
  split
  · rfl
  · exact wr_frame _ _ _ _

theorem waitDesc_frame (s : State) (k : Nat) (e : TileDesc) :
    s.waitDesc k e = { s with words := (s.waitDesc k e).words,
                              inf := { s.inf with queues := (s.waitDesc k e).inf.queues } } := by
  rw [State.waitDesc, syncTile_frame]
  rfl

theorem syncTile_inRun (s : State) (p t : Nat) : (s.inRun p).syncTile t = (s.syncTile t).inRun p := by
  rw [State.syncTile, State.syncTile]
  dsimp only
  rw [apply_ite (fun x : State => x.inRun p)]
  rfl

theorem waitDesc_inRun (s : State) (p k : Nat) (e : TileDesc) : (s.inRun p).waitDesc k e = (s.waitDesc k e).inRun p := by
  rw [State.waitDesc, State.waitDesc, ← syncTile_inRun]
  rfl

theorem fresh_waitDesc (s : State) (p k : Nat) (e : TileDesc) : (s.waitDesc k e).fresh p = s.fresh p := by
  rw [waitDesc_frame]
  rfl

/-- The queue of a tile after the queue of a tile is replaced. -/
theorem tileQueue_setTileQueue_ne (s : State) {j k : Nat} (l : List TileDesc) (h : j ≠ k) :
    (s.setTileQueue k l).tileQueue j = s.tileQueue j := by
  show tget [] (if l.isEmpty then tdel s.inf.queues k else tput s.inf.queues k l) j = tget [] s.inf.queues j
  split
  · exact tget_tdel_ne _ _ h
  · exact tget_tput_ne _ _ _ h

theorem tileQueue_syncTile (s : State) (t j : Nat) : (s.syncTile t).tileQueue j = s.tileQueue j := by
  rw [syncTile_frame]
  rfl

theorem tileQueue_waitDesc_ne (s : State) {j k : Nat} (e : TileDesc) (h : j ≠ k) :
    (s.waitDesc k e).tileQueue j = s.tileQueue j := by
  rw [State.waitDesc, tileQueue_syncTile, tileQueue_setTileQueue_ne _ _ h]

/-! ### The modes on a tile (R325 to R327) -/

/-- Every tile of a barrier waits in it. -/
def State.allArrived (w : State) (e : TileDesc) : Bool :=
  (descTiles e.desc).all (fun j => (w.tileQueue j).any (fun x => x.uid = e.uid && x.seq = e.seq && x.waits))

/-- The tiles of a barrier go on, and the chains are read on. -/
def State.leaveBarrier (v : State) (e : TileDesc) : State :=
  ((descTiles e.desc).foldl (fun t j => (t.popDesc j e).markRan j) v).readChains

/-- A SYNC of mode 1 after its write, by the write's status. -/
def State.signalled (t : State) (k tag : Nat) (e : TileDesc) (st : Status) : State :=
  let d := tdOf e.desc
  if st ≠ .ok then (t.markRan k).infFail e.uid e.addr k st
  else (if bitAt d.p4 43 then t.send tag (bitsOf d.p4 32 11) else t).retireDesc k e

/-- A SYNC of mode 2 after its read of the bytes `b`, by the read's status. -/
def State.waitRead (t : State) (k : Nat) (e : TileDesc) (st : Status) (b : List Byte) : State :=
  if st ≠ .ok then (t.markRan k).infFail e.uid e.addr k st
  else if ofLeBytes b &&& (tdOf e.desc).p3 = (tdOf e.desc).p2 then t.retireDesc k e else t.waitDesc k e

section
variable {v : State} {k : Nat} {e : TileDesc}

theorem syncArrive_of_not_all (hhead : v.syncHead k 0 = some e) (hall : (v.waitDesc k e).allArrived e = false) :
    v.syncArrive k = v.waitDesc k e := by
  rw [State.allArrived] at hall
  simp only [State.syncArrive, hhead, hall, Bool.false_eq_true, if_false]

theorem syncRead_of_read {st : Status} {b : List Byte} {t : State}
    (hread : v.dmaRead (v.tileAccess k (v.descTag e) (tdOf e.desc).pid) (tdOf e.desc).p1 8 = (st, b, t)) :
    v.syncRead k e = t.waitRead k e st b := by
  by_cases hst : st = .ok
  · simp only [State.syncRead, State.dmaNum, State.waitRead, hread, hst, ne_eq, not_true_eq_false, if_false, if_true]
  · simp only [State.syncRead, State.dmaNum, State.waitRead, hread, hst, ne_eq, not_false_eq_true, if_true, if_false]

variable (hposted : v.fab.posted = []) (hopen : v.fab.open_ = [])
include hposted hopen

theorem syncArrive_of_all (hhead : v.syncHead k 0 = some e) (hall : (v.waitDesc k e).allArrived e = true) :
    v.syncArrive k = v.leaveBarrier e := by
  rw [State.allArrived] at hall
  simp only [State.syncArrive, hhead, hall, if_true, afterAll_of_quiet hposted hopen]
  rfl

theorem syncWrite_of_write {st : Status} {t : State} (hhead : v.syncHead k 1 = some e)
    (hwrite : v.dmaWrite { v.tileAccess k (v.descTag e) (tdOf e.desc).pid with firm := true } (tdOf e.desc).p1
      (leBytes 8 (tdOf e.desc).p2) = (st, t)) :
    v.syncWrite k = t.signalled k (v.descTag e) e st := by
  simp only [State.syncWrite, hhead, afterWrites_of_quiet hposted hopen, hwrite]
  rfl

end

/-! ### The commands of a tile -/

section
variable {s : State} {k : Nat} {e : TileDesc} (hk : k < s.fuses.variant.tiles) (hfresh : s.fresh (partyTile k) = true)
include hk hfresh

/-- A tile that arrives before the others of its barrier waits. -/
theorem execSyncBarrier_of_not_all (hhead : s.syncHead k 0 = some e)
    (hall : ((s.inRun (partyTile k)).waitDesc k e).allArrived e = false) :
    execSyncBarrier (.tile k) s = .next (s.waitDesc k e) := by
  have hrun : (s.inRun (partyTile k)).syncArrive k = (s.waitDesc k e).inRun (partyTile k) :=
    (syncArrive_of_not_all (v := s.inRun (partyTile k)) hhead hall).trans (waitDesc_inRun s _ k e)
  have hended : ((s.waitDesc k e).inRun (partyTile k)).ended (partyTile k) = s.waitDesc k e :=
    ended_inRun_of_fresh ((fresh_waitDesc s _ k e).trans hfresh)
  rw [← hended]
  exact tileAttempt_of_unstopped hk hfresh hrun rfl

theorem execSyncWait_of_read {t : State} (hread : (s.inRun (partyTile k)).syncRead k e = t) (hstall : t.fab.stall = none)
    (hhead : s.syncHead k 2 = some e) : execSyncWait k s = .next (t.ended (partyTile k)) := by
  have hrunhead : (s.inRun (partyTile k)).syncHead k 2 = some e := hhead
  refine tileAttempt_of_unstopped hk hfresh ?_ hstall
  simp only [hrunhead, hread]

theorem execSyncWaitPoll_of_read {t : State} {u : Nat} (hread : (s.inRun (partyTile k)).syncRead k e = t)
    (hstall : t.fab.stall = none) (hwaits : s.syncWaiting k u = some e) :
    execSyncWaitPoll k u s = .next (t.ended (partyTile k)) := by
  have hrunwaits : (s.inRun (partyTile k)).syncWaiting k u = some e := hwaits
  refine tileAttempt_of_unstopped hk hfresh ?_ hstall
  simp only [hrunwaits, hread]

theorem execSyncWaitTimeout_of_waiting {u : Nat} (hwaits : s.syncWaiting k u = some e)
    (hstall : (((s.inRun (partyTile k)).markRan k).infFail u e.addr k .timeout).fab.stall = none) :
    execSyncWaitTimeout k u s =
      .next ((((s.inRun (partyTile k)).markRan k).infFail u e.addr k .timeout).ended (partyTile k)) := by
  have hrunwaits : (s.inRun (partyTile k)).syncWaiting k u = some e := hwaits
  refine tileAttempt_of_unstopped hk hfresh ?_ hstall
  simp only [hrunwaits]

end

/-! ### O42 -/

/-- Settles O42: each mode by what its command runs on a tile (R325 to R327); with no write on its way a barrier and an
event word wait for nothing (R185), and on the Dusk inference unit a barrier holds nothing (R335). -/
theorem syncDescriptorsHandOver : Obligations.SyncDescriptorsHandOver := by
  unfold Obligations.SyncDescriptorsHandOver
  intro s k e hk hposted hopen P v d
  have hvposted : v.fab.posted = [] := hposted
  have hvopen : v.fab.open_ = [] := hopen
  refine ⟨fun hfresh => ⟨fun hhead => ?_, fun st t hhead hwrite => ?_, fun b t st hread => ?_, fun u hwaits => ?_⟩,
    fun a d t hisland hfresh hfetch hop htposted htopen => ⟨fun hmode hstall => ?_, fun hmode st w hwrite hstall => ?_⟩⟩
  · intro w all r
    have hw : w = (s.waitDesc k e).inRun P := waitDesc_inRun s P k e
    have hmem : w.mem = s.mem := by rw [hw, waitDesc_frame]; rfl
    have hmsgs : w.msgs = s.msgs := by rw [hw, waitDesc_frame]; rfl
    refine ⟨fun hall hstall => ?_, fun hall => execSyncBarrier_of_not_all hk hfresh hhead hall,
      fun j hj => tileQueue_waitDesc_ne v e hj, hmem, hmsgs⟩
    exact tileAttempt_of_unstopped hk hfresh (syncArrive_of_all hvposted hvopen hhead hall) hstall
  · intro r f
    have hrun := syncWrite_of_write hvposted hvopen hhead hwrite
    refine ⟨fun hst hstall => tileAttempt_of_unstopped hk hfresh (hrun.trans ?_) hstall,
      fun hst hstall => tileAttempt_of_unstopped hk hfresh (hrun.trans ?_) hstall⟩
    · rw [State.signalled, if_neg fun hne => hne hst]
      rfl
    · rw [State.signalled, if_pos hst]
  · intro r hstall
    have hrun : v.syncRead k e = r := syncRead_of_read hread
    exact ⟨execSyncWait_of_read hk hfresh hrun hstall, fun u => execSyncWaitPoll_of_read hk hfresh hrun hstall⟩
  · exact execSyncWaitTimeout_of_waiting hk hfresh hwaits
  · exact duskAttempt_of_admitted hisland hfresh hfetch (by rw [hop, hmode]; rfl) rfl hstall
  · exact duskAttempt_of_admitted hisland hfresh hfetch (by rw [hop, hmode]; rfl)
      ((afterWrites_of_quiet htposted htopen _ _).trans (by rw [hwrite])) hstall

end Sys2Proof.Machine
end

section
/-! O43: the switch of a tile between its grantees, bytes that are zeroed, and the completion of a job of the array. -/

namespace Sys2Proof.Machine

/-! ### Zeroed bytes (R298) -/

theorem tget_filter_of_kept {α : Type} (d : α) {keep : Nat × α → Bool} {x : Nat} (h : ∀ v, keep (x, v) = true)
    (t : List (Nat × α)) : tget d (t.filter keep) x = tget d t x := by
  induction t with
  | nil => rfl
  | cons e t ih =>
    obtain ⟨y, v⟩ := e
    by_cases hyx : y = x
    · subst hyx
      rw [List.filter_cons_of_pos (h v), tget, tget, if_pos rfl, if_pos rfl]
    · by_cases hkeep : keep (y, v) = true
      · rw [List.filter_cons_of_pos hkeep, tget, tget, if_neg hyx, if_neg hyx, ih]
      · rw [List.filter_cons_of_neg hkeep, tget, if_neg hyx, ih]

theorem tget_filter_of_dropped {α : Type} (d : α) {keep : Nat × α → Bool} {x : Nat} (h : ∀ v, keep (x, v) = false)
    (t : List (Nat × α)) : tget d (t.filter keep) x = d := by
  induction t with
  | nil => rfl
  | cons e t ih =>
    obtain ⟨y, v⟩ := e
    by_cases hyx : y = x
    · subst hyx
      rw [List.filter_cons_of_neg (Bool.eq_false_iff.1 (h v)), ih]
    · by_cases hkeep : keep (y, v) = true
      · rw [List.filter_cons_of_pos hkeep, tget, if_neg hyx, ih]
      · rw [List.filter_cons_of_neg hkeep, ih]

theorem memByte_zeroMem (s : State) (a n x : Nat) :
    memByte (s.zeroMem a n).mem x = if a ≤ x ∧ x < a + n then 0 else memByte s.mem x := by
  split
  case isTrue h => exact tget_filter_of_dropped _ (fun _ => by rw [← Bool.decide_and, decide_eq_true h]; rfl) s.mem
  case isFalse h => exact tget_filter_of_kept _ (fun _ => by rw [← Bool.decide_and, decide_eq_false h]; rfl) s.mem

/-! ### The switch of a tile (R296 to R298) -/

/-- The resident of a tile is saved, if there is one. -/
def State.savedResident (v : State) (k : Nat) : State :=
  match v.resident k with | some r => v.saveTile k r | none => v

/-- The residency of a tile after a restore. -/
theorem rd_restoreTile (w : State) (k g : Nat) :
    (w.restoreTile k g).rd Reg.INF_TILE_RES_G [k] = g % 4 ∧ (w.restoreTile k g).rd Reg.INF_TILE_RES_VALID [k] = 1 := by
  have hresident : ∀ x : State, ((x.wr Reg.INF_TILE_RES_G [k] g).wr Reg.INF_TILE_RES_VALID [k] 1).rd Reg.INF_TILE_RES_G [k]
      = g % 4 := fun x => (rd_wr_beside _ _ _ (by decide)).trans (rd_wr_same _ _ _ _ (by decide))
  have hvalid : ∀ x : State, (x.wr Reg.INF_TILE_RES_VALID [k] 1).rd Reg.INF_TILE_RES_VALID [k] = 1 :=
    fun x => rd_wr_same _ _ _ _ (by decide)
  rw [State.restoreTile]
  dsimp only
  split
  · exact ⟨hresident _, hvalid _⟩
  · exact ⟨hresident _, hvalid _⟩

section
variable {v : State} {k : Nat}

theorem switchTile_of_due {g : Nat} (hup : v.boot.mainUp = true) (hswap : v.rd Reg.INF_TILE_STATE [k] ≠ 4)
    (hlost : v.rd Reg.INF_TILE_STATE [k] ≠ 5) (hnext : v.incoming k = some g) (hyields : v.yields k g = true) :
    v.switchTile k = ((v.savedResident k).restoreTile k g).syncTile k := by
  simp only [State.switchTile, hup, hswap, hlost, hnext, hyields, decide_false, Bool.not_true, Bool.or_false,
    Bool.false_eq_true, if_false]
  rfl

theorem switchTile_of_not_due (h : v.incoming k = none ∨ ∃ g, v.incoming k = some g ∧ v.yields k g = false) :
    v.switchTile k = v := by
  obtain hnone | ⟨g, hnext, hstays⟩ := h
  · simp only [State.switchTile, hnone, ite_self]
  · simp only [State.switchTile, hnext, hstays, Bool.not_false, if_true, ite_self]

end

/-! ### Completion of a job (R303) -/

theorem execInfJobComplete_of_finished {s t : State} {u : Nat} {j : InfJob} (hjob : s.infJob u = some j)
    (hchain : j.next = 0) (hqueues : ∀ k, k < 64 → ∀ e ∈ s.tileQueue k, e.uid ≠ u)
    (hfresh : s.fresh (partyJob u) = true)
    (hend : State.afterAll ((s.inRun (partyJob u)).jobTiles j) (s.inRun (partyJob u)) (fun t => t.infEnd u .ok) = t)
    (hstall : t.fab.stall = none) : execInfJobComplete u s = .next (t.ended (partyJob u)) := by
  have hrunjob : (s.inRun (partyJob u)).infJob u = some j := hjob
  have hdone : (decide (j.next = 0) && (List.range 64).all
      (fun k => ((s.inRun (partyJob u)).tileQueue k).all (fun e => e.uid ≠ u))) = true := by
    simp only [hchain, decide_true, Bool.true_and, List.all_eq_true, List.mem_range, decide_eq_true_eq]
    exact hqueues
  refine attempt_of_unstopped (partyWaits_of_fresh hfresh) ?_ hstall
  simp only [hrunjob, hdone, hend, if_true]

/-! ### O43 -/

/-- Settles O43: TILE_SWITCH by whether a switch is due (R296), the zeroed range byte by byte, and INF_JOB_COMPLETE by
what its run leaves once the writes of its tiles are visible (R303). -/
theorem tilesSwitchBetweenGrantees : Obligations.TilesSwitchBetweenGrantees := by
  unfold Obligations.TilesSwitchBetweenGrantees
  intro s
  refine ⟨fun k hk hfresh => ⟨fun g hup hswap hlost hnext hyields => ?_, fun hidle => ?_⟩, memByte_zeroMem s,
    fun u j hjob hchain hqueues hfresh => ?_⟩
  · intro v w r
    have hrun : v.switchTile k = r := switchTile_of_due (v := v) hup hswap hlost hnext hyields
    exact ⟨tileAttempt_of_unstopped hk hfresh hrun, rd_restoreTile w k g⟩
  · exact tileAttempt_of_idle hk hfresh (switchTile_of_not_due hidle)
  · exact ⟨execInfJobComplete_of_finished hjob hchain hqueues hfresh rfl,
      fun hposted hopen => afterAll_of_quiet (s := s.inRun (partyJob u)) hposted hopen _ _⟩

end Sys2Proof.Machine
end

section
/-! The words of the array (Table inf.6): those of the whole array, of its logical tiles and of its physical tiles, and
what a write of one leaves alone. -/

namespace Sys2Proof.Machine

/-! ### Words within spaces -/

theorem wordsWithin.trans {s t u : State} {spaces : List Nat} (hst : wordsWithin s t spaces) (htu : wordsWithin t u spaces) :
    wordsWithin s u spaces := fun k hk => (htu k hk).trans (hst k hk)

theorem wordsWithin.mono {s t : State} {l spaces : List Nat} (h : wordsWithin s t l) (hsub : l ⊆ spaces) :
    wordsWithin s t spaces := fun k hk => h k fun hl => hk (hsub hl)

theorem wordsWithin_of_words {s t : State} (hwords : t.words = s.words) (hfuses : t.fuses = s.fuses) (spaces : List Nat) :
    wordsWithin s t spaces := fun k _ => by rw [State.word, State.word, hwords, hfuses]

theorem wordsWithin.rd_eq {s t : State} {spaces : List Nat} (h : wordsWithin s t spaces) {q : Row} {jx : List Nat}
    (hq : q.key jx / 2 ^ 17 ∉ spaces) : t.rd q jx = s.rd q jx := rd_of_word (h _ hq)

/-! ### The words of the array -/

/-- A field of a word of the whole array. -/
abbrev Row.OfArray (r : Row) : Prop := r.space = 0x08 ∧ r.base < 0x80 ∧ r.dims = []

/-- A field of the word of a logical tile. -/
abbrev Row.OfTile (r : Row) : Prop := r.space = 0x08 ∧ r.base = 0x80 ∧ r.dims = [(1, 64)]

/-- A field of the word of a physical tile. -/
abbrev Row.OfPhys (r : Row) : Prop := r.space = 0x08 ∧ r.base = 0xC0 ∧ r.dims = [(1, 72)]

theorem key_of_array {r : Row} (h : r.OfArray) : r.key [] = 0x08 * 2 ^ 17 + r.base := by
  obtain ⟨hspace, -, hdims⟩ := h
  simp only [Row.key, wordKey, joinOffset, hspace, hdims, Nat.add_zero]

theorem key_of_tile {r : Row} (h : r.OfTile) (k : Nat) : r.key [k] = 0x08 * 2 ^ 17 + (0x80 + k) := by
  obtain ⟨hspace, hbase, hdims⟩ := h
  simp only [Row.key, wordKey, joinOffset, hspace, hbase, hdims, Nat.add_zero, Nat.one_mul]

theorem key_of_phys {r : Row} (h : r.OfPhys) (p : Nat) : r.key [p] = 0x08 * 2 ^ 17 + (0xC0 + p) := by
  obtain ⟨hspace, hbase, hdims⟩ := h
  simp only [Row.key, wordKey, joinOffset, hspace, hbase, hdims, Nat.add_zero, Nat.one_mul]

section
variable {q r : Row}

theorem key_array_ne_tile (hq : q.OfArray) (hr : r.OfTile) (k : Nat) : q.key [] ≠ r.key [k] := by
  have hbase := hq.2.1
  rw [key_of_array hq, key_of_tile hr]
  omega

theorem key_array_ne_phys (hq : q.OfArray) (hr : r.OfPhys) (p : Nat) : q.key [] ≠ r.key [p] := by
  have hbase := hq.2.1
  rw [key_of_array hq, key_of_phys hr]
  omega

theorem key_tile_ne_phys (hq : q.OfTile) (hr : r.OfPhys) {k : Nat} (hk : k < 64) (p : Nat) : q.key [k] ≠ r.key [p] := by
  rw [key_of_tile hq, key_of_phys hr]
  omega

theorem key_phys_ne_phys (hq : q.OfPhys) (hr : r.OfPhys) {o p : Nat} (hop : o ≠ p) : q.key [o] ≠ r.key [p] := by
  rw [key_of_phys hq, key_of_phys hr]
  omega

end

section
variable (s : State) {q r : Row} (v : Nat)

theorem rd_phys_wr_array (p : Nat) (hq : q.OfPhys) (hr : r.OfArray) : (s.wr r [] v).rd q [p] = s.rd q [p] :=
  rd_wr_ne s r q [] [p] v (key_array_ne_phys hr hq p).symm

theorem rd_tile_wr_phys {k : Nat} (hk : k < 64) (p : Nat) (hq : q.OfTile) (hr : r.OfPhys) :
    (s.wr r [p] v).rd q [k] = s.rd q [k] := rd_wr_ne s r q [p] [k] v (key_tile_ne_phys hq hr hk p)

theorem rd_phys_wr_phys_ne {o p : Nat} (hop : o ≠ p) (hq : q.OfPhys) (hr : r.OfPhys) :
    (s.wr r [p] v).rd q [o] = s.rd q [o] := rd_wr_ne s r q [p] [o] v (key_phys_ne_phys hq hr hop)

theorem wordsWithin_wr_array (hr : r.OfArray) : wordsWithin s (s.wr r [] v) [0x08] := by
  refine wordsWithin_wr s r [] v ?_
  have hbase := hr.2.1
  rw [key_of_array hr, List.mem_singleton]
  omega

theorem wordsWithin_wr_tile {k : Nat} (hk : k < 64) (hr : r.OfTile) : wordsWithin s (s.wr r [k] v) [0x08] := by
  refine wordsWithin_wr s r [k] v ?_
  rw [key_of_tile hr, List.mem_singleton]
  omega

theorem wordsWithin_wr_phys {p : Nat} (hp : p < 2 ^ 7) (hr : r.OfPhys) : wordsWithin s (s.wr r [p] v) [0x08] := by
  refine wordsWithin_wr s r [p] v ?_
  rw [key_of_phys hr, List.mem_singleton]
  omega

end

/-- The tables of Orrery by activity (Table orr.7). -/
abbrev Row.OfActivity (r : Row) : Prop := r.space = 0x03 ∧ r.base < 0x5000 ∧ (r.dims = [(4, 2624)] ∨ r.dims = [(8, 2624)])

theorem wordsWithin_wr_activity (s : State) {r : Row} {a : Nat} (v : Nat) (ha : a < 2624) (hr : r.OfActivity) :
    wordsWithin s (s.wr r [a] v) [0x03] := by
  refine wordsWithin_wr s r [a] v ?_
  obtain ⟨hspace, hbase, hdims⟩ := hr
  rw [List.mem_singleton]
  obtain hdims | hdims := hdims <;> simp only [Row.key, wordKey, joinOffset, hspace, hdims] <;> omega

/-! ### Charges (R164, R170) -/

theorem chargeNow_inf_mem (s : State) (r t units : Nat) :
    (s.chargeNow r t units).inf = s.inf ∧ (s.chargeNow r t units).mem = s.mem := by
  simp only [State.chargeNow, State.incSat, State.inc64, wr_inf, wr_mem, and_self]

theorem charge_inf_mem (s : State) (r t units : Nat) :
    (s.charge r t units).inf = s.inf ∧ (s.charge r t units).mem = s.mem := by
  rw [State.charge]
  split
  · exact ⟨rfl, rfl⟩
  · split
    · exact chargeNow_inf_mem s r t units
    · split
      · exact ⟨rfl, rfl⟩
      · exact chargeNow_inf_mem _ r t units

theorem wordsWithin_chargeNow (s : State) {r t : Nat} (hr : r < 41) (ht : t < 64) (units : Nat) :
    wordsWithin s (s.chargeNow r t units) [0x03] := by
  have ha : activity r t < 2624 := by rw [activity]; omega
  have hwr : ∀ (x : State) (q : Row) (v : Nat), q.OfActivity → wordsWithin x (x.wr q [activity r t] v) [0x03] :=
    fun x q v hq => wordsWithin_wr_activity x v ha hq
  have h64 : ∀ (x : State) (lo hi : Row) (n : Nat), lo.OfActivity → hi.OfActivity →
      wordsWithin x (x.inc64 lo hi [activity r t] n) [0x03] :=
    fun x lo hi n hlo hhi => (hwr x lo _ hlo).trans (hwr _ hi _ hhi)
  rw [State.chargeNow]
  refine ((((wordsWithin_of_words ?_ ?_ _).trans (hwr _ Reg.ORR_BUDGET_USED _ (by decide))).trans
    (h64 _ _ _ _ (by decide) (by decide))).trans (h64 _ _ _ _ (by decide) (by decide))).trans
    (hwr _ Reg.ORR_BUDGET_LAST _ (by decide)) <;> rfl

theorem wordsWithin_charge (s : State) {r t : Nat} (hr : r < 41) (ht : t < 64) (units : Nat) :
    wordsWithin s (s.charge r t units) [0x03] := by
  rw [State.charge]
  split
  · exact fun _ _ => rfl
  · split
    · exact wordsWithin_chargeNow s hr ht units
    · split
      · exact fun _ _ => rfl
      · exact (wordsWithin_of_words rfl rfl _).trans (wordsWithin_chargeNow _ hr ht units)

theorem chargeAll_inf_mem (s : State) (t : Nat) (need : List (Nat × Nat)) :
    (s.chargeAll t need).inf = s.inf ∧ (s.chargeAll t need).mem = s.mem := by
  rw [State.chargeAll]
  exact ⟨foldl_keeps (g := State.inf) (fun s e => (charge_inf_mem s e.1 t e.2).1) need s,
    foldl_keeps (g := State.mem) (fun s e => (charge_inf_mem s e.1 t e.2).2) need s⟩

theorem wordsWithin_chargeAll (s : State) {t : Nat} {need : List (Nat × Nat)} (ht : t < 64) (hneed : ∀ e ∈ need, e.1 < 41) :
    wordsWithin s (s.chargeAll t need) [0x03] :=
  wordsWithin_foldl (fun e he x => wordsWithin_charge x (hneed e he) ht e.2) s

end Sys2Proof.Machine
end

section
/-! O44: GOLDEN and its verdict, the end of the safety frame, swaps to spares, and the rotating self-test. -/

namespace Sys2Proof.Machine

/-! ### Ready spares (R330) -/

/-- The ready spares are read from ROLE, the power states of the halves, and the tiles that wake or are being swapped to. -/
theorem readySpares_congr {s t : State} (hrole : ∀ p, t.rd Reg.INF_PHYS_ROLE [p] = s.rd Reg.INF_PHYS_ROLE [p])
    (hpower : wordsWithin s t [0x03, 0x08]) (hwaking : t.inf.waking = s.inf.waking) (hswaps : t.inf.swaps = s.inf.swaps) :
    t.readySpares = s.readySpares := by
  refine List.filter_congr fun p hp => ?_
  have hp : p < 72 := List.mem_range.1 hp
  have hstate : t.rd Reg.PWR_PD_STATE [4 + p / 36] = s.rd Reg.PWR_PD_STATE [4 + p / 36] := by
    refine hpower.rd_eq ?_
    have hkey : Reg.PWR_PD_STATE.key [4 + p / 36] = 0x10 * 2 ^ 17 + (0 + 1 * (4 + p / 36)) := rfl
    have hspace : Reg.PWR_PD_STATE.key [4 + p / 36] / 2 ^ 17 = 0x10 := by omega
    rw [hspace]
    decide
  rw [State.tileOff, State.tileOff, hrole, hstate, hwaking, hswaps]

/-- Where a spare is ready, one of the ready ones is taken. -/
theorem pickSpare_of_ready {s : State} (h : s.readySpares ≠ []) : ∃ q ∈ s.readySpares, s.pickSpare = (some q, s.drawn) := by
  have hlen : s.freeVal % s.readySpares.length < s.readySpares.length := Nat.mod_lt _ (List.length_pos_iff.2 h)
  have hempty : s.readySpares.isEmpty = false := List.isEmpty_eq_false_iff.2 h
  refine ⟨_, List.getElem_mem hlen, ?_⟩
  simp only [State.pickSpare, hempty, Bool.false_eq_true, if_false, List.getElem?_eq_getElem hlen]

/-- A swap of tile `k` to the chosen spare `q` starts. -/
def State.swapTo (s : State) (k q : Nat) (frame : Option Nat) : State :=
  ({ s.drawn with inf := { s.inf with swaps := s.inf.swaps ++ [(k, q, frame)] } }).wr Reg.INF_TILE_STATE [k] 4

@[simp] theorem swapTo_inf (s : State) (k q : Nat) (frame : Option Nat) :
    (s.swapTo k q frame).inf = { s.inf with swaps := s.inf.swaps ++ [(k, q, frame)] } := rfl

@[simp] theorem swapTo_mem (s : State) (k q : Nat) (frame : Option Nat) : (s.swapTo k q frame).mem = s.mem := rfl

@[simp] theorem swapTo_saf (s : State) (k q : Nat) (frame : Option Nat) : (s.swapTo k q frame).saf = s.saf := rfl

theorem rd_swapTo_ne (s : State) {k : Nat} (q : Nat) (frame : Option Nat) {r : Row} {jx : List Nat}
    (h : r.key jx ≠ Reg.INF_TILE_STATE.key [k]) : (s.swapTo k q frame).rd r jx = s.rd r jx :=
  rd_wr_ne _ _ _ _ _ _ h

theorem rd_swapTo_state (s : State) (k q : Nat) (frame : Option Nat) :
    (s.swapTo k q frame).rd Reg.INF_TILE_STATE [k] = 4 := rd_wr_same _ _ _ _ (by decide)

theorem wordsWithin_swapTo (s : State) {k : Nat} (hk : k < 64) (q : Nat) (frame : Option Nat) :
    wordsWithin s (s.swapTo k q frame) [0x08] :=
  (wordsWithin_of_words rfl rfl _).trans (wordsWithin_wr_tile _ 4 hk (by decide))

/-! ### The verdict of a GOLDEN (R328, R330) -/

/-- What a mismatch records before the spare is chosen: SUSPECT, MISMATCH, event 6 and GFLAG. -/
def State.goldenFlagged (s : State) (k : Nat) : State :=
  let u := ((s.incSat Reg.INF_PHYS_SUSPECT [s.rd Reg.INF_TILE_PHYS [k]] 1).incSat Reg.INF_GSTAT_MISMATCH [] 1).raise 6
  ((u.wr Reg.INF_GFLAG_FRAME [] (s.rd Reg.INF_GSTAT_FRAME_NO [])).wr Reg.INF_GFLAG_TILE [] k).wr Reg.INF_GFLAG_VALID [] 1

@[simp] theorem raise_inf (s : State) (e : Nat) : (s.raise e).inf = s.inf := by rw [raise_frame]

@[simp] theorem raise_mem (s : State) (e : Nat) : (s.raise e).mem = s.mem := by rw [raise_frame]

theorem wordsWithin_raise (s : State) (e : Nat) (spaces : List Nat) : wordsWithin s (s.raise e) spaces := by
  rw [raise_frame]
  exact wordsWithin_of_words rfl rfl _

theorem mem_lines_raise {s : State} {e x : Nat} : x ∈ (s.raise e).saf.lines ↔ x = e ∨ x ∈ s.saf.lines := by
  rw [State.raise]
  split
  case isTrue h =>
    have he : e ∈ s.saf.lines := List.contains_iff_mem.1 h
    exact ⟨.inr, fun hx => hx.elim (fun hxe => hxe ▸ he) id⟩
  case isFalse h =>
    show x ∈ s.saf.lines ++ [e] ↔ _
    rw [List.mem_append, List.mem_singleton, or_comm]

section
variable (s : State) (k : Nat)

theorem goldenFlagged_inf_mem : (s.goldenFlagged k).inf = s.inf ∧ (s.goldenFlagged k).mem = s.mem := by
  simp only [State.goldenFlagged, State.incSat, wr_inf, wr_mem, raise_inf, raise_mem, and_self]

theorem mem_lines_goldenFlagged {x : Nat} : x ∈ (s.goldenFlagged k).saf.lines ↔ x = 6 ∨ x ∈ s.saf.lines := by
  simp only [State.goldenFlagged, State.incSat, wr_saf, mem_lines_raise]

theorem wordsWithin_goldenFlagged : wordsWithin s (s.goldenFlagged k) [0x08] := by
  have hphys : s.rd Reg.INF_TILE_PHYS [k] < 2 ^ 7 := rd_lt s Reg.INF_TILE_PHYS [k]
  exact (((((wordsWithin_wr_phys _ _ hphys (by decide)).trans (wordsWithin_wr_array _ _ (by decide))).trans
    (wordsWithin_raise _ _ _)).trans (wordsWithin_wr_array _ _ (by decide))).trans
    (wordsWithin_wr_array _ _ (by decide))).trans (wordsWithin_wr_array _ _ (by decide))

theorem rd_goldenFlagged_suspect :
    (s.goldenFlagged k).rd Reg.INF_PHYS_SUSPECT [s.rd Reg.INF_TILE_PHYS [k]] =
      satTo 8 (s.rd Reg.INF_PHYS_SUSPECT [s.rd Reg.INF_TILE_PHYS [k]] + 1) := by
  simp (disch := decide) only [State.goldenFlagged, rd_phys_wr_array, rd_raise, State.incSat]
  exact rd_incSat_same s Reg.INF_PHYS_SUSPECT _ 1 (by decide)

theorem rd_goldenFlagged_role (p : Nat) : (s.goldenFlagged k).rd Reg.INF_PHYS_ROLE [p] = s.rd Reg.INF_PHYS_ROLE [p] := by
  simp (disch := decide) only [State.goldenFlagged, rd_phys_wr_array, rd_raise, State.incSat]
  exact rd_wr_other _ _ _ _ _ _ (.inr (by decide))

theorem rd_goldenFlagged_forced : (s.goldenFlagged k).rd Reg.INF_GSTAT_FORCED [] = s.rd Reg.INF_GSTAT_FORCED [] := by
  simp (disch := decide) only [State.goldenFlagged, rd_wr_other, rd_wr_before, rd_raise, State.incSat]

theorem rd_goldenFlagged_gflag (hk : k < 64) :
    (s.goldenFlagged k).rd Reg.INF_GFLAG_FRAME [] = s.rd Reg.INF_GSTAT_FRAME_NO []
      ∧ (s.goldenFlagged k).rd Reg.INF_GFLAG_TILE [] = k ∧ (s.goldenFlagged k).rd Reg.INF_GFLAG_VALID [] = 1 := by
  have hframe : s.rd Reg.INF_GSTAT_FRAME_NO [] < 2 ^ 16 := rd_lt s Reg.INF_GSTAT_FRAME_NO []
  refine ⟨?_, ?_, rd_wr_same _ _ _ _ (by decide)⟩ <;>
    simp (disch := decide) only [State.goldenFlagged, rd_wr_beside, rd_wr_same]
  · exact Nat.mod_eq_of_lt hframe
  · exact Nat.mod_eq_of_lt hk

theorem readySpares_goldenFlagged : (s.goldenFlagged k).readySpares = s.readySpares := by
  obtain ⟨hinf, -⟩ := goldenFlagged_inf_mem s k
  exact readySpares_congr (rd_goldenFlagged_role s k) ((wordsWithin_goldenFlagged s k).mono (by decide))
    (congrArg Inf.waking hinf) (congrArg Inf.swaps hinf)

variable {s k}

/-- A mismatch while a spare is ready starts a swap to one of the ready ones. -/
theorem goldenResult_of_mismatch {crc : Nat} (hcrc : crc ≠ s.rd Reg.INF_GOLD_SIG_LO [] + 2 ^ 32 * s.rd Reg.INF_GOLD_SIG_HI [])
    (hspares : s.readySpares ≠ []) :
    ∃ q ∈ s.readySpares, s.goldenResult k crc =
      (s.goldenFlagged k).swapTo k q (some (s.rd Reg.INF_GSTAT_FRAME_NO [])) := by
  rw [← readySpares_goldenFlagged s k] at hspares ⊢
  obtain ⟨q, hq, hpick⟩ := pickSpare_of_ready hspares
  refine ⟨q, hq, ?_⟩
  rw [State.goldenResult, if_neg hcrc]
  change (match (s.goldenFlagged k).pickSpare with
    | (some q, t) => _
    | (none, t) => _) = _
  rw [hpick]
  rfl

/-- What a verdict keeps while a spare is ready. -/
theorem goldenResult_keeps (crc : Nat) (hspares : s.readySpares ≠ []) :
    let r := s.goldenResult k crc
    r.rd Reg.INF_GSTAT_FORCED [] = s.rd Reg.INF_GSTAT_FORCED [] ∧ (∀ e ∈ s.saf.lines, e ∈ r.saf.lines)
      ∧ r.inf.ran = s.inf.ran ∧ r.mem = s.mem := by
  by_cases hcrc : crc = s.rd Reg.INF_GOLD_SIG_LO [] + 2 ^ 32 * s.rd Reg.INF_GOLD_SIG_HI []
  · rw [State.goldenResult, if_pos hcrc]
    exact ⟨rd_wr_before _ _ _ (by decide), fun _ he => he, rfl, rfl⟩
  · obtain ⟨q, -, hr⟩ := goldenResult_of_mismatch hcrc hspares
    rw [hr]
    refine ⟨(rd_swapTo_ne _ _ _ (key_array_ne_tile (by decide) (by decide) k)).trans (rd_goldenFlagged_forced s k),
      fun e he => ?_, ?_, ?_⟩
    · rw [swapTo_saf, mem_lines_goldenFlagged]
      exact .inr he
    · rw [swapTo_inf, (goldenFlagged_inf_mem s k).1]
    · rw [swapTo_mem, (goldenFlagged_inf_mem s k).2]

end

/-! ### GOLDEN (R328, R335) -/

theorem execGolden_tile_of_head {s : State} {k cyc lines crc : Nat} {e : TileDesc} (hk : k < s.fuses.variant.tiles)
    (hhead : s.tileHead k = some e) (hop : (tdOf e.desc).op = 0x17) (hfresh : s.fresh (partyTile k) = true) {a : Access}
    (ha : (s.inRun (partyTile k)).tileAccess k ((s.inRun (partyTile k)).descTag e) 0 = a) {r : State}
    (hr : ((((s.inRun (partyTile k)).payJob e.uid 22 cyc).enginePay a.tag
      ((s.inRun (partyTile k)).goldenNeed a lines)).retireDesc k e).goldenResult k crc = r) (hstall : r.fab.stall = none) :
    execGolden (.tile k) cyc lines crc s = .next (r.ended (partyTile k)) := by
  have hrunhead : (s.inRun (partyTile k)).tileHead k = some e := hhead
  refine tileAttempt_of_unstopped hk hfresh ?_ hstall
  simp only [hrunhead, hop, ha, hr, ne_eq, not_true_eq_false, if_false]

/-! ### The end of the safety frame (R328, R329) -/

/-- The frame has ended: no tile has run in the next one, GOLD_OK of every tile is clear, and FRAME_NO has advanced. -/
def State.frameEnded (s : State) : State :=
  ((List.range 64).foldl (fun (s : State) k => s.wr Reg.INF_TILE_GOLD_OK [k] 0)
    { s with inf := { s.inf with ran := [] } }).incWrap Reg.INF_GSTAT_FRAME_NO [] 1

/-- The units of a forced GOLDEN on tile `k` are charged to its resident. -/
def State.goldenCharged (s : State) (k cyc lines : Nat) : State :=
  match s.resident k with
  | some g =>
    (s.charge 22 (s.rd Reg.INF_SLICE_INST [k, g]) cyc).chargeAll (s.rd Reg.INF_SLICE_INST [k, g])
      (s.goldenNeed (s.tileAccess k (s.rd Reg.INF_SLICE_INST [k, g]) 0) lines)
  | none => s

/-- A forced GOLDEN on tile `k` is counted, with event 7. -/
def State.goldenForced (s : State) (k cyc lines : Nat) : State :=
  ((s.goldenCharged k cyc lines).incSat Reg.INF_GSTAT_FORCED [] 1).raise 7

/-- Tile `k` of those that ran in the frame has not passed GOLDEN in it, and is in service. -/
def State.late (s : State) (k : Nat) : Bool := !s.flag Reg.INF_TILE_GOLD_OK [k] && s.rd Reg.INF_TILE_STATE [k] ≠ 5

theorem execSafetyFrameEnd_of_up {s : State} (hup : s.boot.mainUp = true) (cyc lines : Nat) (crcs : List (Nat × Nat)) :
    ∃ sig, execSafetyFrameEnd cyc lines crcs s = .next ((s.inf.ran.filter s.late).foldl
      (fun (u : State) k => (u.goldenForced k cyc lines).goldenResult k (tget sig crcs k)) s.frameEnded) := by
  refine ⟨s.frameEnded.rd Reg.INF_GOLD_SIG_LO [] + 2 ^ 32 * s.frameEnded.rd Reg.INF_GOLD_SIG_HI [], ?_⟩
  rw [execSafetyFrameEnd, if_neg (by rw [hup]; decide)]
  rfl

section
variable (s : State)

theorem frameEnded_inf_mem : s.frameEnded.inf = { s.inf with ran := [] } ∧ s.frameEnded.mem = s.mem := by
  rw [State.frameEnded, State.incWrap, wr_inf, wr_mem]
  exact ⟨foldl_keeps (g := State.inf) (fun s k => wr_inf s Reg.INF_TILE_GOLD_OK [k] 0) _ _,
    foldl_keeps (g := State.mem) (fun s k => wr_mem s Reg.INF_TILE_GOLD_OK [k] 0) _ _⟩

/-- A field whose bits no clearing of GOLD_OK meets is left by all of them. -/
theorem rd_clearGoldOk {q : Row} {jx : List Nat}
    (h : q.key jx < wordKey Reg.INF_TILE_GOLD_OK.space Reg.INF_TILE_GOLD_OK.base ∨ q.lo + q.width ≤ Reg.INF_TILE_GOLD_OK.lo) :
    ((List.range 64).foldl (fun (s : State) k => s.wr Reg.INF_TILE_GOLD_OK [k] 0) s).rd q jx = s.rd q jx :=
  rd_foldl (fun s k => h.elim (rd_wr_before s [k] 0) fun h => rd_wr_other s _ _ _ _ _ (.inr (.inl h))) _ s

theorem wordsWithin_frameEnded : wordsWithin s s.frameEnded [0x08] := by
  have hclear : ∀ u : State,
      wordsWithin u ((List.range 64).foldl (fun (s : State) k => s.wr Reg.INF_TILE_GOLD_OK [k] 0) u) [0x08] :=
    wordsWithin_foldl fun k hk u => wordsWithin_wr_tile u 0 (List.mem_range.1 hk) (by decide)
  have hran : wordsWithin s { s with inf := { s.inf with ran := [] } } [0x08] := wordsWithin_of_words rfl rfl _
  exact (hran.trans (hclear _)).trans (wordsWithin_wr_array _ _ (by decide))

theorem rd_frameEnded_frameNo :
    s.frameEnded.rd Reg.INF_GSTAT_FRAME_NO [] = (s.rd Reg.INF_GSTAT_FRAME_NO [] + 1) % 2 ^ 16 := by
  rw [State.frameEnded, State.incWrap, rd_wr_same _ _ _ _ (by decide), rd_clearGoldOk _ (.inl (by decide))]
  rfl

theorem rd_frameEnded_forced : s.frameEnded.rd Reg.INF_GSTAT_FORCED [] = s.rd Reg.INF_GSTAT_FORCED [] := by
  rw [State.frameEnded, State.incWrap, rd_wr_beside _ _ _ (by decide), rd_clearGoldOk _ (.inl (by decide))]
  rfl

theorem rd_frameEnded_role (p : Nat) : s.frameEnded.rd Reg.INF_PHYS_ROLE [p] = s.rd Reg.INF_PHYS_ROLE [p] := by
  rw [State.frameEnded, State.incWrap, rd_phys_wr_array _ _ _ (by decide) (by decide), rd_clearGoldOk _ (.inr (by decide))]
  rfl

theorem rd_wr_goldOk (j k : Nat) :
    (s.wr Reg.INF_TILE_GOLD_OK [j] 0).rd Reg.INF_TILE_GOLD_OK [k] = if k = j then 0 else s.rd Reg.INF_TILE_GOLD_OK [k] := by
  by_cases hkj : k = j
  · rw [if_pos hkj, hkj, rd_wr_same _ _ _ _ (by decide), Nat.zero_mod]
  · rw [if_neg hkj, rd_wr_ne _ _ _ _ _ _ fun hkey => hkj ?_]
    simpa only [key_of_tile (r := Reg.INF_TILE_GOLD_OK) (by decide), Nat.add_left_cancel_iff] using hkey

theorem rd_frameEnded_goldOk {k : Nat} (hk : k < 64) : s.frameEnded.rd Reg.INF_TILE_GOLD_OK [k] = 0 := by
  have hframe : Reg.INF_GSTAT_FRAME_NO.key [] ≠ Reg.INF_TILE_GOLD_OK.key [k] := key_array_ne_tile (by decide) (by decide) k
  rw [State.frameEnded, State.incWrap, rd_wr_ne _ _ _ _ _ _ hframe.symm,
    foldl_sets (g := fun s => s.rd Reg.INF_TILE_GOLD_OK [k]) (fun s j => rd_wr_goldOk s j k), if_pos (List.mem_range.2 hk)]

end

/-- The reads of a tile's GOLDEN are served by a port and by stacks. -/
theorem resource_lt_of_mem_goldenNeed {s : State} {a : Access} {p lines : Nat} (hsrc : a.src = .tile p) :
    ∀ e ∈ s.goldenNeed a lines, e.1 < 41 := by
  intro e he
  have hport : srcPort (.tile p) < 6 := by rw [srcPort]; split <;> decide
  have hstacks : s.fuses.variant.hbmStacks ≤ 6 := by cases s.fuses.variant <;> decide
  simp only [State.goldenNeed, hsrc, srcXd, List.mem_filter, List.cons_append, List.nil_append, List.mem_cons,
    List.mem_map, List.mem_range] at he
  obtain ⟨rfl | ⟨n, hn, rfl⟩, -⟩ := he
  · show 6 + srcPort (.tile p) < 41
    omega
  · show n < 41
    omega

section
variable (s : State) (k cyc lines : Nat)

theorem goldenCharged_inf_mem :
    (s.goldenCharged k cyc lines).inf = s.inf ∧ (s.goldenCharged k cyc lines).mem = s.mem := by
  rw [State.goldenCharged]
  split
  · obtain ⟨hinf, hmem⟩ := chargeAll_inf_mem (s.charge 22 _ cyc) _ _
    obtain ⟨hinf', hmem'⟩ := charge_inf_mem s 22 _ cyc
    exact ⟨hinf.trans hinf', hmem.trans hmem'⟩
  · exact ⟨rfl, rfl⟩

theorem wordsWithin_goldenCharged : wordsWithin s (s.goldenCharged k cyc lines) [0x03] := by
  rw [State.goldenCharged]
  split
  case h_1 g _ =>
    have htag : s.rd Reg.INF_SLICE_INST [k, g] < 64 := rd_lt s Reg.INF_SLICE_INST [k, g]
    exact (wordsWithin_charge s (by decide) htag cyc).trans
      (wordsWithin_chargeAll _ htag (resource_lt_of_mem_goldenNeed rfl))
  case h_2 => exact fun _ _ => rfl

theorem goldenForced_inf_mem :
    (s.goldenForced k cyc lines).inf = s.inf ∧ (s.goldenForced k cyc lines).mem = s.mem := by
  obtain ⟨hinf, hmem⟩ := goldenCharged_inf_mem s k cyc lines
  simp only [State.goldenForced, State.incSat, raise_inf, raise_mem, wr_inf, wr_mem, hinf, hmem, and_self]

theorem mem_lines_goldenForced : 7 ∈ (s.goldenForced k cyc lines).saf.lines := mem_lines_raise.2 (.inl rfl)

theorem rd_goldenForced_forced :
    (s.goldenForced k cyc lines).rd Reg.INF_GSTAT_FORCED [] = satTo 8 (s.rd Reg.INF_GSTAT_FORCED [] + 1) := by
  rw [State.goldenForced, rd_raise, rd_incSat_same _ _ _ _ (by decide),
    (wordsWithin_goldenCharged s k cyc lines).rd_eq (by decide)]
  rfl

theorem readySpares_goldenForced : (s.goldenForced k cyc lines).readySpares = s.readySpares := by
  have hcharged := wordsWithin_goldenCharged s k cyc lines
  obtain ⟨hinf, -⟩ := goldenForced_inf_mem s k cyc lines
  refine readySpares_congr (fun p => ?_) ?_ (congrArg Inf.waking hinf) (congrArg Inf.swaps hinf)
  · have hspace : Reg.INF_PHYS_ROLE.key [p] / 2 ^ 17 ∉ [0x03] := by
      rw [key_of_phys (by decide), List.mem_singleton]
      omega
    rw [State.goldenForced, rd_raise, State.incSat, rd_phys_wr_array _ _ _ (by decide) (by decide),
      hcharged.rd_eq hspace]
  · exact ((hcharged.mono (by decide)).trans ((wordsWithin_wr_array _ _ (by decide)).mono (by decide))).trans
      (wordsWithin_raise _ _ _)

theorem readySpares_frameEnded : s.frameEnded.readySpares = s.readySpares := by
  refine readySpares_congr (rd_frameEnded_role s) ((wordsWithin_frameEnded s).mono (by decide)) ?_ ?_ <;>
    rw [(frameEnded_inf_mem s).1]

end

/-- The end of a frame in which one tile ran without passing GOLDEN, while a spare is ready. -/
theorem execSafetyFrameEnd_of_late {s : State} {k : Nat} (hup : s.boot.mainUp = true) (hran : s.inf.ran = [k])
    (hlate : s.late k = true) (hspares : s.readySpares ≠ []) (cyc lines : Nat) (crcs : List (Nat × Nat)) :
    ∃ r, execSafetyFrameEnd cyc lines crcs s = .next r
      ∧ r.rd Reg.INF_GSTAT_FORCED [] = satTo 8 (s.rd Reg.INF_GSTAT_FORCED [] + 1) ∧ 7 ∈ r.saf.lines ∧ r.inf.ran = []
      ∧ r.mem = s.mem := by
  obtain ⟨sig, hexec⟩ := execSafetyFrameEnd_of_up hup cyc lines crcs
  have hlist : s.inf.ran.filter s.late = [k] := by rw [hran, List.filter_cons_of_pos hlate, List.filter_nil]
  rw [hlist] at hexec
  have hready : (s.frameEnded.goldenForced k cyc lines).readySpares ≠ [] := by
    rwa [readySpares_goldenForced, readySpares_frameEnded]
  obtain ⟨hforced, hlines, hran', hmem⟩ := goldenResult_keeps (k := k) (tget sig crcs k) hready
  obtain ⟨hinf', hmem'⟩ := goldenForced_inf_mem s.frameEnded k cyc lines
  refine ⟨_, hexec, hforced.trans ?_, hlines 7 (mem_lines_goldenForced _ _ _ _), hran'.trans ?_, hmem.trans ?_⟩
  · rw [rd_goldenForced_forced, rd_frameEnded_forced]
  · rw [hinf', (frameEnded_inf_mem s).1]
  · rw [hmem', (frameEnded_inf_mem s).2]

theorem execSafetyFrameEnd_of_passed {s : State} (hup : s.boot.mainUp = true)
    (hpassed : ∀ k ∈ s.inf.ran, s.flag Reg.INF_TILE_GOLD_OK [k] = true) (cyc lines : Nat) (crcs : List (Nat × Nat)) :
    execSafetyFrameEnd cyc lines crcs s = .next s.frameEnded := by
  obtain ⟨sig, hexec⟩ := execSafetyFrameEnd_of_up hup cyc lines crcs
  have hlist : s.inf.ran.filter s.late = [] := List.filter_eq_nil_iff.2 fun k hk => by simp [State.late, hpassed k hk]
  rwa [hlist] at hexec

/-! ### The end of a swap (R292, R330, R332) -/

theorem rd_syncTile_other (s : State) {t : Nat} {q : Row} {jx : List Nat} (h : q.key jx ≠ Reg.INF_TILE_STATE.key [t]
    ∨ q.lo + q.width ≤ Reg.INF_TILE_STATE.lo ∨ Reg.INF_TILE_STATE.lo + Reg.INF_TILE_STATE.width ≤ q.lo) :
    (s.syncTile t).rd q jx = s.rd q jx := by
  rw [State.syncTile]
  split
  · rfl
  · exact rd_wr_other _ _ _ _ _ _ h

/-- The spare `q` serves tile `k`, and the outgoing physical tile goes to LBIST. -/
def State.spareServes (s : State) (k q : Nat) : State :=
  let u := ({ s with inf := { s.inf with swaps := s.inf.swaps.filter (fun w => w.1 ≠ k) } }).wr Reg.INF_TILE_PHYS [k] q
  ((((u.wr Reg.INF_PHYS_ROLE [q] 0).wr Reg.INF_PHYS_LOG [q] k).wr Reg.INF_PHYS_ROLE [s.rd Reg.INF_TILE_PHYS [k]] 2).wr
    Reg.INF_TILE_STATE [k] 0).syncTile k

theorem execSpareSwapDone_of_swap {s : State} {k q : Nat} (h : s.inf.swaps.find? (fun w => w.1 = k) = some (k, q, none)) :
    execSpareSwapDone k s = .next (s.spareServes k q) := by
  rw [execSpareSwapDone, h]
  rfl

theorem spareServes_spec (s : State) {k q : Nat} (hk : k < 64) (hq : q < 72) (hold : s.rd Reg.INF_TILE_PHYS [k] ≠ q) :
    let r := s.spareServes k q
    r.rd Reg.INF_TILE_PHYS [k] = q ∧ r.rd Reg.INF_PHYS_ROLE [q] = 0 ∧ r.rd Reg.INF_PHYS_LOG [q] = k
      ∧ r.rd Reg.INF_PHYS_ROLE [s.rd Reg.INF_TILE_PHYS [k]] = 2 ∧ r.inf.swaps = s.inf.swaps.filter (fun w => w.1 ≠ k)
      ∧ r.mem = s.mem := by
  have hphys : ∀ (x : State) {f : Row} (p : Nat), f.OfPhys →
      ((x.wr Reg.INF_TILE_STATE [k] 0).syncTile k).rd f [p] = x.rd f [p] := fun x f p hf => by
    have hkey : f.key [p] ≠ Reg.INF_TILE_STATE.key [k] := (key_tile_ne_phys (by decide) hf hk p).symm
    rw [rd_syncTile_other _ (.inl hkey), rd_wr_ne _ _ _ _ _ _ hkey]
  refine ⟨?_, ?_, ?_, ?_, ?_, ?_⟩ <;> rw [State.spareServes]
  · rw [rd_syncTile_other _ (.inr (by decide)), rd_wr_beside _ _ _ (by decide)]
    simp (disch := decide) only [rd_tile_wr_phys _ _ hk, rd_wr_same]
    exact Nat.mod_eq_of_lt (show q < 2 ^ 7 by omega)
  · rw [hphys _ _ (by decide), rd_phys_wr_phys_ne _ _ hold.symm (by decide) (by decide), rd_wr_beside _ _ _ (by decide)]
    exact rd_wr_same _ _ _ _ (by decide)
  · rw [hphys _ _ (by decide), rd_phys_wr_phys_ne _ _ hold.symm (by decide) (by decide), rd_wr_same _ _ _ _ (by decide)]
    exact Nat.mod_eq_of_lt hk
  · rw [hphys _ _ (by decide)]
    exact rd_wr_same _ _ _ _ (by decide)
  · rw [syncTile_frame]
    rfl
  · rw [syncTile_frame]
    rfl

/-! ### The rotating self-test (R332, R333) -/

/-- A pass that keeps what it has or takes the next element ends with an element of the list, if there is one. -/
theorem foldl_choice {α : Type} {f : Option α → α → Option α} (hnone : ∀ a, f none a = some a)
    (hsome : ∀ x a, f (some x) a = some x ∨ f (some x) a = some a) {l : List α} (hl : l ≠ []) :
    ∃ a ∈ l, l.foldl f none = some a := by
  have hkeep : ∀ (l : List α) (x : α), ∃ a ∈ x :: l, l.foldl f (some x) = some a := by
    intro l
    induction l with
    | nil => exact fun x => ⟨x, List.mem_singleton_self x, rfl⟩
    | cons b l ih =>
      intro x
      obtain hx | hb := hsome x b
      · obtain ⟨a, ha, hfold⟩ := ih x
        refine ⟨a, ?_, by rw [List.foldl_cons, hx, hfold]⟩
        exact (List.mem_cons.1 ha).elim (fun hax => hax ▸ List.mem_cons_self)
          fun hal => List.mem_cons_of_mem _ (List.mem_cons_of_mem _ hal)
      · obtain ⟨a, ha, hfold⟩ := ih b
        exact ⟨a, List.mem_cons_of_mem _ ha, by rw [List.foldl_cons, hb, hfold]⟩
  obtain ⟨b, l, rfl⟩ := List.exists_cons_of_ne_nil hl
  rw [List.foldl_cons, hnone]
  exact hkeep l b

theorem execRotationSwap_of_waiting {s : State} (h : s.inf.rotating.isSome = true ∨ s.readySpares = []) :
    execRotationSwap s = .next s := by
  refine if_pos ?_
  obtain h | h := h
  · rw [h, Bool.or_true, Bool.true_or]
  · rw [h, List.isEmpty_nil, Bool.or_true]

/-- A tile that neither swaps nor is out of service may move to a spare. -/
def State.mayRotate (s : State) (k : Nat) : Bool := s.rd Reg.INF_TILE_STATE [k] ≠ 4 && s.rd Reg.INF_TILE_STATE [k] ≠ 5

/-- The place of a tile's physical tile in the order of the last tests: 0 for one that was never tested. -/
def State.testAge (s : State) (k : Nat) : Nat :=
  match s.inf.tested.findIdx? (fun p => p = s.rd Reg.INF_TILE_PHYS [k]) with | some n => n + 1 | none => 0

/-- Of two tiles the one whose physical tile was tested longest ago. -/
def State.longestUntested (s : State) (b : Option Nat) (k : Nat) : Option Nat :=
  match b with | some x => if s.testAge k < s.testAge x then some k else b | none => some k

theorem State.longestUntested_none (s : State) (k : Nat) : s.longestUntested none k = some k := rfl

theorem State.longestUntested_some (s : State) (x k : Nat) :
    s.longestUntested (some x) k = some x ∨ s.longestUntested (some x) k = some k := by
  rw [longestUntested]
  split
  · exact .inr rfl
  · exact .inl rfl

/-- The state in which tile `k` moves to the spare `q` for the test of its physical tile. -/
def State.rotatesTo (s : State) (k q : Nat) : State :=
  ({ s with inf := { s.inf with rotating := some (s.rd Reg.INF_TILE_PHYS [k]) } }).swapTo k q none

theorem execRotationSwap_of_ready {s : State} (hup : s.boot.mainUp = true) (hrot : s.inf.rotating = none)
    (hspares : s.readySpares ≠ []) (htile : ∃ k, k < s.fuses.variant.tiles ∧ s.mayRotate k = true) :
    ∃ k q, k < s.fuses.variant.tiles ∧ q ∈ s.readySpares ∧ execRotationSwap s = .next (s.rotatesTo k q) := by
  obtain ⟨k₀, hk₀, hmay⟩ := htile
  obtain ⟨q, hq, hpick⟩ := pickSpare_of_ready hspares
  have hcond : (!s.boot.mainUp || s.inf.rotating.isSome || s.readySpares.isEmpty) = false := by
    rw [hup, hrot, List.isEmpty_eq_false_iff.2 hspares]
    rfl
  have hl : (List.range s.fuses.variant.tiles).filter s.mayRotate ≠ [] :=
    List.ne_nil_of_mem (List.mem_filter.2 ⟨List.mem_range.2 hk₀, hmay⟩)
  obtain ⟨k, hk, hfold⟩ := foldl_choice s.longestUntested_none s.longestUntested_some hl
  refine ⟨k, q, List.mem_range.1 (List.mem_filter.1 hk).1, hq, ?_⟩
  rw [execRotationSwap, if_neg (Bool.eq_false_iff.1 hcond)]
  dsimp only
  split
  case h_1 hnone => exact absurd (hfold.symm.trans hnone) (Option.some_ne_none k)
  case h_2 t ht =>
    obtain rfl : k = t := Option.some.inj (hfold.symm.trans ht)
    rw [hpick]
    rfl

/-! ### A record of the wear log (R578) -/

theorem rd_writeLog (s : State) (q : Row) (jx : List Nat) :
    s.writeLog.rd q jx = (s.incWrap Reg.SVC_LOG_SEQ [] 1).rd q jx := by
  unfold State.writeLog
  generalize s.incWrap Reg.SVC_LOG_SEQ [] 1 = t
  rfl

@[simp] theorem writeLog_inf (s : State) : s.writeLog.inf = s.inf := by
  have hinf := wr_inf s Reg.SVC_LOG_SEQ [] (s.rd Reg.SVC_LOG_SEQ [] + 1)
  unfold State.writeLog State.incWrap
  generalize s.wr Reg.SVC_LOG_SEQ [] (s.rd Reg.SVC_LOG_SEQ [] + 1) = t at hinf ⊢
  exact hinf

theorem rd_writeLog_ne (s : State) {q : Row} {jx : List Nat} (h : q.key jx ≠ Reg.SVC_LOG_SEQ.key []) :
    s.writeLog.rd q jx = s.rd q jx := by
  rw [rd_writeLog, State.incWrap, rd_wr_ne s _ _ _ _ _ h]

theorem rd_writeLog_seq (s : State) :
    s.writeLog.rd Reg.SVC_LOG_SEQ [] = (s.rd Reg.SVC_LOG_SEQ [] + 1) % 2 ^ 32 := by
  rw [rd_writeLog, State.incWrap, rd_wr_same _ _ _ _ (by decide)]
  rfl

/-! ### The end of LBIST (R330, R332, R334) -/

/-- LBIST has ended for a physical tile that is not waking. -/
def State.lbistTested (s : State) (p : Nat) : State :=
  { s with inf := { s.inf with
      tested := s.inf.tested.filter (· ≠ p) ++ [p]
      rotating := if s.inf.rotating = some p then none else s.inf.rotating } }

/-- A physical tile that fails LBIST is retired, with a record of the wear log (R334). -/
def State.lbistRetired (s : State) (p : Nat) : State :=
  let u := (s.lbistTested p).wr Reg.INF_PHYS_ROLE [p] 3
  ({ u with inf := { u.inf with retired := u.inf.retired ++ [p] } }).writeLog

section
variable {s : State} {p : Nat} (hp : p < 72) (hwaking : p ∉ s.inf.waking) (hrole : s.rd Reg.INF_PHYS_ROLE [p] = 2)
include hp hwaking hrole

theorem execLbistDone_of_tested (pass : Bool) : execLbistDone p pass s =
    .next (if pass then (s.lbistTested p).wr Reg.INF_PHYS_ROLE [p] 1 else (s.lbistRetired p).checkSpares) := by
  have hawake : (decide (p < 72) && s.inf.waking.contains p) = false := by
    rw [Bool.and_eq_false_iff]
    exact .inr (by simpa using hwaking)
  have hserves : (decide (p ≥ 72) || decide (s.rd Reg.INF_PHYS_ROLE [p] ≠ 2)) = false := by
    rw [hrole, decide_eq_false (Nat.not_le.2 hp)]
    rfl
  rw [execLbistDone, if_neg (Bool.eq_false_iff.1 hawake), if_neg (Bool.eq_false_iff.1 hserves)]
  cases pass <;> rfl

end

theorem lbistRetired_spec (s : State) {p : Nat} (hp : p < 72) :
    let u := s.lbistRetired p
    u.rd Reg.INF_PHYS_ROLE [p] = 3 ∧ u.inf.retired = s.inf.retired ++ [p]
      ∧ u.rd Reg.SVC_LOG_SEQ [] = (s.rd Reg.SVC_LOG_SEQ [] + 1) % 2 ^ 32 := by
  have hkey : Reg.INF_PHYS_ROLE.key [p] ≠ Reg.SVC_LOG_SEQ.key [] := by
    have hlog : Reg.SVC_LOG_SEQ.key [] = 0x14 * 2 ^ 17 + 0x42 := rfl
    rw [key_of_phys (by decide), hlog]
    omega
  have hseq : ((s.lbistTested p).wr Reg.INF_PHYS_ROLE [p] 3).rd Reg.SVC_LOG_SEQ [] = s.rd Reg.SVC_LOG_SEQ [] :=
    rd_wr_ne (s.lbistTested p) _ _ _ _ 3 hkey.symm
  rw [State.lbistRetired]
  refine ⟨(rd_writeLog_ne _ hkey).trans (rd_wr_same (s.lbistTested p) _ _ 3 (by decide)), ?_, (rd_writeLog_seq _).trans ?_⟩
  · rw [writeLog_inf]
    rfl
  · rw [← hseq]
    rfl

/-! ### O44 -/

/-- Settles O44: a verdict, the end of a frame, a swap and a test by the branch that each takes, and what the words that it
writes leave of the others. -/
theorem goldenAndSpares : Obligations.GoldenAndSpares := by
  unfold Obligations.GoldenAndSpares
  intro s
  refine ⟨fun k cyc lines crc e hk hhead hop hfresh => ?_, fun a cyc lines crc d t hisland hfresh hfetch hop => ?_,
    fun k crc _ hcrc => if_pos hcrc, fun k crc hk _ hcrc hspares => ?_,
    fun cyc lines crcs k hup hran _ hgold hlost _ hspares => ?_, fun cyc lines crcs hup hpassed => ?_,
    fun k q hk hq _ hold hswap => ⟨_, execSpareSwapDone_of_swap hswap, spareServes_spec s hk hq hold⟩,
    execRotationSwap_of_waiting, fun hup hrot hspares htile => ?_, fun p hp hwaking hrole => ⟨?_, ?_⟩⟩
  · exact execGolden_tile_of_head hk hhead hop hfresh rfl rfl
  · exact duskAttempt_of_admitted hisland hfresh hfetch (decide_eq_true hop) rfl
  · obtain ⟨q, hq, hr⟩ := goldenResult_of_mismatch hcrc hspares
    obtain ⟨hframe, htile, hvalid⟩ := rd_goldenFlagged_gflag s k hk
    rw [hr]
    have hgflag : ∀ r : Row, r.OfArray → ((s.goldenFlagged k).swapTo k q (some (s.rd Reg.INF_GSTAT_FRAME_NO []))).rd r [] =
        (s.goldenFlagged k).rd r [] := fun r hr => rd_swapTo_ne _ _ _ (key_array_ne_tile hr (by decide) k)
    refine ⟨(rd_swapTo_ne _ _ _ (key_tile_ne_phys (by decide) (by decide) hk _).symm).trans (rd_goldenFlagged_suspect s k),
      ?_, (hgflag _ (by decide)).trans hframe, (hgflag _ (by decide)).trans htile,
      (hgflag _ (by decide)).trans hvalid, ⟨q, hq, ?_⟩, rd_swapTo_state _ _ _ _, ?_⟩
    · rw [swapTo_saf, mem_lines_goldenFlagged]
      exact .inl rfl
    · rw [swapTo_inf, (goldenFlagged_inf_mem s k).1]
    · rw [swapTo_mem, (goldenFlagged_inf_mem s k).2]
  · have hlate : s.late k = true := by rw [State.late, hgold, decide_eq_true hlost]; rfl
    exact execSafetyFrameEnd_of_late hup hran hlate hspares cyc lines crcs
  · refine ⟨_, execSafetyFrameEnd_of_passed hup hpassed cyc lines crcs, rd_frameEnded_frameNo s,
      fun k => rd_frameEnded_goldOk s, ?_, (frameEnded_inf_mem s).2, wordsWithin_frameEnded s⟩
    rw [(frameEnded_inf_mem s).1]
  · have htile' : ∃ k, k < s.fuses.variant.tiles ∧ s.mayRotate k = true := by
      simpa only [State.mayRotate, Bool.and_eq_true, decide_eq_true_eq] using htile
    obtain ⟨k, q, hk, hq, hexec⟩ := execRotationSwap_of_ready hup hrot hspares htile'
    have hk64 : k < 64 := Nat.lt_of_lt_of_le hk (Nat.min_le_left _ _)
    refine ⟨_, k, q, hexec, hk, hq, rfl, rfl, rd_swapTo_state _ _ _ _, rfl, ?_⟩
    exact (wordsWithin_of_words rfl rfl _).trans (wordsWithin_swapTo _ hk64 q none)
  · refine ⟨_, execLbistDone_of_tested hp hwaking hrole true, rd_wr_same _ _ _ _ (by decide), rfl, rfl, ?_⟩
    exact (wordsWithin_of_words rfl rfl _).trans (wordsWithin_wr_phys _ 1 (by omega) (by decide))
  · exact ⟨_, _, execLbistDone_of_tested hp hwaking hrole false, rfl, lbistRetired_spec s hp⟩

end Sys2Proof.Machine
end

section
/-! CANONICAL FORM, QUEUE, FUSES AND TIME. What every operation of the block keeps: the canonical form of memory and of the words, the queue of commands, the fuses and device time. One lemma says so for each operation, in the order of the model; a commit alone raises a fuse, and keeps the form all the same. The statements on every step follow. -/

namespace Sys2Proof.Machine

/-! ### Evolution -/

/-- `t` comes from `s` by the operations of the block: it is in canonical form where `s` is, and has its queue, its fuses and its
  device time. -/
def Evolves (s t : State) : Prop := Keeps s t ∧ t.fuses = s.fuses ∧ t.now = s.now

/-- The state beside an answer comes from `s`. -/
@[reducible] def Evolves₂ {α : Type} (s : State) (p : α × State) : Prop := Evolves s p.2

/-- The state behind two answers comes from `s`. -/
@[reducible] def Evolves₃ {α β : Type} (s : State) (p : α × β × State) : Prop := Evolves s p.2.2

/-- The state of an outcome, where it has one, comes from `s`. -/
def Yields (s : State) (o : Host.Outcome State Fault Refusal) : Prop := ∀ t, o = .next t → Evolves s t

theorem Evolves.refl (s : State) : Evolves s s := ⟨keeps_refl s, rfl, rfl⟩

theorem Evolves.trans {s t u : State} (h : Evolves s t) (k : Evolves t u) : Evolves s u :=
  ⟨h.1.trans k.1, k.2.1.trans h.2.1, k.2.2.trans h.2.2⟩

section
variable {s t : State} {free : Nat} {resp : Resp} {msgs : List Msg} {cmp : Cmp} {ttu : Ttu} {orr : Orr} {fab : Fab} {hbm : Hbm}
  {apc : Apc} {enc : Enc} {cry : Cry} {inf : Inf} {gfx : Gfx} {dsp : List (Nat × Pipe)} {sxt : Sxt} {net : Net} {svc : Svc}
  {alm : Alm} {saf : Saf} {clk : Clk} {boot : Boot} {pwr : Pwr}

/-- The canonical form, the queue, the fuses and device time are read from five fields: the others may change. -/
theorem Evolves.upd (h : Evolves s t) : Evolves s ⟨t.fuses, t.words, t.mem, t.now, free, resp, msgs, cmp, ttu, orr, fab, hbm, apc,
  enc, cry, inf, gfx, dsp, sxt, net, svc, alm, saf, clk, boot, pwr, t.pending⟩ := h

/-- Words may be put back to their reset values. -/
theorem Evolves.dropWords {p : Nat × Word → Bool} (h : Evolves s t) : Evolves s
  ⟨t.fuses, t.words.filter p, t.mem, t.now, free, resp, msgs, cmp, ttu, orr, fab, hbm, apc, enc, cry, inf, gfx, dsp, sxt, net, svc,
  alm, saf, clk, boot, pwr, t.pending⟩ :=
  h.trans ⟨⟨fun c => c.filterWords p, rfl⟩, rfl, rfl⟩

theorem Evolves.dropWordsTwice {p q : Nat × Word → Bool} (h : Evolves s t) :
    Evolves s ⟨t.fuses, (t.words.filter p).filter q, t.mem, t.now, free, resp, msgs, cmp, ttu, orr, fab, hbm, apc, enc, cry, inf,
      gfx, dsp, sxt, net, svc, alm, saf, clk, boot, pwr, t.pending⟩ :=
  h.trans ⟨⟨fun c => (c.filterWords p).filterWords q, rfl⟩, rfl, rfl⟩

/-- Memory may lose bytes. -/
theorem Evolves.dropBytes {q : Host.Cell → Bool} (h : Evolves s t) : Evolves s
  ⟨t.fuses, t.words, t.mem.filter q, t.now, free, resp, msgs, cmp, ttu, orr, fab, hbm, apc, enc, cry, inf, gfx, dsp, sxt, net, svc,
  alm, saf, clk, boot, pwr, t.pending⟩ :=
  h.trans ⟨⟨fun c => c.filterMem q, rfl⟩, rfl, rfl⟩

theorem Evolves.drop {p : Nat × Word → Bool} {q : Host.Cell → Bool} (h : Evolves s t) :
    Evolves s ⟨t.fuses, t.words.filter p, t.mem.filter q, t.now, free, resp, msgs, cmp, ttu, orr, fab, hbm, apc, enc, cry, inf, gfx,
      dsp, sxt, net, svc, alm, saf, clk, boot, pwr, t.pending⟩ :=
  h.trans ⟨⟨fun c => (c.filterWords p).filterMem q, rfl⟩, rfl, rfl⟩

/-- Memory may become any other in canonical form. -/
theorem Evolves.setMem {m : List Host.Cell} (h : Evolves s t) (hm : memoryWf t.mem = true → memoryWf m = true) :
    Evolves s ⟨t.fuses, t.words, m, t.now, free, resp, msgs, cmp, ttu, orr, fab, hbm, apc, enc, cry, inf, gfx, dsp, sxt, net, svc,
      alm, saf, clk, boot, pwr, t.pending⟩ :=
  h.trans ⟨⟨fun c => ⟨c.1, hm c.2⟩, rfl⟩, rfl, rfl⟩

/-- Memory may take bytes. -/
theorem Evolves.putBytes {a : Nat} {b : List Byte} (h : Evolves s t) : Evolves s
  ⟨t.fuses, t.words, memPutBytes t.mem a b, t.now, free, resp, msgs, cmp, ttu, orr, fab, hbm, apc, enc, cry, inf, gfx, dsp, sxt,
  net, svc, alm, saf, clk, boot, pwr, t.pending⟩ :=
  h.trans ⟨⟨fun c => c.bytes a b, rfl⟩, rfl, rfl⟩

end

theorem Evolves.setWord {s t : State} (h : Evolves s t) {k : Nat} {w : Word} : Evolves s (t.setWord k w) :=
  h.trans ⟨keeps_State_setWord t k w, rfl, rfl⟩

section
variable {s : State} {c : Prop} {_ : Decidable c}

theorem Evolves.ite {t u : State} (ht : Evolves s t) (hu : Evolves s u) : Evolves s (if c then t else u) := by
  split
  · exact ht
  · exact hu

/-- A step that is taken or left out. -/
theorem Evolves.opt {t u : State} (ht : Evolves s t) (hu : Evolves s t → Evolves s u) : Evolves s (if c then u else t) :=
  (hu ht).ite ht

theorem Evolves.optElse {t u : State} (ht : Evolves s t) (hu : Evolves s t → Evolves s u) : Evolves s (if c then t else u) := ht.ite
  (hu ht)

theorem Evolves₂.ite {α : Type} {p q : α × State} (hp : Evolves₂ s p) (hq : Evolves₂ s q) : Evolves₂ s (if c then p else q) := by
  split
  · exact hp
  · exact hq

theorem Evolves₃.ite {α β : Type} {p q : α × β × State} (hp : Evolves₃ s p) (hq : Evolves₃ s q) :
    Evolves₃ s (if c then p else q) := by
  split
  · exact hp
  · exact hq

theorem Yields.ite {o r : Host.Outcome State Fault Refusal} (ho : Yields s o) (hr : Yields s r) : Yields s (if c then o else r) :=
  by
  split
  · exact ho
  · exact hr

end

section
variable {α β γ : Type} {s t : State}

theorem Evolves₂.mk {a : α} (h : Evolves s t) : Evolves₂ s (a, t) := h

theorem Evolves₃.mk {a : α} {b : β} (h : Evolves s t) : Evolves₃ s (a, b, t) := h

theorem Evolves₂.eq {p : α × State} {a : α} (h : Evolves₂ s p) (e : p = (a, t)) : Evolves s t := by
  subst e
  exact h

theorem Evolves₃.eq {p : α × β × State} {a : α} {b : β} (h : Evolves₃ s p) (e : p = (a, b, t)) : Evolves s t := by
  subst e
  exact h

theorem Evolves.foldl {l : List α} {f : State → α → State} (h : Evolves s t)
    (hf : ∀ {u a}, Evolves s u → Evolves s (f u a)) : Evolves s (l.foldl f t) := by
  induction l generalizing t with
  | nil => exact h
  | cons a l ih => exact ih (hf h)

theorem Evolves₂.foldl {l : List α} {p : γ × State} {f : γ × State → α → γ × State} (h : Evolves₂ s p)
    (hf : ∀ {q a}, Evolves₂ s q → Evolves₂ s (f q a)) : Evolves₂ s (l.foldl f p) := by
  induction l generalizing p with
  | nil => exact h
  | cons a l ih => exact ih (hf h)

theorem Evolves₃.foldl {l : List α} {p : β × γ × State} {f : β × γ × State → α → β × γ × State} (h : Evolves₃ s p)
    (hf : ∀ {q a}, Evolves₃ s q → Evolves₃ s (f q a)) : Evolves₃ s (l.foldl f p) := by
  induction l generalizing p with
  | nil => exact h
  | cons a l ih => exact ih (hf h)

theorem Yields.go {s t : State} (h : Evolves s t) : Yields s (.next t) := by
  rintro u ⟨⟩
  exact h

theorem Yields.refused {r : Refusal} : Yields s (.refused r) := by
  rintro u ⟨⟩

end

/-! ### Canonical tables -/

theorem memoryWf_ite {c : Prop} {_ : Decidable c} {m n : List Host.Cell} (hm : memoryWf m = true) (hn : memoryWf n = true) :
    memoryWf (if c then m else n) = true := by
  split
  · exact hm
  · exact hn

/-- A pass that keeps memory in canonical form at each element. -/
theorem memoryWf_foldl {α : Type} {f : List Host.Cell → α → List Host.Cell}
  (hf : ∀ {m a}, memoryWf m = true → memoryWf (f m a) = true)
    {l : List α} {m : List Host.Cell} (h : memoryWf m = true) : memoryWf (l.foldl f m) = true := by
  induction l generalizing m with
  | nil => exact h
  | cons a l ih => exact ih (hf h)

/-- The part of one table in a range of keys, between the parts of another below and above it. -/
theorem tcanon_splice {α : Type} [DecidableEq α] {d : Nat → α} {t u : List (Nat × α)} (ht : tcanon d t = true)
  (hu : tcanon d u = true) :
    tcanon d (t.filter (fun e => e.1 / 2 ^ 17 < 0x03) ++ u.filter (fun e => e.1 / 2 ^ 17 = 0x03)
      ++ t.filter (fun e => 0x03 < e.1 / 2 ^ 17)) = true := by
  simp only [tcanon, Bool.and_eq_true, List.all_eq_true, tsorted_iff, List.pairwise_append, List.mem_append, List.mem_filter,
    decide_eq_true_eq] at ht hu ⊢
  refine ⟨⟨⟨ht.1.filter _, hu.1.filter _, ?_⟩, ht.1.filter _, ?_⟩, ?_⟩
  · rintro a ⟨_, ha⟩ b ⟨_, hb⟩
    omega
  · rintro a (⟨_, ha⟩ | ⟨_, ha⟩) b ⟨_, hb⟩ <;> omega
  · rintro e ((⟨he, _⟩ | ⟨he, _⟩) | ⟨he, _⟩)
    · exact ht.2 e he
    · exact hu.2 e he
    · exact ht.2 e he

section
variable {s : State}

/-- The state that an operation may answer comes from `s`. -/
abbrev EvolvesO (s : State) (o : Option State) : Prop := ∀ t, o = some t → Evolves s t

theorem EvolvesO.some {t : State} (h : Evolves s t) : EvolvesO s (some t) := by
  rintro u ⟨⟩
  exact h

theorem EvolvesO.none : EvolvesO s none := by
  rintro u ⟨⟩

theorem EvolvesO.ite {c : Prop} {_ : Decidable c} {o r : Option State} (ho : EvolvesO s o) (hr : EvolvesO s r) :
    EvolvesO s (if c then o else r) := by
  split
  · exact ho
  · exact hr

theorem EvolvesO.map {α : Type} {f : α → State} {o : Option α} (h : ∀ a, Evolves s (f a)) : EvolvesO s (o.map f) := by
  intro t ht
  obtain ⟨a, _, rfl⟩ := Option.map_eq_some_iff.1 ht
  exact h a

theorem EvolvesO.foldl {α : Type} {f : State → α → Option State} {l : List α} {o : Option State} (ho : EvolvesO s o)
    (hf : ∀ {u a}, Evolves s u → EvolvesO s (f u a)) : EvolvesO s (l.foldl (fun o a => o.bind (fun u => f u a)) o) := by
  induction l generalizing o with
  | nil => exact ho
  | cons a l ih =>
    refine ih fun t ht => ?_
    obtain ⟨u, hu, hfu⟩ := Option.bind_eq_some_iff.1 ht
    exact hf (ho u hu) t hfu

end
/-! ### The operations, in the order of the model -/

section
variable {s₀ s : State}

theorem Evolves.drawn (hs : Evolves s₀ s) : Evolves s₀ (s.drawn) :=
  hs.upd

theorem Evolves.setWreck {d : ℕ} {w : Wreck} (hs : Evolves s₀ s) : Evolves s₀ (s.setWreck d w) := by
  unfold State.setWreck
  dsimp only
  exact hs.upd

theorem Evolves.wreckPush {t : Trace} {d : ℕ} (hs : Evolves s₀ s) : Evolves s₀ (s.wreckPush t d) := by
  unfold State.wreckPush
  dsimp only
  exact .ite hs.setWreck hs

theorem Evolves.traceAccess {a : Access} {t : Target} {addr : ℕ} {posted : Bool} {st : Status} (hs : Evolves s₀ s) :
    Evolves s₀ (s.traceAccess a t addr posted st) := by
  unfold State.traceAccess
  dsimp only
  exact Evolves.foldl (by split; exacts [hs, hs.drawn]) fun hu => hu.wreckPush.wreckPush

theorem Evolves.wr {r : Row} {ix : List ℕ} {v : ℕ} (hs : Evolves s₀ s) : Evolves s₀ (s.wr r ix v) :=
  hs.setWord

theorem Evolves.wrPair {lo hi : Row} {ix : List ℕ} {v : ℕ} (hs : Evolves s₀ s) : Evolves s₀ (s.wrPair lo hi ix v) :=
  hs.wr.wr

theorem Evolves.incSat {r : Row} {ix : List ℕ} {n : ℕ} (hs : Evolves s₀ s) : Evolves s₀ (s.incSat r ix n) :=
  hs.wr

theorem Evolves.decLog {tag : ℕ} {write : Bool} {pa l : ℕ} (hs : Evolves s₀ s) : Evolves s₀ (s.decLog tag write pa l) := by
  unfold State.decLog
  dsimp only
  exact hs.wrPair.wr.wr.wr.incSat

theorem Evolves.raise {e : ℕ} (hs : Evolves s₀ s) : Evolves s₀ (s.raise e) := by
  unfold State.raise
  dsimp only
  exact .ite hs hs.upd

theorem Evolves.wreckTrigger {cause : ℕ} (hs : Evolves s₀ s) : Evolves s₀ (s.wreckTrigger cause) := by
  unfold State.wreckTrigger
  dsimp only
  exact hs.upd

theorem Evolves.freeze {tag : ℕ} {write : Bool} {pa l : ℕ} (hs : Evolves s₀ s) : Evolves s₀ (s.freeze tag write pa l) := by
  unfold State.freeze
  dsimp only
  exact hs.decLog.wr.upd.wreckTrigger.raise

theorem Evolves.syncPort {p extra : ℕ} (hs : Evolves s₀ s) : Evolves s₀ (s.syncPort p extra) := by
  unfold State.syncPort
  dsimp only
  exact hs.wr.opt fun hu => hu.wr

theorem Evolves.openTxn {t : Txn} (hs : Evolves s₀ s) : Evolves s₀ (s.openTxn t) := by
  unfold State.openTxn
  dsimp only
  exact hs.upd.syncPort

theorem Evolves.uncache {line : ℕ} (hs : Evolves s₀ s) : Evolves s₀ (s.uncache line) := by
  unfold State.uncache
  dsimp only
  exact hs.upd

theorem Evolves.setLine {pa : ℕ} {l : Line} (hs : Evolves s₀ s) : Evolves s₀ (s.setLine pa l) := by
  unfold State.setLine
  dsimp only
  exact hs.upd

theorem Evolves.evict {c : CacheLine} (hs : Evolves s₀ s) : Evolves s₀ (s.evict c) := by
  unfold State.evict
  dsimp only
  exact .ite hs.uncache.setLine (hs.uncache.opt fun hu => hu.putBytes)

theorem Evolves.flush {pa : ℕ} (hs : Evolves s₀ s) : Evolves s₀ (s.flush pa) := by
  unfold State.flush
  split
  · exact hs.evict
  · exact hs

theorem Evolves.send {inst vec : ℕ} (hs : Evolves s₀ s) : Evolves s₀ (s.send inst vec) :=
  .ite hs hs.upd

theorem Evolves.reportInst {i kind pa : ℕ} (hs : Evolves s₀ s) : Evolves s₀ (s.reportInst i kind pa) := by
  unfold State.reportInst
  dsimp only
  exact hs.wrPair.wr.incSat.send

theorem Evolves.reportOwner {owner kind pa : ℕ} (hs : Evolves s₀ s) : Evolves s₀ (s.reportOwner owner kind pa) :=
  .ite hs.reportInst hs.raise

theorem Evolves.reportPoisoned {owner pa : ℕ} (hs : Evolves s₀ s) : Evolves s₀ (s.reportPoisoned owner pa) := by
  unfold State.reportPoisoned
  dsimp only
  exact .ite hs.upd.reportOwner (.ite hs.incSat hs)

theorem Evolves.countKind {kind : ℕ} (hs : Evolves s₀ s) : Evolves s₀ (s.countKind kind) :=
  hs.incSat

theorem Evolves.record {code tag : ℕ} {payload : List Byte} (hs : Evolves s₀ s) : Evolves s₀ (s.record code tag payload) := by
  unfold State.record
  dsimp only
  exact .ite hs.upd hs.incSat.upd

theorem Evolves.logMem {kind tag pa : ℕ} (hs : Evolves s₀ s) : Evolves s₀ (s.logMem kind tag pa) := by
  unfold State.logMem
  dsimp only
  exact hs.wrPair.wr.wr.wr.countKind.record

theorem Evolves.countBlock {src : TxSrc} (hs : Evolves s₀ s) : Evolves s₀ (s.countBlock src) :=
  .ite hs.incSat hs.incSat

theorem Evolves.setCan {k : ℕ} {c : CanCtl} (hs : Evolves s₀ s) : Evolves s₀ (s.setCan k c) := by
  unfold State.setCan
  dsimp only
  exact hs.upd

theorem Evolves.canKick {n c : ℕ} (hs : Evolves s₀ s) : Evolves s₀ (s.canKick n c) := by
  unfold State.canKick
  dsimp only
  refine .ite ?_ ?_
  · exact hs
  · split
    · exact hs
    · exact hs.setCan

theorem Evolves.canOffer {n c : ℕ} {src : TxSrc} {f : CanFrame} (hs : Evolves s₀ s) : Evolves₂ s₀ (s.canOffer n c src f) := by
  unfold State.canOffer
  dsimp only
  exact .ite (.mk hs.countBlock) (.ite (.mk hs) (.mk hs.setCan.canKick))

theorem Evolves.sendReplaceFrame (hs : Evolves s₀ s) : Evolves s₀ (s.sendReplaceFrame) := by
  unfold State.sendReplaceFrame
  dsimp only
  refine .ite ?_ ?_
  · exact hs
  · refine .ite ?_ ?_
    · exact hs.upd.incSat
    · split
      · next hd =>
          have hs1 := hs.upd.canOffer.eq hd
          exact hs1
      · next hd =>
          have hs1 := hs.upd.canOffer.eq hd
          exact hs1.incSat

theorem Evolves.incWrap {r : Row} {ix : List ℕ} {n : ℕ} (hs : Evolves s₀ s) : Evolves s₀ (s.incWrap r ix n) :=
  hs.wr

theorem Evolves.writeLog (hs : Evolves s₀ s) : Evolves s₀ (s.writeLog) := by
  unfold State.writeLog
  dsimp only
  exact hs.incWrap.upd

theorem Evolves.raiseCauses {bits : List ℕ} (hs : Evolves s₀ s) : Evolves s₀ (s.raiseCauses bits) := by
  unfold State.raiseCauses
  dsimp only
  exact .ite hs hs.wr.wr.raise.send.writeLog.sendReplaceFrame

theorem Evolves.raiseCause {b : ℕ} (hs : Evolves s₀ s) : Evolves s₀ (s.raiseCause b) :=
  hs.raiseCauses

theorem Evolves.repairRow {pc row grp : ℕ} (hs : Evolves s₀ s) : Evolves s₀ (s.repairRow pc row grp) := by
  unfold State.repairRow
  dsimp only
  exact .ite hs.raiseCause hs.wr.incWrap.upd

theorem Evolves.setSpare {k : ℕ} {x : Spare} (hs : Evolves s₀ s) : Evolves s₀ (s.setSpare k x) := by
  unfold State.setSpare
  dsimp only
  exact hs.upd

theorem Evolves.furtherChannel {stack pc : ℕ} (hs : Evolves s₀ s) : Evolves s₀ (s.furtherChannel stack pc) := by
  unfold State.furtherChannel
  dsimp only
  exact .ite hs (hs.upd.optElse fun hu => hu.wr).raise.raiseCause

theorem Evolves.migrate {pc : ℕ} (hs : Evolves s₀ s) : Evolves s₀ (s.migrate pc) := by
  unfold State.migrate
  dsimp only
  exact .ite hs.wr.wr.wr.setSpare (.ite hs hs.furtherChannel)

theorem Evolves.badRow {pa : ℕ} {kind2 : Bool} (hs : Evolves s₀ s) : Evolves s₀ (s.badRow pa kind2) := by
  unfold State.badRow
  dsimp only
  exact hs.repairRow.optElse fun hu => hu.upd.opt fun hu1 => hu1.migrate

theorem Evolves.poisonLine {pa : ℕ} (hs : Evolves s₀ s) : Evolves s₀ (s.poisonLine pa) := by
  unfold State.poisonLine
  dsimp only
  split
  · exact hs.upd
  · exact hs.putBytes

theorem Evolves.tally {pc row grp line : ℕ} (hs : Evolves s₀ s) : Evolves s₀ (s.tally pc row grp line) := by
  unfold State.tally
  dsimp only
  exact (hs.upd.opt fun hu => hu.repairRow).opt fun hu => hu.migrate

theorem Evolves.tallyRow {pa : ℕ} (hs : Evolves s₀ s) : Evolves s₀ (s.tallyRow pa) :=
  hs.tally

theorem Evolves.rewritten {pa : ℕ} (hs : Evolves s₀ s) : Evolves s₀ (s.rewritten pa) := by
  unfold State.rewritten
  dsimp only
  exact .ite hs hs.setLine

theorem Evolves.readLineSlot {slot tag pa : ℕ} {e : RowError} {cancelled : Bool} (hs : Evolves s₀ s) :
    Evolves₂ s₀ (s.readLineSlot slot tag pa e cancelled) := by
  unfold State.readLineSlot
  dsimp only
  refine .ite ?_ ?_
  · exact .ite (.mk hs) (.mk hs.logMem.reportPoisoned)
  · split
    · exact .mk hs.poisonLine.logMem.reportOwner.badRow
    · exact .ite (.mk hs.drawn.drawn.putBytes.setLine.countKind.tallyRow) (.mk hs.drawn.drawn.logMem.reportOwner)
    · exact .ite (.mk hs.poisonLine.logMem.reportOwner.badRow)
        (.ite (.mk hs.rewritten.countKind.tallyRow) (.mk hs.logMem.reportOwner))
    · exact .ite (.mk hs) (.mk hs.logMem.reportOwner)

theorem Evolves.readLine {tag pa : ℕ} {e : RowError} {cancelled : Bool} (hs : Evolves s₀ s) :
    Evolves₂ s₀ (s.readLine tag pa e cancelled) := by
  unfold State.readLine
  dsimp only
  exact .ite (.mk hs) hs.flush.readLineSlot

theorem Evolves.cacheLookup {pa : ℕ} (hs : Evolves s₀ s) : Evolves₂ s₀ (s.cacheLookup pa) := by
  unfold State.cacheLookup
  split
  · exact .ite (.mk hs) (.mk hs.evict)
  · exact .mk hs

theorem Evolves.cacheTake {pa slot : ℕ} {dirty : Bool} (hs : Evolves s₀ s) : Evolves s₀ (s.cacheTake pa slot dirty) := by
  unfold State.cacheTake
  dsimp only
  exact (Evolves.ite hs (by split; exacts [hs.evict, hs])).upd

theorem Evolves.readThrough {mt tag pa : ℕ} {e : RowError} {cancelled : Bool} (hs : Evolves s₀ s) :
    Evolves₂ s₀ (s.readThrough mt tag pa e cancelled) := by
  unfold State.readThrough
  dsimp only
  refine .ite ?_ ?_
  · exact hs.readLine
  · refine .ite ?_ ?_
    · exact .mk hs
    · split
      · next hd =>
          have hs1 := hs.cacheLookup.eq hd
          exact .mk hs1
      · next hd =>
          have hs1 := hs.cacheLookup.eq hd
          exact .mk (hs1.readLineSlot.opt fun hu1 => hu1.cacheTake)

theorem Evolves.writeLine {pa : ℕ} {bytes : List Byte} (hs : Evolves s₀ s) : Evolves₂ s₀ (s.writeLine pa bytes) := by
  unfold State.writeLine
  dsimp only
  exact .ite (.mk hs) (.mk hs.uncache.putBytes)

theorem Evolves.mergeFails {slot tag pa : ℕ} (hs : Evolves s₀ s) : Evolves₂ s₀ (s.mergeFails slot tag pa) :=
  .mk hs.poisonLine.logMem.reportOwner

theorem Evolves.mergeLine {tag pa : ℕ} {bytes : List Byte} {e : RowError} (hs : Evolves s₀ s) :
    Evolves₂ s₀ (s.mergeLine tag pa bytes e) := by
  unfold State.mergeLine
  dsimp only
  exact .ite (.mk hs) (.ite (.mk (hs.flush.opt fun hu => hu.rewritten.countKind.tallyRow).putBytes.setLine) hs.flush.mergeFails)

theorem Evolves.writeThrough {mt tag pa : ℕ} {bytes : List Byte} {e : RowError} (hs : Evolves s₀ s) :
    Evolves₂ s₀ (s.writeThrough mt tag pa bytes e) := by
  unfold State.writeThrough
  dsimp only
  refine .ite ?_ ?_
  · exact .ite hs.writeLine hs.mergeLine
  · refine .ite ?_ ?_
    · exact .mk hs
    · split
      · next hd =>
          have hs1 := hs.cacheLookup.eq hd
          exact .mk hs1.putBytes.cacheTake
      · next hd =>
          have hs1 := hs.cacheLookup.eq hd
          exact .ite (.mk hs1.putBytes.cacheTake) (.ite (.mk (Evolves.ite hs1.rewritten.countKind.tallyRow hs1).putBytes.cacheTake)
            hs1.mergeFails)

theorem Evolves.mail {e tag flags : ℕ} {bytes : List Byte} (hs : Evolves s₀ s) : Evolves₂ s₀ (s.mail e tag flags bytes) := by
  unfold State.mail
  dsimp only
  refine .ite ?_ ?_
  · exact .mk hs.readThrough
  · refine .ite ?_ ?_
    · exact .mk hs.readThrough
    · exact .mk hs.readThrough.writeThrough.writeThrough.upd.send

theorem Evolves.hbmWrite {mt tag pa : ℕ} {bytes : List Byte} {e : RowError} (hs : Evolves s₀ s) :
    Evolves₂ s₀ (s.hbmWrite mt tag pa bytes e) := by
  unfold State.hbmWrite
  dsimp only
  exact (Evolves₂.mk hs).foldl fun hu => .mk hu.writeThrough

theorem Evolves.setCtx {n : ℕ} {c : Ctx} (hs : Evolves s₀ s) : Evolves s₀ (s.setCtx n c) := by
  unfold State.setCtx
  dsimp only
  exact hs.upd

theorem Evolves.ringDoorbell {tag cookie : ℕ} (hs : Evolves s₀ s) : Evolves s₀ (s.ringDoorbell tag cookie) := by
  unfold State.ringDoorbell
  dsimp only
  exact hs.setCtx.upd.record

theorem Evolves.cpWriteReg {tag off size : ℕ} {v : DWord} (hs : Evolves s₀ s) : Evolves₂ s₀ (s.cpWriteReg tag off size v) := by
  unfold State.cpWriteReg
  dsimp only
  exact .ite (.mk hs.upd) (.ite (.mk (.ite hs.ringDoorbell hs)) (.ite (.mk hs.upd) (.ite (.mk hs) (.mk hs))))

theorem Evolves.cpWrite {tag off size : ℕ} {v : DWord} (hs : Evolves s₀ s) : Evolves₂ s₀ (s.cpWrite tag off size v) :=
  .ite (.mk hs) hs.cpWriteReg

theorem Evolves.setHart {h : ℕ} {x : Hart} (hs : Evolves s₀ s) : Evolves s₀ (s.setHart h x) := by
  unfold State.setHart
  dsimp only
  exact hs.upd

theorem Evolves.setEip {h file id : ℕ} (hs : Evolves s₀ s) : Evolves s₀ (s.setEip h file id) := by
  unfold State.setEip
  dsimp only
  exact .ite hs (.ite hs hs.setHart)

theorem Evolves.setMtimecmp {h v : ℕ} (hs : Evolves s₀ s) : Evolves s₀ (s.setMtimecmp h v) := by
  unfold State.setMtimecmp
  dsimp only
  exact hs.setHart

theorem Evolves.clusterWrite {c off size v : ℕ} (hs : Evolves s₀ s) : Evolves₂ s₀ (s.clusterWrite c off size v) := by
  unfold State.clusterWrite
  dsimp only
  exact .ite (.ite (.mk (.ite hs.setEip hs)) (.mk hs)) (.ite (.mk hs.setMtimecmp) (.mk hs))

theorem Evolves.violation {inst : ℕ} (hs : Evolves s₀ s) : Evolves s₀ (s.violation inst) :=
  hs.incSat

theorem Evolves.ttuFault {a : Access} {addr cause : ℕ} {stage1 : Bool} (hs : Evolves s₀ s) :
    Evolves s₀ (s.ttuFault a addr cause stage1) := by
  unfold State.ttuFault
  dsimp only
  exact .ite (hs.wrPair.wr.wr.wr.wr.incSat.opt fun hu => hu.violation.record).send hs.record

theorem Evolves.targetWrite {a : Access} {mt : ℕ} {t : Target} {pa : ℕ} {bytes : List Byte} {e : RowError} (hs : Evolves s₀ s) :
    Evolves₂ s₀ (s.targetWrite a mt t pa bytes e) := by
  unfold State.targetWrite
  dsimp only
  split
  · refine .ite ?_ hs.hbmWrite
    split
    · exact hs.mail
    · exact hs.hbmWrite
  · exact hs.cpWrite
  · exact hs.clusterWrite
  · refine .mk (.ite (Evolves.ttuFault ?_) ?_) <;>
      exact hs.setMem (memoryWf_foldl fun h => memoryWf_ite (memoryWf_memPutBytes h _ _) h)
  · exact .mk hs.drawn
  · exact .mk hs
  · exact .mk hs
  · exact .ite (.mk hs.putBytes) (.mk hs)
  · exact .mk hs.putBytes

theorem Evolves.hbmRead {mt tag pa size : ℕ} {e : RowError} (hs : Evolves s₀ s) : Evolves₃ s₀ (s.hbmRead mt tag pa size e) := by
  unfold State.hbmRead
  dsimp only
  exact .mk ((Evolves₂.mk hs).foldl fun hu => .mk hu.readThrough)

theorem Evolves.cpRead {tag off size : ℕ} (hs : Evolves s₀ s) : Evolves₃ s₀ (s.cpRead tag off size) := by
  unfold State.cpRead
  dsimp only
  exact .ite (.mk hs) (.ite (.mk hs) (.ite (.mk (.ite hs.upd hs)) (.mk hs)))

theorem Evolves.targetRead {a : Access} {mt : ℕ} {t : Target} {pa size : ℕ} {e : RowError} (hs : Evolves s₀ s) :
    Evolves₃ s₀ (s.targetRead a mt t pa size e) := by
  unfold State.targetRead
  dsimp only
  split
  · exact hs.hbmRead
  · exact .mk hs.cpRead
  · exact .mk hs
  · exact .mk hs
  · exact .ite (.mk hs.drawn) (.mk hs)
  · exact .mk hs
  · exact .ite (.mk hs) (.mk hs)
  · exact .mk hs

theorem Evolves.busAct {q : HeldReq} {m : Admitted} {t : Target} (hs : Evolves s₀ s) : Evolves₂ s₀ (s.busAct q m t) := by
  unfold State.busAct
  dsimp only
  refine .ite ?_ ?_
  · exact .mk (Evolves.ite (by split; exacts [hs.drawn, hs]) hs).upd.traceAccess
  · split
    · exact .ite (.mk (Evolves.ite (by split; exacts [hs.drawn, hs]) hs).freeze.openTxn) (.mk ((Evolves.ite (by split; exacts [hs.drawn, hs]) hs).opt fun hu1 => hu1.targetWrite).decLog.traceAccess)
    · refine .ite ?_ ?_
      · exact .mk (Evolves.ite (by split; exacts [hs.drawn, hs]) hs).openTxn
      · refine .ite ?_ ?_
        · exact .mk (Evolves.ite (by split; exacts [hs.drawn, hs]) hs).targetWrite.traceAccess
        · exact .mk (Evolves.ite (by split; exacts [hs.drawn, hs]) hs).targetRead.traceAccess

theorem Evolves.answer {st : Status} {data : ℕ} (hs : Evolves s₀ s) : Evolves s₀ (s.answer st data) :=
  hs.upd

theorem Evolves.hold {q : OrrReq} (hs : Evolves s₀ s) : Evolves s₀ (s.hold q) := by
  unfold State.hold
  dsimp only
  exact hs.upd

theorem Evolves.setGov {g : Gov} (hs : Evolves s₀ s) : Evolves s₀ (s.setGov g) := by
  unfold State.setGov
  dsimp only
  exact hs.upd

theorem Evolves.governHold {q : GovReq} (hs : Evolves s₀ s) : Evolves s₀ (s.governHold q) := by
  unfold State.governHold
  dsimp only
  exact hs.setGov

theorem Evolves.busAnswer {x1 : Bus} (hs : Evolves s₀ s) : Evolves s₀ (s.busAnswer x1) := by
  unfold State.busAnswer
  split
  · exact hs.answer
  · exact hs.hold.answer
  · exact hs.governHold.answer
  · exact hs.answer

theorem Evolves.govIssue {q : GovReq} (hs : Evolves s₀ s) : Evolves s₀ (s.govIssue q) := by
  unfold State.govIssue
  dsimp only
  split
  · exact hs.upd
  · exact hs.busAct.busAnswer
  · exact hs

theorem Evolves.govDrain {fuel : ℕ} (hs : Evolves s₀ s) : Evolves s₀ (State.govDrain fuel s) := by
  induction fuel generalizing s with
  | zero => exact hs
  | succ fuel ih =>
    unfold State.govDrain
    split
    · exact hs
    · split
      · exact hs
      · exact ih hs.setGov.govIssue

theorem Evolves.govRun (hs : Evolves s₀ s) : Evolves s₀ (s.govRun) :=
  .ite hs hs.govDrain

theorem yields_execGovernorWindowOpen (hs : Evolves s₀ s) : Yields s₀ (execGovernorWindowOpen s) := by
  unfold execGovernorWindowOpen
  dsimp only
  exact .ite (.go hs) (.go hs.wr.setGov.govRun)

theorem yields_execGovernorReleasePoint (hs : Evolves s₀ s) : Yields s₀ (execGovernorReleasePoint s) := by
  unfold execGovernorReleasePoint
  dsimp only
  exact .ite (.go hs) (.go hs.setGov.govRun)

theorem Evolves.storeError {h addr : ℕ} {st : Status} (hs : Evolves s₀ s) : Evolves s₀ (s.storeError h addr st) := by
  unfold State.storeError
  dsimp only
  exact hs.wrPair.wr.incSat.setHart

theorem Evolves.postedError {a : Access} {addr layer : ℕ} {st : Status} (hs : Evolves s₀ s) :
    Evolves s₀ (s.postedError a addr layer st) := by
  unfold State.postedError
  dsimp only
  exact .ite (Evolves.send (by split; exacts [hs.wrPair.wr.wr.incSat.storeError, hs.wrPair.wr.wr.incSat])) (Evolves.record (by split; exacts [hs.wrPair.wr.wr.incSat.storeError, hs.wrPair.wr.wr.incSat])).raise

theorem Evolves.completePosted {p : Posted} (hs : Evolves s₀ s) : Evolves s₀ (s.completePosted p) := by
  unfold State.completePosted
  dsimp only
  refine .ite ?_ ?_
  · exact hs.upd.postedError
  · split
    · refine .ite ?_ ?_
      · exact hs.upd.freeze.openTxn
      · exact hs.upd.targetWrite.decLog.postedError
    · exact hs.upd.targetWrite.optElse fun hu1 => hu1.postedError

theorem Evolves.drainList {l : List Posted} (hs : Evolves s₀ s) : Evolves s₀ (s.drainList l) := by
  induction l generalizing s with
  | nil => exact hs
  | cons p l ih => exact .ite (ih hs.completePosted) hs

theorem Evolves.drainSource {code : ℕ} (hs : Evolves s₀ s) : Evolves s₀ (s.drainSource code) :=
  hs.drainList

theorem Evolves.inc64 {lo hi : Row} {ix : List ℕ} {n : ℕ} (hs : Evolves s₀ s) : Evolves s₀ (s.inc64 lo hi ix n) := by
  unfold State.inc64
  dsimp only
  exact hs.wr.wr

theorem Evolves.chargeNow {r t units : ℕ} (hs : Evolves s₀ s) : Evolves s₀ (s.chargeNow r t units) := by
  unfold State.chargeNow
  dsimp only
  exact hs.upd.incSat.inc64.inc64.wr

theorem Evolves.usePrepaid {p r units : ℕ} (hs : Evolves s₀ s) : Evolves s₀ (s.usePrepaid p r units) := by
  unfold State.usePrepaid
  dsimp only
  exact hs.upd

theorem Evolves.charge {r t units : ℕ} (hs : Evolves s₀ s) : Evolves s₀ (s.charge r t units) := by
  unfold State.charge
  dsimp only
  refine .ite ?_ ?_
  · exact hs
  · split
    · exact hs.chargeNow
    · exact .ite hs.usePrepaid hs.upd.chargeNow

theorem Evolves.chargeAll {t : ℕ} {need : List (ℕ × ℕ)} (hs : Evolves s₀ s) : Evolves s₀ (s.chargeAll t need) :=
  hs.foldl fun hu => hu.charge

theorem Evolves.serve {r t units : ℕ} (hs : Evolves s₀ s) : Evolves s₀ (s.serve r t units) := by
  unfold State.serve
  dsimp only
  exact hs.charge.upd

theorem Evolves.pay {t : ℕ} {need : List (ℕ × ℕ)} (hs : Evolves s₀ s) : EvolvesO s₀ (s.pay t need) :=
  EvolvesO.foldl (.some hs) fun hu => .ite (.some hu.charge) (.ite (.some hu.serve) .none)

theorem Evolves.claimUnits {q : HeldReq} {need : List (ℕ × ℕ)} {g : Claim} (hs : Evolves s₀ s) :
    EvolvesO s₀ (s.claimUnits q need g) := by
  refine .ite (.some hs) ?_
  split
  · exact hs.pay
  · exact .some hs.chargeAll

theorem Evolves.standBefore {q : HeldReq} {t : Target} {l : ℕ} (hs : Evolves s₀ s) : Evolves₂ s₀ (s.standBefore q t l) := by
  unfold State.standBefore
  dsimp only
  exact .ite (.mk hs.openTxn) (.mk hs)

theorem Evolves.govPass {t lines : ℕ} (hs : Evolves s₀ s) : EvolvesO s₀ (s.govPass t lines) := by
  unfold State.govPass
  exact .ite (.map fun _ => hs.usePrepaid) (.ite .none (.map fun _ => hs.setGov.upd))

theorem Evolves.busOn {q : HeldReq} {m : Admitted} {g : Claim} (hs : Evolves s₀ s) : Evolves₂ s₀ (s.busOn q m g) := by
  unfold State.busOn
  dsimp only
  refine .ite ?_ ?_
  · exact .mk ((Evolves.ite hs hs.drainSource).optElse fun hu => hu.chargeAll)
  · refine .ite ?_ ?_
    · exact .mk (Evolves.ite hs hs.drainSource)
    · split
      · exact .mk (Evolves.ite hs hs.drainSource)
      · next hd =>
          have hs1 := (Evolves.ite hs hs.drainSource).claimUnits _ hd
          split
          · exact hs1.standBefore
          · split
            · exact hs1.busAct
            · split
              · next hd3 =>
                  have hs4 := hs1.govPass _ hd3
                  exact hs4.busAct
              · exact .mk hs1

theorem Evolves.walkRead {tag pa : ℕ} (hs : Evolves s₀ s) : Evolves₂ s₀ (s.walkRead tag pa) := by
  unfold State.walkRead
  dsimp only
  refine .ite ?_ ?_
  · exact .mk hs.charge
  · split
    · exact .mk hs.charge.charge.readThrough
    · exact .ite (.mk hs.charge) (.ite (.mk hs.charge) (.mk hs.charge.decLog))
    · exact .mk hs.charge
    · exact .mk hs.charge
    · exact .mk hs.charge
    · refine .ite ?_ ?_
      · exact .mk hs.charge
      · split
        · exact .mk hs.charge.charge.drawn.drawn
        · exact .mk hs.charge.charge
    · refine .ite ?_ ?_
      · exact .mk hs.charge
      · refine .ite ?_ ?_
        · exact .mk (by split; exacts [hs.charge.charge, hs.charge])
        · refine .ite ?_ ?_
          · exact .mk (by split; exacts [hs.charge.charge, hs.charge])
          · split
            · exact .ite (.mk (by split; exacts [hs.charge.charge, hs.charge])) (.mk (Evolves.decLog (by split; exacts [hs.charge.charge, hs.charge])))
            · exact .mk (by split; exacts [hs.charge.charge, hs.charge])
    · exact .mk hs.charge

theorem Evolves.walkInst {tag va : ℕ} {k : Kind} {level table : ℕ} (hs : Evolves s₀ s) :
    Evolves₂ s₀ (s.walkInst tag va k level table) := by
  induction level generalizing s table with
  | zero =>
    unfold State.walkInst
    split
    · next hd =>
      have hs1 := hs.walkRead.eq hd
      split <;> exact .mk hs1
    · next hd => exact .mk (hs.walkRead.eq hd)
  | succ level ih =>
    unfold State.walkInst
    split
    · next hd =>
      have hs1 := hs.walkRead.eq hd
      split
      · exact .mk hs1
      · exact .mk hs1
      · exact ih hs1
    · next hd => exact .mk (hs.walkRead.eq hd)

theorem Evolves.instAddr {i va : ℕ} {k : Kind} (hs : Evolves s₀ s) : Evolves₂ s₀ (s.instAddr i va k) :=
  .ite (.mk hs) (.ite hs.walkInst (.mk hs))

theorem Evolves.readInst {i va : ℕ} (hs : Evolves s₀ s) : Evolves₃ s₀ (s.readInst i va) := by
  unfold State.readInst
  split
  · next hd =>
      have hs1 := hs.instAddr.eq hd
      split
      · exact .mk hs1
      · refine .ite ?_ ?_
        · exact .mk hs1
        · split
          · next hd2 =>
              have hs3 := hs1.walkRead.eq hd2
              exact .mk hs3
          · next hd2 =>
              have hs3 := hs1.walkRead.eq hd2
              exact .mk hs3
  · next hd =>
      have hs1 := hs.instAddr.eq hd
      exact .mk hs1

theorem Evolves.walkProc {i va : ℕ} {k : Kind} {level table : ℕ} (hs : Evolves s₀ s) :
    Evolves₂ s₀ (s.walkProc i va k level table) := by
  induction level generalizing s table with
  | zero =>
    unfold State.walkProc
    split
    · next hd =>
      have hs1 := hs.readInst.eq hd
      split <;> exact .mk hs1
    · next hd => exact .mk (hs.readInst.eq hd)
  | succ level ih =>
    unfold State.walkProc
    split
    · next hd =>
      have hs1 := hs.readInst.eq hd
      split
      · exact .mk hs1
      · exact .mk hs1
      · exact ih hs1
    · next hd => exact .mk (hs.readInst.eq hd)

theorem Evolves.walk {i pid va : ℕ} {k : Kind} (hs : Evolves s₀ s) : Evolves₃ s₀ (s.walk i pid va k) := by
  unfold State.walk
  dsimp only
  refine .ite ?_ ?_
  · exact .mk hs
  · refine .ite ?_ ?_
    · split
      · next hd =>
          have hs1 := hs.instAddr.eq hd
          exact .mk hs1
      · next hd =>
          have hs1 := hs.instAddr.eq hd
          exact .mk hs1
    · refine .ite ?_ ?_
      · exact .mk hs
      · split
        · next hd =>
            have hs1 := hs.readInst.eq hd
            refine .ite ?_ ?_
            · exact .mk hs1
            · split
              · next hd1 =>
                  have hs2 := hs1.walkProc.eq hd1
                  split
                  · next hd2 =>
                      have hs3 := hs2.instAddr.eq hd2
                      exact .mk hs3
                  · next hd2 =>
                      have hs3 := hs2.instAddr.eq hd2
                      exact .mk hs3
              · next hd1 =>
                  have hs2 := hs1.walkProc.eq hd1
                  exact .mk hs2
        · next hd =>
            have hs1 := hs.readInst.eq hd
            exact .mk hs1

theorem Evolves.keepEntry {e : TlbEntry} (hs : Evolves s₀ s) : Evolves s₀ (s.keepEntry e) := by
  unfold State.keepEntry
  dsimp only
  exact hs.upd

/-- A translation that is served from the cache, or by the walk that leaves `u`. -/
theorem translated {s₀ s u : State} {i pid va : ℕ} {k : Kind} {t : Trans} (hs : Evolves s₀ s) (hu : Evolves s₀ u) :
    Evolves₂ s₀ (match s.cached i pid va with | none => (t, u) | some e => if t = e.serve va k then (t, s) else if s.freeVal % 2 = 0
      then (t, u.drawn) else (e.serve va k, s.drawn)) := by
  split
  · exact .mk hu
  · exact .ite (.mk hs) (.ite (.mk hu.drawn) (.mk hs.drawn))

theorem Evolves.translate {i pid va : ℕ} {k : Kind} (hs : Evolves s₀ s) : Evolves₂ s₀ (s.translate i pid va k) := by
  unfold State.translate
  rcases hw : s.walk i pid va k with ⟨t, e, s'⟩
  have hs' : Evolves s₀ s' := hs.walk.eq hw
  cases e with
  | none => exact translated hs hs'
  | some e => exact translated hs hs'.keepEntry

theorem Evolves.tables {a : Access} {addr size : ℕ} (hs : Evolves s₀ s) : Evolves₂ s₀ (s.tables a addr size) := by
  unfold State.tables
  refine .ite ?_ ?_
  · refine .ite ?_ ?_
    · exact .mk hs
    · split
      · exact .mk hs
      · split
        · next hd1 =>
            have hs2 := hs.translate.eq hd1
            refine .ite ?_ ?_
            · exact .mk hs2
            · split
              · next hd2 =>
                  have hs3 := hs2.translate.eq hd2
                  exact .mk hs3
              · exact hs2.translate
        · exact hs.translate
  · exact .mk hs

theorem Evolves.allow {a : Access} {addr size : ℕ} (hs : Evolves s₀ s) : Evolves₂ s₀ (s.allow a addr size) := by
  unfold State.allow
  refine .ite ?_ ?_
  · exact .mk hs
  · split
    · next hd =>
        have hs1 := hs.tables.eq hd
        split
        · exact .mk hs1
        · exact .ite (.mk hs1) (.mk hs1)
    · exact hs.tables

theorem Evolves.checkAccess {a : Access} {addr size : ℕ} (hs : Evolves s₀ s) : Evolves₂ s₀ (s.checkAccess a addr size) := by
  unfold State.checkAccess
  split
  · next hd =>
      have hs1 := hs.allow.eq hd
      exact .mk hs1.ttuFault
  · exact hs.allow

theorem Evolves.busIn {q : HeldReq} {g : Claim} (hs : Evolves s₀ s) : Evolves₂ s₀ (s.busIn q g) := by
  unfold State.busIn
  dsimp only
  split
  · exact .mk hs
  · next hd =>
      have hs1 := hs.claimUnits _ hd
      split
      · next hd1 =>
          have hs2 := hs1.checkAccess.eq hd1
          exact hs2.busOn
      · next hd1 =>
          have hs2 := hs1.checkAccess.eq hd1
          split
          · exact .mk hs2.chargeAll.postedError
          · exact .mk hs2.chargeAll
      · next hd1 =>
          have hs2 := hs1.checkAccess.eq hd1
          exact hs2.standBefore
      · next hd1 =>
          have hs2 := hs1.checkAccess.eq hd1
          exact .mk hs2.freeze.openTxn

theorem Evolves.hartTag {a : Access} (hs : Evolves s₀ s) : Evolves s₀ (s.hartTag a) := by
  unfold State.hartTag
  split
  · exact hs.setHart.wr
  · exact hs

theorem Evolves.bus {q : HeldReq} {g : Claim} (hs : Evolves s₀ s) : Evolves₂ s₀ (s.bus q g) := by
  unfold State.bus
  dsimp only
  refine .ite ?_ ?_
  · exact .mk hs
  · split
    · exact hs.busOn
    · refine .ite ?_ ?_
      · exact .mk hs
      · split
        · exact hs.standBefore
        · exact hs.hartTag.syncPort.busIn

theorem Evolves.request {q : HeldReq} (hs : Evolves s₀ s) : Evolves s₀ (s.request q) := by
  unfold State.request
  dsimp only
  exact hs.bus.busAnswer

theorem yields_execTileHbmRequest {t : ℕ} {a : Access} {addr size : ℕ} {w : List Byte} {e : RowError} (hs : Evolves s₀ s) :
    Yields s₀ (execTileHbmRequest t a addr size w e s) :=
  .ite .refused (.ite (.go hs) (.go hs.request))

theorem Evolves.portDown {tag : ℕ} (hs : Evolves s₀ s) : Evolves s₀ (s.portDown tag) :=
  .ite hs.answer hs

theorem Evolves.portWrite {tag off size : ℕ} {v : DWord} (hs : Evolves s₀ s) : Evolves s₀ (s.portWrite tag off size v) := by
  unfold State.portWrite
  dsimp only
  refine .ite ?_ ?_
  · exact hs.cpWrite.answer
  · exact hs.portDown

theorem yields_execCpChainHeadWrite {tag off size : ℕ} {v : DWord} (hs : Evolves s₀ s) :
    Yields s₀ (execCpChainHeadWrite tag off size v s) :=
  .go hs.portWrite

theorem yields_execCpDoorbellRing {tag off size : ℕ} {v : DWord} (hs : Evolves s₀ s) :
    Yields s₀ (execCpDoorbellRing tag off size v s) :=
  .go hs.portWrite

theorem yields_execCpFaultCodeClear {tag off size : ℕ} {v : DWord} (hs : Evolves s₀ s) :
    Yields s₀ (execCpFaultCodeClear tag off size v s) :=
  .go hs.portWrite

theorem Evolves.portRead {tag off size : ℕ} (hs : Evolves s₀ s) : Evolves s₀ (s.portRead tag off size) := by
  unfold State.portRead
  dsimp only
  refine .ite ?_ ?_
  · exact hs.cpRead.answer
  · exact hs.portDown

theorem yields_execCpLowHalfRead {tag : ℕ} {epoch : Bool} (hs : Evolves s₀ s) : Yields s₀ (execCpLowHalfRead tag epoch s) :=
  .go hs.portRead

theorem yields_execCpHighHalfRead {tag : ℕ} {epoch : Bool} (hs : Evolves s₀ s) : Yields s₀ (execCpHighHalfRead tag epoch s) :=
  .go hs.portRead

theorem Evolves.setNet {x : Net} (hs : Evolves s₀ s) : Evolves s₀ (s.setNet x) :=
  hs.upd

theorem Evolves.setAuth {dusk : Bool} {cause : ℕ} (hs : Evolves s₀ s) : Evolves s₀ (s.setAuth dusk cause) := by
  unfold State.setAuth
  dsimp only
  exact (Evolves.ite hs.wr hs).optElse fun hu => (Evolves.ite (hu.wr.opt fun hu1 => hu1.upd).incSat
    (hu.wr.opt fun hu1 => hu1.upd).incSat).upd.setNet

theorem Evolves.takeAuth (hs : Evolves s₀ s) : Evolves s₀ (s.takeAuth) :=
  .ite hs.setAuth hs

theorem Evolves.kick {v : ℕ} (hs : Evolves s₀ s) : Evolves s₀ (s.kick v) := by
  unfold State.kick
  dsimp only
  exact .ite hs.upd hs

theorem Evolves.islandWrite {off v : ℕ} (hs : Evolves s₀ s) : Evolves s₀ (s.islandWrite off v) := by
  unfold State.islandWrite
  dsimp only
  exact .ite hs (.ite hs.upd (.ite (.ite hs.takeAuth hs)
    (.ite hs.wr (.ite hs.kick (.ite (.ite hs (.ite hs.upd hs.drawn.upd)) (.ite hs.answer hs))))))

theorem yields_execRegisterWrite {w : RegWrite} (hs : Evolves s₀ s) : Yields s₀ (execRegisterWrite w s) := by
  unfold execRegisterWrite
  split
  · exact .go hs.portWrite
  · exact .go hs.islandWrite

theorem Evolves.fillStrand {k : ℕ} (hs : Evolves s₀ s) : Evolves s₀ (s.fillStrand k) := by
  unfold State.fillStrand
  dsimp only
  refine .ite ?_ ?_
  · exact hs
  · split
    · exact hs
    · exact hs.setCtx.upd

theorem Evolves.schedule (hs : Evolves s₀ s) : Evolves s₀ (s.schedule) :=
  .ite (hs.foldl fun hu => hu.fillStrand) hs

theorem Evolves.startChain {n head : ℕ} (hs : Evolves s₀ s) : Evolves s₀ (s.startChain n head) := by
  unfold State.startChain
  dsimp only
  exact (Evolves.ite hs.setCtx hs.setCtx).schedule

theorem Evolves.ended {s₀ t : State} {p : ℕ} (hs : Evolves s₀ t) : Evolves s₀ (t.ended p) := by
  unfold State.ended
  dsimp only
  exact hs.upd

/-- The words of Orrery's space come from one state and the others from another. -/
theorem Evolves.withCharges {t : State} (hs : Evolves s₀ s) (ht : Evolves s₀ t) : Evolves s₀ (s.withCharges t) := by
  obtain ⟨⟨hcanon, hpending⟩, hfuses, hnow⟩ := hs
  refine ⟨⟨fun c => ?_, hpending⟩, hfuses, hnow⟩
  have hwords := (hcanon c).1
  have hwords' := (ht.1.1 c).1
  rw [ht.2.1, ← hfuses] at hwords'
  exact ⟨tcanon_splice hwords hwords', (hcanon c).2⟩

theorem Evolves.stalled {t : State} {p : ℕ} {u : Option ℕ} {x : Stall} (hs : Evolves s₀ s) (ht : Evolves s₀ t) :
    Evolves s₀ (s.stalled t p u x) := by
  have hst := hs.withCharges ht
  unfold State.stalled
  dsimp only
  split
  · exact hst.upd.hold
  · exact hst.upd.governHold
  · split
    · exact hst.upd.freeze.openTxn
    · exact hst.upd.openTxn

/-- A command that runs to its end, or stops and comes again, comes from the state before it where its own run does. -/
theorem Evolves.attempt {p : ℕ} {u : Option ℕ} {f : State → Host.Outcome State Fault Refusal}
    (hs : Evolves s₀ s) (hf : ∀ {v}, Evolves s₀ v → Yields s₀ (f v)) : Yields s₀ (s.attempt p u f) := by
  unfold State.attempt
  refine .ite (.go hs) ?_
  split
  · next hd =>
    have ht := hf hs.upd _ hd
    split
    · exact .go ht.ended
    · exact .go (hs.stalled ht)
  · next hd =>
    intro t ht
    exact absurd ht (hd t)

theorem Evolves.stallAt {x : Stall} (hs : Evolves s₀ s) : Evolves s₀ (s.stallAt x) := by
  unfold State.stallAt
  dsimp only
  exact hs.upd

theorem Evolves.cmpFault {n : ℕ} {st : Status} {opcode addr : ℕ} (hs : Evolves s₀ s) :
    Evolves s₀ (s.cmpFault n st opcode addr) := by
  unfold State.cmpFault
  dsimp only
  exact .ite hs.record.upd hs.record.upd

theorem Evolves.sampleLine {n : ℕ} (hs : Evolves s₀ s) : Evolves s₀ (s.sampleLine n) := by
  unfold State.sampleLine
  dsimp only
  refine .ite ?_ ?_
  · exact hs.setCtx
  · split
    · exact hs.stallAt
    · next hd =>
        have hs1 := hs.pay _ hd
        refine .ite ?_ ?_
        · exact hs1.readThrough.cmpFault.setCtx
        · exact hs1.readThrough.chargeAll.writeThrough.startChain

theorem yields_execChainHeadSample {n : ℕ} (hs : Evolves s₀ s) : Yields s₀ (execChainHeadSample n s) := by
  unfold execChainHeadSample
  dsimp only
  exact .ite (.go hs) (.ite (.go hs.upd.startChain) (.ite (.go hs) (hs.attempt fun hu => .go hu.sampleLine)))

theorem yields_execTenantDoorbell {n : ℕ} (hs : Evolves s₀ s) : Yields s₀ (execTenantDoorbell n s) := by
  unfold execTenantDoorbell
  dsimp only
  exact .ite (.go hs) (.ite (.go hs.setCtx) (.go hs))

theorem Evolves.releaseStrand {n : ℕ} (hs : Evolves s₀ s) : Evolves s₀ (s.releaseStrand n) := by
  unfold State.releaseStrand
  dsimp only
  split
  · exact hs.setCtx
  · exact hs

theorem yields_execStrandQuantumExpiry {k : ℕ} (hs : Evolves s₀ s) : Yields s₀ (execStrandQuantumExpiry k s) := by
  unfold execStrandQuantumExpiry
  split
  · exact .go hs
  · exact .go hs.releaseStrand.schedule

theorem Evolves.park {n : ℕ} {w : Wait} (hs : Evolves s₀ s) : Evolves s₀ (s.park n w) := by
  unfold State.park
  dsimp only
  exact hs.setCtx.releaseStrand.schedule

theorem Evolves.ctxBus {n : ℕ} {k : Kind} {addr size : ℕ} {w : List Byte} {e : RowError} (hs : Evolves s₀ s) :
    Evolves₂ s₀ (s.ctxBus n k addr size w e) := by
  unfold State.ctxBus
  dsimp only
  split
  · exact .mk hs.setCtx
  · split
    · next hd1 =>
        have hs2 := hs.bus.eq hd1
        exact .mk hs2.setCtx
    · next hd1 =>
        have hs2 := hs.bus.eq hd1
        exact .mk hs2.park.hold
    · next hd1 =>
        have hs2 := hs.bus.eq hd1
        exact .mk hs2
    · next hd1 =>
        have hs2 := hs.bus.eq hd1
        exact .mk hs2.upd.park

theorem Evolves.startProgram {n desc strand : ℕ} {b : List Byte} (hs : Evolves s₀ s) :
    Evolves s₀ (s.startProgram n desc strand b) := by
  unfold State.startProgram
  dsimp only
  exact hs.setCtx.opt fun hu => hu.cmpFault

theorem Evolves.endChain {n : ℕ} (hs : Evolves s₀ s) : Evolves s₀ (s.endChain n) := by
  unfold State.endChain
  dsimp only
  exact hs.setCtx

theorem yields_execProgramStart {n : ℕ} {e : RowError} (hs : Evolves s₀ s) : Yields s₀ (execProgramStart n e s) := by
  unfold execProgramStart
  dsimp only
  split
  · refine .ite ?_ ?_
    · exact .go hs
    · split
      · next hd1 =>
          have hs2 := hs.ctxBus.eq hd1
          exact .go hs2
      · next hd1 =>
          have hs2 := hs.ctxBus.eq hd1
          exact .ite (.go hs2.startProgram) (.go hs2.cmpFault.endChain.schedule)
  · exact .go hs

theorem Evolves.discardSeq {n : ℕ} (hs : Evolves s₀ s) : Evolves s₀ (s.discardSeq n) := by
  unfold State.discardSeq
  dsimp only
  exact hs.setCtx.upd

theorem Evolves.startOf {start : Option ℕ} (hs : Evolves s₀ s) : Evolves₂ s₀ (s.startOf start) := by
  unfold State.startOf
  split
  · exact .mk hs
  · exact .mk hs.drawn

theorem Evolves.engineBus {a : Access} {addr size : ℕ} {w : List Byte} {g : Claim} {e : RowError} (hs : Evolves s₀ s) :
    Evolves₃ s₀ (s.engineBus a addr size w g e) := by
  unfold State.engineBus
  dsimp only
  split
  · split
    · next hd1 =>
        have hs2 := hs.bus.eq hd1
        exact .mk hs2
    · next hd1 =>
        have hs2 := hs.bus.eq hd1
        exact .mk hs2
  · refine .ite ?_ ?_
    · exact .mk hs
    · split
      · exact .mk hs.upd
      · split
        · next hd2 =>
            have hs3 := hs.bus.eq hd2
            exact .mk hs3
        · next hd2 =>
            have hs3 := hs.bus.eq hd2
            exact .mk hs3.stallAt
        · next hd2 =>
            have hs3 := hs.bus.eq hd2
            exact .mk hs3.stallAt
        · next hd2 =>
            have hs3 := hs.bus.eq hd2
            split
            · exact .mk hs3.stallAt
            · exact .mk hs3

theorem Evolves.writeRecord {inst addr : ℕ} {bytes : List Byte} (hs : Evolves s₀ s) :
    Evolves₂ s₀ (s.writeRecord inst addr bytes) := by
  unfold State.writeRecord
  dsimp only
  exact .mk hs.engineBus

theorem Evolves.goTo {n pc : ℕ} (hs : Evolves s₀ s) : Evolves s₀ (s.goTo n pc) := by
  unfold State.goTo
  dsimp only
  exact hs.setCtx

theorem Evolves.pushHistory {n id : ℕ} {st : Status} (hs : Evolves s₀ s) : Evolves s₀ (s.pushHistory n id st) := by
  unfold State.pushHistory
  dsimp only
  split
  · exact .ite hs.setCtx.goTo hs.setCtx
  · exact hs.setCtx

theorem Evolves.recordProgram {n : ℕ} {p : Prog} {st : Status} (hs : Evolves s₀ s) : Evolves s₀ (s.recordProgram n p st) := by
  unfold State.recordProgram
  dsimp only
  exact (Evolves₂.ite (.mk hs.startOf) (.mk (hs.startOf.writeRecord.optElse fun hu => hu.cmpFault))).pushHistory.opt fun hu =>
    hu.drawn.send

theorem Evolves.finishProgram {n : ℕ} {follow : Bool} (hs : Evolves s₀ s) : Evolves s₀ (s.finishProgram n follow) := by
  unfold State.finishProgram
  dsimp only
  split
  · exact hs
  · exact (Evolves.ite hs.discardSeq.setCtx.upd.recordProgram.endChain
      (.ite hs.discardSeq.setCtx.upd.recordProgram.cmpFault.endChain
      (hs.discardSeq.setCtx.upd.recordProgram.setCtx.opt fun hu1 => hu1.releaseStrand))).schedule

theorem yields_execProgramEnd {n : ℕ} (hs : Evolves s₀ s) : Yields s₀ (execProgramEnd n s) := by
  unfold execProgramEnd
  split
  · exact .go hs
  · exact .ite (.go hs) (hs.attempt fun hu1 => .go hu1.finishProgram)

theorem Evolves.endWith {n : ℕ} {st : Status} (hs : Evolves s₀ s) : Evolves s₀ (s.endWith n st) := by
  unfold State.endWith
  dsimp only
  exact hs.setCtx

theorem Evolves.failWith {n : ℕ} {st : Status} (hs : Evolves s₀ s) : Evolves s₀ (s.failWith n st) := by
  unfold State.failWith
  dsimp only
  exact hs.endWith.setCtx

theorem Evolves.specRead {a : Access} {addr size : ℕ} {e : RowError} (hs :
    Evolves s₀ s) : ∀ r, s.specRead a addr size e = some r → Evolves s₀ r.2.2 := by
  intro r hr
  unfold State.specRead at hr
  split at hr
  · next hd =>
    obtain rfl := Option.some.inj hr
    exact hs.bus.eq hd
  · next hd =>
    have ht := hs.bus.eq hd
    split at hr
    · obtain rfl := Option.some.inj hr
      exact hs.withCharges ht
    · obtain rfl := Option.some.inj hr
      exact ht
  · next hd =>
    obtain rfl := Option.some.inj hr
    exact hs.bus.eq hd
  · next hd =>
    obtain rfl := Option.some.inj hr
    exact hs.withCharges (hs.bus.eq hd)
  · exact absurd hr (by simp)

theorem Evolves.runAhead {n : ℕ} {p : Prog} {pos : ℕ} {w : DWord} {e : RowError} (hs : Evolves s₀ s) :
    Evolves s₀ (s.runAhead n p pos w e) := by
  unfold State.runAhead
  dsimp only
  refine .ite ?_ ?_
  · split
    · next hd =>
        have hs1 := hs.ctxBus.eq hd
        exact .ite hs1.setCtx hs1.cmpFault.failWith
    · next hd =>
        have hs1 := hs.ctxBus.eq hd
        exact hs1
  · split
    · exact hs
    · next hd =>
        have hs1 := hs.specRead _ hd
        refine .ite ?_ ?_
        · exact hs1.setCtx
        · split
          · exact hs1.setCtx
          · refine .ite ?_ ?_
            · exact hs1.setCtx
            · split
              · exact hs1.setCtx
              · next hd2 =>
                  have hs3 := hs1.setCtx.specRead _ hd2
                  exact hs3.setCtx

theorem Evolves.spend {n cyc : ℕ} (hs : Evolves s₀ s) : Evolves s₀ (s.spend n cyc) := by
  unfold State.spend
  dsimp only
  exact hs.charge.optElse fun hu => hu.setCtx

theorem Evolves.runAheadNext {n : ℕ} {p : Prog} {k : ℕ} {w : DWord} {e : RowError} (hs : Evolves s₀ s) :
    Evolves s₀ (s.runAheadNext n p k w e) := by
  unfold State.runAheadNext
  dsimp only
  refine .ite ?_ ?_
  · exact hs
  · split
    · exact hs
    · next hd =>
        have hs1 := hs.specRead _ hd
        refine .ite ?_ ?_
        · exact hs1.setCtx
        · split
          · exact hs1.setCtx
          · next hd1 =>
              have hs2 := hs1.setCtx.specRead _ hd1
              exact hs2.setCtx

theorem yields_execRunAheadFetch {n pos : ℕ} {w : DWord} {cyc : ℕ} {e : RowError} (hs : Evolves s₀ s) :
    Yields s₀ (execRunAheadFetch n pos w cyc e s) := by
  unfold execRunAheadFetch
  dsimp only
  split
  · exact .ite (.go hs) (.ite (.go hs.spend.runAhead) (.go hs.spend.runAheadNext))
  · exact .go hs

theorem Evolves.faultEnd {n cyc op : ℕ} {p : Prog} (hs : Evolves s₀ s) : Evolves s₀ (s.faultEnd n cyc op p) := by
  unfold State.faultEnd
  dsimp only
  exact hs.spend.cmpFault.failWith

theorem Evolves.privEnd {n cyc : ℕ} (hs : Evolves s₀ s) : Evolves s₀ (s.privEnd n cyc) := by
  unfold State.privEnd
  dsimp only
  exact hs.spend.violation.failWith

theorem Evolves.issue {i : Issue} {opc : ℕ} {body : AWord → Ctx → State} (hs : Evolves s₀ s) (hf : ∀ {a c}, Evolves s₀ (body a c)) :
    Yields s₀ (s.issue i opc body) := by
  unfold State.issue
  dsimp only
  refine .ite .refused ?_
  split
  · exact .ite (.go hs) (.ite (.go hs.releaseStrand.schedule) (.ite (.go hs.faultEnd) (.ite (.go hs.privEnd) (.go hf))))
  · exact .go hs

theorem Evolves.retire {n cyc : ℕ} {c : Bool} {adv : ℕ} {st : Status} {f : Ctx → Ctx} (hs : Evolves s₀ s) :
    Evolves s₀ (s.retire n cyc c adv st f) := by
  unfold State.retire
  dsimp only
  exact .ite hs.spend.setCtx.failWith hs.spend.setCtx.goTo

theorem yields_execNop {i : Issue} (hs : Evolves s₀ s) : Yields s₀ (execNop i s) :=
  hs.issue hs.retire

theorem yields_execEndProgram {i : Issue} (hs : Evolves s₀ s) : Yields s₀ (execEndProgram i s) := by
  unfold execEndProgram
  dsimp only
  exact hs.issue hs.spend.setCtx.endWith

theorem yields_execYield {i : Issue} (hs : Evolves s₀ s) : Yields s₀ (execYield i s) :=
  hs.issue hs.retire.releaseStrand.schedule

theorem yields_execFence {i : Issue} (hs : Evolves s₀ s) : Yields s₀ (execFence i s) :=
  hs.issue (.ite hs hs.retire)

theorem yields_execEpoch {i : Issue} (hs : Evolves s₀ s) : Yields s₀ (execEpoch i s) := by
  unfold execEpoch
  dsimp only
  exact hs.issue hs.retire

theorem Evolves.quiet {n cyc pc : ℕ} {f : Ctx → Ctx} (hs : Evolves s₀ s) : Evolves s₀ (s.quiet n cyc pc f) := by
  unfold State.quiet
  dsimp only
  exact hs.spend.setCtx.goTo

theorem Evolves.alu {i : Issue} {a : AWord} {c : Ctx} {adv : ℕ} {v : DWord} (hs : Evolves s₀ s) : Evolves s₀ (s.alu i a c adv v) :=
  hs.quiet

theorem yields_execLi {i : Issue} (hs : Evolves s₀ s) : Yields s₀ (execLi i s) :=
  hs.issue hs.alu

theorem yields_execLix {i : Issue} (hs : Evolves s₀ s) : Yields s₀ (execLix i s) :=
  hs.issue hs.alu

theorem yields_execAdd {i : Issue} (hs : Evolves s₀ s) : Yields s₀ (execAdd i s) :=
  hs.issue hs.alu

theorem yields_execAddi {i : Issue} (hs : Evolves s₀ s) : Yields s₀ (execAddi i s) :=
  hs.issue hs.alu

theorem yields_execSub {i : Issue} (hs : Evolves s₀ s) : Yields s₀ (execSub i s) :=
  hs.issue hs.alu

theorem yields_execAnd {i : Issue} (hs : Evolves s₀ s) : Yields s₀ (execAnd i s) :=
  hs.issue hs.alu

theorem yields_execOr {i : Issue} (hs : Evolves s₀ s) : Yields s₀ (execOr i s) :=
  hs.issue hs.alu

theorem yields_execXor {i : Issue} (hs : Evolves s₀ s) : Yields s₀ (execXor i s) :=
  hs.issue hs.alu

theorem yields_execShli {i : Issue} (hs : Evolves s₀ s) : Yields s₀ (execShli i s) :=
  hs.issue hs.alu

theorem yields_execShri {i : Issue} (hs : Evolves s₀ s) : Yields s₀ (execShri i s) :=
  hs.issue hs.alu

theorem yields_execMovs {i : Issue} (hs : Evolves s₀ s) : Yields s₀ (execMovs i s) :=
  hs.issue hs.alu

theorem yields_execBr {i : Issue} (hs : Evolves s₀ s) : Yields s₀ (execBr i s) :=
  hs.issue hs.quiet

theorem yields_execBst {i : Issue} (hs : Evolves s₀ s) : Yields s₀ (execBst i s) :=
  hs.issue hs.quiet

theorem yields_execCall {i : Issue} (hs : Evolves s₀ s) : Yields s₀ (execCall i s) :=
  hs.issue hs.quiet

theorem yields_execRet {i : Issue} (hs : Evolves s₀ s) : Yields s₀ (execRet i s) :=
  hs.issue hs.quiet

theorem yields_execLd {i : Issue} {e : RowError} (hs : Evolves s₀ s) : Yields s₀ (execLd i e s) := by
  refine hs.issue fun {a c} => ?_
  dsimp only
  split
  · exact hs.retire
  · split
    · next hd => exact hs.ctxBus.eq hd
    · next hd => exact (hs.ctxBus.eq hd).retire

theorem yields_execSt {i : Issue} {e : RowError} (hs : Evolves s₀ s) : Yields s₀ (execSt i e s) := by
  refine hs.issue fun {a c} => ?_
  dsimp only
  split
  · next hd => exact hs.ctxBus.eq hd
  · next hd => exact (hs.ctxBus.eq hd).retire

theorem Evolves.suspend {n : ℕ} {w : Wait} {c : Bool} {adv : ℕ} (hs : Evolves s₀ s) : Evolves s₀ (s.suspend n w c adv) := by
  unfold State.suspend
  dsimp only
  exact hs.setCtx.schedule

theorem yields_execPoll {i : Issue} {e : RowError} (hs : Evolves s₀ s) : Yields s₀ (execPoll i e s) := by
  refine hs.issue fun {a c} => ?_
  dsimp only
  split
  · next hd => exact hs.ctxBus.eq hd
  · next hd =>
    have ht := hs.ctxBus.eq hd
    exact .ite ht.retire (.ite ht.retire ht.spend.suspend)

theorem Evolves.retireWait {n : ℕ} {st : Status} {f : Ctx → Ctx} (hs : Evolves s₀ s) : Evolves s₀ (s.retireWait n st f) := by
  unfold State.retireWait
  dsimp only
  exact hs.upd.setCtx.retire.schedule

theorem yields_execPollCheck {n cyc : ℕ} {e : RowError} (hs : Evolves s₀ s) : Yields s₀ (execPollCheck n cyc e s) := by
  unfold execPollCheck
  dsimp only
  split
  · exact hs.attempt fun hu1 => .ite (.go hu1.spend.engineBus.retireWait)
      (.ite (.go hu1.spend.engineBus.retireWait) (.go hu1.spend.engineBus))
  · exact .go hs

theorem yields_execPollTimeout {n : ℕ} (hs : Evolves s₀ s) : Yields s₀ (execPollTimeout n s) := by
  unfold execPollTimeout
  split
  · exact .go hs.retireWait
  · exact .go hs

theorem Evolves.openSeq {n : ℕ} (hs : Evolves s₀ s) : Evolves s₀ (s.openSeq n) := by
  unfold State.openSeq
  dsimp only
  exact hs.setCtx

theorem Evolves.addStaged {n : ℕ} {e : Staged} (hs : Evolves s₀ s) : Evolves s₀ (s.addStaged n e) := by
  unfold State.addStaged
  dsimp only
  exact hs.setCtx.optElse fun hu => hu.upd

theorem Evolves.stage {i : Issue} {a : AWord} {c : Ctx} {v : DWord} {adv : ℕ} (hs : Evolves s₀ s) :
    Evolves s₀ (s.stage i a c v adv) := by
  unfold State.stage
  dsimp only
  refine .ite ?_ ?_
  · exact hs.openSeq.retire
  · refine .ite ?_ ?_
    · exact hs.openSeq.setCtx.retire
    · split
      · exact hs.openSeq.violation.retire
      · exact hs.openSeq.retire
      · exact .ite hs.openSeq.addStaged.retire hs.openSeq.upd.spend.suspend

theorem yields_execStage {i : Issue} (hs : Evolves s₀ s) : Yields s₀ (execStage i s) :=
  hs.issue hs.stage

theorem yields_execStagei {i : Issue} (hs : Evolves s₀ s) : Yields s₀ (execStagei i s) :=
  hs.issue hs.stage

theorem Evolves.leaveQueues {n : ℕ} (hs : Evolves s₀ s) : Evolves s₀ (s.leaveQueues n) := by
  unfold State.leaveQueues
  dsimp only
  exact hs.upd

theorem yields_execSpaceLockGrant {space : ℕ} (hs : Evolves s₀ s) : Yields s₀ (execSpaceLockGrant space s) := by
  unfold execSpaceLockGrant
  refine .ite ?_ ?_
  · exact .go hs
  · split
    · exact .go hs
    · split
      · exact .go hs.leaveQueues.addStaged.retireWait
      · exact .go hs

theorem yields_execSpaceLockTimeout {n : ℕ} (hs : Evolves s₀ s) : Yields s₀ (execSpaceLockTimeout n s) := by
  unfold execSpaceLockTimeout
  split
  · exact .go hs.leaveQueues.retireWait
  · exact .go hs

theorem Evolves.applyEntry {e : Staged} (hs : Evolves s₀ s) : Evolves s₀ (s.applyEntry e) := by
  unfold State.applyEntry
  dsimp only
  exact hs.setWord

theorem Evolves.image {es : List Staged} (hs : Evolves s₀ s) : Evolves s₀ (s.image es) :=
  hs.foldl fun hu => hu.applyEntry

theorem Evolves.each {α : Type} {l : List α} {f : State → α → State}
    (hs : Evolves s₀ s) (hf : ∀ {u a}, Evolves s₀ u → Evolves s₀ (f u a)) : Evolves s₀ (s.each l f) := Evolves.foldl hs hf

theorem Evolves.hartGo {h : ℕ} (hs : Evolves s₀ s) : Evolves s₀ (s.hartGo h) := by
  unfold State.hartGo
  exact .ite hs.upd.setHart hs

theorem Evolves.forceRelease {k : ℕ} (hs : Evolves s₀ s) : Evolves s₀ (s.forceRelease k) := by
  unfold State.forceRelease
  dsimp only
  exact hs.wr.wr.record.upd

theorem Evolves.forceReleaseAll {n : ℕ} (hs : Evolves s₀ s) : Evolves s₀ (s.forceReleaseAll n) :=
  hs.foldl fun hu => hu.forceRelease

theorem Evolves.dropAccesses {n : ℕ} (hs : Evolves s₀ s) : Evolves s₀ (s.dropAccesses n) := by
  unfold State.dropAccesses
  dsimp only
  exact hs.upd

theorem Evolves.stopContext {n : ℕ} (hs : Evolves s₀ s) : Evolves s₀ (s.stopContext n) := by
  unfold State.stopContext
  dsimp only
  exact .ite hs.leaveQueues.endWith.setCtx (.ite hs.leaveQueues.dropAccesses.endWith.finishProgram
    hs.leaveQueues.dropAccesses.discardSeq.endChain.schedule)

theorem Evolves.resetContext {n : ℕ} (hs : Evolves s₀ s) : Evolves s₀ (s.resetContext n) := by
  unfold State.resetContext
  dsimp only
  exact hs.stopContext.forceReleaseAll.setCtx

theorem Evolves.setJob {j : Job} (hs : Evolves s₀ s) : Evolves s₀ (s.setJob j) := by
  unfold State.setJob
  dsimp only
  exact hs.upd

theorem Evolves.completeJob {u : ℕ} {st : Status} (hs : Evolves s₀ s) : Evolves s₀ (s.completeJob u st) := by
  unfold State.completeJob
  split
  · exact hs
  · split
    · exact hs
    · exact hs.setJob

theorem Evolves.slotFree (hs : Evolves s₀ s) : Evolves s₀ (s.slotFree) := by
  unfold State.slotFree
  dsimp only
  exact hs.upd

theorem Evolves.recordJob {u : ℕ} {st : Status} (hs : Evolves s₀ s) : Evolves s₀ (s.recordJob u st) := by
  unfold State.recordJob
  dsimp only
  split
  · exact hs
  · exact hs.startOf.writeRecord.upd.pushHistory.slotFree.schedule

theorem Evolves.endJob {u : ℕ} {st : Status} (hs : Evolves s₀ s) : Evolves s₀ (s.endJob u st) := by
  unfold State.endJob
  dsimp only
  split
  · split
    · exact hs.completeJob.recordJob
    · exact hs.completeJob
  · exact hs.completeJob

theorem Evolves.syncTile {t : ℕ} (hs : Evolves s₀ s) : Evolves s₀ (s.syncTile t) := by
  unfold State.syncTile
  dsimp only
  exact .ite hs hs.wr

theorem Evolves.setTileQueue {t : ℕ} {l : List TileDesc} (hs : Evolves s₀ s) : Evolves s₀ (s.setTileQueue t l) := by
  unfold State.setTileQueue
  dsimp only
  exact hs.upd

theorem Evolves.dropJob {u : ℕ} (hs : Evolves s₀ s) : Evolves s₀ (s.dropJob u) := by
  unfold State.dropJob
  dsimp only
  exact hs.upd.foldl fun hu => .ite hu.setTileQueue.syncTile hu

theorem Evolves.infEnd {u : ℕ} {st : Status} (hs : Evolves s₀ s) : Evolves s₀ (s.infEnd u st) :=
  hs.dropJob.endJob

theorem Evolves.setGfx {g : Gfx} (hs : Evolves s₀ s) : Evolves s₀ (s.setGfx g) :=
  hs.upd

theorem Evolves.syncCluster {c : ℕ} (hs : Evolves s₀ s) : Evolves s₀ (s.syncCluster c) := by
  unfold State.syncCluster
  dsimp only
  exact hs.wr

theorem Evolves.syncClusters (hs : Evolves s₀ s) : Evolves s₀ (s.syncClusters) :=
  hs.foldl fun hu => hu.syncCluster

theorem Evolves.gfxEnd {u : ℕ} {st : Status} (hs : Evolves s₀ s) : Evolves s₀ (s.gfxEnd u st) := by
  unfold State.gfxEnd
  dsimp only
  split
  · exact hs
  · exact hs.setGfx.wr.wr.endJob.syncClusters

theorem Evolves.compEnd {u : ℕ} {st : Status} (hs : Evolves s₀ s) : Evolves s₀ (s.compEnd u st) := by
  unfold State.compEnd
  dsimp only
  exact hs.setGfx.endJob.syncClusters

theorem Evolves.syncPipe {d : ℕ} (hs : Evolves s₀ s) : Evolves s₀ (s.syncPipe d) := by
  unfold State.syncPipe
  dsimp only
  exact hs.wr.wr

theorem Evolves.setPipe {d : ℕ} {p : Pipe} (hs : Evolves s₀ s) : Evolves s₀ (s.setPipe d p) :=
  hs.upd.syncPipe

theorem Evolves.frameEnd {d u : ℕ} {st : Status} (hs : Evolves s₀ s) : Evolves s₀ (s.frameEnd d u st) := by
  unfold State.frameEnd
  dsimp only
  exact hs.setPipe.endJob

theorem Evolves.frameAbort {u : ℕ} (hs : Evolves s₀ s) : Evolves s₀ (s.frameAbort u) := by
  unfold State.frameAbort
  split
  · exact .ite hs hs.frameEnd
  · exact hs

theorem Evolves.setSxt {x : Sxt} (hs : Evolves s₀ s) : Evolves s₀ (s.setSxt x) :=
  hs.upd

theorem Evolves.fusEnd {u : ℕ} {st : Status} (hs : Evolves s₀ s) : Evolves s₀ (s.fusEnd u st) := by
  unfold State.fusEnd
  dsimp only
  exact hs.setSxt.endJob

theorem Evolves.setCryEngine {n : ℕ} {x : CryEngine} (hs : Evolves s₀ s) : Evolves s₀ (s.setCryEngine n x) := by
  unfold State.setCryEngine
  dsimp only
  exact hs.upd

theorem Evolves.cryDrop {n u : ℕ} (hs : Evolves s₀ s) : Evolves s₀ (s.cryDrop n u) := by
  unfold State.cryDrop
  dsimp only
  exact hs.setCryEngine

theorem Evolves.dmaWrite {a : Access} {addr : ℕ} {bytes : List Byte} (hs : Evolves s₀ s) :
    Evolves₂ s₀ (s.dmaWrite a addr bytes) := by
  unfold State.dmaWrite
  dsimp only
  exact (Evolves₂.mk hs).foldl fun hu => .ite hu (.mk hu.engineBus)

theorem Evolves.cryState {n : ℕ} {j : CryJob} {st : ℕ} {code : Option Status} (hs : Evolves s₀ s) :
    Evolves s₀ (s.cryState n j st code) :=
  hs.dmaWrite

theorem Evolves.cryEnd {n : ℕ} {j : CryJob} {st : Status} (hs : Evolves s₀ s) : Evolves s₀ (s.cryEnd n j st) := by
  unfold State.cryEnd
  dsimp only
  split
  · exact hs.cryDrop
  · exact hs.cryDrop.cryState.incWrap.endJob

theorem Evolves.cryAbort {n : ℕ} {j : CryJob} (hs : Evolves s₀ s) : Evolves s₀ (s.cryAbort n j) := by
  unfold State.cryAbort
  dsimp only
  exact .ite hs.drawn.dmaWrite hs

theorem Evolves.setNetJob {j : NetJob} (hs : Evolves s₀ s) : Evolves s₀ (s.setNetJob j) := by
  unfold State.setNetJob
  dsimp only
  exact hs.setNet

theorem Evolves.entryDone {u k : ℕ} {st : Status} {stamp : ℕ} (hs : Evolves s₀ s) : Evolves s₀ (s.entryDone u k st stamp) := by
  unfold State.entryDone
  dsimp only
  split
  · exact .ite hs (Evolves.ite hs.dmaWrite hs).dmaWrite.setNetJob
  · exact hs

theorem Evolves.netAbort {u : ℕ} (hs : Evolves s₀ s) : Evolves s₀ (s.netAbort u) := by
  unfold State.netAbort
  dsimp only
  split
  · exact hs
  · exact hs.setNetJob.foldl fun hu1 => hu1.entryDone

theorem Evolves.abortJob {j : Job} (hs : Evolves s₀ s) : Evolves s₀ (s.abortJob j) := by
  unfold State.abortJob
  refine .ite ?_ ?_
  · exact hs
  · refine .ite ?_ ?_
    · exact hs.setJob
    · split
      · exact hs.infEnd
      · exact hs.gfxEnd
      · exact hs.compEnd
      · exact hs.setJob.frameAbort
      · exact hs.fusEnd
      · split
        · exact hs.cryAbort.cryEnd
        · exact hs.setJob
      · exact hs.setJob.netAbort

theorem Evolves.dropTag {i : ℕ} (hs : Evolves s₀ s) : Evolves s₀ (s.dropTag i) := by
  unfold State.dropTag
  dsimp only
  exact hs.upd

theorem Evolves.instanceReset {i : ℕ} (hs : Evolves s₀ s) : Evolves s₀ (s.instanceReset i) := by
  unfold State.instanceReset
  dsimp only
  exact ((hs.wr.each fun hu => hu.resetContext).each fun hu => hu.abortJob).upd.dropTag.each fun hu => hu.wr

theorem Evolves.checkSpares (hs : Evolves s₀ s) : Evolves s₀ (s.checkSpares) :=
  .ite hs.raiseCause hs

theorem Evolves.heartbeat {last v : ℕ} (hs : Evolves s₀ s) : Evolves s₀ (s.heartbeat last v) := by
  unfold State.heartbeat
  dsimp only
  exact .ite hs (.ite hs.wr.upd hs.raise)

theorem Evolves.doHeartbeat {j : Judge} (hs : Evolves s₀ s) : Evolves s₀ (Judge.doHeartbeat j s) := by
  unfold Judge.doHeartbeat
  dsimp only
  exact (Evolves.ite hs.upd hs).optElse fun hu => hu.wr.heartbeat

theorem Evolves.cmpFatal (hs : Evolves s₀ s) : Evolves s₀ (s.cmpFatal) := by
  unfold State.cmpFatal
  dsimp only
  exact hs.upd.foldl fun hu => hu.releaseStrand

theorem Evolves.reactRestart {e r : ℕ} (hs : Evolves s₀ s) : Evolves s₀ (s.reactRestart e r) := by
  unfold State.reactRestart
  dsimp only
  exact .ite hs.upd hs

theorem Evolves.reactTakeover {e r : ℕ} (hs : Evolves s₀ s) : Evolves s₀ (s.reactTakeover e r) := by
  unfold State.reactTakeover
  dsimp only
  exact .ite hs hs.upd.setAuth

theorem Evolves.islandInt (hs : Evolves s₀ s) : Evolves s₀ (s.islandInt) := by
  unfold State.islandInt
  dsimp only
  exact .ite hs.upd hs

theorem Evolves.reactNotify {e r : ℕ} (hs : Evolves s₀ s) : Evolves s₀ (s.reactNotify e r) := by
  unfold State.reactNotify
  dsimp only
  exact .ite hs (hs.send.opt fun hu => hu.islandInt)

theorem Evolves.reactRecord {e : ℕ} (hs : Evolves s₀ s) : Evolves s₀ (s.reactRecord e) := by
  unfold State.reactRecord
  dsimp only
  exact hs.wr.incSat.wr.wrPair.record

theorem Evolves.reactWreck {r : ℕ} (hs : Evolves s₀ s) : Evolves s₀ (s.reactWreck r) := by
  unfold State.reactWreck
  dsimp only
  exact .ite hs.wreckTrigger hs

theorem Evolves.islandFail (hs : Evolves s₀ s) : Evolves s₀ (s.islandFail) := by
  unfold State.islandFail
  dsimp only
  exact hs.wr.upd

theorem Evolves.latch {e : ℕ} (hs : Evolves s₀ s) : Evolves s₀ (s.latch e) := by
  unfold State.latch
  dsimp only
  exact ((Evolves.ite hs.cmpFatal hs).reactRecord.reactNotify.reactTakeover.reactRestart.opt fun hu => hu.islandFail).reactWreck

theorem Evolves.eventClr {e : ℕ} (hs : Evolves s₀ s) : Evolves s₀ (s.eventClr e) := by
  unfold State.eventClr
  dsimp only
  exact .ite hs (hs.wr.opt fun hu => hu.latch)

theorem Evolves.bkTell (hs : Evolves s₀ s) : Evolves s₀ (s.bkTell) := by
  unfold State.bkTell
  dsimp only
  exact .ite hs.upd.send hs

theorem Evolves.bkAck (hs : Evolves s₀ s) : Evolves s₀ (s.bkAck) :=
  hs.wr.wr

theorem Evolves.wreckRearm {d : ℕ} (hs : Evolves s₀ s) : Evolves s₀ (s.wreckRearm d) :=
  .ite hs.wr.setWreck hs

theorem Evolves.dumpGo (hs : Evolves s₀ s) : Evolves s₀ (s.dumpGo) := by
  unfold State.dumpGo
  dsimp only
  exact hs.wr.upd

theorem Evolves.doSafety {j : Judge} (hs : Evolves s₀ s) : Evolves s₀ (Judge.doSafety j s) := by
  unfold Judge.doSafety
  dsimp only
  exact (((((hs.doHeartbeat.each fun hu => hu.wr.eventClr).optElse fun hu => hu.bkTell).each fun hu => hu.wr.bkAck).each fun hu =>
    hu.wr.wreckTrigger).each fun hu => hu.wr.each fun hu1 => hu1.wreckRearm).each fun hu => hu.wr.dumpGo

theorem Evolves.updateQ (hs : Evolves s₀ s) : Evolves s₀ (s.updateQ) := by
  unfold State.updateQ
  dsimp only
  exact .ite hs (hs.wr.record.opt fun hu => hu.raise)

theorem Evolves.roleSet (hs : Evolves s₀ s) : Evolves s₀ (s.roleSet) := by
  unfold State.roleSet
  dsimp only
  exact (Evolves.ite hs hs.upd).updateQ

theorem Evolves.nudge {d : ℤ} (hs : Evolves s₀ s) : Evolves s₀ (s.nudge d) := by
  unfold State.nudge
  dsimp only
  exact hs.upd

theorem Evolves.rearmTimers (hs : Evolves s₀ s) : Evolves s₀ (s.rearmTimers) := by
  unfold State.rearmTimers
  dsimp only
  exact hs.foldl fun hu => .ite hu.setHart hu

theorem Evolves.shiftPoses {d : ℤ} (hs : Evolves s₀ s) : Evolves s₀ (s.shiftPoses d) := by
  unfold State.shiftPoses
  dsimp only
  exact hs.setSxt

theorem Evolves.stepEpoch {tag : ℕ} {d : ℤ} (hs : Evolves s₀ s) : Evolves s₀ (s.stepEpoch tag d) := by
  unfold State.stepEpoch
  dsimp only
  exact hs.nudge.upd.incSat.wr.record.shiftPoses.rearmTimers

theorem Evolves.epochGo {tag : ℕ} (hs : Evolves s₀ s) : Evolves s₀ (s.epochGo tag) :=
  hs.stepEpoch.updateQ

theorem Evolves.rtcSync (hs : Evolves s₀ s) : Evolves s₀ (s.rtcSync) :=
  hs.wrPair.wr

theorem Evolves.switchRef {tag cause ns : ℕ} (hs : Evolves s₀ s) : Evolves s₀ (s.switchRef tag cause ns) := by
  unfold State.switchRef
  dsimp only
  exact hs.wr.incSat.record.drawn.nudge

theorem Evolves.refSel {tag : ℕ} (hs : Evolves s₀ s) : Evolves s₀ (s.refSel tag) :=
  .ite hs hs.switchRef.updateQ

theorem Evolves.pdRequest {k req : ℕ} (hs : Evolves s₀ s) : Evolves s₀ (s.pdRequest k req) := by
  unfold State.pdRequest
  dsimp only
  exact .ite (.ite hs.wr (.ite hs.upd hs.upd)) (.ite hs.wr (.ite hs.upd hs.upd))

theorem Evolves.doClk {j : Judge} (hs : Evolves s₀ s) : Evolves s₀ (Judge.doClk j s) := by
  unfold Judge.doClk
  dsimp only
  exact (((((Evolves.ite hs hs.roleSet).each fun hu => hu.wr.epochGo).each fun hu => hu.wr.rtcSync).optElse fun hu =>
    hu.refSel).optElse fun hu => hu.updateQ).each fun hu => hu.pdRequest

theorem Evolves.setEthPort {k : ℕ} {x : EthPort} (hs : Evolves s₀ s) : Evolves s₀ (s.setEthPort k x) := by
  unfold State.setEthPort
  dsimp only
  exact hs.setNet

theorem Evolves.doSa {j : Judge} {ix : List ℕ} (hs : Evolves s₀ s) : Evolves s₀ (Judge.doSa j s ix) := by
  unfold Judge.doSa
  dsimp only
  exact .ite (hs.setNet.opt fun hu => hu.setEthPort) (hs.setNet.opt fun hu => hu.setEthPort)

theorem Evolves.busOffEnd {n c : ℕ} (hs : Evolves s₀ s) : Evolves s₀ (s.busOffEnd n c) :=
  hs.wr.wr.wr.canKick

theorem Evolves.loneEnd {n c : ℕ} (hs : Evolves s₀ s) : Evolves s₀ (s.loneEnd n c) := by
  unfold State.loneEnd
  dsimp only
  exact .ite hs.wr.setCan.canKick hs

theorem Evolves.canResume {n c : ℕ} (hs : Evolves s₀ s) : Evolves s₀ (s.canResume n c) := by
  unfold State.canResume
  dsimp only
  exact (hs.wr.opt fun hu => hu.busOffEnd).loneEnd

theorem Evolves.doNet {j : Judge} (hs : Evolves s₀ s) : Evolves s₀ (Judge.doNet j s) := by
  unfold Judge.doNet
  dsimp only
  exact (((((((hs.each fun hu => .ite hu.wr (.ite hu.wr hu)).each fun hu => .ite hu.wr hu).each fun hu => hu.doSa).each fun hu =>
    hu.setNet).each fun hu => hu.setNet).each fun hu => .ite hu.setNet hu).each fun hu => .ite hu.canKick hu).each fun hu =>
    hu.canResume

theorem Evolves.pipeEnable {d : ℕ} (hs : Evolves s₀ s) : Evolves s₀ (s.pipeEnable d) :=
  hs.setPipe.wr.wr

theorem Evolves.pipeDisable {d : ℕ} (hs : Evolves s₀ s) : Evolves s₀ (s.pipeDisable d) := by
  unfold State.pipeDisable
  dsimp only
  exact ((hs.foldl fun hu => hu.frameEnd).foldl fun hu => hu.frameEnd).setPipe.wr

theorem Evolves.setStream {n : ℕ} {x : Machine.Stream} (hs : Evolves s₀ s) : Evolves s₀ (s.setStream n x) := by
  unfold State.setStream
  dsimp only
  exact hs.setSxt

theorem Evolves.streamEnable {n : ℕ} {on : Bool} (hs : Evolves s₀ s) : Evolves s₀ (s.streamEnable n on) := by
  unfold State.streamEnable
  dsimp only
  exact hs.setStream.wr.wr

theorem Evolves.setHealth {n st why : ℕ} (hs : Evolves s₀ s) : Evolves s₀ (s.setHealth n st why) := by
  unfold State.setHealth
  dsimp only
  exact hs.wr.wr.optElse fun hu => hu.record.send.opt fun hu1 => hu1.raise

theorem Evolves.streamClr {n : ℕ} (hs : Evolves s₀ s) : Evolves s₀ (s.streamClr n) := by
  unfold State.streamClr
  dsimp only
  exact hs.wr.opt fun hu => hu.setStream.setHealth

theorem Evolves.streamLie {n : ℕ} (hs : Evolves s₀ s) : Evolves s₀ (s.streamLie n) := by
  unfold State.streamLie
  dsimp only
  exact hs.wr.opt fun hu => hu.setHealth

theorem Evolves.doSextant {j : Judge} (hs : Evolves s₀ s) : Evolves s₀ (Judge.doSextant j s) := by
  unfold Judge.doSextant
  dsimp only
  exact .ite hs.upd (.ite hs.upd.wr hs)

theorem Evolves.doSensors {j : Judge} (hs : Evolves s₀ s) : Evolves s₀ (Judge.doSensors j s) := by
  unfold Judge.doSensors
  dsimp only
  exact ((((hs.each fun hu => .ite hu.pipeEnable (.ite hu.pipeDisable hu)).each fun hu => .ite hu.streamEnable hu).each fun hu =>
    hu.streamClr).each fun hu => hu.streamLie).doSextant

theorem Evolves.doTile {j : Judge} {t : ℕ} (hs : Evolves s₀ s) : Evolves s₀ (Judge.doTile j s t) := by
  unfold Judge.doTile
  dsimp only
  exact (hs.upd.opt fun hu => hu.wr).syncTile

theorem Evolves.doCluster {j : Judge} {c : ℕ} (hs : Evolves s₀ s) : Evolves s₀ (Judge.doCluster j s c) := by
  unfold Judge.doCluster
  dsimp only
  exact (Evolves.ite hs.wr hs).upd

theorem Evolves.dmaRead {a : Access} {addr size : ℕ} (hs : Evolves s₀ s) : Evolves₃ s₀ (s.dmaRead a addr size) := by
  unfold State.dmaRead
  dsimp only
  exact (Evolves₃.mk hs).foldl fun hu => .ite hu (.mk hu.engineBus)

theorem Evolves.setGfxJob {j : GfxJob} (hs : Evolves s₀ s) : Evolves s₀ (s.setGfxJob j) := by
  unfold State.setGfxJob
  dsimp only
  exact hs.setGfx

theorem Evolves.dmaNum {a : Access} {addr size : ℕ} (hs : Evolves s₀ s) : Evolves₃ s₀ (s.dmaNum a addr size) := by
  unfold State.dmaNum
  dsimp only
  exact .mk hs.dmaRead

theorem Evolves.pixel {j : GfxJob} {p : Pass} {i : ℕ} {a : Att} {x y k : ℕ} (hs : Evolves s₀ s) :
    Evolves₃ s₀ (s.pixel j p i a x y k) := by
  unfold State.pixel
  split
  · exact .mk hs
  · exact .ite hs.dmaNum (.ite (.mk hs) (.ite hs.dmaNum (.mk hs.drawn)))

theorem Evolves.depthSample {j : GfxJob} {p : Pass} {pipe : ℕ} {q : Prim} {f : Frag} {z : ℕ × ℕ} (hs : Evolves s₀ s) :
    Evolves₃ s₀ (s.depthSample j p pipe q f z) := by
  unfold State.depthSample
  dsimp only
  split
  · exact .mk hs
  · exact .mk hs.pixel

theorem Evolves.depthWrites {j : GfxJob} {p : Pass} {pipe : ℕ} {q : Prim} (hs : Evolves s₀ s) :
    Evolves₃ s₀ (s.depthWrites j p pipe q) :=
  .ite (.mk hs) ((Evolves₃.mk hs).foldl fun hu => .ite hu hu.depthSample)

theorem Evolves.binPrims {j : GfxJob} {p : Pass} {pipe : ℕ} {l : List Prim} (hs : Evolves s₀ s) :
    Evolves₃ s₀ (s.binPrims j p pipe l) := by
  induction l generalizing s p with
  | nil => exact .mk hs
  | cons q qs ih =>
    unfold State.binPrims
    split
    · split
      next hd =>
      have hs1 := hs.depthWrites.eq hd
      exact .ite (.mk hs1) (ih hs1)
    · exact .mk hs

theorem Evolves.writeRefs {j : GfxJob} {p : Pass} (hs : Evolves s₀ s) : Evolves₂ s₀ (s.writeRefs j p) :=
  (Evolves₂.mk hs).foldl fun hu => .ite hu hu.drawn.dmaWrite

theorem Evolves.binned {j : GfxJob} {p : Pass} (hs : Evolves s₀ s) : Evolves s₀ (s.binned j p) := by
  unfold State.binned
  dsimp only
  exact .ite hs.writeRefs.gfxEnd (.ite hs.writeRefs.wr.setGfxJob (.ite hs.writeRefs.wr.setGfxJob.wr.send hs.writeRefs.wr.setGfxJob))

theorem Evolves.binAll {j : GfxJob} {p : Pass} {pipe : ℕ} {prims : List Prim} (hs : Evolves s₀ s) :
    Evolves s₀ (s.binAll j p pipe prims) := by
  unfold State.binAll
  dsimp only
  exact .ite hs.binPrims.gfxEnd hs.binPrims.binned

theorem Evolves.binGrow {n : ℕ} (hs : Evolves s₀ s) : Evolves s₀ (s.binGrow n) := by
  unfold State.binGrow
  dsimp only
  split
  · with_reducible exact hs.wr
  · split
    · with_reducible exact hs.wr
    · refine .ite ?_ ?_
      · with_reducible exact hs.wr.dmaRead.gfxEnd
      · split
        · with_reducible exact hs.wr.dmaRead.gfxEnd
        · refine .ite ?_ ?_
          · with_reducible exact hs.wr.dmaRead.setGfxJob
          · with_reducible exact .ite hs.wr.dmaRead.dmaNum.gfxEnd hs.wr.dmaRead.dmaNum.wr.binAll.syncClusters

theorem Evolves.doGrants {j : Judge} (hs : Evolves s₀ s) : Evolves s₀ (Judge.doGrants j s) := by
  unfold Judge.doGrants
  dsimp only
  exact (((hs.each fun hu => hu.doTile).each fun hu => hu.doCluster).optElse fun hu => hu.syncClusters).each fun hu => hu.binGrow

theorem Evolves.flushIpend {i : ℕ} (hs : Evolves s₀ s) : Evolves s₀ (s.flushIpend i) := by
  unfold State.flushIpend
  dsimp only
  exact (hs.foldl fun hu => hu.wr).foldl fun hu => hu.setEip

theorem Evolves.clusterRun {c : ℕ} (hs : Evolves s₀ s) : Evolves s₀ (s.clusterRun c) := by
  unfold State.clusterRun
  dsimp only
  exact hs.wr.optElse fun hu => hu.foldl fun hu1 => hu1.wr.opt fun hu2 => hu2.setHart.wr.wr

theorem Evolves.traceMsg {m : Msg} {port : ℕ} {dies : List ℕ} (hs : Evolves s₀ s) : Evolves s₀ (s.traceMsg m port dies) := by
  unfold State.traceMsg
  dsimp only
  exact hs.drawn.drawn.foldl fun hu => hu.wreckPush

theorem Evolves.launch {d : ℕ} {m : Msg} (hs : Evolves s₀ s) : Evolves s₀ (s.launch d m) := by
  unfold State.launch
  dsimp only
  exact hs.traceMsg.optElse fun hu => hu.upd

theorem Evolves.sendBehind {d inst vec : ℕ} {src : Option ℕ} (hs : Evolves s₀ s) : Evolves s₀ (s.sendBehind d inst vec src) := by
  unfold State.sendBehind
  dsimp only
  exact .ite hs (.ite hs.launch hs.upd)

theorem Evolves.sourceSend {d x : ℕ} (hs : Evolves s₀ s) : Evolves s₀ (s.sourceSend d x) :=
  hs.sendBehind

theorem Evolves.sourceAck {d x : ℕ} (hs : Evolves s₀ s) : Evolves s₀ (s.sourceAck d x) := by
  unfold State.sourceAck
  dsimp only
  exact hs.upd.opt fun hu => hu.upd.sourceSend

theorem Evolves.doApc {j : Judge} (hs : Evolves s₀ s) : Evolves s₀ (Judge.doApc j s) := by
  unfold Judge.doApc
  dsimp only
  exact ((hs.each fun hu => hu.flushIpend).each fun hu => .ite hu.clusterRun hu).each fun hu => hu.wr.sourceAck

theorem Evolves.newKey {slot : ℕ} (hs : Evolves s₀ s) : Evolves s₀ (s.newKey slot) := by
  unfold State.newKey
  dsimp only
  exact hs.upd.drawn.incWrap

theorem Evolves.setWork {e : ℕ} {o : Option MonOp} (hs : Evolves s₀ s) : Evolves s₀ (s.setWork e o) := by
  unfold State.setWork
  dsimp only
  exact hs.upd

theorem Evolves.putLine {a : Access} {addr : ℕ} {bytes : List Byte} (hs : Evolves s₀ s) : Evolves s₀ (s.putLine a addr bytes) := by
  unfold State.putLine
  split
  · next hd =>
      have hs1 := hs.bus.eq hd
      exact hs1.hold
  · next hd =>
      have hs1 := hs.bus.eq hd
      exact hs1

theorem Evolves.writeSave {h base : ℕ} {bytes : List Byte} (hs : Evolves s₀ s) : Evolves s₀ (s.writeSave h base bytes) := by
  unfold State.writeSave
  dsimp only
  exact hs.foldl fun hu => hu.putLine

theorem Evolves.asyncExit {h : ℕ} (hs : Evolves s₀ s) : Evolves s₀ (s.asyncExit h) := by
  unfold State.asyncExit
  dsimp only
  exact .ite hs hs.writeSave.setHart.wr

theorem Evolves.takeTrap {h cause tval : ℕ} {irq : Bool} (hs : Evolves s₀ s) : Evolves s₀ (s.takeTrap h cause tval irq) := by
  unfold State.takeTrap
  dsimp only
  exact hs.asyncExit.setHart

theorem Evolves.evictHarts {e : ℕ} (hs : Evolves s₀ s) : Evolves s₀ (s.evictHarts e) :=
  hs.foldl fun hu => .ite hu.takeTrap hu

theorem Evolves.ertStart {e req : ℕ} (hs : Evolves s₀ s) : Evolves s₀ (s.ertStart e req) :=
  .ite hs.wr (.ite hs.wr.wr (.ite hs.wr.setWork hs.evictHarts.wr.setWork))

theorem Evolves.ertRequest {e req : ℕ} (hs : Evolves s₀ s) : Evolves s₀ (s.ertRequest e req) := by
  unfold State.ertRequest
  dsimp only
  exact .ite hs.ertStart hs.wr.upd

theorem Evolves.cryClear {n slot : ℕ} (hs : Evolves s₀ s) : Evolves s₀ (s.cryClear n slot) := by
  unfold State.cryClear
  dsimp only
  exact hs.upd.wr

theorem Evolves.doKeys {j : Judge} (hs : Evolves s₀ s) : Evolves s₀ (Judge.doKeys j s) := by
  unfold Judge.doKeys
  dsimp only
  exact ((hs.each fun hu => hu.wr.newKey).each fun hu => hu.wr.optElse fun hu1 => hu1.ertRequest).each fun hu => hu.wr.cryClear

theorem Evolves.disableContext {n : ℕ} (hs : Evolves s₀ s) : Evolves s₀ (s.disableContext n) :=
  hs.stopContext.forceReleaseAll

theorem Evolves.tellErrors (hs : Evolves s₀ s) : Evolves s₀ (s.tellErrors) := by
  unfold State.tellErrors
  dsimp only
  exact hs.upd.foldl fun hu => hu.send

theorem Evolves.invalidate (hs : Evolves s₀ s) : Evolves s₀ (s.invalidate) := by
  unfold State.invalidate
  dsimp only
  exact hs.upd.incWrap

theorem Evolves.doTtu {j : Judge} (hs : Evolves s₀ s) : Evolves s₀ (Judge.doTtu j s) := by
  unfold Judge.doTtu
  dsimp only
  exact ((hs.each fun hu => .ite hu.disableContext hu).each fun hu => .ite hu.tellErrors (.ite hu.dropTag hu)).optElse fun hu =>
    hu.invalidate

theorem Evolves.lockOnce {j : Judge} (hs : Evolves s₀ s) : Evolves s₀ (Judge.lockOnce j s) := by
  unfold Judge.lockOnce
  dsimp only
  exact hs.upd

theorem yields_execDiscard {i : Issue} (hs : Evolves s₀ s) : Yields s₀ (execDiscard i s) :=
  hs.issue hs.discardSeq.retire

theorem yields_execFetch {i : Issue} (hs : Evolves s₀ s) : Yields s₀ (execFetch i s) := by
  unfold execFetch
  dsimp only
  exact hs.issue (.ite hs.retire (.ite hs.violation.retire (.ite hs.retire hs.retire)))

theorem Evolves.packetWords {inst addr : ℕ} (hs : Evolves s₀ s) : Evolves₃ s₀ (s.packetWords inst addr) := by
  unfold State.packetWords
  dsimp only
  refine .ite ?_ ?_
  · with_reducible exact .mk hs.dmaNum
  · with_reducible exact .mk hs.dmaNum.dmaRead

theorem Evolves.streamPid {fuel inst addr : ℕ} (hs : Evolves s₀ s) : Evolves₂ s₀ (State.streamPid fuel s inst addr) := by
  induction fuel generalizing s addr with
  | zero => exact .mk hs
  | succ fuel ih =>
    unfold State.streamPid
    split
    next hd =>
    have hs1 := hs.packetWords.eq hd
    exact .ite (.mk hs1) (.ite (.mk hs1) (ih hs1))

theorem Evolves.admitGfx {inst desc ext2 : ℕ} (hs : Evolves s₀ s) : Evolves₂ s₀ (s.admitGfx inst desc ext2) := by
  unfold State.admitGfx
  dsimp only
  refine .ite ?_ ?_
  · exact .mk hs
  · refine .ite ?_ ?_
    · exact .mk hs
    · exact .mk hs.streamPid

theorem Evolves.admitComp {inst desc ext2 : ℕ} (hs : Evolves s₀ s) : Evolves₂ s₀ (s.admitComp inst desc ext2) := by
  unfold State.admitComp
  dsimp only
  refine .ite ?_ ?_
  · with_reducible exact .mk hs
  · refine .ite ?_ ?_
    · with_reducible exact .mk hs
    · with_reducible exact .ite (.mk hs.dmaNum) (.mk hs.dmaNum)

theorem Evolves.admitJob {inst kind desc ext2 : ℕ} (hs : Evolves s₀ s) : Evolves₂ s₀ (s.admitJob inst kind desc ext2) := by
  unfold State.admitJob
  split
  · exact .mk hs
  · exact hs.admitGfx
  · exact hs.admitComp
  · exact .mk hs
  · exact .mk hs
  · exact .mk hs
  · exact .mk hs
  · exact .mk hs

theorem Evolves.newJob {n kind id desc record param : ℕ} {res : Option ℕ} (hs : Evolves s₀ s) :
    Evolves₂ s₀ (s.newJob n kind id desc record param res) := by
  unfold State.newJob
  dsimp only
  exact .mk hs.upd

theorem Evolves.refuseActivity {r t : ℕ} (hs : Evolves s₀ s) : Evolves s₀ (s.refuseActivity r t) :=
  hs.incWrap.wr

theorem Evolves.tileError {i addr t kind st frame : ℕ} (hs : Evolves s₀ s) : Evolves s₀ (s.tileError i addr t kind st frame) := by
  unfold State.tileError
  dsimp only
  exact .ite hs.wrPair.wr.wr.incSat.wr hs.wrPair.wr.wr.incSat.wr

theorem Evolves.infFail {u addr t : ℕ} {st : Status} (hs : Evolves s₀ s) : Evolves s₀ (s.infFail u addr t st) := by
  unfold State.infFail
  split
  · exact hs
  · exact hs.tileError.infEnd

theorem Evolves.setInfJob {j : InfJob} (hs : Evolves s₀ s) : Evolves s₀ (s.setInfJob j) := by
  unfold State.setInfJob
  dsimp only
  exact hs.upd

theorem Evolves.readChain {fuel u : ℕ} (hs : Evolves s₀ s) : Evolves s₀ (State.readChain fuel s u) := by
  induction fuel generalizing s with
  | zero => exact hs
  | succ fuel ih =>
    unfold State.readChain
    split
    · exact hs
    · refine .ite hs ?_
      dsimp only
      exact .ite hs.dmaRead.infFail (.ite hs.dmaRead.infFail (.ite hs
        (ih (Evolves.foldl hs.dmaRead fun hu => hu.setTileQueue.syncTile).setInfJob)))

theorem Evolves.infAccept {u tag mask desc : ℕ} (hs : Evolves s₀ s) : Evolves s₀ (s.infAccept u tag mask desc) := by
  unfold State.infAccept
  dsimp only
  exact hs.upd.readChain

theorem Evolves.gfxAccept {j : GfxJob} (hs : Evolves s₀ s) : Evolves s₀ (s.gfxAccept j) := by
  unfold State.gfxAccept
  dsimp only
  exact hs.setGfx.syncClusters

theorem Evolves.compAccept {j : CompJob} (hs : Evolves s₀ s) : Evolves s₀ (s.compAccept j) := by
  unfold State.compAccept
  dsimp only
  exact hs.setGfx.optElse fun hu => hu.compEnd

theorem Evolves.pollReady {d : ℕ} (hs : Evolves s₀ s) : Evolves s₀ (s.pollReady d) := by
  unfold State.pollReady
  dsimp only
  split
  · with_reducible exact hs
  · with_reducible exact .ite hs.dmaNum.frameEnd (hs.dmaNum.opt fun hu1 => hu1.setPipe)

theorem Evolves.dspAccept {d u id inst addr : ℕ} (hs : Evolves s₀ s) : Evolves s₀ (s.dspAccept d u id inst addr) := by
  unfold State.dspAccept
  dsimp only
  with_reducible exact .ite hs.dmaNum.endJob (.ite hs.dmaNum.endJob (hs.dmaNum.setPipe.opt fun hu => hu.pollReady))

theorem Evolves.cryAccept {n u tag desc : ℕ} (hs : Evolves s₀ s) : Evolves s₀ (s.cryAccept n u tag desc) := by
  unfold State.cryAccept
  dsimp only
  exact hs.setCryEngine.optElse fun hu => hu.cryState.incWrap

theorem Evolves.enterEngine {u inst kind desc id ext2 aux : ℕ} (hs : Evolves s₀ s) :
    Evolves s₀ (s.enterEngine u inst kind desc id ext2 aux) := by
  unfold State.enterEngine
  dsimp only
  split
  · exact hs.infAccept
  · exact hs.gfxAccept
  · exact hs.compAccept
  · exact hs.dspAccept
  · exact hs.setSxt
  · exact hs.cryAccept
  · exact hs.setNet

theorem Evolves.acceptJob {n kind id desc record param : ℕ} {res : Option ℕ} {aux : ℕ} (hs : Evolves s₀ s) :
    Evolves s₀ (s.acceptJob n kind id desc record param res aux) := by
  unfold State.acceptJob
  dsimp only
  split
  · exact .ite hs.newJob.refuseActivity.endJob hs.newJob.enterEngine
  · exact hs.newJob.enterEngine

theorem yields_execDispatch {i : Issue} (hs : Evolves s₀ s) : Yields s₀ (execDispatch i s) := by
  refine hs.attempt fun hu => hu.issue fun {a c} => ?_
  dsimp only
  split
  · next hd => exact (hu.admitJob.eq hd).retire
  · next hd =>
    have ht := hu.admitJob.eq hd
    refine .ite ht.retire (.ite ht.spend.suspend ?_)
    split
    · exact ht.acceptJob.retire
    · exact ht.newJob.endJob.retire
    · exact ht.spend.suspend

theorem yields_execDispatchSlotTimeout {n : ℕ} (hs : Evolves s₀ s) : Yields s₀ (execDispatchSlotTimeout n s) := by
  unfold execDispatchSlotTimeout
  split
  · exact .go hs.retireWait
  · exact .go hs

theorem Evolves.abortProgram {m : ℕ} {p : Prog} (hs : Evolves s₀ s) : Evolves s₀ (s.abortProgram m p) := by
  unfold State.abortProgram
  dsimp only
  split
  · exact hs
  · exact hs.setCtx
  · exact hs.leaveQueues.endWith

theorem Evolves.abort {n kind id m : ℕ} (hs : Evolves s₀ s) : Evolves₂ s₀ (s.abort n kind id m) := by
  unfold State.abort
  dsimp only
  refine .ite ?_ ?_
  · exact .mk hs.violation
  · refine .ite ?_ ?_
    · split
      · exact .ite (.ite (.mk hs) (.mk hs.abortProgram)) (.mk hs)
      · exact .mk hs
    · split
      · exact .mk hs.abortJob
      · exact .mk hs

theorem yields_execAbort {i : Issue} (hs : Evolves s₀ s) : Yields s₀ (execAbort i s) := by
  unfold execAbort
  dsimp only
  exact hs.attempt fun hu => hu.issue hu.abort.retire

theorem yields_execWait {i : Issue} (hs : Evolves s₀ s) : Yields s₀ (execWait i s) := by
  refine hs.issue fun {a c} => ?_
  dsimp only
  split
  · exact hs.retire
  · exact .ite hs.retire (.ite hs.retire hs.spend.suspend)

theorem yields_execWaitTimeout {n : ℕ} (hs : Evolves s₀ s) : Yields s₀ (execWaitTimeout n s) := by
  unfold execWaitTimeout
  split
  · exact .go hs.retireWait
  · exact .go hs

theorem Evolves.signal {n t vec : ℕ} (hs : Evolves s₀ s) : Evolves s₀ (s.signal n t vec) :=
  .ite hs hs.upd

theorem yields_execSignal {i : Issue} (hs : Evolves s₀ s) : Yields s₀ (execSignal i s) := by
  unfold execSignal
  dsimp only
  exact hs.issue (.ite (.ite hs.retire hs.signal.retire) (.ite hs.signal.retire hs.violation.retire))

theorem Evolves.acquire {k n : ℕ} (hs : Evolves s₀ s) : Evolves₂ s₀ (s.acquire k n) := by
  unfold State.acquire
  dsimp only
  exact .mk hs.wr.wr.wr

theorem yields_execLock {i : Issue} (hs : Evolves s₀ s) : Yields s₀ (execLock i s) := by
  unfold execLock
  dsimp only
  exact hs.issue (.ite hs.violation.retire (.ite hs.retire
    (.ite hs (.ite hs.acquire.retire (.ite hs.retire hs.spend.upd.suspend)))))

theorem yields_execLockTimeout {n : ℕ} (hs : Evolves s₀ s) : Yields s₀ (execLockTimeout n s) := by
  unfold execLockTimeout
  split
  · exact .go hs.leaveQueues.retireWait
  · exact .go hs

theorem yields_execUnlock {i : Issue} (hs : Evolves s₀ s) : Yields s₀ (execUnlock i s) := by
  unfold execUnlock
  dsimp only
  exact hs.issue (.ite (hs.wr.opt fun hu1 => hu1.upd).retire hs.violation.retire)

theorem yields_execSemaphoreHandoff {k : ℕ} (hs : Evolves s₀ s) : Yields s₀ (execSemaphoreHandoff k s) := by
  unfold execSemaphoreHandoff
  dsimp only
  refine .ite ?_ ?_
  · exact .go hs
  · split
    · exact .go hs.upd
    · exact .go hs.upd.upd.acquire.retireWait

theorem Evolves.sentBy {src : TxSrc} {st : Status} {stamp : ℕ} (hs : Evolves s₀ s) : Evolves s₀ (s.sentBy src st stamp) := by
  unfold State.sentBy
  split
  · exact hs.entryDone
  · exact hs

theorem Evolves.quiesce {r : ℕ} (hs : Evolves s₀ s) : Evolves s₀ (s.quiesce r) := by
  unfold State.quiesce
  dsimp only
  split
  · exact hs.setNet.foldl fun hu1 => hu1.sentBy
  · exact hs.setCan.foldl fun hu1 => hu1.sentBy
  · exact hs

theorem Evolves.tellGap {r : ℕ} {coming : Bool} (hs : Evolves s₀ s) : Evolves s₀ (s.tellGap r coming) := by
  unfold State.tellGap
  dsimp only
  exact .ite hs.upd hs

theorem yields_execHandover {i : Issue} (hs : Evolves s₀ s) : Yields s₀ (execHandover i s) := by
  unfold execHandover
  dsimp only
  exact hs.attempt fun hu => hu.issue (.ite hu.retire (.ite hu.retire (.ite hu.retire hu.spend.tellGap.wr.quiesce.upd.suspend)))

theorem yields_execRstctx {i : Issue} (hs : Evolves s₀ s) : Yields s₀ (execRstctx i s) := by
  unfold execRstctx
  dsimp only
  exact hs.attempt fun hu => hu.issue (.ite hu.retire (.ite hu.stopContext hu.resetContext.retire))

theorem yields_execTtuTranslate {a : Access} {addr size : ℕ} (hs : Evolves s₀ s) : Yields s₀ (execTtuTranslate a addr size s) := by
  unfold execTtuTranslate
  refine .ite ?_ ?_
  · exact .refused
  · refine .ite ?_ ?_
    · exact .go hs
    · split
      · next hd =>
          have hs1 := hs.checkAccess.eq hd
          exact .go hs1.answer
      · next hd =>
          have hs1 := hs.checkAccess.eq hd
          exact .go hs1.answer
      · next hd =>
          have hs1 := hs.checkAccess.eq hd
          exact .go hs1.answer

theorem yields_execInvalidationDrainDone (hs : Evolves s₀ s) : Yields s₀ (execInvalidationDrainDone s) := by
  unfold execInvalidationDrainDone
  dsimp only
  split
  · exact .go hs
  · exact .ite (.go hs.upd.incWrap) (.go hs)

theorem Evolves.deferActivity {r t : ℕ} (hs : Evolves s₀ s) : Evolves s₀ (s.deferActivity r t) :=
  hs.incWrap.wr

theorem Evolves.deferJob {j : Job} (hs : Evolves s₀ s) : Evolves s₀ (s.deferJob j) :=
  .ite hs (.ite hs.deferActivity.setJob hs)

theorem Evolves.deferCtx {n : ℕ} (hs : Evolves s₀ s) : Evolves s₀ (s.deferCtx n) := by
  unfold State.deferCtx
  dsimp only
  exact .ite hs.deferActivity.setCtx hs

theorem Evolves.deferReq {q : OrrReq} (hs : Evolves s₀ s) : Evolves s₀ (s.deferReq q) := by
  unfold State.deferReq
  dsimp only
  refine .ite ?_ ?_
  · exact hs
  · split
    · exact Evolves.upd (by split; exacts [(hs.foldl fun hu => hu.incWrap.wr).upd.setCtx, (hs.foldl fun hu => hu.incWrap.wr).upd])
    · exact by split; exacts [(hs.foldl fun hu => hu.incWrap.wr).upd.setCtx, (hs.foldl fun hu => hu.incWrap.wr).upd]

theorem Evolves.setEff {r : ℕ} {e : ℕ × ℕ} (hs : Evolves s₀ s) : Evolves s₀ (s.setEff r e) := by
  unfold State.setEff
  dsimp only
  exact hs.wr.wr.upd

theorem Evolves.boundaryRes {p r : ℕ} (hs : Evolves s₀ s) : Evolves s₀ (State.boundaryRes p s r) := by
  unfold State.boundaryRes
  dsimp only
  exact (hs.wr.wr.wr.wr.foldl fun hu => hu.setEff).upd.opt fun hu => hu.record.raise

theorem Evolves.boundary (hs : Evolves s₀ s) : Evolves s₀ (s.boundary) := by
  unfold State.boundary
  dsimp only
  exact ((hs.foldl fun hu => hu.deferReq).foldl fun hu => hu.boundaryRes).upd.wr.incWrap

theorem yields_execPeriodBoundary (hs : Evolves s₀ s) : Yields s₀ (execPeriodBoundary s) := by
  unfold execPeriodBoundary
  dsimp only
  exact .ite (.go hs) (.go ((hs.foldl fun hu => hu.deferJob).foldl fun hu => hu.deferCtx).boundary.schedule)

theorem Evolves.issueGranted (hs : Evolves s₀ s) : Evolves s₀ (s.issueGranted) := by
  unfold State.issueGranted
  dsimp only
  exact hs.upd.foldl fun hu => by split; exacts [hu.request, hu]

theorem Evolves.wakeCtx {n : ℕ} {q : Option HeldReq} (hs : Evolves s₀ s) : Evolves s₀ (s.wakeCtx n q) := by
  unfold State.wakeCtx
  dsimp only
  exact .ite hs.setCtx hs

theorem Evolves.classJob {u : Option ℕ} {r cls : ℕ} (hs : Evolves s₀ s) : Evolves s₀ (s.classJob u r cls) := by
  unfold State.classJob
  dsimp only
  exact hs.upd

theorem Evolves.grantReq {r : ℕ} {q : OrrReq} (hs : Evolves s₀ s) : Evolves s₀ (s.grantReq r q) := by
  unfold State.grantReq
  dsimp only
  refine .ite ?_ ?_
  · split
    · exact hs.serve.upd.wakeCtx
    · split
      · exact hs.serve.upd.classJob.upd
      · refine .ite ?_ ?_
        · exact hs.serve.upd.upd
        · split
          · exact hs.serve.upd.upd
          · exact hs.serve.upd
  · exact hs.serve.upd

theorem Evolves.arbitrate {r : ℕ} (hs : Evolves s₀ s) : Evolves s₀ (s.arbitrate r) := by
  unfold State.arbitrate
  split
  · exact hs
  · exact hs.grantReq

theorem yields_execOrreryArbitration {r : ℕ} (hs : Evolves s₀ s) : Yields s₀ (execOrreryArbitration r s) :=
  .ite .refused (.ite (.go hs) (.go hs.arbitrate.issueGranted.schedule))

theorem Evolves.chargeJob {u r units : ℕ} (hs : Evolves s₀ s) : Evolves s₀ (s.chargeJob u r units) := by
  unfold State.chargeJob
  dsimp only
  split
  · exact hs
  · exact hs.charge.optElse fun hu1 => hu1.setJob

theorem Evolves.chargeCluster {c g n : ℕ} (hs : Evolves s₀ s) : Evolves s₀ (s.chargeCluster c g n) := by
  unfold State.chargeCluster
  split
  · exact hs.chargeJob
  · exact hs.charge

theorem Evolves.endClGrantee {c g : ℕ} {st : Status} (hs : Evolves s₀ s) : Evolves s₀ (s.endClGrantee c g st) := by
  unfold State.endClGrantee
  dsimp only
  exact (hs.foldl fun hu => hu.gfxEnd).foldl fun hu => hu.compEnd

theorem Evolves.restoreCluster {c g : ℕ} (hs : Evolves s₀ s) : Evolves s₀ (s.restoreCluster c g) := by
  unfold State.restoreCluster
  dsimp only
  exact (Evolves.wr (by split; exacts [hs.chargeCluster, hs.chargeCluster.setGfx.dmaRead.optElse fun hu1 => hu1.endClGrantee])).wr

theorem Evolves.saveCluster {c g : ℕ} (hs : Evolves s₀ s) : Evolves s₀ (s.saveCluster c g) := by
  unfold State.saveCluster
  dsimp only
  exact .ite hs.chargeCluster.dmaWrite.drawn.setGfx hs.chargeCluster.dmaWrite.drawn.endClGrantee

theorem Evolves.clEvict {c r : ℕ} (hs : Evolves s₀ s) : Evolves s₀ (s.clEvict c r) :=
  hs.incSat.saveCluster

theorem Evolves.switchCluster {c : ℕ} (hs : Evolves s₀ s) : Evolves s₀ (s.switchCluster c) := by
  unfold State.switchCluster
  refine .ite ?_ ?_
  · exact hs
  · split
    · exact hs
    · exact hs.restoreCluster.syncClusters
    · exact .ite hs.clEvict.wr.syncClusters hs
    · exact .ite hs.clEvict.restoreCluster.syncClusters (.ite hs hs.saveCluster.restoreCluster.syncClusters)

theorem Evolves.chargeSwitch {t g : ℕ} (hs : Evolves s₀ s) : Evolves s₀ (s.chargeSwitch t g) := by
  unfold State.chargeSwitch
  dsimp only
  split
  · exact hs.chargeJob
  · exact hs.charge

theorem Evolves.endGrantee {t g : ℕ} {st : Status} (hs : Evolves s₀ s) : Evolves s₀ (s.endGrantee t g st) :=
  hs.foldl fun hu => hu.infFail

theorem saveTile_eq : State.saveTile = fun s t g =>
    match (s.chargeSwitch t g).dmaWrite ((s.chargeSwitch t g).tileAccess t ((s.chargeSwitch t g).rd Reg.INF_SLICE_INST [t, g]) 0)
      ((s.chargeSwitch t g).saveArea t g) (leBytes 0x10000 (s.chargeSwitch t g).freeVal
        ++ memBytes (s.chargeSwitch t g).mem (0x1_0000_0000 + t * 0x20_0000)
          ((s.chargeSwitch t g).rd Reg.INF_SLICE_SAVE_64K [t, g] * 0x10000)) with
    | (st, s) => if st = .ok then ({ s with inf := { s.inf with saved := s.inf.saved ++ [(t, g)] } }).drawn else s.drawn.endGrantee
      t g st := rfl

theorem Evolves.saveTile {t g : ℕ} (hs : Evolves s₀ s) : Evolves s₀ (s.saveTile t g) := by
  rw [saveTile_eq]
  beta_reduce
  split
  next hd =>
    have ht := hs.chargeSwitch.dmaWrite.eq hd
    exact .ite ht.upd.drawn ht.drawn.endGrantee

theorem Evolves.zeroMem {base size : ℕ} (hs : Evolves s₀ s) : Evolves s₀ (s.zeroMem base size) :=
  hs.dropBytes

theorem Evolves.restoreTile {t g : ℕ} (hs : Evolves s₀ s) : Evolves s₀ (s.restoreTile t g) := by
  unfold State.restoreTile
  dsimp only
  refine .ite ?_ ?_
  · exact hs.upd.zeroMem.wr.wr
  · exact (Evolves.ite hs.upd.chargeSwitch.dmaRead.zeroMem.putBytes hs.upd.chargeSwitch.dmaRead.zeroMem.endGrantee).wr.wr

theorem Evolves.switchTile {t : ℕ} (hs : Evolves s₀ s) : Evolves s₀ (s.switchTile t) := by
  unfold State.switchTile
  dsimp only
  refine .ite ?_ ?_
  · exact hs
  · split
    · exact hs
    · exact .ite hs (Evolves.restoreTile (by split; exacts [hs.saveTile, hs])).syncTile

theorem yields_execSlicePreempt {cluster : Bool} {k : ℕ} (hs : Evolves s₀ s) : Yields s₀ (execSlicePreempt cluster k s) :=
  .ite (.ite .refused (hs.attempt fun hu => by split; exacts [.ite (.go hu.switchCluster) (.go hu), .go hu])) (.ite .refused (hs.attempt fun hu => .ite (.go hu.switchTile) (.go hu)))

theorem Evolves.deviceMsi {a : Access} {w : List Byte} (hs : Evolves s₀ s) : Evolves s₀ (s.deviceMsi a w) := by
  unfold State.deviceMsi
  split
  · exact .ite hs.sendBehind.answer hs
  · exact hs

theorem Evolves.requests {a : Access} {addr : ℕ} {w : List Byte} {e : RowError} {l : List (ℕ × ℕ)} (hs : Evolves s₀ s) :
    Evolves s₀ (s.requests a addr w e l) := by
  induction l generalizing s with
  | nil => exact hs
  | cons p rest ih =>
    cases rest with
    | nil => exact hs.request
    | cons q rest => exact .ite (ih hs.request).answer (ih hs.request).answer

theorem yields_execFabricRequest {a : Access} {addr size : ℕ} {w : List Byte} {e : RowError} (hs : Evolves s₀ s) :
    Yields s₀ (execFabricRequest a addr size w e s) := by
  unfold execFabricRequest
  refine .ite ?_ ?_
  · exact .refused
  · refine .ite ?_ ?_
    · exact .go hs
    · refine .ite ?_ ?_
      · exact .go hs.deviceMsi
      · split
        · exact .go hs
        · exact .go hs.requests

theorem yields_execFreezeLimitExpiry (hs : Evolves s₀ s) : Yields s₀ (execFreezeLimitExpiry s) := by
  unfold execFreezeLimitExpiry
  dsimp only
  exact .ite (.go hs.upd) (.go hs)

theorem Evolves.resumeCtx {n : ℕ} {q : Option HeldReq} {st : Option Status} (hs : Evolves s₀ s) :
    Evolves s₀ (s.resumeCtx n q st) := by
  unfold State.resumeCtx
  dsimp only
  exact .ite hs.setCtx.schedule hs

theorem Evolves.retryHeld (hs : Evolves s₀ s) : Evolves s₀ (s.retryHeld) := by
  unfold State.retryHeld
  dsimp only
  exact hs.upd.foldl fun hu => by split; exacts [hu.resumeCtx, by split; exacts [hu.request, hu]]

theorem Evolves.endTxn {t : Txn} {st : Status} (hs : Evolves s₀ s) : Evolves s₀ (s.endTxn t st) := by
  unfold State.endTxn
  dsimp only
  split
  · exact hs.resumeCtx
  · exact hs.upd
  · exact hs.answer

theorem Evolves.resumeOne {t : Txn} (hs : Evolves s₀ s) : Evolves s₀ (s.resumeOne t) := by
  unfold State.resumeOne
  dsimp only
  split
  · exact hs.upd.syncPort.endTxn
  · split
    · exact hs.upd.syncPort.postedError
    · exact hs.upd.syncPort.ttuFault.endTxn
    · split
      · exact hs.upd.syncPort.resumeCtx
      · exact hs.upd.syncPort
      · exact hs.upd.syncPort.request

theorem yields_execFreezeRelease (hs : Evolves s₀ s) : Yields s₀ (execFreezeRelease s) := by
  unfold execFreezeRelease
  dsimp only
  exact .ite (.go hs) (.go (hs.upd.wr.foldl fun hu => hu.resumeOne).retryHeld)

theorem yields_execFabricTimeout {id : ℕ} (hs : Evolves s₀ s) : Yields s₀ (execFabricTimeout id s) := by
  unfold execFabricTimeout
  dsimp only
  split
  · exact .go hs
  · exact .ite (.go hs) (.go hs.upd.syncPort.endTxn.retryHeld)

theorem yields_execLateResponse {id : ℕ} (hs : Evolves s₀ s) : Yields s₀ (execLateResponse id s) := by
  unfold execLateResponse
  dsimp only
  split
  · exact .go hs
  · exact .go hs.upd.incWrap

theorem yields_execPostedWriteError {st : Status} (hs : Evolves s₀ s) : Yields s₀ (execPostedWriteError st s) := by
  unfold execPostedWriteError
  dsimp only
  split
  · exact .go hs
  · exact .go hs.upd.postedError

theorem yields_execInterruptMessageRelease {source : ℕ} (hs : Evolves s₀ s) : Yields s₀ (execInterruptMessageRelease source s) := by
  unfold execInterruptMessageRelease
  dsimp only
  split
  · exact .go hs
  · exact .ite (.go hs) (.go hs.upd.launch)

theorem yields_execSourceInterrupt {d x : ℕ} {on : Bool} (hs : Evolves s₀ s) : Yields s₀ (execSourceInterrupt d x on s) := by
  unfold execSourceInterrupt
  dsimp only
  exact .ite (.go hs.upd) (.ite (.ite (.go hs.upd) (.go hs.upd.upd.sourceSend)) (.ite (.go hs.upd.sourceSend) (.go hs.upd)))

theorem yields_execLinkDown {n retries : ℕ} (hs : Evolves s₀ s) : Yields s₀ (execLinkDown n retries s) := by
  unfold execLinkDown
  dsimp only
  exact .ite (.go hs) (.go (hs.wr.incSat.incWrap.upd.foldl fun hu => hu.postedError).raise)

theorem yields_execLinkRetrainDone {n : ℕ} (hs : Evolves s₀ s) : Yields s₀ (execLinkRetrainDone n s) :=
  .ite (.go hs.wr) (.go hs)

theorem yields_execLinkRetrainExpiry {n : ℕ} (hs : Evolves s₀ s) : Yields s₀ (execLinkRetrainExpiry n s) :=
  .ite (.go hs.wr) (.go hs)

theorem yields_execHbmRead {tag pa : ℕ} {e : RowError} {cancelled : Bool} (hs : Evolves s₀ s) :
    Yields s₀ (execHbmRead tag pa e cancelled s) := by
  unfold execHbmRead
  dsimp only
  refine .ite ?_ ?_
  · exact .refused
  · exact .go hs.readLine.answer

theorem yields_execHbmFullWrite {pa : ℕ} {bytes : List Byte} {e : RowError} (hs : Evolves s₀ s) :
    Yields s₀ (execHbmFullWrite pa bytes e s) := by
  unfold execHbmFullWrite
  dsimp only
  refine .ite ?_ ?_
  · exact .refused
  · exact .go (hs.writeLine.opt fun hu => hu.setLine).answer

theorem yields_execHbmPartialWrite {tag pa : ℕ} {bytes : List Byte} {e : RowError} (hs : Evolves s₀ s) :
    Yields s₀ (execHbmPartialWrite tag pa bytes e s) := by
  unfold execHbmPartialWrite
  dsimp only
  refine .ite ?_ ?_
  · exact .refused
  · exact .go hs.mergeLine.answer

theorem Evolves.scrubLine {pa : ℕ} {e : RowError} (hs : Evolves s₀ s) : Evolves s₀ (s.scrubLine pa e) := by
  unfold State.scrubLine
  dsimp only
  refine .ite hs ?_
  split
  · exact .ite hs.poisonLine.logMem.badRow hs.rewritten.countKind.tallyRow
  · refine Evolves.tallyRow (Evolves.countKind (Evolves.setLine (Evolves.drawn (Evolves.drawn ?_))))
    split
    · exact hs.upd
    · exact hs.putBytes
  · exact hs.poisonLine.logMem.badRow
  · exact hs

theorem Evolves.scrubSpare {stack idx : ℕ} {row : Bool} {e : RowError} (hs : Evolves s₀ s) :
    Evolves s₀ (s.scrubSpare stack idx row e) := by
  unfold State.scrubSpare
  dsimp only
  refine .ite ?_ ?_
  · exact hs
  · split
    · exact hs.countKind.tally
    · exact hs.countKind.tally
    · exact hs.setSpare.logMem.drawn.wr.repairRow
    · exact hs

theorem yields_execPatrolScrub {w : ScrubAt} {e : RowError} {last : Bool} (hs : Evolves s₀ s) :
    Yields s₀ (execPatrolScrub w e last s) := by
  unfold execPatrolScrub
  dsimp only
  exact .ite .refused (.ite (.go hs) (.ite (.go (Evolves.incWrap (by split; exacts [hs.scrubLine, hs.scrubSpare, hs.scrubSpare])).upd) (.go (by split; exacts [hs.scrubLine, hs.scrubSpare, hs.scrubSpare]))))

theorem Evolves.copyTo {k upto : ℕ} (hs : Evolves s₀ s) : Evolves s₀ (s.copyTo k upto) := by
  unfold State.copyTo
  dsimp only
  exact (hs.setMem (memoryWf_foldl fun h => memoryWf_memPutBytes h _ _)).setSpare.wr

theorem yields_execMigrationDone {k : ℕ} (hs : Evolves s₀ s) : Yields s₀ (execMigrationDone k s) := by
  unfold execMigrationDone
  dsimp only
  exact .ite (.go hs.copyTo.wr.wr.drawn) (.go hs)

theorem Evolves.passError {kind slot pa : ℕ} (hs : Evolves s₀ s) : Evolves s₀ (s.passError kind slot pa) := by
  unfold State.passError
  dsimp only
  exact .ite hs.logMem.wrPair.wr.incSat.upd hs.logMem.raise

theorem Evolves.passLine {found : List (ℕ × RowError)} {l : ℕ × Line} (hs : Evolves s₀ s) :
    Evolves s₀ (State.passLine found s l) := by
  unfold State.passLine
  dsimp only
  split
  · exact hs.poisonLine
  · refine .ite ?_ ?_
    · exact hs
    · split
      · exact hs.poisonLine.passError.badRow
      · exact hs.poisonLine.passError
      · exact .ite hs.poisonLine.passError.badRow (.ite hs.rewritten.countKind.tallyRow hs.poisonLine.passError)
      · exact .ite hs hs.poisonLine.passError

theorem Evolves.passBulk {slot b len n : ℕ} (hs : Evolves s₀ s) : Evolves s₀ (s.passBulk slot b len n) := by
  unfold State.passBulk
  dsimp only
  exact (hs.foldl fun hu => hu.passError.drawn).optElse fun hu => (hu.passError.drawn.incSat.opt fun hu1 => hu1.incSat).incSat

theorem Evolves.writeGolden {e : ℕ × List Byte} (hs : Evolves s₀ s) : Evolves s₀ (s.writeGolden e) := by
  unfold State.writeGolden
  dsimp only
  exact hs.uncache.putBytes.setLine

theorem Evolves.extendMeas {m digest : ℕ} (hs : Evolves s₀ s) : Evolves s₀ (s.extendMeas m digest) := by
  unfold State.extendMeas
  dsimp only
  exact hs.foldl fun hu => hu.wr

theorem Evolves.wrOnce {r : Row} {v : ℕ} (hs : Evolves s₀ s) : Evolves s₀ (s.wrOnce r v) := by
  unfold State.wrOnce
  dsimp only
  exact hs.wr.upd

theorem Evolves.finishLoad (hs : Evolves s₀ s) : Evolves s₀ (s.finishLoad) := by
  unfold State.finishLoad
  dsimp only
  split
  · exact hs
  · exact (hs.upd.foldl fun hu1 => hu1.writeGolden).extendMeas.wrOnce.wrOnce.wrOnce.wrOnce.wrOnce.wr

theorem yields_execHbmVerifyPassDone {found : List (ℕ × RowError)} (hs : Evolves s₀ s) :
    Yields s₀ (execHbmVerifyPassDone found s) := by
  unfold execHbmVerifyPassDone
  dsimp only
  exact .ite (.go hs) (.go ((hs.foldl fun hu => hu.passLine).optElse fun hu => hu.foldl fun hu1 =>
    hu1.passBulk).upd.tellErrors.finishLoad)

theorem measure_eq : State.measure = fun s e =>
    match s.dmaRead monAccess (s.ertBase e + 0x10000) (2 ^ s.rd Reg.ENC_ERT_SIZE [e] - 0x11000) with
    | (st, b, t) => if st = .ok then (Config.hash 0x11 (s.sealHeader e ++ b), t) else (t.freeVal, t.drawn) := by
  unfold State.measure
  with_reducible rfl

theorem Evolves.measure {e : ℕ} (hs : Evolves s₀ s) : Evolves₂ s₀ (s.measure e) := by
  rw [measure_eq]
  beta_reduce
  split
  next hd =>
    have ht := hs.dmaRead.eq hd
    exact .ite (.mk ht) (.mk ht.drawn)

theorem Evolves.writeReport {e : ℕ} (hs : Evolves s₀ s) : Evolves s₀ (s.writeReport e) := by
  unfold State.writeReport
  dsimp only
  exact hs.drawn.dmaWrite.wr

theorem yields_execSealDone {e : ℕ} (hs : Evolves s₀ s) : Yields s₀ (execSealDone e s) := by
  refine .ite .refused (.ite (.go hs) (hs.attempt fun hu => ?_))
  split
  next hd => exact .go (hu.measure.eq hd).upd.writeReport.setWork.wr.wr

theorem Evolves.monScrub {base size : ℕ} (hs : Evolves s₀ s) : Evolves s₀ (s.monScrub base size) :=
  hs.foldl fun hu => hu.dmaWrite

theorem yields_execDestroyDone {e : ℕ} (hs : Evolves s₀ s) : Yields s₀ (execDestroyDone e s) := by
  unfold execDestroyDone
  dsimp only
  exact .ite .refused (.ite (.go hs) (hs.attempt fun hu => .go hu.monScrub.upd.setWork.wr.wr))

theorem yields_execMailboxWrite {a : Access} {e addr : ℕ} {bytes : List Byte} (hs : Evolves s₀ s) :
    Yields s₀ (execMailboxWrite a e addr bytes s) := by
  unfold execMailboxWrite
  refine .ite ?_ ?_
  · exact .refused
  · refine .ite ?_ ?_
    · exact .go hs
    · split
      · exact .ite (.go hs.request) (.go hs)
      · exact .go hs.request

theorem Evolves.monHalt (hs : Evolves s₀ s) : Evolves s₀ (s.monHalt) := by
  unfold State.monHalt
  dsimp only
  exact hs.wr.record.send

theorem Evolves.extendMmr {m : ℕ} (hs : Evolves s₀ s) : Evolves s₀ (s.extendMmr m) := by
  unfold State.extendMmr
  dsimp only
  exact hs.foldl fun hu => hu.wr

theorem yields_execMonitorRestart {verified : Bool} (hs : Evolves s₀ s) : Yields s₀ (execMonitorRestart verified s) := by
  unfold execMonitorRestart
  dsimp only
  exact .ite (.go hs) (.ite (.go hs.monHalt) (.ite (.go hs.wr.incSat.monHalt) (.go hs.wr.incSat.incWrap.extendMmr.record)))

theorem Evolves.cryDeny {n : ℕ} {j : CryJob} (hs : Evolves s₀ s) : Evolves s₀ (s.cryDeny n j) := by
  unfold State.cryDeny
  split
  · exact hs
  · exact hs.setJob.cryEnd

theorem Evolves.cryRead {n tag : ℕ} {l : List (ℕ × ℕ)} (hs : Evolves s₀ s) : Evolves₃ s₀ (s.cryRead n tag l) := by
  induction l generalizing s with
  | nil => exact .mk hs
  | cons p rest ih =>
    unfold State.cryRead
    dsimp only
    exact .ite (.mk hs.dmaRead) (.mk (ih hs.dmaRead))

theorem Evolves.cryCompute {n v : ℕ} {j : CryJob} (hs : Evolves s₀ s) : Evolves₂ s₀ (s.cryCompute n v j) := by
  unfold State.cryCompute
  dsimp only
  exact .ite (.mk hs.cryRead) (.ite (.ite (.mk hs.cryRead) (.ite (.mk hs.cryRead) (.mk hs.cryRead)))
    (.ite (.mk hs.cryRead) (.ite (.mk hs.cryRead.drawn) (.ite (.mk hs.cryRead) (.mk hs.cryRead)))))

theorem Evolves.cryStart {n op : ℕ} {j : CryJob} (hs : Evolves s₀ s) : Evolves s₀ (s.cryStart n op j) := by
  unfold State.cryStart
  dsimp only
  refine .ite ?_ ?_
  · exact hs.dmaRead.cryEnd
  · refine .ite ?_ ?_
    · exact hs.dmaRead.cryDeny
    · refine .ite ?_ ?_
      · exact hs
      · exact hs.dmaRead.cryState.cryCompute.cryDrop.setCryEngine

theorem Evolves.cryOp {n op : ℕ} (hs : Evolves s₀ s) : Yields s₀ (s.cryOp n op) := by
  unfold State.cryOp
  refine .ite ?_ ?_
  · exact .refused
  · split
    · exact .go hs
    · exact hs.attempt fun hu1 => .go hu1.cryStart

theorem yields_execGcmEncrypt {n : ℕ} (hs : Evolves s₀ s) : Yields s₀ (execGcmEncrypt n s) :=
  hs.cryOp

theorem yields_execGcmDecrypt {n : ℕ} (hs : Evolves s₀ s) : Yields s₀ (execGcmDecrypt n s) :=
  hs.cryOp

theorem yields_execSha256 {n : ℕ} (hs : Evolves s₀ s) : Yields s₀ (execSha256 n s) :=
  hs.cryOp

theorem yields_execSha384 {n : ℕ} (hs : Evolves s₀ s) : Yields s₀ (execSha384 n s) :=
  hs.cryOp

theorem yields_execSha512 {n : ℕ} (hs : Evolves s₀ s) : Yields s₀ (execSha512 n s) :=
  hs.cryOp

theorem yields_execSha3256 {n : ℕ} (hs : Evolves s₀ s) : Yields s₀ (execSha3256 n s) :=
  hs.cryOp

theorem yields_execSha3384 {n : ℕ} (hs : Evolves s₀ s) : Yields s₀ (execSha3384 n s) :=
  hs.cryOp

theorem yields_execSha3512 {n : ℕ} (hs : Evolves s₀ s) : Yields s₀ (execSha3512 n s) :=
  hs.cryOp

theorem yields_execP256Sign {n : ℕ} (hs : Evolves s₀ s) : Yields s₀ (execP256Sign n s) :=
  hs.cryOp

theorem yields_execP256Verify {n : ℕ} (hs : Evolves s₀ s) : Yields s₀ (execP256Verify n s) :=
  hs.cryOp

theorem yields_execP384Sign {n : ℕ} (hs : Evolves s₀ s) : Yields s₀ (execP384Sign n s) :=
  hs.cryOp

theorem yields_execP384Verify {n : ℕ} (hs : Evolves s₀ s) : Yields s₀ (execP384Verify n s) :=
  hs.cryOp

theorem yields_execKeyload {n : ℕ} (hs : Evolves s₀ s) : Yields s₀ (execKeyload n s) :=
  hs.cryOp

theorem yields_execCryptoPreempt {n save : ℕ} (hs : Evolves s₀ s) : Yields s₀ (execCryptoPreempt n save s) := by
  unfold execCryptoPreempt
  dsimp only
  refine .ite ?_ ?_
  · exact .refused
  · split
    · exact .go hs
    · exact hs.attempt fun hu1 => .ite (.go hu1.cryAbort.cryEnd) (by split; exacts [.ite (.go hu1.setCryEngine.cryState.incWrap.chargeJob) (.go hu1), .go hu1])

theorem yields_execCryptoResume {n restore : ℕ} (hs : Evolves s₀ s) : Yields s₀ (execCryptoResume n restore s) := by
  unfold execCryptoResume
  dsimp only
  refine .ite ?_ ?_
  · exact .refused
  · split
    · exact .ite (hs.attempt fun hu1 => .go hu1.setCryEngine.cryState.chargeJob) (.go hs)
    · exact .go hs

theorem Evolves.enginePay {tag : ℕ} {need : List (ℕ × ℕ)} (hs : Evolves s₀ s) : Evolves s₀ (s.enginePay tag need) := by
  unfold State.enginePay
  refine .ite ?_ ?_
  · exact hs.chargeAll
  · refine .ite ?_ ?_
    · exact hs
    · split
      · next hd =>
          have hs1 := hs.pay _ hd
          exact hs1
      · exact hs.stallAt

theorem Evolves.payJob {u r units : ℕ} (hs : Evolves s₀ s) : Evolves s₀ (s.payJob u r units) := by
  unfold State.payJob
  dsimp only
  split
  · exact hs
  · exact .ite hs hs.enginePay.setJob

theorem Evolves.cryFinish {n : ℕ} {j : CryJob} (hs : Evolves s₀ s) : Evolves₂ s₀ (s.cryFinish n j) := by
  unfold State.cryFinish
  dsimp only
  refine .ite ?_ ?_
  · exact .mk hs.upd.wr
  · refine .ite ?_ ?_
    · exact .mk hs.dmaWrite
    · exact .ite (.mk (Evolves₂.ite hs.dmaWrite.dmaWrite (.mk hs.dmaWrite)))
        (Evolves₂.ite hs.dmaWrite.dmaWrite (.mk hs.dmaWrite)).dmaWrite

theorem Evolves.cryDone {n : ℕ} {j : CryJob} (hs : Evolves s₀ s) : Evolves s₀ (s.cryDone n j) := by
  unfold State.cryDone
  dsimp only
  split
  · exact hs.payJob.cryEnd
  · exact hs.payJob.cryFinish.cryEnd

theorem yields_execCryptoJobDone {n : ℕ} (hs : Evolves s₀ s) : Yields s₀ (execCryptoJobDone n s) := by
  unfold execCryptoJobDone
  refine .ite ?_ ?_
  · exact .refused
  · split
    · exact hs.cryOp
    · exact hs.attempt fun hu1 => .ite (.go hu1.cryAbort.cryEnd) (.go hu1.cryDone)

theorem Evolves.stand {h : ℕ} {p : HartAt} (hs : Evolves s₀ s) : Evolves s₀ (s.stand h p) := by
  unfold State.stand
  dsimp only
  exact hs.setHart.wr

theorem Evolves.gateRun {h : ℕ} {p : HartAt} {w : ℕ} {is : GateOp → Bool} {f : State → Host.Outcome State Fault Refusal}
    (hs : Evolves s₀ s) (hf : ∀ {v}, Evolves s₀ v → Yields s₀ (f v)) : Yields s₀ (s.gateRun h p w is f) :=
  .ite .refused (.ite (.go hs.stand.takeTrap) (.ite (hf hs.stand) .refused))

theorem yields_execGateMark {h : ℕ} {p : HartAt} {w : ℕ} (hs : Evolves s₀ s) : Yields s₀ (execGateMark h p w s) :=
  hs.gateRun fun hu => .go hu

theorem Evolves.barRecord {h : ℕ} {p : HartAt} {cause va : ℕ} (hs : Evolves s₀ s) : Evolves s₀ (s.barRecord h p cause va) :=
  hs.record

theorem Evolves.gateFetch {h : ℕ} {p : HartAt} {va pa : ℕ} (hs : Evolves s₀ s) : Evolves₂ s₀ (s.gateFetch h p va pa) := by
  unfold State.gateFetch
  dsimp only
  refine .ite ?_ ?_
  · exact .mk hs.barRecord
  · exact .mk hs.engineBus

theorem Evolves.enterGate {h pc rs1 e : ℕ} (hs : Evolves s₀ s) : Evolves s₀ (s.enterGate h pc rs1 e) := by
  unfold State.enterGate
  dsimp only
  exact hs.setHart.wr.wr

theorem Evolves.gateEnter {h : ℕ} {p : HartAt} {rs1 : ℕ} {pa : Option ℕ} (hs : Evolves s₀ s) :
    Evolves s₀ (s.gateEnter h p rs1 pa) := by
  unfold State.gateEnter
  dsimp only
  refine .ite ?_ ?_
  · exact hs.takeTrap
  · split
    · exact hs.takeTrap
    · split
      · exact hs.gateFetch.takeTrap
      · exact .ite hs.gateFetch.enterGate hs.gateFetch.takeTrap

theorem yields_execGateEnter {h : ℕ} {p : HartAt} {w rs1 : ℕ} {pa : Option ℕ} (hs : Evolves s₀ s) :
    Yields s₀ (execGateEnter h p w rs1 pa s) :=
  hs.gateRun fun hu => .ite (.go hu.takeTrap) (hu.attempt fun hu1 => .go hu1.gateEnter)

theorem yields_execGateExit {h : ℕ} {p : HartAt} {w rs1 : ℕ} (hs : Evolves s₀ s) : Yields s₀ (execGateExit h p w rs1 s) := by
  unfold execGateExit
  dsimp only
  exact hs.gateRun fun hu => .ite (.go hu.setHart.wr) (.go hu.takeTrap)

theorem Evolves.accessFault {h va : ℕ} {k : Kind} {st : Status} (hs : Evolves s₀ s) : Evolves s₀ (s.accessFault h va k st) := by
  unfold State.accessFault
  dsimp only
  exact hs.setHart.takeTrap

theorem yields_execHartAccessFault {h : ℕ} {p : HartAt} {va pa : ℕ} {k : Kind} {f : HartFail} (hs : Evolves s₀ s) :
    Yields s₀ (execHartAccessFault h p va pa k f s) := by
  unfold execHartAccessFault
  refine .ite ?_ ?_
  · exact .refused
  · split
    · exact .ite .refused (.go hs.stand.takeTrap)
    · exact .ite (.go hs.stand.barRecord.takeTrap) (.ite (.ite (.go hs.stand.mergeFails.accessFault) .refused)
        (.ite (.go hs.stand.accessFault) .refused))

theorem Evolves.takeIrq {h cause : ℕ} {p : Option HartAt} (hs : Evolves s₀ s) : Evolves s₀ (s.takeIrq h cause p) := by
  unfold State.takeIrq
  split
  · exact hs.stand.takeTrap
  · exact hs

theorem yields_execStoreError {h addr : ℕ} {st : Status} {at_ : Option HartAt} (hs : Evolves s₀ s) :
    Yields s₀ (execStoreError h addr st at_ s) :=
  .ite .refused (.go hs.storeError.takeIrq)

theorem Evolves.deliver {m : Msg} (hs : Evolves s₀ s) : Evolves s₀ (s.deliver m) :=
  .ite hs.setEip hs.wr

theorem yields_execIrqDeliver {at_ : Option HartAt} (hs : Evolves s₀ s) : Yields s₀ (execIrqDeliver at_ s) := by
  unfold execIrqDeliver
  dsimp only
  split
  · exact .go hs
  · exact .ite (.go hs.upd.deliver.takeIrq) (.go hs.upd.deliver)

theorem yields_execSeteipnumWrite {h f off size v : ℕ} (hs : Evolves s₀ s) : Yields s₀ (execSeteipnumWrite h f off size v s) := by
  unfold execSeteipnumWrite
  dsimp only
  refine .ite ?_ ?_
  · exact .refused
  · refine .ite ?_ ?_
    · exact .go hs.answer
    · exact .go hs.clusterWrite.answer

theorem yields_execMtimecmpWrite {h off size v : ℕ} (hs : Evolves s₀ s) : Yields s₀ (execMtimecmpWrite h off size v s) := by
  unfold execMtimecmpWrite
  dsimp only
  refine .ite ?_ ?_
  · exact .refused
  · refine .ite ?_ ?_
    · exact .go hs.answer
    · exact .go hs.clusterWrite.answer

theorem yields_execTimerCompare {h k : ℕ} {at_ : Option HartAt} (hs : Evolves s₀ s) : Yields s₀ (execTimerCompare h k at_ s) := by
  unfold execTimerCompare
  dsimp only
  refine .ite ?_ ?_
  · exact .refused
  · exact .ite (.go hs) (.go hs.setHart.takeIrq)

theorem yields_execClusterStateEntry {c : ℕ} (hs : Evolves s₀ s) : Yields s₀ (execClusterStateEntry c s) := by
  unfold execClusterStateEntry
  dsimp only
  exact .ite .refused (.ite (.go (hs.wr.foldl fun hu => hu.wr)) (.ite (.go (hs.wr.foldl fun hu => hu.setHart.wr)) (.go hs)))

theorem yields_execClusterWake {c : ℕ} (hs : Evolves s₀ s) : Yields s₀ (execClusterWake c s) :=
  .ite .refused (.ite (.go hs.clusterRun) (.go hs))

theorem Evolves.tileAttempt {t : ℕ} {f : State → State} (hs : Evolves s₀ s) (hf : ∀ {v}, Evolves s₀ v → Evolves s₀ (f v)) :
    Yields s₀ (s.tileAttempt t f) :=
  .ite .refused (hs.attempt fun hu => .go (hf hu))

theorem Evolves.markRan {t : ℕ} (hs : Evolves s₀ s) : Evolves s₀ (s.markRan t) := by
  unfold State.markRan
  dsimp only
  exact .ite hs hs.upd

theorem Evolves.tileRead {u : TileCtx} {loc : Bool} {addr size : ℕ} (hs : Evolves s₀ s) :
    Evolves₃ s₀ (s.tileRead u loc addr size) :=
  .ite hs.dmaRead (.mk hs)

theorem Evolves.readTensor {u : TileCtx} {ty : ℕ} {r : TRef} (hs : Evolves s₀ s) : Evolves₃ s₀ (s.readTensor u ty r) := by
  unfold State.readTensor
  dsimp only
  exact (Evolves₃.mk hs).foldl fun hu => .ite hu (.mk hu.tileRead)

theorem Evolves.withX {u : TileCtx} {d : Td} {k : Tn → State → Status × State}
    (hs : Evolves s₀ s) (hk : ∀ {x v}, Evolves s₀ v → Evolves₂ s₀ (k x v)) : Evolves₂ s₀ (s.withX u d k) := by
  unfold State.withX
  dsimp only
  exact .ite (hk hs.readTensor) (.mk hs.readTensor)

theorem Evolves.withW {u : TileCtx} {d : Td} {k : Tn → State → Status × State}
    (hs : Evolves s₀ s) (hk : ∀ {x v}, Evolves s₀ v → Evolves₂ s₀ (k x v)) : Evolves₂ s₀ (s.withW u d k) := by
  unfold State.withW
  dsimp only
  exact .ite (hk hs.readTensor) (.mk hs.readTensor)

theorem Evolves.withWeights {u : TileCtx} {d : Td} {k : Tn → State → Status × State}
    (hs : Evolves s₀ s) (hk : ∀ {x v}, Evolves s₀ v → Evolves₂ s₀ (k x v)) : Evolves₂ s₀ (s.withWeights u d k) := by
  unfold State.withWeights
  dsimp only
  refine .ite (hs.withW hk) (.ite (.mk hs.readTensor) (.ite (.mk hs.readTensor.tileRead) ?_))
  split
  · exact .mk hs.readTensor.tileRead
  · exact hk hs.readTensor.tileRead

theorem Evolves.readWords {u : TileCtx} {addr n : ℕ} (hs : Evolves s₀ s) : Evolves₃ s₀ (s.readWords u addr n) := by
  unfold State.readWords
  dsimp only
  exact .mk hs.dmaRead

theorem Evolves.withList {u : TileCtx} {addr n : ℕ} {k : Option (List Fl) → State → Status × State}
    (hs : Evolves s₀ s) (hk : ∀ {x v}, Evolves s₀ v → Evolves₂ s₀ (k x v)) : Evolves₂ s₀ (s.withList u addr n k) := by
  unfold State.withList
  dsimp only
  exact .ite (hk hs) (.ite (hk hs.readWords) (.mk hs.readWords))

theorem Evolves.tileWrite {u : TileCtx} {loc : Bool} {addr : ℕ} {bytes : List Byte} (hs : Evolves s₀ s) :
    Evolves₂ s₀ (s.tileWrite u loc addr bytes) :=
  .ite hs.dmaWrite (.mk hs.putBytes)

theorem Evolves.writeTensor {u : TileCtx} {ty : ℕ} {r : TRef} {vals : List ℕ} (hs : Evolves s₀ s) :
    Evolves₂ s₀ (s.writeTensor u ty r vals) := by
  unfold State.writeTensor
  dsimp only
  exact .mk ((Evolves₃.mk hs).foldl fun hu => .ite hu (.mk hu.tileWrite))

theorem Evolves.freeElems {n : ℕ} (hs : Evolves s₀ s) : Evolves₂ s₀ (s.freeElems n) :=
  .mk hs.upd

theorem Evolves.putResult {u : TileCtx} {d : Td} {f : Fl → ℕ} {r : Result} (hs : Evolves s₀ s) :
    Evolves₂ s₀ (s.putResult u d f r) := by
  unfold State.putResult
  dsimp only
  split
  · exact hs.writeTensor
  · exact hs.freeElems.writeTensor

theorem Evolves.putMatrix {u : TileCtx} {d : Td} {r : Result} (hs : Evolves s₀ s) : Evolves₂ s₀ (s.putMatrix u d r) :=
  hs.withList fun hu => hu.withList fun hu1 => by split; exacts [hu1.putResult, hu1.writeTensor]

theorem Evolves.norm {u : TileCtx} {d : Td} (hs : Evolves s₀ s) : Evolves₂ s₀ (s.norm u d) := by
  unfold State.norm
  dsimp only
  exact hs.withX fun hu => hu.withList fun hu1 => hu1.withList fun hu2 => hu2.putResult

theorem Evolves.topkOp {u : TileCtx} {d : Td} (hs : Evolves s₀ s) : Evolves₂ s₀ (s.topkOp u d) := by
  refine hs.withX fun {x v} hv => ?_
  have hp {p : List ℕ × List ℕ × State} (hp : Evolves₃ s₀ p) :
      Evolves₂ s₀ (if (p.2.2.writeTensor u d.tout d.y p.1).1 ≠ .ok then p.2.2.writeTensor u d.tout d.y p.1
        else (p.2.2.writeTensor u d.tout d.y p.1).2.dmaWrite u.acc (d.p0 % 2 ^ 48) (elemBytes 7 p.2.1)) :=
    .ite hp.writeTensor (Evolves.dmaWrite hp.writeTensor)
  cases htopk : topk d x with
  | some l => simpa only [htopk] using hp (.mk hv)
  | none => simpa only [htopk] using hp (.mk hv.freeElems.freeElems)

theorem Evolves.quant {u : TileCtx} {d : Td} {de : Bool} (hs : Evolves s₀ s) : Evolves₂ s₀ (s.quant u d de) := by
  unfold State.quant
  dsimp only
  exact hs.withX fun hu => hu.withList fun hu1 => .ite hu1.putResult hu1.writeTensor

theorem Evolves.attention {u : TileCtx} {d : Td} (hs : Evolves s₀ s) : Evolves₂ s₀ (s.attention u d) := by
  unfold State.attention
  dsimp only
  exact hs.withX fun hu => hu.withWeights fun hu1 => .ite (.mk hu1.readTensor) (hu1.readTensor.withList fun hu2 => hu2.putResult)

theorem Evolves.tileOp {u : TileCtx} {d : Td} (hs : Evolves s₀ s) : Evolves₂ s₀ (s.tileOp u d) := by
  unfold State.tileOp
  dsimp only
  split
  · exact hs.withX fun hu1 => hu1.withWeights fun hu2 => hu2.putMatrix
  · exact hs.withX fun hu1 => hu1.withWeights fun hu2 => hu2.putMatrix
  · exact hs.withX fun hu1 => hu1.withWeights fun hu2 => hu2.putMatrix
  · exact hs.withX fun hu1 => hu1.withWeights fun hu2 => hu2.putMatrix
  · exact hs.withX fun hu1 => hu1.putResult
  · exact hs.withX fun hu1 => hu1.withW fun hu2 => hu2.putResult
  · exact hs.withX fun hu1 => hu1.putResult
  · exact hs.norm
  · exact hs.withX fun hu1 => hu1.putResult
  · exact hs.topkOp
  · exact hs.withX fun hu1 => hu1.withW fun hu2 => hu2.putResult
  · exact hs.withX fun hu1 => hu1.withW fun hu2 => .ite (.mk hu2.readTensor) hu2.readTensor.putResult
  · exact hs.withX fun hu1 => hu1.putResult
  · exact hs.withX fun hu1 => hu1.putResult
  · exact hs.quant
  · exact hs.quant
  · exact hs.withX fun hu1 => hu1.putResult
  · exact hs.withX fun hu1 => hu1.putResult
  · exact hs.withX fun hu1 => hu1.putResult
  · exact hs.withX fun hu1 => hu1.withW fun hu2 => hu2.putResult
  · exact hs.attention
  · exact hs.withX fun hu1 => hu1.putResult
  · exact .mk hs

theorem Evolves.readChains (hs : Evolves s₀ s) : Evolves s₀ (s.readChains) :=
  hs.foldl fun hu => hu.readChain

theorem Evolves.popDesc {t : ℕ} {e : TileDesc} (hs : Evolves s₀ s) : Evolves s₀ (s.popDesc t e) :=
  hs.setTileQueue.syncTile

theorem Evolves.retireDesc {t : ℕ} {e : TileDesc} (hs : Evolves s₀ s) : Evolves s₀ (s.retireDesc t e) :=
  hs.popDesc.markRan.readChains

theorem Evolves.tileRun {t op cyc : ℕ} {dbe : Bool} (hs : Evolves s₀ s) : Evolves s₀ (s.tileRun t op cyc dbe) := by
  unfold State.tileRun
  dsimp only
  split
  · exact hs
  · refine .ite ?_ ?_
    · exact hs
    · refine .ite ?_ ?_
      · exact hs.payJob.incSat.markRan.infFail
      · exact .ite hs.payJob.tileOp.retireDesc hs.payJob.tileOp.markRan.infFail

theorem Evolves.duskFetch {addr : ℕ} (hs : Evolves s₀ s) : Evolves₃ s₀ (s.duskFetch addr) := by
  unfold State.duskFetch
  dsimp only
  exact .mk (Evolves₃.ite (.mk hs) hs.dmaRead)

theorem Evolves.duskDo {addr : ℕ} {what : Td → Bool} {act : State → Td → State}
    (hs : Evolves s₀ s) (hf : ∀ {v d}, Evolves s₀ v → Evolves s₀ (act v d)) : Evolves s₀ (s.duskDo addr what act) := by
  unfold State.duskDo
  dsimp only
  exact .ite hs (.ite hs.duskFetch.answer (.ite (hf hs.duskFetch) hs))

theorem Evolves.duskAttempt {addr : ℕ} {what : Td → Bool} {act : State → Td → State}
    (hs : Evolves s₀ s) (hf : ∀ {v d}, Evolves s₀ v → Evolves s₀ (act v d)) : Yields s₀ (s.duskAttempt addr what act) :=
  hs.attempt fun hu => .go (hu.duskDo hf)

theorem Evolves.duskRun {addr op : ℕ} (hs : Evolves s₀ s) : Yields s₀ (s.duskRun addr op) := by
  unfold State.duskRun
  dsimp only
  exact hs.duskAttempt fun hu => hu.tileOp.answer

theorem Evolves.infOp {u : InfUnit} {op cyc : ℕ} {dbe : Bool} (hs : Evolves s₀ s) : Yields s₀ (s.infOp u op cyc dbe) := by
  unfold State.infOp
  split
  · exact hs.tileAttempt fun hu1 => hu1.tileRun
  · exact hs.duskRun

theorem yields_execGemm {u : InfUnit} {cyc : ℕ} {dbe : Bool} (hs : Evolves s₀ s) : Yields s₀ (execGemm u cyc dbe s) :=
  hs.infOp

theorem yields_execConv2d {u : InfUnit} {cyc : ℕ} {dbe : Bool} (hs : Evolves s₀ s) : Yields s₀ (execConv2d u cyc dbe s) :=
  hs.infOp

theorem yields_execDwconv {u : InfUnit} {cyc : ℕ} {dbe : Bool} (hs : Evolves s₀ s) : Yields s₀ (execDwconv u cyc dbe s) :=
  hs.infOp

theorem yields_execDeconv {u : InfUnit} {cyc : ℕ} {dbe : Bool} (hs : Evolves s₀ s) : Yields s₀ (execDeconv u cyc dbe s) :=
  hs.infOp

theorem yields_execPool {u : InfUnit} {cyc : ℕ} {dbe : Bool} (hs : Evolves s₀ s) : Yields s₀ (execPool u cyc dbe s) :=
  hs.infOp

theorem yields_execElemwise {u : InfUnit} {cyc : ℕ} {dbe : Bool} (hs : Evolves s₀ s) : Yields s₀ (execElemwise u cyc dbe s) :=
  hs.infOp

theorem yields_execActivate {u : InfUnit} {cyc : ℕ} {dbe : Bool} (hs : Evolves s₀ s) : Yields s₀ (execActivate u cyc dbe s) :=
  hs.infOp

theorem yields_execNorm {u : InfUnit} {cyc : ℕ} {dbe : Bool} (hs : Evolves s₀ s) : Yields s₀ (execNorm u cyc dbe s) :=
  hs.infOp

theorem yields_execSoftmax {u : InfUnit} {cyc : ℕ} {dbe : Bool} (hs : Evolves s₀ s) : Yields s₀ (execSoftmax u cyc dbe s) :=
  hs.infOp

theorem yields_execTopk {u : InfUnit} {cyc : ℕ} {dbe : Bool} (hs : Evolves s₀ s) : Yields s₀ (execTopk u cyc dbe s) :=
  hs.infOp

theorem yields_execGather {u : InfUnit} {cyc : ℕ} {dbe : Bool} (hs : Evolves s₀ s) : Yields s₀ (execGather u cyc dbe s) :=
  hs.infOp

theorem yields_execScatter {u : InfUnit} {cyc : ℕ} {dbe : Bool} (hs : Evolves s₀ s) : Yields s₀ (execScatter u cyc dbe s) :=
  hs.infOp

theorem yields_execTranspose {u : InfUnit} {cyc : ℕ} {dbe : Bool} (hs : Evolves s₀ s) : Yields s₀ (execTranspose u cyc dbe s) :=
  hs.infOp

theorem yields_execReshape {u : InfUnit} {cyc : ℕ} {dbe : Bool} (hs : Evolves s₀ s) : Yields s₀ (execReshape u cyc dbe s) :=
  hs.infOp

theorem yields_execQuant {u : InfUnit} {cyc : ℕ} {dbe : Bool} (hs : Evolves s₀ s) : Yields s₀ (execQuant u cyc dbe s) :=
  hs.infOp

theorem yields_execDequant {u : InfUnit} {cyc : ℕ} {dbe : Bool} (hs : Evolves s₀ s) : Yields s₀ (execDequant u cyc dbe s) :=
  hs.infOp

theorem yields_execReduce {u : InfUnit} {cyc : ℕ} {dbe : Bool} (hs : Evolves s₀ s) : Yields s₀ (execReduce u cyc dbe s) :=
  hs.infOp

theorem yields_execArgmax {u : InfUnit} {cyc : ℕ} {dbe : Bool} (hs : Evolves s₀ s) : Yields s₀ (execArgmax u cyc dbe s) :=
  hs.infOp

theorem yields_execResize {u : InfUnit} {cyc : ℕ} {dbe : Bool} (hs : Evolves s₀ s) : Yields s₀ (execResize u cyc dbe s) :=
  hs.infOp

theorem yields_execGridsample {u : InfUnit} {cyc : ℕ} {dbe : Bool} (hs : Evolves s₀ s) : Yields s₀ (execGridsample u cyc dbe s) :=
  hs.infOp

theorem yields_execAttention {u : InfUnit} {cyc : ℕ} {dbe : Bool} (hs : Evolves s₀ s) : Yields s₀ (execAttention u cyc dbe s) :=
  hs.infOp

theorem yields_execCopy {u : InfUnit} {cyc : ℕ} {dbe : Bool} (hs : Evolves s₀ s) : Yields s₀ (execCopy u cyc dbe s) :=
  hs.infOp

theorem Evolves.pickSpare (hs : Evolves s₀ s) : Evolves₂ s₀ (s.pickSpare) := by
  unfold State.pickSpare
  dsimp only
  exact .ite (.mk hs) (.mk hs.drawn)

theorem Evolves.loseTile {t : ℕ} (hs : Evolves s₀ s) : Evolves s₀ (s.loseTile t) := by
  unfold State.loseTile
  dsimp only
  exact (hs.foldl fun hu => hu.infEnd).wr.upd.raiseCause

theorem Evolves.flagFrame {t frame : ℕ} (hs : Evolves s₀ s) : Evolves s₀ (s.flagFrame t frame) := by
  unfold State.flagFrame
  dsimp only
  exact hs.foldl fun hu => hu.tileError.send

theorem Evolves.goldenResult {t crc : ℕ} (hs : Evolves s₀ s) : Evolves s₀ (s.goldenResult t crc) := by
  unfold State.goldenResult
  dsimp only
  refine .ite ?_ ?_
  · exact hs.wr
  · split
    · next hd =>
        have hs1 := hs.incSat.incSat.raise.wr.wr.wr.pickSpare.eq hd
        exact hs1.upd.wr
    · next hd =>
        have hs1 := hs.incSat.incSat.raise.wr.wr.wr.pickSpare.eq hd
        exact hs1.flagFrame.wr.loseTile

theorem yields_execGolden {u : InfUnit} {cyc lines crc : ℕ} (hs : Evolves s₀ s) : Yields s₀ (execGolden u cyc lines crc s) := by
  unfold execGolden
  dsimp only
  split
  · exact hs.tileAttempt fun hu1 => by split; exacts [hu1, .ite hu1 hu1.payJob.enginePay.retireDesc.goldenResult]
  · exact hs.duskAttempt fun hu1 => hu1.enginePay.answer

theorem Evolves.waitDesc {t : ℕ} {e : TileDesc} (hs : Evolves s₀ s) : Evolves s₀ (s.waitDesc t e) :=
  hs.setTileQueue.syncTile

theorem Evolves.afterWrites {a : Access} {f : State → State} (hs : Evolves s₀ s) (hf : ∀ {v}, Evolves s₀ v → Evolves s₀ (f v)) :
    Evolves s₀ (s.afterWrites a f) :=
  .ite hs.drainSource (hf hs.drainSource)

theorem Evolves.afterAll {l : List Access} {f : State → State} (hs : Evolves s₀ s) (hf : ∀ {v}, Evolves s₀ v → Evolves s₀ (f v)) :
    Evolves s₀ (State.afterAll l s f) := by
  induction l generalizing s with
  | nil => exact hf hs
  | cons a rest ih => exact hs.afterWrites ih

theorem Evolves.syncArrive {t : ℕ} (hs : Evolves s₀ s) : Evolves s₀ (s.syncArrive t) := by
  unfold State.syncArrive
  dsimp only
  split
  · exact hs
  · exact hs.waitDesc.opt fun hu1 => hs.afterAll fun hu2 => (hu2.foldl fun hu3 => hu3.popDesc.markRan).readChains

theorem yields_execSyncBarrier {u : InfUnit} (hs : Evolves s₀ s) : Yields s₀ (execSyncBarrier u s) := by
  unfold execSyncBarrier
  split
  · exact hs.tileAttempt fun hu1 => hu1.syncArrive
  · exact hs.duskAttempt fun hu1 => hu1.answer

theorem Evolves.syncWrite {t : ℕ} (hs : Evolves s₀ s) : Evolves s₀ (s.syncWrite t) := by
  unfold State.syncWrite
  dsimp only
  split
  · exact hs
  · exact hs.afterWrites fun hu1 => .ite hu1.dmaWrite.markRan.infFail (hu1.dmaWrite.opt fun hu2 => hu2.send).retireDesc

theorem yields_execSyncSignal {u : InfUnit} (hs : Evolves s₀ s) : Yields s₀ (execSyncSignal u s) := by
  unfold execSyncSignal
  dsimp only
  split
  · exact hs.tileAttempt fun hu1 => hu1.syncWrite
  · exact hs.duskAttempt fun hu1 => hu1.afterWrites fun hu2 => hu2.dmaWrite.answer

theorem Evolves.syncRead {t : ℕ} {e : TileDesc} (hs : Evolves s₀ s) : Evolves s₀ (s.syncRead t e) := by
  unfold State.syncRead
  dsimp only
  with_reducible exact .ite hs.dmaNum.markRan.infFail (.ite hs.dmaNum.retireDesc hs.dmaNum.waitDesc)

theorem yields_execSyncWait {t : ℕ} (hs : Evolves s₀ s) : Yields s₀ (execSyncWait t s) :=
  hs.tileAttempt fun hu => by split; exacts [hu, hu.syncRead]

theorem yields_execSyncWaitPoll {t u : ℕ} (hs : Evolves s₀ s) : Yields s₀ (execSyncWaitPoll t u s) :=
  hs.tileAttempt fun hu => by split; exacts [hu, hu.syncRead]

theorem yields_execSyncWaitTimeout {t u : ℕ} (hs : Evolves s₀ s) : Yields s₀ (execSyncWaitTimeout t u s) :=
  hs.tileAttempt fun hu => by split; exacts [hu, hu.markRan.infFail]

theorem yields_execTileSwitch {t : ℕ} (hs : Evolves s₀ s) : Yields s₀ (execTileSwitch t s) :=
  hs.tileAttempt fun hu => hu.switchTile

theorem yields_execInfJobComplete {u : ℕ} (hs : Evolves s₀ s) : Yields s₀ (execInfJobComplete u s) :=
  hs.attempt fun hu => by split; exacts [.go hu, .ite (.go (hu.afterAll fun hu2 => hu2.infEnd)) (.go hu)]

theorem yields_execSafetyFrameEnd {cyc lines : ℕ} {crcs : List (ℕ × ℕ)} (hs : Evolves s₀ s) :
    Yields s₀ (execSafetyFrameEnd cyc lines crcs s) := by
  unfold execSafetyFrameEnd
  dsimp only
  exact .ite (.go hs) (.go ((hs.upd.foldl fun hu => hu.wr).incWrap.foldl fun hu => (Evolves.incSat (by split; exacts [hu.charge.chargeAll, hu])).raise.goldenResult))

theorem yields_execSpareSwapDone {t : ℕ} (hs : Evolves s₀ s) : Yields s₀ (execSpareSwapDone t s) := by
  unfold execSpareSwapDone
  dsimp only
  split
  · exact .go hs
  · exact .go (by split; exacts [hs.upd.wr.wr.wr.wr.wr.syncTile.flagFrame, hs.upd.wr.wr.wr.wr.wr.syncTile])

theorem yields_execRotationSwap (hs : Evolves s₀ s) : Yields s₀ (execRotationSwap s) := by
  unfold execRotationSwap
  dsimp only
  refine .ite ?_ ?_
  · exact .go hs
  · split
    · exact .go hs
    · split
      · next hd1 =>
          have hs2 := hs.pickSpare.eq hd1
          exact .go hs2.upd.wr
      · next hd1 =>
          have hs2 := hs.pickSpare.eq hd1
          exact .go hs2

theorem Evolves.wakeTile {p : ℕ} {pass : Bool} (hs : Evolves s₀ s) : Evolves s₀ (s.wakeTile p pass) := by
  unfold State.wakeTile
  dsimp only
  exact .ite (.ite (hs.upd.optElse fun hu => hu.wr) (hs.upd.opt fun hu => hu.wr)) hs.upd.wr.upd.writeLog.checkSpares

theorem yields_execLbistDone {p : ℕ} {pass : Bool} (hs : Evolves s₀ s) : Yields s₀ (execLbistDone p pass s) := by
  unfold execLbistDone
  dsimp only
  exact .ite (.go hs.wakeTile) (.ite (.go hs) (.ite (.go hs.upd.wr) (.go hs.upd.wr.upd.writeLog.checkSpares)))

theorem Evolves.shEnd {t : ShId} {st : Status} (hs : Evolves s₀ s) : Evolves s₀ (s.shEnd t st) :=
  .ite hs.compEnd hs.gfxEnd

theorem Evolves.shFault {inst : ℕ} {t : ShId} {pc cause : ℕ} {st : Status} (hs : Evolves s₀ s) :
    Evolves s₀ (s.shFault inst t pc cause st) := by
  unfold State.shFault
  dsimp only
  exact hs.wrPair.wr.wr.incSat.shEnd

theorem Evolves.shader {i : ShIssue} {f3 : ℕ} {f7 : ℕ → Bool} {body : State → ShEnv → ShThread → State}
    (hs : Evolves s₀ s) (hf : ∀ {v e x}, Evolves s₀ v → Evolves s₀ (body v e x)) : Yields s₀ (s.shader i f3 f7 body) := by
  refine .ite .refused (hs.attempt fun hu => ?_)
  split
  · exact .go hu
  · exact .ite (.go hu.shFault) (.go (hf hu))

theorem Evolves.residentAt {a : Access} {d addr : ℕ} (hs : Evolves s₀ s) : Evolves₃ s₀ (s.residentAt a d addr) := by
  unfold State.residentAt
  dsimp only
  refine .ite ?_ ?_
  · with_reducible exact .mk hs
  · with_reducible exact .mk hs.dmaNum

theorem Evolves.allResident {a : Access} {d : ℕ} {taps : List (ℕ × ℕ × ℕ)} (hs : Evolves s₀ s) :
    Evolves₃ s₀ (s.allResident a d taps) := by
  unfold State.allResident
  dsimp only
  exact (Evolves₃.mk hs).foldl fun hu => .ite hu (.mk hu.residentAt)

theorem Evolves.readTaps {a : Access} {d : ℕ} {taps : List (ℕ × ℕ × ℕ)} (hs : Evolves s₀ s) :
    Evolves₃ s₀ (s.readTaps a d taps) := by
  unfold State.readTaps
  dsimp only
  exact (Evolves₃.mk hs).foldl fun hu => .ite hu (.mk hu.dmaNum)

theorem Evolves.sampleOne {a : Access} {d : ℕ} {uvl quad : List ℕ} (hs : Evolves s₀ s) :
    Evolves₂ s₀ (s.sampleOne a d uvl quad) := by
  unfold State.sampleOne
  dsimp only
  refine .ite ?_ ?_
  · exact .mk hs.allResident
  · refine .ite ?_ ?_
    · exact .mk hs.allResident
    · exact .ite (.mk hs.allResident.readTaps) (.mk hs.allResident.readTaps)

theorem Evolves.sampleAll {a : Access} {d : ℕ} {lod : Bool} {vs : List ℕ} {vl : ℕ} (hs : Evolves s₀ s) :
    Evolves₃ s₀ (s.sampleAll a d lod vs vl) := by
  unfold State.sampleAll
  dsimp only
  exact (Evolves₃.mk hs).foldl fun hu => .ite hu (by split; (next hd1 => exact .mk (hu.sampleOne.eq hd1)); (next hd1 => exact .mk (hu.sampleOne.eq hd1)))

theorem Evolves.setThread {x : ShThread} (hs : Evolves s₀ s) : Evolves s₀ (s.setThread x) := by
  unfold State.setThread
  dsimp only
  exact hs.setGfx

theorem yields_execTexSample {i : ShIssue} (hs : Evolves s₀ s) : Yields s₀ (execTexSample i s) := by
  unfold execTexSample
  dsimp only
  with_reducible
    exact hs.shader fun hu => .ite hu.dmaNum.shFault (.ite hu.dmaNum.drawn.shFault
      (.ite hu.dmaNum.sampleAll.shFault hu.dmaNum.sampleAll.setThread))

theorem yields_execInterp {i : ShIssue} (hs : Evolves s₀ s) : Yields s₀ (execInterp i s) :=
  hs.shader fun hu => by split; exacts [hu, hu.setThread]

theorem Evolves.tbLd {i : ShIssue} {v : ShEnv} {x : ShThread} (hs : Evolves s₀ s) : Evolves s₀ (s.tbLd i v x) := by
  unfold State.tbLd
  dsimp only
  split
  · split
    · exact hs.drawn.setThread
    · exact .ite ((Evolves₃.mk hs).foldl fun hu2 => .ite hu2 (.mk hu2.pixel)).shFault
        ((Evolves₃.mk hs).foldl fun hu2 => .ite hu2 (.mk hu2.pixel)).setThread
  · exact hs

theorem yields_execTbLd {i : ShIssue} (hs : Evolves s₀ s) : Yields s₀ (execTbLd i s) :=
  hs.shader fun hu => hu.tbLd

theorem Evolves.tbSt {i : ShIssue} {v : ShEnv} {x : ShThread} (hs : Evolves s₀ s) : Evolves s₀ (s.tbSt i v x) := by
  unfold State.tbSt
  dsimp only
  split
  · split
    · with_reducible exact hs
    · with_reducible
        exact .ite hs.dmaNum.shFault (.ite ((Evolves₃.mk hs.dmaNum).foldl fun hu2 => .ite hu2 (.mk hu2.pixel)).shFault
          ((Evolves₃.mk hs.dmaNum).foldl fun hu2 => .ite hu2 (.mk hu2.pixel)).setGfxJob.setThread)
  · with_reducible exact hs

theorem yields_execTbSt {i : ShIssue} (hs : Evolves s₀ s) : Yields s₀ (execTbSt i s) :=
  hs.shader fun hu => hu.tbSt

theorem yields_execCovRead {i : ShIssue} (hs : Evolves s₀ s) : Yields s₀ (execCovRead i s) := by
  unfold execCovRead
  dsimp only
  exact hs.shader fun hu => hu.setThread

theorem yields_execCovDiscard {i : ShIssue} (hs : Evolves s₀ s) : Yields s₀ (execCovDiscard i s) :=
  hs.shader fun hu => hu.setThread

theorem yields_execBar {i : ShIssue} (hs : Evolves s₀ s) : Yields s₀ (execBar i s) := by
  unfold execBar
  dsimp only
  exact hs.shader fun hu => .ite hu (by split; exacts [hu, hu.setThread.opt fun hu2 => hu2.setGfx])

theorem Evolves.goG (hs : Evolves s₀ s) : Yields s₀ (goG s) :=
  .go hs.syncClusters

theorem Evolves.setCompJob {j : CompJob} (hs : Evolves s₀ s) : Evolves s₀ (s.setCompJob j) := by
  unfold State.setCompJob
  dsimp only
  exact hs.setGfx

theorem yields_execShaderEcall {th : ShId} {pc a7 : ℕ} (hs : Evolves s₀ s) : Yields s₀ (execShaderEcall th pc a7 s) := by
  unfold execShaderEcall
  dsimp only
  exact hs.attempt fun hu => by split; exacts [.go hu, .ite (.go hu.drawn.shFault) (by split; exacts [.ite (.go hu.setThread.setCompJob.syncClusters) (.go hu.setThread), .go hu.setThread])]

theorem yields_execShaderException {th : ShId} {pc cause : ℕ} {st : Status} (hs : Evolves s₀ s) :
    Yields s₀ (execShaderException th pc cause st s) :=
  .ite .refused (hs.attempt fun hu => by split; exacts [.go hu, .ite (.go hu.shFault) (.ite (.go hu.shFault) (.go hu.drawn.shFault))])

theorem Evolves.jobRun {u : ℕ} {f : State → State} (hs : Evolves s₀ s) (hf : ∀ {v}, Evolves s₀ v → Evolves s₀ (f v)) :
    Yields s₀ (s.jobRun u f) := hs.attempt fun hu => .go (hf hu).syncClusters

theorem Evolves.packet {u ty : ℕ} {k : GfxJob → ℕ → List ℕ → State → State}
    (hs : Evolves s₀ s) (hk : ∀ {j h w v}, Evolves s₀ v → Evolves s₀ (k j h w v)) : Evolves s₀ (s.packet u ty k) := by
  unfold State.packet
  split
  · exact hs
  · dsimp only
    exact .ite hs (.ite hs.packetWords.gfxEnd (.ite hs.packetWords.gfxEnd (.ite hs.packetWords (hk hs.packetWords))))

theorem yields_execPacketEnd {u : ℕ} (hs : Evolves s₀ s) : Yields s₀ (execPacketEnd u s) := by
  unfold execPacketEnd
  dsimp only
  exact hs.jobRun fun hu => hu.packet fun hu1 => hu1.setGfxJob

theorem Evolves.passBegin {u : ℕ} {j : GfxJob} {w : List ℕ} (hs : Evolves s₀ s) : Evolves s₀ (s.passBegin u j w) := by
  unfold State.passBegin
  dsimp only
  refine .ite ?_ ?_
  · exact hs.gfxEnd
  · refine .ite ?_ ?_
    · exact hs.dmaRead.gfxEnd
    · refine .ite ?_ ?_
      · exact hs.dmaRead.gfxEnd
      · refine .ite ?_ ?_
        · exact hs.dmaRead.dmaRead.gfxEnd
        · split
          · exact hs.dmaRead.dmaRead.gfxEnd
          · exact hs.dmaRead.dmaRead.setGfxJob

theorem yields_execPassBegin {u : ℕ} (hs : Evolves s₀ s) : Yields s₀ (execPassBegin u s) :=
  hs.jobRun fun hu => hu.packet fun hu1 => hu1.afterWrites fun hu2 => hu2.passBegin

theorem Evolves.readRefs {j : GfxJob} {p : Pass} (hs : Evolves s₀ s) : Evolves₂ s₀ (s.readRefs j p) := by
  unfold State.readRefs
  dsimp only
  exact (Evolves₂.mk hs).foldl fun hu => .ite hu (.mk hu.dmaRead)

theorem Evolves.pixelAll {j : GfxJob} {p : Pass} {i : ℕ} {a : Att} {x y : ℕ} (hs : Evolves s₀ s) :
    Evolves₃ s₀ (s.pixelAll j p i a x y) := by
  unfold State.pixelAll
  dsimp only
  exact (Evolves₃.mk hs).foldl fun hu => .ite hu (.mk hu.pixel)

theorem Evolves.storePixel {j : GfxJob} {p : Pass} {i : ℕ} {a : Att} {flush : Bool} {x y : ℕ} (hs : Evolves s₀ s) :
    Evolves₂ s₀ (s.storePixel j p i a flush x y) := by
  unfold State.storePixel
  dsimp only
  refine .ite ?_ ?_
  · exact .mk hs
  · exact .ite (.mk hs.pixelAll) (.ite hs.pixelAll.dmaWrite ((Evolves₂.mk hs.pixelAll).foldl fun hu => .ite hu hu.dmaWrite))

theorem Evolves.storeBins {j : GfxJob} {p : Pass} {flush : Bool} {bins : List ℕ} (hs : Evolves s₀ s) :
    Evolves₂ s₀ (s.storeBins j p flush bins) :=
  (Evolves₂.mk hs).foldl fun hu => hu.foldl fun hu1 => hu1.foldl fun hu2 => .ite hu2 hu2.storePixel

theorem Evolves.resolveBins {j : GfxJob} {p : Pass} {flush : Bool} {bins : List ℕ} (hs : Evolves s₀ s) :
    Evolves₂ s₀ (s.resolveBins j p flush bins) := by
  unfold State.resolveBins
  dsimp only
  exact .ite (.mk hs.readRefs) hs.readRefs.storeBins

theorem Evolves.passEnd {u cyc : ℕ} {j : GfxJob} (hs : Evolves s₀ s) : Evolves s₀ (s.passEnd u cyc j) := by
  unfold State.passEnd
  dsimp only
  split
  · exact hs.setGfxJob
  · refine .ite ?_ ?_
    · exact hs
    · exact .ite hs.payJob.resolveBins.gfxEnd hs.payJob.resolveBins.setGfx.setGfxJob.wr

theorem yields_execPassEnd {u cyc : ℕ} (hs : Evolves s₀ s) : Yields s₀ (execPassEnd u cyc s) :=
  hs.jobRun fun hu => hu.packet fun hu1 => hu1.passEnd

theorem yields_execPipe {u : ℕ} (hs : Evolves s₀ s) : Yields s₀ (execPipe u s) := by
  unfold execPipe
  dsimp only
  exact hs.jobRun fun hu => hu.packet fun hu1 => hu1.setGfxJob

theorem yields_execBind {u : ℕ} (hs : Evolves s₀ s) : Yields s₀ (execBind u s) := by
  unfold execBind
  dsimp only
  exact hs.jobRun fun hu => hu.packet fun hu1 => hu1.setGfxJob

theorem Evolves.flushPass {u : ℕ} {j : GfxJob} {p : Pass} {pipe : ℕ} (hs : Evolves s₀ s) : Evolves s₀ (s.flushPass u j p pipe) := by
  unfold State.flushPass
  dsimp only
  exact .ite hs.resolveBins.gfxEnd hs.resolveBins.incWrap.binAll

theorem Evolves.draw {u cyc : ℕ} {prims : List Prim} {j : GfxJob} {w : List ℕ} (hs : Evolves s₀ s) :
    Evolves s₀ (s.draw u cyc prims j w) := by
  unfold State.draw
  dsimp only
  split
  · with_reducible exact hs
  · refine .ite ?_ ?_
    · with_reducible exact hs
    · refine .ite ?_ ?_
      · with_reducible exact hs.payJob.dmaNum.gfxEnd
      · refine .ite ?_ ?_
        · with_reducible exact hs.payJob.dmaNum.flushPass
        · refine .ite ?_ ?_
          · with_reducible exact hs.payJob.dmaNum.setGfxJob
          · with_reducible exact .ite hs.payJob.dmaNum.dmaRead.gfxEnd hs.payJob.dmaNum.dmaRead.binAll

theorem yields_execDraw {u cyc : ℕ} {prims : List Prim} (hs : Evolves s₀ s) : Yields s₀ (execDraw u cyc prims s) :=
  .ite .refused (hs.jobRun fun hu => hu.packet fun hu1 => hu1.draw)

theorem yields_execPacketWait {u : ℕ} (hs : Evolves s₀ s) : Yields s₀ (execPacketWait u s) := by
  unfold execPacketWait
  dsimp only
  with_reducible
    exact hs.jobRun fun hu => hu.packet fun hu1 => .ite hu1.dmaNum.gfxEnd (.ite hu1.dmaNum.setGfxJob hu1.dmaNum.setGfxJob)

theorem yields_execPacketWaitTimeout {u : ℕ} (hs : Evolves s₀ s) : Yields s₀ (execPacketWaitTimeout u s) :=
  hs.jobRun fun hu => by split; exacts [.ite hu.gfxEnd hu, hu]

theorem yields_execPacketSignal {u : ℕ} (hs : Evolves s₀ s) : Yields s₀ (execPacketSignal u s) := by
  unfold execPacketSignal
  dsimp only
  exact hs.jobRun fun hu => hu.packet fun hu1 => hu1.afterWrites fun hu2 => .ite hu2.dmaWrite.gfxEnd
    (hu2.dmaWrite.opt fun hu3 => hu3.send).setGfxJob

theorem yields_execJump {u : ℕ} (hs : Evolves s₀ s) : Yields s₀ (execJump u s) :=
  hs.jobRun fun hu => hu.packet fun hu1 => hu1.setGfxJob

theorem yields_execBinGrowTimeout {n : ℕ} (hs : Evolves s₀ s) : Yields s₀ (execBinGrowTimeout n s) := by
  unfold execBinGrowTimeout
  refine .ite ?_ ?_
  · exact .refused
  · refine .ite ?_ ?_
    · exact .go hs
    · split
      · exact hs.jobRun fun hu1 => hu1.gfxEnd
      · exact .go hs

theorem yields_execGfxStreamComplete {u : ℕ} (hs : Evolves s₀ s) : Yields s₀ (execGfxStreamComplete u s) :=
  hs.jobRun fun hu => by split; exacts [.ite (hu.afterWrites fun hu2 => hu2.gfxEnd) hu, hu]

theorem yields_execComputeJobStart {u : ℕ} (hs : Evolves s₀ s) : Yields s₀ (execComputeJobStart u s) := by
  unfold execComputeJobStart
  dsimp only
  with_reducible
    exact hs.jobRun fun hu => by split; exacts [hu, .ite hu (.ite hu.setCompJob (.ite hu.dmaNum.compEnd (hu.dmaNum.opt fun hu2 => hu2.setCompJob)))]

theorem yields_execComputeWaitTimeout {u : ℕ} (hs : Evolves s₀ s) : Yields s₀ (execComputeWaitTimeout u s) :=
  hs.jobRun fun hu => by split; exacts [hu, .ite hu hu.compEnd]

theorem Evolves.compSignal {j : CompJob} (hs : Evolves s₀ s) : Evolves₂ s₀ (s.compSignal j) := by
  unfold State.compSignal
  dsimp only
  exact .ite (.mk hs) hs.dmaWrite

theorem yields_execComputeJobComplete {u cyc : ℕ} (hs : Evolves s₀ s) : Yields s₀ (execComputeJobComplete u cyc s) := by
  unfold execComputeJobComplete
  dsimp only
  exact hs.jobRun fun hu => by split; exacts [hu, .ite hu (hu.payJob.afterWrites fun hu2 => .ite hu2.compSignal.compEnd (hu2.compSignal.opt fun hu3 => hu3.send).compEnd)]

theorem yields_execClusterSwitch {c : ℕ} (hs : Evolves s₀ s) : Yields s₀ (execClusterSwitch c s) :=
  .ite .refused (hs.attempt fun hu => .go hu.switchCluster)

theorem yields_execDeadlinePreempt {d : ℕ} (hs : Evolves s₀ s) : Yields s₀ (execDeadlinePreempt d s) := by
  unfold execDeadlinePreempt
  dsimp only
  exact .ite .refused (.go (hs.foldl fun hu => hu.incSat).setGfx.syncClusters)

theorem Evolves.latchPipe {d : ℕ} (hs : Evolves s₀ s) : Evolves s₀ (s.latchPipe d) := by
  unfold State.latchPipe
  dsimp only
  exact hs.setPipe

theorem yields_execDisplayDecisionInstant {d : ℕ} (hs : Evolves s₀ s) : Yields s₀ (execDisplayDecisionInstant d s) := by
  unfold execDisplayDecisionInstant
  dsimp only
  refine .ite ?_ ?_
  · exact .refused
  · refine .ite ?_ ?_
    · exact .go hs
    · split
      · exact .ite (.go hs.latchPipe.setPipe.slotFree.schedule)
          (.ite (.go hs.latchPipe.setPipe.slotFree.schedule) (.go hs.latchPipe))
      · exact .ite (.go hs.latchPipe.setPipe.slotFree.schedule) (.go hs.latchPipe)

theorem Evolves.pipeRun {d : ℕ} {f : State → State} (hs : Evolves s₀ s) (hf : ∀ {v}, Evolves s₀ v → Evolves s₀ (f v)) :
    Yields s₀ (s.pipeRun d f) := .ite .refused (hs.attempt fun hu => .go (hf hu))

theorem Evolves.poseAge {f : Option Frame} (hs : Evolves s₀ s) : Evolves₂ s₀ (s.poseAge f) := by
  unfold State.poseAge
  split
  · exact .mk hs
  · exact .ite (.mk hs) (.ite (.mk hs) (.mk hs.drawn))

theorem Evolves.newPeriod {d : ℕ} (hs : Evolves s₀ s) : Evolves s₀ (s.newPeriod d) := by
  unfold State.newPeriod
  dsimp only
  exact hs.poseAge.setPipe

theorem Evolves.scanRow {addr n : ℕ} (hs : Evolves s₀ s) : Evolves₂ s₀ (s.scanRow addr n) := by
  unfold State.scanRow
  dsimp only
  exact (Evolves₂.mk hs).foldl fun hu => .mk hu.dmaRead

theorem Evolves.sourceRow {d v y : ℕ} (hs : Evolves s₀ s) : Evolves₃ s₀ (s.sourceRow d v y) := by
  unfold State.sourceRow
  dsimp only
  exact .mk hs.scanRow

theorem Evolves.sourceRows {d v : ℕ} {l : List ℕ} (hs : Evolves s₀ s) : Evolves₃ s₀ (s.sourceRows d v l) := by
  induction l generalizing s with
  | nil => exact .mk hs
  | cons y ys ih =>
    unfold State.sourceRows
    dsimp only
    exact .mk (ih hs.sourceRow)

theorem Evolves.bandRows {d v : ℕ} {w : Warp} {lines : List ℕ} (hs : Evolves s₀ s) : Evolves₃ s₀ (s.bandRows d v w lines) := by
  unfold State.bandRows
  dsimp only
  split
  · exact .mk hs.sourceRows
  · exact .mk hs.sourceRows

theorem Evolves.stampStart {u : Option ℕ} {t : ℕ} (hs : Evolves s₀ s) : Evolves s₀ (s.stampStart u t) := by
  unfold State.stampStart
  split
  · exact hs
  · split
    · exact .ite hs.setJob hs
    · exact hs

theorem Evolves.produceBand {d mid : ℕ} {under : List ℕ} (hs : Evolves s₀ s) : Evolves s₀ (s.produceBand d mid under) := by
  unfold State.produceBand
  dsimp only
  split
  · exact hs
  · split
    · exact hs.setPipe
    · exact (hs.bandRows.opt fun hu2 => hu2.stampStart).setPipe

theorem Evolves.dropForce {d b : ℕ} (hs : Evolves s₀ s) : Evolves s₀ (s.dropForce d b) := by
  unfold State.dropForce
  dsimp only
  exact .ite hs.setPipe hs

theorem Evolves.lateSwitch {d b : ℕ} (hs : Evolves s₀ s) : Evolves s₀ (s.lateSwitch d b) := by
  unfold State.lateSwitch
  dsimp only
  split
  · exact .ite hs (.ite (.ite hs hs.setPipe) (.ite hs.setPipe.slotFree hs.setPipe))
  · exact hs

theorem yields_execBandProduction {d mid : ℕ} {under : List ℕ} (hs : Evolves s₀ s) :
    Yields s₀ (execBandProduction d mid under s) := by
  unfold execBandProduction
  dsimp only
  exact hs.pipeRun fun hu => .ite hu (hu.pollReady.opt fun hu1 => hu1.newPeriod).lateSwitch.dropForce.produceBand.schedule

theorem yields_execFrameReadyPoll {d : ℕ} (hs : Evolves s₀ s) : Yields s₀ (execFrameReadyPoll d s) :=
  hs.pipeRun fun hu => .ite hu.pollReady hu

theorem yields_execFrameReadyTimeout {d u : ℕ} (hs : Evolves s₀ s) : Yields s₀ (execFrameReadyTimeout d u s) :=
  hs.pipeRun fun hu => .ite hu.frameEnd hu

theorem yields_execFrameRetire {d u : ℕ} (hs : Evolves s₀ s) : Yields s₀ (execFrameRetire d u s) := by
  unfold execFrameRetire
  dsimp only
  exact hs.pipeRun fun hu => .ite hu.frameEnd hu

theorem Evolves.pipeEvent {d : ℕ} (hs : Evolves s₀ s) : Evolves s₀ (s.pipeEvent d) :=
  hs.send

theorem Evolves.checkRegion {d : ℕ} {q : Period} (hs : Evolves s₀ s) : Evolves₂ s₀ (s.checkRegion d q) :=
  .ite (.mk hs) (.ite (.mk hs) (.mk hs.incSat.raise.pipeEvent))

theorem yields_execRegionCrcCheck {d : ℕ} (hs : Evolves s₀ s) : Yields s₀ (execRegionCrcCheck d s) := by
  unfold execRegionCrcCheck
  dsimp only
  refine .ite ?_ ?_
  · exact .refused
  · refine .ite ?_ ?_
    · exact .go hs
    · split
      · exact .go hs.checkRegion.setPipe
      · split
        · exact .go hs.checkRegion.setPipe
        · exact .go hs

theorem Evolves.endPeriod {d : ℕ} {q : Period} (hs : Evolves s₀ s) : Evolves s₀ (s.endPeriod d q) := by
  unfold State.endPeriod
  dsimp only
  exact (((Evolves.ite (hs.setPipe.opt fun hu => hu.incSat.raise.pipeEvent).incSat
    ((hs.setPipe.opt fun hu => hu.incSat.raise.pipeEvent).opt fun hu => hu.incSat)).opt fun hu => hu.incSat).opt fun hu =>
    hu.incSat).dmaWrite.opt fun hu => hu.pipeEvent

theorem yields_execFrameStatusWrite {d : ℕ} (hs : Evolves s₀ s) : Yields s₀ (execFrameStatusWrite d s) := by
  unfold execFrameStatusWrite
  dsimp only
  exact hs.pipeRun fun hu => .ite hu (by split; exacts [hu.setPipe.endPeriod, by split; exacts [.ite hu hu.setPipe.endPeriod, hu]])

theorem Evolves.judgeSample {n : ℕ} {faulty : Bool} (hs : Evolves s₀ s) : Evolves s₀ (s.judgeSample n faulty) := by
  unfold State.judgeSample
  dsimp only
  exact .ite (hs.setStream.opt fun hu => hu.setHealth) (hs.setStream.opt fun hu => hu.setHealth)

theorem Evolves.lateDrops {n : ℕ} (hs : Evolves s₀ s) : Evolves s₀ (s.lateDrops n) := by
  unfold State.lateDrops
  dsimp only
  exact .ite hs hs.setSxt.incSat

theorem Evolves.freePoints (hs : Evolves s₀ s) : Evolves s₀ (s.freePoints) := by
  unfold State.freePoints
  dsimp only
  split
  · exact hs
  · exact hs.setSxt

theorem Evolves.storePoints {n : ℕ} {ps : List LPoint} (hs : Evolves s₀ s) : Evolves s₀ (s.storePoints n ps) := by
  unfold State.storePoints
  dsimp only
  exact hs.setStream.opt fun hu => hu.setSxt.freePoints

theorem calib_eq : State.calib = fun s n =>
    match s.dmaNum sextantAccess (s.rdPair Reg.SXT_CAL_LO Reg.SXT_CAL_HI [] + 128 * n) 128 with | (_, v, t) => (v, t) := rfl

theorem Evolves.calib {n : ℕ} (hs : Evolves s₀ s) : Evolves₂ s₀ (s.calib n) := by
  have h : ∀ p : Status × ℕ × State, Evolves₃ s₀ p → Evolves₂ s₀ (match p with | (_, v, t) => (v, t)) := fun _ hp => hp
  rw [calib_eq]
  exact h _ hs.dmaNum

theorem Evolves.lidarViews {tk : ℕ} {incl : List ℕ} (hs : Evolves s₀ s) : Evolves₂ s₀ (s.lidarViews tk incl) := by
  refine Evolves₂.foldl (.mk hs) fun hu => ?_
  split
  next hd => exact .mk (hu.calib.eq hd)

theorem Evolves.cameraViews {incl : List ℕ} (hs : Evolves s₀ s) : Evolves₂ s₀ (s.cameraViews incl) := by
  refine Evolves₂.foldl (.mk hs) fun hu => ?_
  split
  next hd => exact .mk (hu.calib.eq hd)

theorem Evolves.trustLidar {n : ℕ} (hs : Evolves s₀ s) : Evolves s₀ (s.trustLidar n) :=
  .ite hs.setHealth hs

theorem Evolves.judgeLidar {l : List Seen} {a : Seen} (hs : Evolves s₀ s) : Evolves s₀ (State.judgeLidar l s a) := by
  unfold State.judgeLidar
  dsimp only
  exact .ite (.ite hs.setStream.setHealth hs.setStream.trustLidar)
    (.ite (hs.setStream.opt fun hu => hu.setHealth) hs.setStream.trustLidar)

theorem Evolves.oldestOf {x1 : List (ℕ × ℕ)} (hs : Evolves s₀ s) : Evolves₂ s₀ (s.oldestOf x1) := by
  unfold State.oldestOf
  split
  · exact .mk hs.drawn
  · exact .mk hs

theorem Evolves.slotWrite {base size off : ℕ} {b : List Byte} (hs : Evolves s₀ s) : Evolves s₀ (s.slotWrite base size off b) :=
  hs.dmaWrite

theorem Evolves.release {e : OpenEpoch} (hs : Evolves s₀ s) : Evolves s₀ (s.release e) := by
  unfold State.release
  extract_lets masked live late incl
  split
  next lv u hu =>
  replace hu := hs.lidarViews.eq hu
  split
  next cv w hw =>
  replace hw := hu.cameraViews.eq hw
  extract_lets ps seen s1 s2 s3 cells grid
  have h3 : Evolves s₀ s3 :=
    ((hw.foldl fun hu => hu.incSat).foldl fun hu => hu.trustLidar).foldl fun hu => hu.judgeLidar
  clear_value s3
  split
  next dir lists ovf hl =>
  extract_lets times
  split
  next oldest v hv =>
  replace hv := h3.oldestOf.eq hv
  dsimp only
  exact (hv.slotWrite.slotWrite.slotWrite.slotWrite.slotWrite.send.wr.opt fun hu => hu.incSat).setSxt.freePoints.wr

theorem Evolves.openEpoch {n tk q : ℕ} (hs : Evolves s₀ s) : Evolves s₀ (s.openEpoch n tk q) := by
  unfold State.openEpoch
  dsimp only
  split
  · exact hs
  · exact .ite hs (Evolves.setSxt (by split; exacts [.ite hs.release hs, hs])).freePoints.wr

theorem Evolves.arrive {n : ℕ} {a : Sample} (hs : Evolves s₀ s) : Evolves s₀ (s.arrive n a) := by
  unfold State.arrive
  extract_lets a whole pieces len cut faults bad ps ovf gap ctr time x slot base acc flags c s1 s2 s3 full src s4 s5 s6 s7 s8 s9 sxt
    ego s10 s11
  have h3 : Evolves s₀ s3 := by
    have h : Evolves s₀ s1 := hs.dmaWrite
    exact (h.foldl fun h => h.dmaWrite).dmaWrite
  clear_value s3
  have h5 : Evolves s₀ s5 := h3.setStream.incWrap
  have h8 : Evolves s₀ s8 := ((h5.opt fun h => h.incSat).opt fun h => h.incSat).opt fun h => h.incSat
  exact ((h8.judgeSample.opt fun h => h.setSxt).storePoints.lateDrops).opt fun h => h.openEpoch

theorem yields_execSampleArrival {n : ℕ} {a : Sample} (hs : Evolves s₀ s) : Yields s₀ (execSampleArrival n a s) :=
  .ite .refused (.ite (hs.attempt fun hu => .go hu.arrive) (.go hs))

theorem yields_execStreamTimeout {n : ℕ} (hs : Evolves s₀ s) : Yields s₀ (execStreamTimeout n s) := by
  unfold execStreamTimeout
  dsimp only
  exact .ite .refused (.ite (.go hs) (.ite (.go hs.incSat) (.go hs.incSat.setStream.setHealth)))

theorem Evolves.feedBias {e : EgoIn} (hs : Evolves s₀ s) : Evolves s₀ (s.feedBias e) := by
  unfold State.feedBias
  dsimp only
  exact hs.setSxt

theorem Evolves.plausible {e : EgoIn} (hs : Evolves s₀ s) : Evolves s₀ (s.plausible e) := by
  unfold State.plausible
  dsimp only
  split
  · exact .ite hs (.ite (hs.setSxt.opt fun hu1 => hu1.foldl fun hu2 => (Evolves.ite hu2.setHealth hu2).incSat)
      (hs.setSxt.opt fun hu1 => hu1.foldl fun hu2 => .ite hu2.setHealth hu2))
  · exact hs

theorem yields_execEgoStep (hs : Evolves s₀ s) : Yields s₀ (execEgoStep s) := by
  unfold execEgoStep
  dsimp only
  exact hs.attempt fun hu => .ite (.go hu) (.go hu.plausible.feedBias.setSxt.dmaWrite.setSxt.wr)

theorem yields_execBiasUpdate (hs : Evolves s₀ s) : Yields s₀ (execBiasUpdate s) := by
  unfold execBiasUpdate
  dsimp only
  exact .ite (.go hs) (.go hs.setSxt)

theorem Evolves.sextantRun {f : State → State} (hs : Evolves s₀ s) (hf : ∀ {v}, Evolves s₀ v → Evolves s₀ (f v)) :
    Yields s₀ (s.sextantRun f) := hs.attempt fun hu => .go (.ite (hf hu) hu)

theorem yields_execEpochRelease (hs : Evolves s₀ s) : Yields s₀ (execEpochRelease s) :=
  hs.sextantRun fun hu => by split; exacts [hu, .ite hu.release hu]

theorem yields_execEpochWaitExpiry (hs : Evolves s₀ s) : Yields s₀ (execEpochWaitExpiry s) :=
  hs.sextantRun fun hu => by split; exacts [hu, hu.release]

theorem Evolves.births {b : Births} {l : List Detection} (hs : Evolves s₀ s) : Evolves₂ s₀ (s.births b l) := by
  induction l generalizing s b with
  | nil => exact .mk hs
  | cons d ds ih => exact ih hs.drawn

theorem Evolves.dmaWrites {a : Access} {l : List (ℕ × List Byte)} (hs : Evolves s₀ s) : Evolves₂ s₀ (s.dmaWrites a l) := by
  induction l generalizing s with
  | nil => exact .mk hs
  | cons p rest ih =>
    unfold State.dmaWrites
    dsimp only
    exact .ite (.mk hs.dmaWrite) (ih hs.dmaWrite)

theorem Evolves.fuse {j : FusJob} {d : ℕ} {table hdr dets : List Byte} (hs : Evolves s₀ s) :
    Evolves s₀ (s.fuse j d table hdr dets) := by
  unfold State.fuse
  dsimp only
  exact hs.births.dmaWrites.fusEnd

theorem Evolves.fusRun {j : FusJob} {d : ℕ} (hs : Evolves s₀ s) : Evolves s₀ (s.fusRun j d) := by
  unfold State.fusRun
  extract_lets a
  split
  next hd =>
  have hs1 := hs.dmaRead.eq hd
  refine .ite hs1.fusEnd (.ite hs1.fusEnd (.ite hs1 ?_))
  split
  next hd1 =>
  have hs2 := hs1.dmaRead.eq hd1
  refine .ite hs2.fusEnd (.ite hs2.fusEnd ?_)
  split
  next hd2 => exact .ite (hs2.dmaRead.eq hd2).fusEnd (hs2.dmaRead.eq hd2).fuse

theorem yields_execFusionJob (hs : Evolves s₀ s) : Yields s₀ (execFusionJob s) := by
  unfold execFusionJob
  dsimp only
  with_reducible exact hs.sextantRun fun hu => by split; exacts [hu, .ite hu.dmaNum.fusEnd (.ite hu.dmaNum.fusEnd hu.dmaNum.fusRun)]

theorem yields_execFusionEpochTimeout {u : ℕ} (hs : Evolves s₀ s) : Yields s₀ (execFusionEpochTimeout u s) :=
  hs.attempt fun hu => .ite (.go hu.fusEnd) (.go hu)

theorem Evolves.nextEntry {u : ℕ} (hs : Evolves s₀ s) : Evolves₂ s₀ (s.nextEntry u) := by
  unfold State.nextEntry
  dsimp only
  split
  · refine .ite ?_ ?_
    · with_reducible exact .mk hs
    · with_reducible exact .ite (.mk hs.dmaNum) (.mk hs.dmaNum)
  · with_reducible exact .mk hs

theorem Evolves.tryEntry {u : ℕ} {f : NextEntry × State → State}
    (hs : Evolves s₀ s) (hf : ∀ {x v}, Evolves s₀ v → Evolves s₀ (f (x, v))) : Yields s₀ (s.tryEntry u f) := by
  unfold State.tryEntry
  split
  · exact .go hs
  · exact hs.attempt fun hu => .go (hf hu.nextEntry)

theorem Evolves.takeEntry {j : NetJob} {x : TxEntry} (hs : Evolves s₀ s) : Evolves s₀ (s.takeEntry j x) :=
  hs.setNetJob

theorem Evolves.endEntry {j : NetJob} {x : TxEntry} {st : Status} {stamp : ℕ} (hs : Evolves s₀ s) :
    Evolves s₀ (s.endEntry j x st stamp) :=
  hs.takeEntry.entryDone

theorem Evolves.settleShaper {port tc : ℕ} (hs : Evolves s₀ s) : Evolves s₀ (s.settleShaper port tc) := by
  unfold State.settleShaper
  dsimp only
  exact hs.setEthPort

theorem Evolves.onWire {kind unit : ℕ} {b : List Byte} (hs : Evolves s₀ s) : Evolves s₀ (s.onWire kind unit b) := by
  unfold State.onWire
  dsimp only
  exact hs.setNet

theorem Evolves.ethSend {e : EthPend} (hs : Evolves s₀ s) : Evolves s₀ (s.ethSend e) := by
  unfold State.ethSend
  dsimp only
  split
  · exact hs.onWire.sentBy
  · exact .ite (Evolves.ite hs hs.setEthPort.send).sentBy hs.setEthPort.onWire.sentBy

theorem Evolves.dequeue {e : EthPend} (hs : Evolves s₀ s) : Evolves s₀ (s.dequeue e) := by
  unfold State.dequeue
  dsimp only
  exact hs.settleShaper.setEthPort.setNet

theorem Evolves.ethDrain {fuel port : ℕ} (hs : Evolves s₀ s) : Evolves s₀ (State.ethDrain fuel s port) := by
  induction fuel generalizing s with
  | zero => exact hs
  | succ fuel ih =>
    unfold State.ethDrain
    split
    · exact hs
    · exact ih hs.dequeue.ethSend

theorem Evolves.portRun {n p : ℕ} (hs : Evolves s₀ s) : Evolves s₀ (s.portRun n p) :=
  hs.ethDrain

theorem Evolves.ethOffer {n p tc : ℕ} {src : TxSrc} {b : List Byte} (hs : Evolves s₀ s) : Evolves s₀ (s.ethOffer n p tc src b) := by
  unfold State.ethOffer
  dsimp only
  exact .ite hs.sentBy hs.settleShaper.setNet.portRun

theorem Evolves.enterSwitch {n p tc tag : ℕ} {src : TxSrc} {b : List Byte} (hs : Evolves s₀ s) :
    Evolves s₀ (s.enterSwitch n p tc tag src b) :=
  hs.enginePay.ethOffer

theorem Evolves.txEther {s₀ t : State} {j : NetJob} {g : Job} {x : TxEntry} (hs : Evolves s₀ t) : Evolves s₀ (t.txEther j g x) := by
  unfold State.txEther
  dsimp only
  refine .ite ?_ ?_
  · exact hs.endEntry
  · split
    · exact .ite hs.dmaRead.endEntry hs.dmaRead.takeEntry.enterSwitch
    · exact hs.endEntry

theorem yields_execTxEthernet {u : ℕ} (hs : Evolves s₀ s) : Yields s₀ (execTxEthernet u s) :=
  hs.tryEntry fun {x _} hu => match x with
    | .none => hu
    | .failed _ _ => hu.endEntry
    | .entry _ _ _ => .ite hu hu.txEther

theorem Evolves.txCan {s₀ t : State} {j : NetJob} {g : Job} {x : TxEntry} (hs : Evolves s₀ t) : Evolves s₀ (t.txCan j g x) := by
  unfold State.txCan
  dsimp only
  refine .ite ?_ ?_
  · exact hs.endEntry
  · split
    · refine .ite ?_ ?_
      · exact hs.dmaRead.endEntry
      · refine .ite ?_ ?_
        · exact hs.dmaRead.endEntry
        · refine .ite ?_ ?_
          · exact hs.dmaRead.countBlock.endEntry
          · refine .ite ?_ ?_
            · exact hs.dmaRead.endEntry
            · split
              · next hd1 =>
                  have hs2 := hs.dmaRead.takeEntry.canOffer.eq hd1
                  exact hs.dmaRead
              · next hd1 =>
                  have hs2 := hs.dmaRead.takeEntry.canOffer.eq hd1
                  exact hs2
    · exact hs.endEntry

theorem yields_execTxCan {r : CanSend} (hs : Evolves s₀ s) : Yields s₀ (execTxCan r s) := by
  unfold execTxCan
  split
  · exact hs.tryEntry fun {x _} hu => match x with
      | .none | .failed _ _ => hu
      | .entry _ _ _ => .ite hu.txCan hu
  · exact .ite .refused (.ite (.go hs.canOffer) (.go hs))

theorem Evolves.txLin {s₀ t : State} {j : NetJob} {g : Job} {x : TxEntry} (hs : Evolves s₀ t) : Evolves s₀ (t.txLin j g x) := by
  unfold State.txLin
  dsimp only
  refine .ite ?_ ?_
  · exact hs.endEntry
  · split
    · exact .ite hs.dmaRead.endEntry (.ite hs.dmaRead.endEntry hs.dmaRead.onWire.endEntry)
    · exact hs.endEntry

theorem yields_execTxLin {u : ℕ} (hs : Evolves s₀ s) : Yields s₀ (execTxLin u s) :=
  hs.tryEntry fun {x _} hu => match x with
    | .none | .failed _ _ => hu
    | .entry _ _ _ => .ite hu.txLin hu

theorem Evolves.ringWrite {n r : ℕ} {x : RingRec} (hs : Evolves s₀ s) : Evolves s₀ (s.ringWrite n r x) := by
  unfold State.ringWrite
  dsimp only
  exact .ite hs (hs.dmaWrite.dmaWrite.dmaWrite.incWrap.opt fun hu => hu.sendBehind)

theorem Evolves.txDiag {s₀ t : State} {j : NetJob} {g : Job} {x : TxEntry} (hs : Evolves s₀ t) : Evolves s₀ (t.txDiag j g x) := by
  unfold State.txDiag
  dsimp only
  refine .ite ?_ ?_
  · exact hs.endEntry
  · refine .ite ?_ ?_
    · exact hs.dmaRead.endEntry
    · split
      · exact hs.dmaRead.incSat.endEntry
      · exact hs.dmaRead.incSat.endEntry.optElse fun hu1 => hs.dmaRead.drawn.ringWrite.setNet.endEntry

theorem yields_execTxDiagnosticMessage {u : ℕ} (hs : Evolves s₀ s) : Yields s₀ (execTxDiagnosticMessage u s) :=
  hs.tryEntry fun {x _} hu => match x with
    | .none | .failed _ _ => hu
    | .entry _ _ _ => .ite hu.txDiag hu

theorem yields_execTxJobComplete {u : ℕ} (hs : Evolves s₀ s) : Yields s₀ (execTxJobComplete u s) := by
  unfold execTxJobComplete
  dsimp only
  exact hs.attempt fun hu => by split; exacts [.go hu, .ite (.go hu) (.go hu.setNet.endJob)]

theorem yields_execSynthesiserLock {n p : ℕ} (hs : Evolves s₀ s) : Yields s₀ (execSynthesiserLock n p s) :=
  .ite (hs.attempt fun hu => .go hu.wr.portRun) (.go hs)

theorem Evolves.unqueue {e : EthPend} (hs : Evolves s₀ s) : Evolves s₀ (s.unqueue e) := by
  unfold State.unqueue
  dsimp only
  exact hs.settleShaper.setNet

theorem Evolves.ethDiscard {n p tc : ℕ} {st : Status} (hs :
    Evolves s₀ s) : ∀ r, s.ethDiscard n p tc st = some r → Evolves s₀ r.2 := by
  intro r hr
  obtain ⟨e, _, rfl⟩ := Option.map_eq_some_iff.1 hr
  exact hs.unqueue.sentBy

theorem yields_execSynthesiserHoldExpiry {n p tc : ℕ} (hs : Evolves s₀ s) : Yields s₀ (execSynthesiserHoldExpiry n p tc s) :=
  .ite (.go hs) (hs.attempt fun {u} hu => by
    cases he : u.ethDiscard n p tc .notReady with
    | none => exact .go hu
    | some et =>
      obtain ⟨e, t⟩ := et
      have ht := hu.ethDiscard (e, t) he
      cases hsrc : e.src <;> simp only [hsrc]
      · exact .go ht
      all_goals exact .go ht.incSat)

theorem yields_execEgressAged {n p tc : ℕ} (hs : Evolves s₀ s) : Yields s₀ (execEgressAged n p tc s) :=
  hs.attempt fun hu => by split; (exact .go hu); (next hd1 => exact .go (hu.ethDiscard _ hd1).incSat)

theorem Evolves.learn {n p : ℕ} {b : List Byte} (hs : Evolves s₀ s) : Evolves s₀ (s.learn n p b) := by
  unfold State.learn
  dsimp only
  exact .ite hs hs.setNet

theorem Evolves.arriveAt {n kind : ℕ} {p : ℕ → Bool} {a : Sample} (hs : Evolves s₀ s) : Evolves s₀ (s.arriveAt n kind p a) := by
  unfold State.arriveAt
  split
  · exact hs.arrive
  · exact hs

theorem Evolves.police {n k : ℕ} (hs : Evolves s₀ s) : Evolves₂ s₀ (s.police n k) := by
  unfold State.police
  dsimp only
  exact .mk hs.setNet

theorem Evolves.routeSend {n c : ℕ} {f : CanFrame} (hs : Evolves s₀ s) : Evolves s₀ (s.routeSend n c f) := by
  unfold State.routeSend
  refine .ite ?_ ?_
  · exact hs
  · split
    · next hd =>
        have hs1 := hs.canOffer.eq hd
        exact hs1.incSat
    · next hd =>
        have hs1 := hs.canOffer.eq hd
        exact hs1

theorem Evolves.tunnel {n t : ℕ} {lin : Bool} {f : CanFrame} (hs : Evolves s₀ s) : Evolves s₀ (s.tunnel n t lin f) := by
  unfold State.tunnel
  dsimp only
  exact .ite hs.incSat (.ite hs hs.drawn.enterSwitch)

theorem Evolves.copySignal {data : List Byte} {n e : ℕ} (hs : Evolves s₀ s) : Evolves s₀ (State.copySignal data n s e) := by
  unfold State.copySignal
  dsimp only
  exact hs.setNet

theorem Evolves.pduSend {n d : ℕ} (hs : Evolves s₀ s) : Evolves s₀ (s.pduSend n d) := by
  unfold State.pduSend
  dsimp only
  exact hs.routeSend

theorem Evolves.extract {n k : ℕ} {data : List Byte} (hs : Evolves s₀ s) : Evolves s₀ (s.extract n k data) := by
  unfold State.extract
  dsimp only
  exact (hs.foldl fun hu => hu.copySignal).foldl fun hu => hu.pduSend

theorem Evolves.routeActs {n k src time : ℕ} {f : CanFrame} (hs : Evolves s₀ s) : Evolves s₀ (s.routeActs n k src time f) := by
  unfold State.routeActs
  dsimp only
  exact (((((Evolves.ite hs.incSat hs).opt fun hu => hu.foldl fun hu1 => hu1.routeSend).opt fun hu => hu.tunnel).opt fun hu =>
    hu.ringWrite).opt fun hu => hu.arriveAt).optElse fun hu => hu.extract

theorem Evolves.routeFrame {n src time : ℕ} {f : CanFrame} (hs : Evolves s₀ s) : Evolves s₀ (s.routeFrame n src time f) := by
  unfold State.routeFrame
  split
  · exact .ite hs.incSat hs
  · refine .ite ?_ ?_
    · split
      · next hd1 =>
          have hs2 := hs.police.eq hd1
          exact hs2.routeActs
      · next hd1 =>
          have hs2 := hs.police.eq hd1
          exact hs2.incSat
    · exact hs.routeActs

theorem Evolves.acfOne {n time : ℕ} {known : Bool} {m : ℕ × List Byte} (hs : Evolves s₀ s) :
    Evolves s₀ (State.acfOne n time known s m) := by
  unfold State.acfOne
  dsimp only
  refine .ite ?_ ?_
  · exact hs.routeFrame
  · exact hs.incSat

theorem Evolves.untunnel {n time : ℕ} {b : List Byte} (hs : Evolves s₀ s) : Evolves s₀ (s.untunnel n time b) := by
  unfold State.untunnel
  dsimp only
  exact hs.foldl fun hu => hu.acfOne

theorem Evolves.classify {n p time : ℕ} {sec : Bool} {b : List Byte} (hs : Evolves s₀ s) :
    Evolves s₀ (s.classify n p time sec b) := by
  unfold State.classify
  split
  · exact hs.incSat
  · split
    · exact hs.ringWrite
    · exact hs.arriveAt
    · exact .ite hs.untunnel hs
    · exact hs

theorem yields_execEthernetRx {n p : ℕ} {b : List Byte} {fcsOk passed sec : Bool} {dst : List (ℕ × ℕ)} (hs : Evolves s₀ s) :
    Yields s₀ (execEthernetRx n p b fcsOk passed sec dst s) := by
  unfold execEthernetRx
  dsimp only
  exact .ite .refused (.ite (.go hs) (.ite (.go hs.incSat)
    (.ite (.go hs) (hs.attempt fun hu => .go (hu.learn.foldl fun hu1 => .ite hu1.classify hu1.ethOffer)))))

theorem Evolves.recvCount {n c : ℕ} (hs : Evolves s₀ s) : Evolves s₀ (s.recvCount n c) := by
  unfold State.recvCount
  dsimp only
  exact (Evolves.ite hs.wr.drawn hs.wr).opt fun hu => hu.wr

theorem Evolves.linAnswer {k : ℕ} (hs : Evolves s₀ s) : Evolves s₀ (s.linAnswer k) := by
  unfold State.linAnswer
  dsimp only
  exact .ite hs.drawn hs.drawn.onWire

theorem yields_execCanFrameRx {n src time : ℕ} {f : CanFrame} (hs : Evolves s₀ s) : Yields s₀ (execCanFrameRx n src time f s) := by
  unfold execCanFrameRx
  dsimp only
  exact .ite .refused (.ite (.ite (.go hs) (hs.attempt fun hu => .go (hu.recvCount.loneEnd.opt fun hu1 => hu1.routeFrame)))
    (.ite (.ite (.go hs.linAnswer) (hs.attempt fun hu => .go hu.routeFrame)) (.go hs)))

theorem Evolves.acked {n c : ℕ} {p : CanPend} (hs : Evolves s₀ s) : Evolves s₀ (s.acked n c p) := by
  unfold State.acked
  dsimp only
  exact (hs.wr.opt fun hu => hu.wr).setCan.onWire.sentBy.canKick

theorem Evolves.txError {n c : ℕ} (hs : Evolves s₀ s) : Evolves s₀ (s.txError n c) := by
  unfold State.txError
  dsimp only
  exact .ite (hs.wr.wr.setCan.foldl fun hu => hu.sentBy) (hs.wr.opt fun hu => hu.wr)

theorem Evolves.canRetry {n c : ℕ} (hs : Evolves s₀ s) : Evolves s₀ (s.canRetry n c) := by
  unfold State.canRetry
  dsimp only
  split
  · exact hs.canKick
  · exact .ite hs.setCan.countBlock.sentBy.canKick hs.setCan.canKick

theorem Evolves.loneBegin {n c : ℕ} (hs : Evolves s₀ s) : Evolves s₀ (s.loneBegin n c) := by
  unfold State.loneBegin
  dsimp only
  exact .ite (hs.wr.wr.incSat.record.send.setCan.foldl fun hu => hu.sentBy) hs.wr.wr.incSat.record.send.canRetry

theorem Evolves.ackError {n c : ℕ} (hs : Evolves s₀ s) : Evolves s₀ (s.ackError n c) := by
  unfold State.ackError
  dsimp only
  exact .ite (hs.incSat.opt fun hu => hu.txError).setCan.loneBegin (hs.incSat.opt fun hu => hu.txError).setCan.canRetry

theorem yields_execCanTxDone {n c : ℕ} {r : CanResult} (hs : Evolves s₀ s) : Yields s₀ (execCanTxDone n c r s) := by
  unfold execCanTxDone
  dsimp only
  split
  · exact .go hs
  · exact hs.attempt fun hu1 => by split; exacts [.go hu1.acked, .go hu1.ackError, .go hu1.setCan.txError.canRetry]

theorem yields_execBusOffRecovery {n c : ℕ} (hs : Evolves s₀ s) : Yields s₀ (execBusOffRecovery n c s) :=
  .ite (.go hs.busOffEnd) (.go hs)

theorem yields_execPduPeriod {n d : ℕ} (hs : Evolves s₀ s) : Yields s₀ (execPduPeriod n d s) :=
  .ite (.go hs.pduSend) (.go hs)

theorem yields_execDiagSessionIdle {n j : ℕ} (hs : Evolves s₀ s) : Yields s₀ (execDiagSessionIdle n j s) :=
  .ite (.go hs.drawn.wr.record) (.go hs)

theorem Evolves.removeLosers {dusk : Bool} {c : ℕ} (hs : Evolves s₀ s) : Evolves s₀ (State.removeLosers dusk s c) := by
  unfold State.removeLosers
  dsimp only
  exact hs.setCan.foldl fun hu => hu.countBlock.sentBy

theorem yields_execAuthChange (hs : Evolves s₀ s) : Yields s₀ (execAuthChange s) := by
  unfold execAuthChange
  dsimp only
  split
  · exact .go hs
  · exact .go ((hs.setNet.foldl fun hu1 => hu1.removeLosers).record.foldl fun hu1 => hu1.send)

theorem yields_execGptpSyncRx {offset : ℤ} (hs : Evolves s₀ s) : Yields s₀ (execGptpSyncRx offset s) := by
  unfold execGptpSyncRx
  dsimp only
  exact .ite (.go hs) (.go (Evolves.ite hs.wr.upd.drawn.upd hs.wr.upd.stepEpoch).updateQ)

theorem yields_execGptpSyncTx {n p : ℕ} (hs : Evolves s₀ s) : Yields s₀ (execGptpSyncTx n p s) :=
  .ite (.go hs.onWire) (.go hs)

theorem Evolves.judgeCrystal {b out live : Bool} {run : ℕ} (hs : Evolves s₀ s) : Evolves s₀ (s.judgeCrystal b out live run) := by
  unfold State.judgeCrystal
  dsimp only
  exact (Evolves.ite hs.wr (.ite hs.wr hs)).upd

theorem Evolves.judgeRef {ns : ℕ} (hs : Evolves s₀ s) : Evolves s₀ (s.judgeRef ns) := by
  unfold State.judgeRef
  dsimp only
  exact .ite (hs.wr.opt fun hu => hu.switchRef.raise) ((Evolves.ite hs.switchRef hs).wr.optElse fun hu => hu.record.raise)

theorem yields_execRefWindowEnd {da db dab : ℤ} (hs : Evolves s₀ s) : Yields s₀ (execRefWindowEnd da db dab s) := by
  unfold execRefWindowEnd
  dsimp only
  exact .ite (.go hs) (.go (hs.wr.wr.wr.judgeCrystal.judgeCrystal.wr.opt fun hu => hu.record).judgeRef.updateQ)

theorem yields_execCrystalEdgeLoss {b : Bool} (hs : Evolves s₀ s) : Yields s₀ (execCrystalEdgeLoss b s) :=
  .ite (.go hs.judgeCrystal.judgeRef.updateQ) (.go hs)

theorem yields_execXtal32EdgeLoss (hs : Evolves s₀ s) : Yields s₀ (execXtal32EdgeLoss s) :=
  .ite (.go hs.wr) (.go hs)

theorem yields_execHoldoverExpiry (hs : Evolves s₀ s) : Yields s₀ (execHoldoverExpiry s) := by
  unfold execHoldoverExpiry
  dsimp only
  exact .ite (.go hs.upd.updateQ) (.go hs)

theorem yields_execFrequencyChangeDone {gfx : Bool} (hs : Evolves s₀ s) : Yields s₀ (execFrequencyChangeDone gfx s) := by
  unfold execFrequencyChangeDone
  dsimp only
  split
  · exact .go hs
  · exact .go hs.wr.upd

theorem Evolves.asserts {e : ℕ} (hs : Evolves s₀ s) : Evolves s₀ (s.asserts e) := by
  unfold State.asserts
  dsimp only
  exact .ite hs.upd hs

theorem Evolves.dropLine {e : ℕ} (hs : Evolves s₀ s) : Evolves s₀ (s.dropLine e) := by
  unfold State.dropLine
  dsimp only
  exact hs.upd

theorem yields_execFcuLatch {e : ℕ} (hs : Evolves s₀ s) : Yields s₀ (execFcuLatch e s) := by
  unfold execFcuLatch
  dsimp only
  exact .ite (.go hs.asserts) (.ite (.go hs.asserts.dropLine) (.go hs.asserts.dropLine.latch))

theorem Evolves.wreckRecord {cause : ℕ} (hs : Evolves s₀ s) : Evolves s₀ (s.wreckRecord cause) := by
  unfold State.wreckRecord
  dsimp only
  exact .ite hs hs.record

theorem Evolves.freezeWreck {d : ℕ} (hs : Evolves s₀ s) : Evolves s₀ (s.freezeWreck d) := by
  unfold State.freezeWreck
  dsimp only
  exact hs.wr.wr

theorem Evolves.freezeWrecks (hs : Evolves s₀ s) : Evolves s₀ (s.freezeWrecks) := by
  unfold State.freezeWrecks
  split
  · exact hs
  · exact (hs.foldl fun hu1 => hu1.freezeWreck).wreckRecord

theorem Evolves.flushAll (hs : Evolves s₀ s) : Evolves s₀ (s.flushAll) :=
  hs.foldl fun hu => hu.evict

theorem Evolves.breakSem {k : ℕ} (hs : Evolves s₀ s) : Evolves s₀ (s.breakSem k) := by
  unfold State.breakSem
  dsimp only
  exact hs.wr.opt fun hu => hu.record.wr.wr

theorem Evolves.mainReset (hs : Evolves s₀ s) : Evolves s₀ s.mainReset := by
  unfold State.mainReset
  extract_lets s1 u can fail gen restarts saf clk boot pwr t1 t2 t3
  have hu : Evolves s₀ u := hs.flushAll.freezeWrecks.foldl fun h => h.breakSem
  clear_value u
  have h1 : Evolves s₀ t1 := hu.dropWords
  clear_value t1
  have h2 : Evolves s₀ t2 := h1.dropWords
  exact (h2.wr.wr.wr.foldl fun h => h.wr).wr

theorem yields_execWarmResetAssert (hs : Evolves s₀ s) : Yields s₀ (execWarmResetAssert s) := by
  unfold execWarmResetAssert
  dsimp only
  split
  · exact .go hs
  · exact .ite (.go hs.upd) (.ite (.go hs.upd.upd.record.wr.mainReset.upd) (.go hs.upd.upd.upd.wr.record.wr.incSat.mainReset.upd))

theorem yields_execTake (hs : Evolves s₀ s) : Yields s₀ (execTake s) :=
  .go hs.takeAuth

theorem yields_execWdogKick {v : ℕ} (hs : Evolves s₀ s) : Yields s₀ (execWdogKick v s) :=
  .go hs.kick

theorem yields_execIslandWatchdogExpiry (hs : Evolves s₀ s) : Yields s₀ (execIslandWatchdogExpiry s) :=
  .ite (.go hs.raise) (.go hs)

theorem yields_execHeartbeatTimeout (hs : Evolves s₀ s) : Yields s₀ (execHeartbeatTimeout s) :=
  .ite (.go hs.raise) (.go hs)

theorem yields_execAuthorityReturn (hs : Evolves s₀ s) : Yields s₀ (execAuthorityReturn s) :=
  .ite (.go hs.wr.wr.setAuth) (.go hs)

theorem yields_execInjectionResample {e : ℕ} {still : Bool} (hs : Evolves s₀ s) : Yields s₀ (execInjectionResample e still s) := by
  unfold execInjectionResample
  dsimp only
  exact .ite (.go hs) (.ite (.go hs.upd) (.ite (.go hs.upd.dropLine.latch) (.go hs.upd.dropLine)))

theorem Evolves.injectGroup {fails : List ℕ} {g : ℕ} (hs : Evolves s₀ s) : Evolves s₀ (State.injectGroup fails s g) :=
  .ite hs.wr.incSat.wr hs.wr

theorem yields_execStartupInjection {main : Bool} {groups fails : List ℕ} (hs : Evolves s₀ s) :
    Yields s₀ (execStartupInjection main groups fails s) := by
  unfold execStartupInjection
  dsimp only
  exact .ite (.go hs) (.ite (.go (hs.foldl fun hu => hu.injectGroup).raise)
    (.ite (.go (hs.foldl fun hu => hu.injectGroup).wr.upd) (.go (hs.foldl fun hu => hu.injectGroup).upd.setAuth)))

theorem yields_execRuntimeInjection {g : ℕ} {evs : List ℕ} {ok asilD : Bool} (hs : Evolves s₀ s) :
    Yields s₀ (execRuntimeInjection g evs ok asilD s) := by
  unfold execRuntimeInjection
  dsimp only
  exact .ite (.go hs) (.go (hs.injectGroup.upd.optElse fun hu => hu.raise))

theorem Evolves.putRecord {r : AlmRec} (hs : Evolves s₀ s) : Evolves s₀ (s.putRecord r) := by
  unfold State.putRecord
  dsimp only
  exact hs.putBytes.wr.wr

theorem yields_execAlmanacRecord (hs : Evolves s₀ s) : Yields s₀ (execAlmanacRecord s) := by
  unfold execAlmanacRecord
  dsimp only
  split
  · exact .go hs
  · exact .go hs.upd.putRecord

theorem yields_execBackupAlarm {source : ℕ} {slot : Option ℕ} (hs : Evolves s₀ s) : Yields s₀ (execBackupAlarm source slot s) := by
  unfold execBackupAlarm
  dsimp only
  exact .ite (.go hs) (.ite (.go (by split; exacts [.ite hs.upd hs, hs])) (.go (Evolves.drawn (by split; exacts [.ite hs.upd hs, hs])).putRecord.wr.wr.upd))

theorem yields_execWreckTrigger (hs : Evolves s₀ s) : Yields s₀ (execWreckTrigger s) := by
  unfold execWreckTrigger
  dsimp only
  split
  · exact .go hs
  · exact .ite (.go (hs.upd.foldl fun hu1 => hu1.wr.wr.setWreck)) (.go (hs.upd.foldl fun hu1 => hu1.incSat))

theorem yields_execWreckFreeze {d : ℕ} (hs : Evolves s₀ s) : Yields s₀ (execWreckFreeze d s) :=
  .ite (.go hs.freezeWreck.wreckRecord) (.go hs)

theorem Evolves.dumpBytes {d : ℕ} (hs : Evolves s₀ s) : Evolves₂ s₀ (s.dumpBytes d) := by
  unfold State.dumpBytes
  dsimp only
  exact .ite (.mk hs.drawn) (.mk hs)

theorem yields_execDumpDone (hs : Evolves s₀ s) : Yields s₀ (execDumpDone s) := by
  unfold execDumpDone
  dsimp only
  exact hs.attempt fun hu => by split; exacts [.go hu, .go hu.dumpBytes.dmaWrite.wr.wr.upd.send]

theorem Evolves.powerUpRecord (hs : Evolves s₀ s) : Evolves s₀ (s.powerUpRecord) := by
  unfold State.powerUpRecord
  dsimp only
  exact (Evolves.ite hs.upd.wr.wr.wr hs.wr).wr.record

theorem Evolves.startEpoch (hs : Evolves s₀ s) : Evolves s₀ (s.startEpoch) := by
  unfold State.startEpoch
  dsimp only
  exact hs.upd.wr

theorem Evolves.noteSvn {copy : List Byte} {kinds : List ℕ} (hs : Evolves s₀ s) : Evolves s₀ (s.noteSvn copy kinds) := by
  unfold State.noteSvn
  dsimp only
  exact hs.foldl fun hu => hu.upd

theorem Evolves.loadDusk {f : Flash} (hs : Evolves s₀ s) : Evolves s₀ (s.loadDusk f) := by
  unfold State.loadDusk
  dsimp only
  split
  · exact hs.islandFail
  · exact hs.noteSvn.putBytes.extendMeas.wr

theorem Evolves.newKeys (hs : Evolves s₀ s) : Evolves s₀ (s.newKeys) := by
  unfold State.newKeys
  dsimp only
  exact hs.upd.foldl fun hu => hu.upd.drawn

theorem Evolves.hardRepair (hs : Evolves s₀ s) : Evolves s₀ (s.hardRepair) := by
  unfold State.hardRepair
  dsimp only
  exact hs.upd

theorem Evolves.restore {r : Row} {ix : List ℕ} {v : ℕ} (hs : Evolves s₀ s) : Evolves s₀ (s.restore r ix v) :=
  hs.wr

theorem Evolves.restoreWear (hs : Evolves s₀ s) : Evolves s₀ (s.restoreWear) := by
  unfold State.restoreWear
  dsimp only
  split
  · exact hs
  · exact ((hs.foldl fun hu1 => hu1.restore.restore).restore.restore.foldl fun hu1 => hu1.restore).wr.wr.restore.upd

theorem Evolves.bootFail {st : Status} {off : ℕ} (hs : Evolves s₀ s) : Evolves s₀ (s.bootFail st off) := by
  unfold State.bootFail
  dsimp only
  exact hs.wr.upd.wr.raise

theorem Evolves.loadMain {f : Flash} {needs : List ℕ} (hs : Evolves s₀ s) : Evolves s₀ (s.loadMain f needs) := by
  unfold State.loadMain
  dsimp only
  split
  · exact hs.bootFail
  · exact hs.wr.noteSvn.putBytes.extendMeas.extendMeas.wr

theorem Evolves.startMonitor {f : Flash} (hs : Evolves s₀ s) : Evolves s₀ (s.startMonitor f) := by
  unfold State.startMonitor
  dsimp only
  split
  · exact .ite hs.monHalt hs
  · exact hs.upd.extendMmr

theorem Evolves.senseWarmRst (hs : Evolves s₀ s) : Evolves s₀ (s.senseWarmRst) :=
  .ite hs hs.raise

theorem Evolves.applyDerate (hs : Evolves s₀ s) : Evolves s₀ (s.applyDerate) := by
  unfold State.applyDerate
  dsimp only
  exact hs.wr.wr

theorem Evolves.retireAtReset {p : ℕ} (hs : Evolves s₀ s) : Evolves s₀ (s.retireAtReset p) := by
  unfold State.retireAtReset
  dsimp only
  refine .ite ?_ ?_
  · exact hs.wr
  · split
    · exact hs.wr.wr.wr.wr
    · exact hs.wr.wr

theorem Evolves.mapTiles (hs : Evolves s₀ s) : Evolves s₀ (s.mapTiles) := by
  unfold State.mapTiles
  dsimp only
  exact (hs.foldl fun hu => hu.wr).foldl fun hu => hu.retireAtReset

theorem Evolves.firstCaps (hs : Evolves s₀ s) : Evolves s₀ (s.firstCaps) :=
  hs.foldl fun hu => hu.wr

theorem Evolves.spareStart (hs : Evolves s₀ s) : Evolves s₀ (s.spareStart) := by
  unfold State.spareStart
  dsimp only
  exact hs.foldl fun hu => hu.setSpare

theorem Evolves.trainLinks (hs : Evolves s₀ s) : Evolves s₀ (s.trainLinks) :=
  hs.foldl fun hu => hu.wr

theorem Evolves.releaseMain (hs : Evolves s₀ s) : Evolves s₀ (s.releaseMain) := by
  unfold State.releaseMain
  dsimp only
  exact hs.upd.wr.mapTiles.applyDerate.wr.wr.trainLinks.spareStart.firstCaps

theorem yields_execColdBoot {f : Flash} (hs : Evolves s₀ s) : Yields s₀ (execColdBoot f s) := by
  unfold execColdBoot
  dsimp only
  exact .ite (.go hs)
    (.go hs.upd.startEpoch.powerUpRecord.wr.wr.restoreWear.hardRepair.newKeys.loadDusk.releaseMain.senseWarmRst.startMonitor.loadMain.finishLoad)

theorem Evolves.flushIntake (hs : Evolves s₀ s) : Evolves s₀ s.flushIntake := by
  unfold State.flushIntake
  dsimp only
  exact hs.upd.foldl fun hu => hu.putRecord

theorem Evolves.coldReset (hs : Evolves s₀ s) : Evolves s₀ s.coldReset := by
  unfold State.coldReset
  dsimp only
  exact hs.drop.wr.wr

theorem Evolves.vbatFall {v : ℕ} (hs : Evolves s₀ s) : Evolves s₀ (s.vbatFall v) := by
  have hu {r : Row} {ix : List ℕ} {x : ℕ} {c : Prop} {_ : Decidable c} {u : State} (hu : Evolves s₀ u) :
      Evolves s₀ (if c then u.wr r ix x else u) := .ite hu.wr hu
  unfold State.vbatFall
  dsimp only
  exact .ite (hu hs.upd) (hu hs.upd).drop

theorem yields_execPowerLoss {v : ℕ} (hs : Evolves s₀ s) : Yields s₀ (execPowerLoss v s) := by
  unfold execPowerLoss
  dsimp only
  exact .ite (.go hs) (.go (Evolves.ite hs.flushIntake hs).upd.coldReset.upd.vbatFall)

theorem Evolves.rewakeMonitor {verified : Bool} (hs : Evolves s₀ s) : Evolves s₀ (State.rewakeMonitor verified s) := by
  unfold State.rewakeMonitor
  dsimp only
  exact .ite hs.monHalt (.ite hs.wr.incSat.monHalt hs.wr.incSat.incWrap.extendMmr.record)

theorem yields_execWarmRestart {f : Flash} {verified : Bool} (hs : Evolves s₀ s) : Yields s₀ (execWarmRestart f verified s) := by
  unfold execWarmRestart
  dsimp only
  exact .ite (.go hs) (.go hs.releaseMain.upd.wr.rewakeMonitor.loadMain)

theorem yields_execWarmRstNAssert (hs : Evolves s₀ s) : Yields s₀ (execWarmRstNAssert s) := by
  unfold execWarmRstNAssert
  dsimp only
  exact .ite (.go hs) (.ite (.go hs.upd.raise) (.go hs.upd))

theorem yields_execWarmRstNRelease (hs : Evolves s₀ s) : Yields s₀ (execWarmRstNRelease s) := by
  unfold execWarmRstNRelease
  dsimp only
  exact .go hs.upd

theorem yields_execSupervisorRunning (hs : Evolves s₀ s) : Yields s₀ (execSupervisorRunning s) := by
  unfold execSupervisorRunning
  dsimp only
  exact .ite (.go hs) (.go hs.wr.upd.setHart)

theorem yields_execInstanceResetDone {i : ℕ} (hs : Evolves s₀ s) : Yields s₀ (execInstanceResetDone i s) :=
  .ite (.go hs.wr.incSat) (.go hs)

theorem yields_execEmSample {temps : List ℤ} (hs : Evolves s₀ s) : Yields s₀ (execEmSample temps s) := by
  unfold execEmSample
  dsimp only
  exact .ite (.go hs) (.ite (.go (hs.foldl fun hu => hu.incSat).upd.raiseCauses)
    (.go (hs.foldl fun hu => hu.incSat).upd.incSat.raiseCauses))

theorem Evolves.applyCeilings (hs : Evolves s₀ s) : Evolves s₀ (s.applyCeilings) := by
  unfold State.applyCeilings
  dsimp only
  exact hs.upd

theorem Evolves.raiseIf {p : Bool} {b : ℕ} (hs : Evolves s₀ s) : Evolves s₀ (s.raiseIf p b) :=
  .ite hs.raiseCause hs

theorem yields_execAgeingSample {ages : List ℕ} (hs : Evolves s₀ s) : Yields s₀ (execAgeingSample ages s) := by
  unfold execAgeingSample
  dsimp only
  exact .ite (.go hs) (.go (hs.foldl fun hu => hu.wr).wr.wr.applyCeilings.raiseIf)

theorem yields_execWearLogWrite {ok : Bool} (hs : Evolves s₀ s) : Yields s₀ (execWearLogWrite ok s) := by
  unfold execWearLogWrite
  dsimp only
  exact .ite (.go hs) (.ite (.go hs.writeLog) (.go hs.upd.raiseIf))

theorem yields_execReplaceFramePeriod (hs : Evolves s₀ s) : Yields s₀ (execReplaceFramePeriod s) :=
  .ite (.go hs.sendReplaceFrame) (.go hs)

theorem Evolves.domainUp {k : ℕ} (hs : Evolves s₀ s) : Evolves s₀ (s.domainUp k) := by
  unfold State.domainUp
  dsimp only
  exact hs.wr.incSat.opt fun hu => hu.upd

theorem Evolves.domainOff {k : ℕ} (hs : Evolves s₀ s) : Evolves s₀ (s.domainOff k) := by
  unfold State.domainOff
  dsimp only
  exact hs.wr.opt fun hu => hu.foldl fun hu1 => hu1.wr

theorem yields_execDomainTransitionDone {k : ℕ} (hs : Evolves s₀ s) : Yields s₀ (execDomainTransitionDone k s) := by
  unfold execDomainTransitionDone
  dsimp only
  refine .ite ?_ ?_
  · exact .go hs
  · refine .ite ?_ ?_
    · exact .go hs
    · split
      · exact .go (Evolves.ite hs.domainUp hs.domainOff).upd.pdRequest
      · exact .go (Evolves.ite hs.domainUp hs.domainOff)

theorem Evolves.countLevel {l : ℕ} (hs : Evolves s₀ s) : Evolves s₀ (s.countLevel l) := by
  unfold State.countLevel
  dsimp only
  exact .ite hs (hs.upd.opt fun hu => hu.incSat)

theorem Evolves.feedCycle {d : ℕ} {x : ℤ} (hs : Evolves s₀ s) : Evolves s₀ (s.feedCycle d x) := by
  unfold State.feedCycle
  dsimp only
  exact hs.upd.opt fun hu => hu.incSat.raiseIf

theorem Evolves.setStackLevel {k l : ℕ} (hs : Evolves s₀ s) : Evolves s₀ (s.setStackLevel k l) := by
  unfold State.setStackLevel
  dsimp only
  exact .ite hs (hs.wr.wr.opt fun hu => hu.raise)

theorem Evolves.setLogicLevel {l : ℕ} (hs : Evolves s₀ s) : Evolves s₀ (s.setLogicLevel l) := by
  unfold State.setLogicLevel
  dsimp only
  exact .ite hs (hs.wr.applyDerate.applyCeilings.opt fun hu => hu.raise)

theorem Evolves.thermalTrip (hs : Evolves s₀ s) : Evolves s₀ (s.thermalTrip) := by
  unfold State.thermalTrip
  dsimp only
  exact .ite hs ((hs.wr.incSat.upd.optElse fun hu => hu.latch).setAuth.opt fun hu => hu.upd)

theorem yields_execThermalSample {cd : ℤ} {xds hbmStacks : List ℤ} (hs : Evolves s₀ s) :
    Yields s₀ (execThermalSample cd xds hbmStacks s) := by
  unfold execThermalSample
  dsimp only
  exact .ite (.go hs) (.go ((((hs.countLevel.foldl fun hu => hu.wr.feedCycle).foldl fun hu => hu.wr).foldl fun hu =>
    hu.setStackLevel).setLogicLevel.opt fun hu => hu.thermalTrip))

theorem yields_execThermalLevelFall {stack : Option ℕ} (hs : Evolves s₀ s) : Yields s₀ (execThermalLevelFall stack s) := by
  unfold execThermalLevelFall
  dsimp only
  split
  · exact .ite (.go hs.setLogicLevel) (.go hs)
  · exact .ite (.go hs.setStackLevel) (.go hs)

theorem yields_execThermalTripRelease (hs : Evolves s₀ s) : Yields s₀ (execThermalTripRelease s) := by
  unfold execThermalTripRelease
  dsimp only
  exact .ite (.go hs.upd) (.go hs)

theorem yields_execAvsVoltageWrite {rail : ℕ} (hs : Evolves s₀ s) : Yields s₀ (execAvsVoltageWrite rail s) := by
  unfold execAvsVoltageWrite
  dsimp only
  exact .ite (.go hs) (.go hs.upd)

theorem Evolves.allowRise {rail : ℕ} (hs : Evolves s₀ s) : Evolves s₀ (s.allowRise rail) := by
  unfold State.allowRise
  dsimp only
  exact .ite (.ite hs.upd hs) (.ite hs.upd hs)

theorem yields_execAvsAcknowledge {rail : ℕ} {ok : Bool} (hs : Evolves s₀ s) : Yields s₀ (execAvsAcknowledge rail ok s) := by
  unfold execAvsAcknowledge
  dsimp only
  split
  · exact .go hs
  · exact .ite (.go hs.upd.wr.upd.allowRise) (.go (hs.upd.upd.opt fun hu1 => hu1.wr))

theorem yields_execRailOutOfRange {k : ℕ} (hs : Evolves s₀ s) : Yields s₀ (execRailOutOfRange k s) :=
  .ite (.go hs.raise) (.go hs)

theorem yields_execHbOutToggle (hs : Evolves s₀ s) : Yields s₀ (execHbOutToggle s) := by
  unfold execHbOutToggle
  dsimp only
  exact .ite (.go hs.upd) (.go hs)

theorem yields_execExtest {pins bits : List Bool} (hs : Evolves s₀ s) : Yields s₀ (execExtest pins bits s) := by
  unfold execExtest
  dsimp only
  exact .ite (.go hs.upd) (.go hs)

theorem yields_execSamplePreload {pins bits : List Bool} (hs : Evolves s₀ s) : Yields s₀ (execSamplePreload pins bits s) := by
  unfold execSamplePreload
  dsimp only
  exact .ite (.go hs.upd) (.go hs)

theorem yields_execBypass {bits : List Bool} (hs : Evolves s₀ s) : Yields s₀ (execBypass bits s) := by
  unfold execBypass
  dsimp only
  exact .ite (.go hs.upd) (.go hs)

theorem yields_execIdcode (hs : Evolves s₀ s) : Yields s₀ (execIdcode s) := by
  unfold execIdcode
  dsimp only
  exact .ite (.go hs.upd) (.go hs)

theorem Evolves.grantRes {r owner : ℕ} (hs : Evolves s₀ s) : Evolves s₀ (s.grantRes r owner) := by
  unfold State.grantRes
  dsimp only
  exact (hs.foldl fun hu => hu.wr).wr.incWrap.wr

theorem Evolves.resetWords {p : ℕ → Bool} (hs : Evolves s₀ s) : Evolves s₀ (s.resetWords p) :=
  hs.dropWords

theorem Evolves.scrub {r : ℕ} (hs : Evolves s₀ s) : Evolves s₀ (s.scrub r) := by
  unfold State.scrub
  dsimp only
  exact (Evolves.resetWords (by split; exacts [hs.setNet, hs.setNet.foldl fun hu1 => hu1.sentBy, hs.setNet, hs])).foldl fun hu => hu.upd.wr

theorem yields_execHandoverQuiesceDone (hs : Evolves s₀ s) : Yields s₀ (execHandoverQuiesceDone s) := by
  unfold execHandoverQuiesceDone
  dsimp only
  split
  · exact .go hs
  · exact hs.attempt fun hu1 => .go hu1.scrub.grantRes.tellGap.upd.retireWait

theorem Evolves.reattest {e : ℕ} (hs : Evolves s₀ s) : Evolves s₀ (s.reattest e) := by
  unfold State.reattest
  dsimp only
  exact .ite hs hs.writeReport.mail.drawn

theorem yields_execMonitorRestartDone (hs : Evolves s₀ s) : Yields s₀ (execMonitorRestartDone s) := by
  unfold execMonitorRestartDone
  dsimp only
  exact .ite (.go hs) (hs.attempt fun hu => .go ((hu.foldl fun hu1 => hu1.reattest).wr.send.upd.foldl fun hu1 => hu1.wr.ertStart))

theorem Evolves.endHolds {d : ℕ} (hs : Evolves s₀ s) : Evolves s₀ (s.endHolds d) := by
  unfold State.endHolds
  dsimp only
  exact hs.setGfx.syncClusters

theorem yields_execVsync {d : ℕ} (hs : Evolves s₀ s) : Yields s₀ (execVsync d s) := by
  unfold execVsync
  dsimp only
  refine .ite ?_ ?_
  · exact .refused
  · refine .ite ?_ ?_
    · exact .go hs.endHolds
    · split
      · exact .go hs.endHolds.incWrap
      · exact .go hs.endHolds.incWrap.setPipe.stampStart

theorem yields_execDisplayLinkDown {d : ℕ} (hs : Evolves s₀ s) : Yields s₀ (execDisplayLinkDown d s) :=
  .ite .refused (.ite (.go hs.wr) (.go hs))

theorem yields_execDisplayLinkTrained {d : ℕ} (hs : Evolves s₀ s) : Yields s₀ (execDisplayLinkTrained d s) :=
  .ite .refused (.ite (.go hs.wr) (.go hs))

theorem yields_execEthernetLinkDown {n p : ℕ} (hs : Evolves s₀ s) : Yields s₀ (execEthernetLinkDown n p s) :=
  .ite (.go hs.wr) (.go hs)

theorem yields_execEthernetLinkRetrained {n p : ℕ} (hs : Evolves s₀ s) : Yields s₀ (execEthernetLinkRetrained n p s) :=
  .ite (.go hs.wr) (.go hs)

theorem yields_execSynthesiserCalibrationStart {n p : ℕ} (hs : Evolves s₀ s) : Yields s₀ (execSynthesiserCalibrationStart n p s) :=
  .ite (.go hs.wr) (.go hs)

theorem Evolves.setSlopes {n p : ℕ} {l : List (ℕ × ℕ)} (hs : Evolves s₀ s) : Evolves s₀ (s.setSlopes n p l) := by
  unfold State.setSlopes
  dsimp only
  exact hs.foldl fun hu => hu.setEthPort

theorem yields_execGateIntervalExpiry {n p gates : ℕ} {slopes : List (ℕ × ℕ)} (hs : Evolves s₀ s) :
    Yields s₀ (execGateIntervalExpiry n p gates slopes s) := by
  unfold execGateIntervalExpiry
  dsimp only
  exact .ite (hs.attempt fun hu => .go hu.setEthPort.setSlopes.portRun) (.go hs)

theorem yields_execPdelayInterval {n p : ℕ} (hs : Evolves s₀ s) : Yields s₀ (execPdelayInterval n p s) :=
  .ite (.go hs.onWire) (.go hs)

theorem yields_execLinScheduleSlot {n l : ℕ} (hs : Evolves s₀ s) : Yields s₀ (execLinScheduleSlot n l s) := by
  unfold execLinScheduleSlot
  dsimp only
  exact .ite (.go hs.setNet.drawn.onWire) (.go hs)

theorem yields_execValidSyncAgeExpiry (hs : Evolves s₀ s) : Yields s₀ (execValidSyncAgeExpiry s) := by
  unfold execValidSyncAgeExpiry
  dsimp only
  exact .ite (.go hs.upd.updateQ) (.go hs)

theorem yields_execXtal32EdgesResume (hs : Evolves s₀ s) : Yields s₀ (execXtal32EdgesResume s) :=
  .ite (.go hs.wr) (.go hs)

theorem yields_execPorstNAssert (hs : Evolves s₀ s) : Yields s₀ (execPorstNAssert s) := by
  unfold execPorstNAssert
  dsimp only
  exact .ite (.go hs.upd.coldReset) (.go hs)

theorem yields_execPwrGoodRise (hs : Evolves s₀ s) : Yields s₀ (execPwrGoodRise s) := by
  unfold execPwrGoodRise
  dsimp only
  exact .ite (.go hs) (.go hs.upd)

theorem yields_execVbatBkpFall {lost : Bool} (hs : Evolves s₀ s) : Yields s₀ (execVbatBkpFall lost s) :=
  .ite (.go hs) (.go hs.vbatFall)

theorem yields_execStandbyHour (hs : Evolves s₀ s) : Yields s₀ (execStandbyHour s) := by
  unfold execStandbyHour
  dsimp only
  exact .ite (.go hs) (.go hs.incSat.raiseIf)

theorem Evolves.rtcTick (hs : Evolves s₀ s) : Evolves s₀ (s.rtcTick) := by
  unfold State.rtcTick
  dsimp only
  exact .ite hs.upd hs.upd.wrPair

theorem Evolves.copyTick {k : ℕ} (hs : Evolves s₀ s) : Evolves s₀ (s.copyTick k) :=
  .ite hs.copyTo hs

theorem Evolves.drainOne (hs : Evolves s₀ s) : Evolves s₀ (s.drainOne) := by
  unfold State.drainOne
  split
  · exact hs.completePosted
  · exact hs

theorem Evolves.shaperTick (hs : Evolves s₀ s) : Evolves s₀ (s.shaperTick) :=
  hs.foldl fun hu => .ite hu hu.portRun

theorem Evolves.cryPass {n ns : ℕ} (hs : Evolves s₀ s) : Evolves s₀ (s.cryPass n ns) := by
  unfold State.cryPass
  dsimp only
  split
  · exact hs.setCryEngine.chargeJob
  · exact hs

theorem Evolves.cryTick {ns : ℕ} (hs : Evolves s₀ s) : Evolves s₀ (s.cryTick ns) :=
  hs.foldl fun hu => hu.cryPass

theorem Evolves.clPass {c ns : ℕ} (hs : Evolves s₀ s) : Evolves s₀ (s.clPass c ns) := by
  unfold State.clPass
  dsimp only
  split
  · exact hs
  · refine .ite ?_ ?_
    · exact hs
    · split
      · exact hs
      · split
        · exact hs
        · exact hs.setCompJob.chargeJob

theorem Evolves.gfxTick {ns : ℕ} (hs : Evolves s₀ s) : Evolves s₀ (s.gfxTick ns) :=
  .ite hs (hs.foldl fun hu => hu.clPass)

theorem Evolves.holdTick (hs : Evolves s₀ s) : Evolves s₀ (s.holdTick) := by
  unfold State.holdTick
  dsimp only
  exact .ite hs (hs.incWrap.foldl fun hu => hu.charge)

/-- A tick moves device time on, and does nothing else to it, the queue or the fuses. -/
theorem evolves_tick (s : State) : Evolves { s with now := s.now + tickNs } s.tick := by
  unfold State.tick
  dsimp only
  exact (((((Evolves.refl _).opt fun hu => hu.upd).opt fun hu => hu.rtcTick).foldl fun hu => hu.copyTick)
    ).holdTick.gfxTick.cryTick.shaperTick.drainOne

end

/-! ### Commits: the state keeps its canonical form, and its fuses where no SVN rises -/

section
variable {s t : State}

/-- A state in an outcome is in canonical form where `s` is, and has its queue. -/
def Holds (s : State) (o : Host.Outcome State Fault Refusal) : Prop := ∀ t, o = .next t → Keeps s t

theorem Yields.holds {o : Host.Outcome State Fault Refusal} (h : Yields s o) : Holds s o := fun t ht => (h t ht).1

theorem Holds.go (h : Keeps s t) : Holds s (.next t) := by
  rintro u ⟨⟩
  exact h

theorem Holds.refused {r : Refusal} : Holds s (.refused r) := by
  rintro u ⟨⟩

theorem Keeps.then {u : State} (h : Keeps s t) (k : Evolves t u) : Keeps s u := h.trans k.1

theorem Keeps.each {α : Type} {l : List α} {f : State → α → State} (h : Keeps s t) (hf : ∀ u a, Keeps u (f u a)) :
    Keeps s (t.each l f) := by
  unfold State.each
  induction l generalizing t with
  | nil => exact h
  | cons a l ih => exact ih (h.trans (hf t a))

end

/-- BOOT.SVN.MIN is the one row that the SVN fuses reset. -/
theorem reset_svnMin {sp : ℕ} {r : Row} (hr : r ∈ Reg.rowsOf sp) (h : r.reset = .fuse .svnMin) :
    r = Reg.BOOT_SVN_MIN ∧ sp = 0x13 := by
  have hsp : ∀ sp < 0x16, ∀ r ∈ Reg.rowsOf sp, r.reset = .fuse .svnMin → r = Reg.BOOT_SVN_MIN ∧ sp = 0x13 := by decide +kernel
  rcases Nat.lt_or_ge sp 0x16 with hlt | hge
  · exact hsp sp hlt r hr h
  · obtain ⟨n, rfl⟩ := Nat.exists_eq_add_of_le hge
    have hnone : Reg.rowsOf (0x16 + n) = [] := by
      simp only [Nat.add_comm 0x16 n, Reg.rowsOf]
    rw [hnone] at hr
    cases hr

/-- The word in which BOOT.SVN.MIN lies at the one index that a hit gives. -/
theorem hit_svnMin {w : ℕ} {ix : List ℕ} (h : Reg.BOOT_SVN_MIN.hit w = some ix) : ∃ j < 5, ix = [j] ∧ w = 0x11 + j := by
  unfold Row.hit at h
  split at h
  · cases h
  next hw =>
  have hdims : Reg.BOOT_SVN_MIN.dims = [(1, 5)] := rfl
  have hbase : Reg.BOOT_SVN_MIN.base = 0x11 := rfl
  rw [hbase] at hw h
  simp only [hdims, splitOffset, Nat.div_one, Nat.mod_one, if_true, Option.map_some] at h
  split at h
  · next hj => exact ⟨w - 0x11, hj, (Option.some.inj h).symm, by omega⟩
  · cases h

/-- The fuses with the minimum SVN of one kind raised. -/
def Fuses.withSvn (fz : Fuses) (k v : Nat) : Fuses :=
  { fz with svnMin := (List.range 5).map (fun j => if j = k then v else fz.svnMin.getD j 0) }

/-- Raising the minimum SVN of kind `k` changes the reset value of no word but that of BOOT.SVN.MIN at `k`. -/
theorem wordReset_withSvn (fz : Fuses) (k v : ℕ) {key : ℕ} (hkey : key ≠ Reg.BOOT_SVN_MIN.key [k]) :
    wordReset (fz.withSvn k v) key = wordReset fz key := by
  refine List.foldl_ext _ _ _ fun acc e he => ?_
  obtain ⟨r, hr, he⟩ := List.mem_filterMap.1 he
  obtain ⟨ix, hix, rfl⟩ := Option.map_eq_some_iff.1 he
  have hv : resetValue (fz.withSvn k v) r ix = resetValue fz r ix := by
    rcases hreset : r.reset with _ | _ | _ | _ | _ | _ | _ | _ | _ | _ | _ | _ | f <;> simp only [resetValue, hreset]
    · rfl
    · rcases f <;> try rfl
      obtain ⟨rfl, hsp⟩ := reset_svnMin hr hreset
      obtain ⟨j, hj, rfl, hw⟩ := hit_svnMin hix
      have hjk : j ≠ k := by
        rintro rfl
        have : Reg.BOOT_SVN_MIN.key [j] = 0x13 * 2 ^ 17 + (0x11 + (1 * j + 0)) := rfl
        omega
      simp [fuseValue, Fuses.withSvn, hj, hjk, List.getD_eq_getElem?_getD]
  simp only [hv]

theorem tcanon_tdel_congr {α : Type} [DecidableEq α] {d d' : ℕ → α} {k : ℕ} (hd : ∀ a ≠ k, d' a = d a) {t : List (ℕ × α)}
    (h : tcanon d t = true) : tcanon d' (tdel t k) = true := by
  simp only [tcanon, Bool.and_eq_true, List.all_eq_true, tsorted_iff, decide_eq_true_eq] at h ⊢
  refine ⟨pairwise_tdel k h.1, fun e he => ?_⟩
  obtain ⟨het, hne⟩ := mem_tdel he
  rw [hd _ hne]
  exact h.2 e het

theorem keeps_svnAdv (s : State) (k v : ℕ) : Keeps s (s.svnAdv k v) :=
  ⟨fun c => ⟨tcanon_tdel_congr (fun _ ha => wordReset_withSvn s.fuses k v ha) c.1, c.2⟩, rfl⟩

theorem keeps_doBoot (j : Judge) (s : State) : Keeps s (j.doBoot s) := by
  unfold Judge.doBoot
  extract_lets s1 s2 s3
  have h1 : Keeps s s1 := (Evolves.ite (.refl s) ((Evolves.refl s).wr.each fun hu => hu.hartGo)).1
  have h2 : Keeps s s2 := h1.each fun u k => (Evolves.refl u).wr.1.trans (keeps_svnAdv _ k _)
  have h3 : Keeps s s3 := h2.then ((Evolves.refl s2).each fun hu => hu.wr.instanceReset)
  exact h3.then (.ite (.refl s3) (Evolves.refl s3).checkSpares)

theorem keeps_apply {s : State} (es : List Staged) : Keeps s (s.judge es).apply :=
  (Evolves.refl s).image.lockOnce.doTtu.doKeys.doApc.doGrants.doSensors.doNet.doClk.doSafety.1.trans (keeps_doBoot _ _)

theorem keeps_commit (s : State) (n : ℕ) (es : List Staged) : Keeps s (s.commit n es).2 := by
  have hs := Evolves.refl s
  unfold State.commit
  dsimp only
  split
  · exact keeps_apply es
  · exact (Evolves.ite hs.violation hs).1
  · exact hs.record.violation.1
  · exact hs.1
  · exact hs.1

theorem keeps_commitOne (s : State) (n : ℕ) (es : List Staged) : Keeps s (s.commitOne n es) := by
  have hs := Evolves.refl s
  unfold State.commitOne
  split
  · exact hs.1
  split
  · exact hs.violation.answer.1
  · exact hs.answer.1
  · exact (keeps_commit s n es).then (Evolves.refl _).answer

theorem keeps_commitSeq (s : State) (n : ℕ) : Keeps s (s.commitSeq n).2 := by
  have hs := (Evolves.refl s).discardSeq (n := n)
  unfold State.commitSeq
  dsimp only
  split
  · exact hs.1
  split
  · exact hs.1
  · exact hs.1.trans (keeps_commit _ n _)

theorem holds_commitOf (s : State) (n : ℕ) (l : List (Row × List ℕ × ℕ)) : Holds s (s.commitOf n l) := by
  unfold State.commitOf
  split
  · exact .go (keeps_commitOne s n _)
  · exact .refused

theorem Holds.ite {s : State} {c : Prop} {_ : Decidable c} {o r : Host.Outcome State Fault Refusal} (ho : Holds s o) (hr : Holds s r) :
    Holds s (if c then o else r) := by
  split
  · exact ho
  · exact hr

theorem holds_issue {s : State} (i : Issue) (opc : ℕ) {body : AWord → Ctx → State} (hb : ∀ a c, Keeps s (body a c)) :
    Holds s (s.issue i opc body) := by
  have hs := Evolves.refl s
  unfold State.issue
  dsimp only
  refine .ite .refused ?_
  split
  · exact .ite (.go hs.1) (.ite (.go hs.releaseStrand.schedule.1) (.ite (.go hs.faultEnd.1)
      (.ite (.go hs.privEnd.1) (.go (hb _ _)))))
  · exact .go hs.1

theorem holds_execCommit (i : Issue) (s : State) : Holds s (execCommit i s) :=
  holds_issue i 0x42 fun _ _ => (keeps_commitSeq s i.ctx).then (Evolves.refl _).retire

/-- Every command keeps the canonical form and the queue. -/
theorem holds_exec (c : Instr) (s : State) : Holds s (exec c s) := by
  cases c with
  | governorWindowOpen => exact (yields_execGovernorWindowOpen (.refl s)).holds
  | governorReleasePoint => exact (yields_execGovernorReleasePoint (.refl s)).holds
  | tileHbmRequest => exact (yields_execTileHbmRequest (.refl s)).holds
  | cpChainHeadWrite => exact (yields_execCpChainHeadWrite (.refl s)).holds
  | cpDoorbellRing => exact (yields_execCpDoorbellRing (.refl s)).holds
  | cpFaultCodeClear => exact (yields_execCpFaultCodeClear (.refl s)).holds
  | cpLowHalfRead => exact (yields_execCpLowHalfRead (.refl s)).holds
  | cpHighHalfRead => exact (yields_execCpHighHalfRead (.refl s)).holds
  | registerWrite => exact (yields_execRegisterWrite (.refl s)).holds
  | chainHeadSample => exact (yields_execChainHeadSample (.refl s)).holds
  | tenantDoorbell => exact (yields_execTenantDoorbell (.refl s)).holds
  | strandQuantumExpiry => exact (yields_execStrandQuantumExpiry (.refl s)).holds
  | programStart => exact (yields_execProgramStart (.refl s)).holds
  | programEnd => exact (yields_execProgramEnd (.refl s)).holds
  | runAheadFetch => exact (yields_execRunAheadFetch (.refl s)).holds
  | nop => exact (yields_execNop (.refl s)).holds
  | endProgram => exact (yields_execEndProgram (.refl s)).holds
  | yield => exact (yields_execYield (.refl s)).holds
  | fence => exact (yields_execFence (.refl s)).holds
  | epoch => exact (yields_execEpoch (.refl s)).holds
  | li => exact (yields_execLi (.refl s)).holds
  | lix => exact (yields_execLix (.refl s)).holds
  | add => exact (yields_execAdd (.refl s)).holds
  | addi => exact (yields_execAddi (.refl s)).holds
  | sub => exact (yields_execSub (.refl s)).holds
  | and => exact (yields_execAnd (.refl s)).holds
  | or => exact (yields_execOr (.refl s)).holds
  | xor => exact (yields_execXor (.refl s)).holds
  | shli => exact (yields_execShli (.refl s)).holds
  | shri => exact (yields_execShri (.refl s)).holds
  | movs => exact (yields_execMovs (.refl s)).holds
  | br => exact (yields_execBr (.refl s)).holds
  | bst => exact (yields_execBst (.refl s)).holds
  | call => exact (yields_execCall (.refl s)).holds
  | ret => exact (yields_execRet (.refl s)).holds
  | ld => exact (yields_execLd (.refl s)).holds
  | st => exact (yields_execSt (.refl s)).holds
  | poll => exact (yields_execPoll (.refl s)).holds
  | pollCheck => exact (yields_execPollCheck (.refl s)).holds
  | pollTimeout => exact (yields_execPollTimeout (.refl s)).holds
  | stage => exact (yields_execStage (.refl s)).holds
  | stagei => exact (yields_execStagei (.refl s)).holds
  | spaceLockGrant => exact (yields_execSpaceLockGrant (.refl s)).holds
  | spaceLockTimeout => exact (yields_execSpaceLockTimeout (.refl s)).holds
  | commit => exact holds_execCommit _ s
  | discard => exact (yields_execDiscard (.refl s)).holds
  | fetch => exact (yields_execFetch (.refl s)).holds
  | dispatch => exact (yields_execDispatch (.refl s)).holds
  | dispatchSlotTimeout => exact (yields_execDispatchSlotTimeout (.refl s)).holds
  | abort => exact (yields_execAbort (.refl s)).holds
  | wait => exact (yields_execWait (.refl s)).holds
  | waitTimeout => exact (yields_execWaitTimeout (.refl s)).holds
  | signal => exact (yields_execSignal (.refl s)).holds
  | lock => exact (yields_execLock (.refl s)).holds
  | lockTimeout => exact (yields_execLockTimeout (.refl s)).holds
  | unlock => exact (yields_execUnlock (.refl s)).holds
  | semaphoreHandoff => exact (yields_execSemaphoreHandoff (.refl s)).holds
  | handover => exact (yields_execHandover (.refl s)).holds
  | rstctx => exact (yields_execRstctx (.refl s)).holds
  | ttuTranslate => exact (yields_execTtuTranslate (.refl s)).holds
  | invalidation n scope inst pid addr => exact (holds_commitOf s _ _ : Holds s (execInvalidation n scope inst pid addr s))
  | invalidationDrainDone => exact (yields_execInvalidationDrainDone (.refl s)).holds
  | periodBoundary => exact (yields_execPeriodBoundary (.refl s)).holds
  | orreryArbitration => exact (yields_execOrreryArbitration (.refl s)).holds
  | slicePreempt => exact (yields_execSlicePreempt (.refl s)).holds
  | fabricRequest => exact (yields_execFabricRequest (.refl s)).holds
  | freezeLimitExpiry => exact (yields_execFreezeLimitExpiry (.refl s)).holds
  | freezeRelease => exact (yields_execFreezeRelease (.refl s)).holds
  | fabricTimeout => exact (yields_execFabricTimeout (.refl s)).holds
  | lateResponse => exact (yields_execLateResponse (.refl s)).holds
  | postedWriteError => exact (yields_execPostedWriteError (.refl s)).holds
  | interruptMessageRelease => exact (yields_execInterruptMessageRelease (.refl s)).holds
  | sourceInterrupt => exact (yields_execSourceInterrupt (.refl s)).holds
  | linkDown => exact (yields_execLinkDown (.refl s)).holds
  | linkRetrainDone => exact (yields_execLinkRetrainDone (.refl s)).holds
  | linkRetrainExpiry => exact (yields_execLinkRetrainExpiry (.refl s)).holds
  | hbmRead => exact (yields_execHbmRead (.refl s)).holds
  | hbmFullWrite => exact (yields_execHbmFullWrite (.refl s)).holds
  | hbmPartialWrite => exact (yields_execHbmPartialWrite (.refl s)).holds
  | rekey k => exact (holds_commitOf s _ _ : Holds s (execRekey k s))
  | patrolScrub => exact (yields_execPatrolScrub (.refl s)).holds
  | migrationDone => exact (yields_execMigrationDone (.refl s)).holds
  | hbmVerifyPassDone => exact (yields_execHbmVerifyPassDone (.refl s)).holds
  | enclaveCreate e base size inst => exact (holds_commitOf s _ _ : Holds s (execEnclaveCreate e base size inst s))
  | enclaveSeal e => exact (holds_commitOf s _ _ : Holds s (execEnclaveSeal e s))
  | sealDone => exact (yields_execSealDone (.refl s)).holds
  | enclaveDestroy e => exact (holds_commitOf s _ _ : Holds s (execEnclaveDestroy e s))
  | destroyDone => exact (yields_execDestroyDone (.refl s)).holds
  | mailboxWrite => exact (yields_execMailboxWrite (.refl s)).holds
  | monitorRestart => exact (yields_execMonitorRestart (.refl s)).holds
  | gcmEncrypt => exact (yields_execGcmEncrypt (.refl s)).holds
  | gcmDecrypt => exact (yields_execGcmDecrypt (.refl s)).holds
  | sha256 => exact (yields_execSha256 (.refl s)).holds
  | sha384 => exact (yields_execSha384 (.refl s)).holds
  | sha512 => exact (yields_execSha512 (.refl s)).holds
  | sha3256 => exact (yields_execSha3256 (.refl s)).holds
  | sha3384 => exact (yields_execSha3384 (.refl s)).holds
  | sha3512 => exact (yields_execSha3512 (.refl s)).holds
  | p256Sign => exact (yields_execP256Sign (.refl s)).holds
  | p256Verify => exact (yields_execP256Verify (.refl s)).holds
  | p384Sign => exact (yields_execP384Sign (.refl s)).holds
  | p384Verify => exact (yields_execP384Verify (.refl s)).holds
  | keyload => exact (yields_execKeyload (.refl s)).holds
  | cryptoPreempt => exact (yields_execCryptoPreempt (.refl s)).holds
  | cryptoResume => exact (yields_execCryptoResume (.refl s)).holds
  | cryptoJobDone => exact (yields_execCryptoJobDone (.refl s)).holds
  | cryptoKeyClear n k => exact (holds_commitOf s _ _ : Holds s (execCryptoKeyClear n k s))
  | gateMark => exact (yields_execGateMark (.refl s)).holds
  | gateEnter => exact (yields_execGateEnter (.refl s)).holds
  | gateExit => exact (yields_execGateExit (.refl s)).holds
  | hartAccessFault => exact (yields_execHartAccessFault (.refl s)).holds
  | storeError => exact (yields_execStoreError (.refl s)).holds
  | irqDeliver => exact (yields_execIrqDeliver (.refl s)).holds
  | seteipnumWrite => exact (yields_execSeteipnumWrite (.refl s)).holds
  | mtimecmpWrite => exact (yields_execMtimecmpWrite (.refl s)).holds
  | timerCompare => exact (yields_execTimerCompare (.refl s)).holds
  | sourceAck n d x => exact (holds_commitOf s _ _ : Holds s (execSourceAck n d x s))
  | clusterRun c => exact (holds_commitOf s _ _ : Holds s (execClusterRun c s))
  | clusterRetain c => exact (holds_commitOf s _ _ : Holds s (execClusterRetain c s))
  | clusterOff c => exact (holds_commitOf s _ _ : Holds s (execClusterOff c s))
  | clusterStateEntry => exact (yields_execClusterStateEntry (.refl s)).holds
  | clusterWake => exact (yields_execClusterWake (.refl s)).holds
  | gemm => exact (yields_execGemm (.refl s)).holds
  | conv2d => exact (yields_execConv2d (.refl s)).holds
  | dwconv => exact (yields_execDwconv (.refl s)).holds
  | deconv => exact (yields_execDeconv (.refl s)).holds
  | pool => exact (yields_execPool (.refl s)).holds
  | elemwise => exact (yields_execElemwise (.refl s)).holds
  | activate => exact (yields_execActivate (.refl s)).holds
  | norm => exact (yields_execNorm (.refl s)).holds
  | softmax => exact (yields_execSoftmax (.refl s)).holds
  | topk => exact (yields_execTopk (.refl s)).holds
  | gather => exact (yields_execGather (.refl s)).holds
  | scatter => exact (yields_execScatter (.refl s)).holds
  | transpose => exact (yields_execTranspose (.refl s)).holds
  | reshape => exact (yields_execReshape (.refl s)).holds
  | quant => exact (yields_execQuant (.refl s)).holds
  | dequant => exact (yields_execDequant (.refl s)).holds
  | reduce => exact (yields_execReduce (.refl s)).holds
  | argmax => exact (yields_execArgmax (.refl s)).holds
  | resize => exact (yields_execResize (.refl s)).holds
  | gridsample => exact (yields_execGridsample (.refl s)).holds
  | attention => exact (yields_execAttention (.refl s)).holds
  | copy => exact (yields_execCopy (.refl s)).holds
  | golden => exact (yields_execGolden (.refl s)).holds
  | syncBarrier => exact (yields_execSyncBarrier (.refl s)).holds
  | syncSignal => exact (yields_execSyncSignal (.refl s)).holds
  | syncWait => exact (yields_execSyncWait (.refl s)).holds
  | syncWaitPoll => exact (yields_execSyncWaitPoll (.refl s)).holds
  | syncWaitTimeout => exact (yields_execSyncWaitTimeout (.refl s)).holds
  | tileSwitch => exact (yields_execTileSwitch (.refl s)).holds
  | infJobComplete => exact (yields_execInfJobComplete (.refl s)).holds
  | safetyFrameEnd => exact (yields_execSafetyFrameEnd (.refl s)).holds
  | spareSwapDone => exact (yields_execSpareSwapDone (.refl s)).holds
  | rotationSwap => exact (yields_execRotationSwap (.refl s)).holds
  | lbistDone => exact (yields_execLbistDone (.refl s)).holds
  | texSample => exact (yields_execTexSample (.refl s)).holds
  | interp => exact (yields_execInterp (.refl s)).holds
  | tbLd => exact (yields_execTbLd (.refl s)).holds
  | tbSt => exact (yields_execTbSt (.refl s)).holds
  | covRead => exact (yields_execCovRead (.refl s)).holds
  | covDiscard => exact (yields_execCovDiscard (.refl s)).holds
  | bar => exact (yields_execBar (.refl s)).holds
  | shaderEcall => exact (yields_execShaderEcall (.refl s)).holds
  | shaderException => exact (yields_execShaderException (.refl s)).holds
  | packetEnd => exact (yields_execPacketEnd (.refl s)).holds
  | passBegin => exact (yields_execPassBegin (.refl s)).holds
  | passEnd => exact (yields_execPassEnd (.refl s)).holds
  | pipe => exact (yields_execPipe (.refl s)).holds
  | bind => exact (yields_execBind (.refl s)).holds
  | draw => exact (yields_execDraw (.refl s)).holds
  | packetWait => exact (yields_execPacketWait (.refl s)).holds
  | packetWaitTimeout => exact (yields_execPacketWaitTimeout (.refl s)).holds
  | packetSignal => exact (yields_execPacketSignal (.refl s)).holds
  | jump => exact (yields_execJump (.refl s)).holds
  | binGrow n g addr count => exact (holds_commitOf s _ _ : Holds s (execBinGrow n g addr count s))
  | binGrowTimeout => exact (yields_execBinGrowTimeout (.refl s)).holds
  | gfxStreamComplete => exact (yields_execGfxStreamComplete (.refl s)).holds
  | computeJobStart => exact (yields_execComputeJobStart (.refl s)).holds
  | computeWaitTimeout => exact (yields_execComputeWaitTimeout (.refl s)).holds
  | computeJobComplete => exact (yields_execComputeJobComplete (.refl s)).holds
  | clusterSwitch => exact (yields_execClusterSwitch (.refl s)).holds
  | deadlinePreempt => exact (yields_execDeadlinePreempt (.refl s)).holds
  | displayDecisionInstant => exact (yields_execDisplayDecisionInstant (.refl s)).holds
  | bandProduction => exact (yields_execBandProduction (.refl s)).holds
  | frameReadyPoll => exact (yields_execFrameReadyPoll (.refl s)).holds
  | frameReadyTimeout => exact (yields_execFrameReadyTimeout (.refl s)).holds
  | frameRetire => exact (yields_execFrameRetire (.refl s)).holds
  | regionCrcCheck => exact (yields_execRegionCrcCheck (.refl s)).holds
  | frameStatusWrite => exact (yields_execFrameStatusWrite (.refl s)).holds
  | pipeDisable d => exact (holds_commitOf s _ _ : Holds s (execPipeDisable d s))
  | sampleArrival => exact (yields_execSampleArrival (.refl s)).holds
  | streamTimeout => exact (yields_execStreamTimeout (.refl s)).holds
  | streamClr n k => exact (holds_commitOf s _ _ : Holds s (execStreamClr n k s))
  | streamLie n k => exact (holds_commitOf s _ _ : Holds s (execStreamLie n k s))
  | egoStep => exact (yields_execEgoStep (.refl s)).holds
  | biasUpdate => exact (yields_execBiasUpdate (.refl s)).holds
  | epochRelease => exact (yields_execEpochRelease (.refl s)).holds
  | epochWaitExpiry => exact (yields_execEpochWaitExpiry (.refl s)).holds
  | fusionJob => exact (yields_execFusionJob (.refl s)).holds
  | fusionEpochTimeout => exact (yields_execFusionEpochTimeout (.refl s)).holds
  | txEthernet => exact (yields_execTxEthernet (.refl s)).holds
  | txCan => exact (yields_execTxCan (.refl s)).holds
  | txLin => exact (yields_execTxLin (.refl s)).holds
  | txDiagnosticMessage => exact (yields_execTxDiagnosticMessage (.refl s)).holds
  | txJobComplete => exact (yields_execTxJobComplete (.refl s)).holds
  | synthesiserLock => exact (yields_execSynthesiserLock (.refl s)).holds
  | synthesiserHoldExpiry => exact (yields_execSynthesiserHoldExpiry (.refl s)).holds
  | egressAged => exact (yields_execEgressAged (.refl s)).holds
  | ethernetRx => exact (yields_execEthernetRx (.refl s)).holds
  | canFrameRx => exact (yields_execCanFrameRx (.refl s)).holds
  | canTxDone => exact (yields_execCanTxDone (.refl s)).holds
  | canResume n c => exact (holds_commitOf s _ _ : Holds s (execCanResume n c s))
  | busOffRecovery => exact (yields_execBusOffRecovery (.refl s)).holds
  | pduPeriod => exact (yields_execPduPeriod (.refl s)).holds
  | diagSessionIdle => exact (yields_execDiagSessionIdle (.refl s)).holds
  | authChange => exact (yields_execAuthChange (.refl s)).holds
  | reqMain => exact (holds_commitOf s _ _ : Holds s (execReqMain s))
  | gptpSyncRx => exact (yields_execGptpSyncRx (.refl s)).holds
  | gptpSyncTx => exact (yields_execGptpSyncTx (.refl s)).holds
  | refWindowEnd => exact (yields_execRefWindowEnd (.refl s)).holds
  | crystalEdgeLoss => exact (yields_execCrystalEdgeLoss (.refl s)).holds
  | xtal32EdgeLoss => exact (yields_execXtal32EdgeLoss (.refl s)).holds
  | refSel b => exact (holds_commitOf s _ _ : Holds s (execRefSel b s))
  | epochGo set => exact (holds_commitOf s _ _ : Holds s (execEpochGo set s))
  | rtcSync => exact (holds_commitOf s _ _ : Holds s (execRtcSync s))
  | holdoverExpiry => exact (yields_execHoldoverExpiry (.refl s)).holds
  | frequencyChangeDone => exact (yields_execFrequencyChangeDone (.refl s)).holds
  | fcuLatch => exact (yields_execFcuLatch (.refl s)).holds
  | warmResetAssert => exact (yields_execWarmResetAssert (.refl s)).holds
  | eventClr e => exact (holds_commitOf s _ _ : Holds s (execEventClr e s))
  | take => exact (yields_execTake (.refl s)).holds
  | wdogKick => exact (yields_execWdogKick (.refl s)).holds
  | islandWatchdogExpiry => exact (yields_execIslandWatchdogExpiry (.refl s)).holds
  | heartbeat v => exact (holds_commitOf s _ _ : Holds s (execHeartbeat v s))
  | heartbeatTimeout => exact (yields_execHeartbeatTimeout (.refl s)).holds
  | authorityReturn => exact (yields_execAuthorityReturn (.refl s)).holds
  | injectionResample => exact (yields_execInjectionResample (.refl s)).holds
  | startupInjection => exact (yields_execStartupInjection (.refl s)).holds
  | runtimeInjection => exact (yields_execRuntimeInjection (.refl s)).holds
  | almanacRecord => exact (yields_execAlmanacRecord (.refl s)).holds
  | backupAlarm => exact (yields_execBackupAlarm (.refl s)).holds
  | bkAck => exact (holds_commitOf s _ _ : Holds s (execBkAck s))
  | wreckTrigger => exact (yields_execWreckTrigger (.refl s)).holds
  | wreckSw => exact (holds_commitOf s _ _ : Holds s (execWreckSw s))
  | wreckFreeze => exact (yields_execWreckFreeze (.refl s)).holds
  | wreckRearm d => exact (holds_commitOf s _ _ : Holds s (execWreckRearm d s))
  | dumpGo d addr => exact (holds_commitOf s _ _ : Holds s (execDumpGo d addr s))
  | dumpDone => exact (yields_execDumpDone (.refl s)).holds
  | coldBoot => exact (yields_execColdBoot (.refl s)).holds
  | powerLoss => exact (yields_execPowerLoss (.refl s)).holds
  | warmRestart => exact (yields_execWarmRestart (.refl s)).holds
  | warmRstNAssert => exact (yields_execWarmRstNAssert (.refl s)).holds
  | warmRstNRelease => exact (yields_execWarmRstNRelease (.refl s)).holds
  | remap => exact (holds_commitOf s _ _ : Holds s (execRemap s))
  | supervisorRunning => exact (yields_execSupervisorRunning (.refl s)).holds
  | hartGo => exact .ite .refused (holds_commitOf s _ _)
  | svnAdv => exact .ite .refused (holds_commitOf s _ _)
  | instanceReset iss => exact (holds_commitOf s _ _ : Holds s (execInstanceReset iss s))
  | instanceResetDone => exact (yields_execInstanceResetDone (.refl s)).holds
  | emSample => exact (yields_execEmSample (.refl s)).holds
  | ageingSample => exact (yields_execAgeingSample (.refl s)).holds
  | wearLogWrite => exact (yields_execWearLogWrite (.refl s)).holds
  | replaceFramePeriod => exact (yields_execReplaceFramePeriod (.refl s)).holds
  | domainPowerOn k => exact (holds_commitOf s _ _ : Holds s (execDomainPowerOn k s))
  | domainPowerOff k => exact (holds_commitOf s _ _ : Holds s (execDomainPowerOff k s))
  | domainTransitionDone => exact (yields_execDomainTransitionDone (.refl s)).holds
  | thermalSample => exact (yields_execThermalSample (.refl s)).holds
  | thermalLevelFall => exact (yields_execThermalLevelFall (.refl s)).holds
  | thermalTripRelease => exact (yields_execThermalTripRelease (.refl s)).holds
  | avsVoltageWrite => exact (yields_execAvsVoltageWrite (.refl s)).holds
  | avsAcknowledge => exact (yields_execAvsAcknowledge (.refl s)).holds
  | railOutOfRange => exact (yields_execRailOutOfRange (.refl s)).holds
  | hbOutToggle => exact (yields_execHbOutToggle (.refl s)).holds
  | extest => exact (yields_execExtest (.refl s)).holds
  | samplePreload => exact (yields_execSamplePreload (.refl s)).holds
  | bypass => exact (yields_execBypass (.refl s)).holds
  | idcode => exact (yields_execIdcode (.refl s)).holds
  | handoverQuiesceDone => exact (yields_execHandoverQuiesceDone (.refl s)).holds
  | monitorRestartDone => exact (yields_execMonitorRestartDone (.refl s)).holds
  | vsync => exact (yields_execVsync (.refl s)).holds
  | displayLinkDown => exact (yields_execDisplayLinkDown (.refl s)).holds
  | displayLinkTrained => exact (yields_execDisplayLinkTrained (.refl s)).holds
  | ethernetLinkDown => exact (yields_execEthernetLinkDown (.refl s)).holds
  | ethernetLinkRetrained => exact (yields_execEthernetLinkRetrained (.refl s)).holds
  | synthesiserCalibrationStart => exact (yields_execSynthesiserCalibrationStart (.refl s)).holds
  | gateIntervalExpiry => exact (yields_execGateIntervalExpiry (.refl s)).holds
  | pdelayInterval => exact (yields_execPdelayInterval (.refl s)).holds
  | linScheduleSlot => exact (yields_execLinScheduleSlot (.refl s)).holds
  | validSyncAgeExpiry => exact (yields_execValidSyncAgeExpiry (.refl s)).holds
  | xtal32EdgesResume => exact (yields_execXtal32EdgesResume (.refl s)).holds
  | porstNAssert => exact (yields_execPorstNAssert (.refl s)).holds
  | pwrGoodRise => exact (yields_execPwrGoodRise (.refl s)).holds
  | vbatBkpFall => exact (yields_execVbatBkpFall (.refl s)).holds
  | standbyHour => exact (yields_execStandbyHour (.refl s)).holds

/-! ### The statements on every step -/

theorem wf_iff_canon (s : State) : s.wf = true ↔ Canon s.fuses s.words s.mem := by
  rw [State.wf, Bool.and_eq_true, and_comm]
  rfl

/-- Settles O60: every command keeps the queue. -/
theorem commandsLeaveTheQueue : Obligations.CommandsLeaveTheQueue := by
  unfold Obligations.CommandsLeaveTheQueue
  exact fun c s t ht => (holds_exec c s t ht).2

/-- Settles O1: the front command of a queue is the one that `step` takes. -/
theorem stepTakesTheFrontCommand : Obligations.StepTakesTheFrontCommand := by
  unfold Obligations.StepTakesTheFrontCommand
  intro c rest s hs
  rw [step, hs]

/-- Settles O5: a command keeps the canonical form, and so does a tick. -/
theorem everyStepKeepsCanonicalForm : Obligations.EveryStepKeepsCanonicalForm := by
  unfold Obligations.EveryStepKeepsCanonicalForm
  intro s t hs ht
  rw [wf_iff_canon] at hs ⊢
  rcases hp : s.pending with _ | ⟨c, rest⟩ <;> rw [step, hp] at ht
  · obtain rfl : s.tick = t := by injection ht
    exact (evolves_tick s).1.1 hs
  · exact (holds_exec c _ t ht).1 hs

/-- Settles O4: after reset no byte and no word is listed. -/
theorem resetIsCanonical : Obligations.ResetIsCanonical := by
  unfold Obligations.ResetIsCanonical
  exact ⟨rfl, rfl⟩

/-! ### A tick of an idle block -/

/-- Epoch time and the units that a tick serves. -/
def State.units (s : State) : Nat × Nat × List Posted × Net × Gfx × Cry × Boot :=
  (s.clk.epoch, s.clk.frac, s.fab.posted, s.net, s.gfx, s.cry, s.boot)

theorem units_rtcTick (s : State) : s.rtcTick.units = s.units := by
  unfold State.rtcTick
  dsimp only
  split <;> simp [State.units, State.wrPair]

theorem units_copyTick (s : State) (k : ℕ) : (s.copyTick k).units = s.units := by
  unfold State.copyTick
  split <;> simp [State.units, State.copyTo, State.setSpare]

theorem units_chargeNow (s : State) (r t n : ℕ) : (s.chargeNow r t n).units = s.units := by
  simp [State.units, State.chargeNow, State.incSat, State.inc64]

theorem units_charge (s : State) (r t n : ℕ) : (s.charge r t n).units = s.units := by
  unfold State.charge
  split
  · rfl
  split
  · exact units_chargeNow s r t n
  split
  · rfl
  · exact units_chargeNow _ r t n

theorem units_holdTick (s : State) : s.holdTick.units = s.units := by
  unfold State.holdTick
  split
  · rfl
  · rw [foldl_keeps (g := State.units) fun u _ => units_charge u _ _ _]
    simp [State.units, State.incWrap]

theorem mem_rtcTick (s : State) : s.rtcTick.mem = s.mem := by
  unfold State.rtcTick
  dsimp only
  split <;> simp [State.wrPair]

theorem mem_holdTick (s : State) : s.holdTick.mem = s.mem := by
  unfold State.holdTick
  split
  · rfl
  · rw [foldl_keeps (g := State.mem) fun u _ => (charge_inf_mem u _ _ _).2]
    simp [State.incWrap]

/-- No migration goes on while the main domain is down. -/
theorem copyTick_down {s : State} (h : s.boot.mainUp = false) (k : ℕ) : s.copyTick k = s := by
  simp [State.copyTick, State.migrating, h]

theorem foldl_copyTick_down {s : State} (h : s.boot.mainUp = false) (l : List ℕ) : l.foldl State.copyTick s = s := by
  induction l with
  | nil => rfl
  | cons k l ih => rw [List.foldl_cons, copyTick_down h, ih]

/-- The state with device time and Epoch time moved on. -/
def State.clockTick (s : State) : State :=
  let s := { s with now := s.now + tickNs }
  if s.safeUp then { s with clk := s.clk.tick } else s

theorem clockTick_up {s : State} (h : s.safeUp = true) : s.clockTick = { s with now := s.now + tickNs, clk := s.clk.tick } := if_pos h

theorem clockTick_down {s : State} (h : s.safeUp = false) : s.clockTick = { s with now := s.now + tickNs } := if_neg (by simp [State.safeUp] at h ⊢; exact h)

theorem clockTick_mem_boot (s : State) : s.clockTick.mem = s.mem ∧ s.clockTick.boot = s.boot := by
  cases h : s.safeUp
  · rw [clockTick_down h]
    exact ⟨rfl, rfl⟩
  · rw [clockTick_up h]
    exact ⟨rfl, rfl⟩

/-- The state with device time, Epoch time and the RTC moved on. -/
def State.rtcTicked (s : State) : State :=
  if s.clockTick.pwr.pwrGood || s.clockTick.pwr.vbat = 0 then s.clockTick.rtcTick else s.clockTick

theorem units_rtcTicked (s : State) : s.rtcTicked.units = s.clockTick.units := by
  unfold State.rtcTicked
  split
  · exact units_rtcTick _
  · rfl

theorem mem_rtcTicked (s : State) : s.rtcTicked.mem = s.mem := by
  unfold State.rtcTicked
  split
  · exact (mem_rtcTick _).trans (clockTick_mem_boot s).1
  · exact (clockTick_mem_boot s).1

/-- The part of a tick that needs no work: the clocks, the copies of migrations and the held tiles. -/
def State.timeTick (s : State) : State := ((List.range 6).foldl State.copyTick s.rtcTicked).holdTick

theorem units_timeTick (s : State) : s.timeTick.units = s.clockTick.units := by
  unfold State.timeTick
  rw [units_holdTick, foldl_keeps (g := State.units) units_copyTick, units_rtcTicked]

theorem mem_timeTick_down {s : State} (h : s.boot.mainUp = false) : s.timeTick.mem = s.mem := by
  have hboot : s.rtcTicked.boot = s.boot := (congrArg (·.2.2.2.2.2.2) (units_rtcTicked s)).trans (clockTick_mem_boot s).2
  unfold State.timeTick
  rw [mem_holdTick, foldl_copyTick_down (hboot ▸ h), mem_rtcTicked]

theorem tick_eq_drained (s : State) : s.tick = (((s.timeTick.gfxTick tickNs).cryTick tickNs).shaperTick).drainOne := rfl

/-- With no posted write, Ethernet port, compute job and cryptography job a tick only moves time on. -/
theorem tick_eq_timeTick {s : State} (hp : s.fab.posted = []) (hn : s.net.ports = []) (hg : s.gfx.comps = []) (hc : s.cry.engines = []) :
    s.tick = s.timeTick := by
  have hclock : s.clockTick.units.2.2 = s.units.2.2 := by
    cases h : s.safeUp
    · rw [clockTick_down h]
      rfl
    · rw [clockTick_up h]
      rfl
  have hu := (congrArg (·.2.2) (units_timeTick s)).trans hclock
  simp only [State.units, Prod.mk.injEq] at hu
  obtain ⟨hposted, hnet, hgfx, hcry, _⟩ := hu
  rw [tick_eq_drained, State.gfxTick, hgfx, hg, State.cryTick]
  simp [hcry, hc, State.shaperTick, hnet, hn, State.drainOne, hposted, hp]

/-- The corrected rate: 4 ns times 1 + the correction, modulo 2^64 ns. -/
theorem epoch_tick (c : Clk) :
    c.tick.frac < 2 ^ 32 ∧ ((c.tick.epoch : ℤ) * 2 ^ 32 + c.tick.frac) % 2 ^ 96
      = ((c.epoch : ℤ) * 2 ^ 32 + c.frac + 4 * (2 ^ 32 + c.corr)) % 2 ^ 96 := by
  simp only [Clk.tick, wrapTo, tickNs]
  norm_num
  omega

/-- Settles O2: a tick moves device time on, and Epoch time while the safety domain is up. -/
theorem emptyQueueTicks : Obligations.EmptyQueueTicks := by
  unfold Obligations.EmptyQueueTicks
  intro s hq
  obtain ⟨⟨_, hpending⟩, hfuses, hnow⟩ := evolves_tick s
  refine ⟨by rw [step, hq], hnow, hpending.trans hq, hfuses, fun hp hn hg hc => ?_⟩
  rw [tick_eq_timeTick hp hn hg hc]
  have hu := units_timeTick s
  simp only [State.units, Prod.mk.injEq] at hu
  obtain ⟨hepoch, hfrac, _⟩ := hu
  rw [hepoch, hfrac]
  refine ⟨fun h => ?_, fun h => ?_, mem_timeTick_down⟩
  · rw [clockTick_up h]
    exact epoch_tick s.clk
  · rw [clockTick_down h]
    exact ⟨rfl, rfl⟩

end Sys2Proof.Machine
end

section
/-! O46 to O48: a load of a flushed pixel, the packets of a stream, and the binning and storing of a pass, as attempts of the stream's job. -/

namespace Sys2Proof.Machine

/-! ### A pixel of a bin that a flush has stored -/

/-- A pass of one bin and one attachment with a clear value, whose bin a flush has stored: it holds no pixels of its own. -/
def flushedPass : Pass :=
  { width := 32, height := 32, samples := 1, pid := 0, atts := [⟨0x10_0000_0000, 0, 1, 0, 0, 128, 0⟩], depth := false, pages := [],
    prims := [⟨[], [0], [⟨0, 0, 1⟩]⟩], flushed := [0] }

/-- A stream in that pass, resident on cluster 0, of an instance without translations. -/
def flushedStream : State :=
  ({ State.reset with
      boot := { mainUp := true }
      gfx := { jobs := [{ uid := 1, gctx := 0, inst := 0, mask := 1, pc := 0, pid := 0, pass := some flushedPass }] } }.wr
    Reg.GFX_SLICE_VALID [0, 0] 1).wr Reg.GFX_CL_RES_VALID [0] 1

/-- A fragment thread of that pass reads one element of attachment 0 with TB.LD. -/
def flushedLoad : ShIssue := ⟨⟨1, 1, 0, 0⟩, 0, 0x2B + 2 * 2 ^ 12, 0, 0, [], 32, 1, 1⟩

/-- How many streams are left after an outcome. -/
def streamsLeft (o : Host.Outcome State Fault Refusal) : Nat :=
  match o with
  | .next t => t.gfx.jobs.length
  | _ => 0

/-- Where the place of the flushed pixel cannot be read, the load ends its stream. -/
theorem streamsLeft_flushedLoad : streamsLeft (exec (.tbLd flushedLoad) flushedStream) = 0 := by decide +kernel

theorem flushedLoad_runs : ∃ v x j, (flushedStream.inRun (partyJob 1)).running flushedLoad.th = some (v, x) ∧ v.job = some j
    ∧ v.pass = some flushedPass := by
  refine ⟨_, _, _, rfl, rfl, rfl⟩

/-- Refutes O46: TB.LD of a cleared attachment without pixels in tile memory reads what a flush has stored of its bin, not
the clear value, and where that read fails the instruction ends the stream. -/
theorem not_shaderInstructionsOfAThread : ¬ Obligations.ShaderInstructionsOfAThread := by
  unfold Obligations.ShaderInstructionsOfAThread
  intro h
  obtain ⟨v, x, j, hx, hj, hp⟩ := flushedLoad_runs
  obtain ⟨-, hlegal, -⟩ := h flushedStream flushedLoad v x (by decide) (by decide) (by decide +kernel) hx
  obtain ⟨-, -, hload, -⟩ := hlegal (by decide)
  have hclear := (hload (by decide)).2 j flushedPass 0 _ hj hp (by decide) rfl rfl rfl
  have hleft := streamsLeft_flushedLoad
  rw [hclear] at hleft
  cases hleft

/-! ### Packets (R346 to R348) -/

section
variable {s t : State} {u ty : ℕ} {j : GfxJob} {k : GfxJob → ℕ → List ℕ → State → State}
  (hjob : s.gfxJob u = some j) (hended : j.ended = false) (hup : s.boot.mainUp = true)
  (hpend : s.flag Reg.GFX_GCTX_PEND [j.gctx] = false)
include hjob hended hup hpend

theorem packet_of_failed_read {st : Status} {w : List ℕ} (hread : s.packetWords j.inst j.pc = (st, w, t)) (hst : st ≠ .ok) :
    s.packet u ty k = t.gfxEnd u st := by
  simp [State.packet, hjob, hended, hup, hpend, hread, hst]

section
variable {h : ℕ} {w : List ℕ} (hread : s.packetWords j.inst j.pc = (.ok, h :: w, t))
include hread

theorem packet_of_malformed (hbad : (packetOk h w && packetPlace (h % 256) j.pass.isSome) = false) :
    s.packet u ty k = t.gfxEnd u .denied := by
  have hbad' : (!packetOk h w || !packetPlace (h % 256) j.pass.isSome) = true := by rw [← Bool.not_and, hbad]; rfl
  simp only [State.packet, hjob, hended, hup, hpend, hread, List.headD_cons, List.tail_cons, hbad', ne_eq, not_true_eq_false,
    Bool.or_false, Bool.not_true, Bool.false_eq_true, if_false, if_true]

/-- A well-formed packet of the command's type takes its effect. -/
theorem packet_of_type (hok : packetOk h w = true) (hplace : packetPlace (h % 256) j.pass.isSome = true) (hty : h % 256 = ty) :
    s.packet u ty k = k j h w t := by
  subst hty
  simp only [State.packet, hjob, hended, hup, hpend, hread, List.headD_cons, List.tail_cons, hok, hplace, ne_eq,
    not_true_eq_false, Bool.or_false, Bool.not_true, Bool.false_eq_true, if_false]

end

end

/-! ### PASS_BEGIN (R349) -/

section
variable {t t₁ t₂ : State} {u : ℕ} {j : GfxJob} {w : List ℕ} {b₁ b₂ : List Byte}

theorem passBegin_of_many (h : 8 < bitsOf (w.getD 0 0) 36 4) : t.passBegin u j w = t.gfxEnd u .denied := by
  simp only [State.passBegin, gt_iff_lt, h, if_true]

/-- The pass that PASS_BEGIN describes, before its pages are listed. -/
def passOf (w : List ℕ) (b : List Byte) : Pass :=
  { width := w.getD 0 0 % 2 ^ 16, height := bitsOf (w.getD 0 0) 16 16, samples := 2 ^ bitsOf (w.getD 0 0) 32 2, pid := w.getD 1 0 % 2 ^ 20,
    atts := (groupsOf 32 (bitsOf (w.getD 0 0) 36 4 + bitsOf (w.getD 0 0) 40 1 + 1) b).map (fun e => attOf (ofLeBytes e)),
    depth := bitAt (w.getD 0 0) 40, pages := [] }

section
variable (hcol : bitsOf (w.getD 0 0) 36 4 ≤ 8)
  (hatts : t.dmaRead (gfxAccess j.inst (w.getD 1 0 % 2 ^ 20)) (w.getD 2 0)
    (32 * (bitsOf (w.getD 0 0) 36 4 + bitsOf (w.getD 0 0) 40 1)) = (.ok, b₁, t₁))
include hcol hatts

theorem passBegin_of_bad (hbad : (passOf w b₁).ok (!t₁.flag Reg.GFX_GCTX_MODE [j.gctx]) (w.getD 4 0) = false) :
    t.passBegin u j w = t₁.gfxEnd u .denied := by
  unfold passOf at hbad
  simp only [State.passBegin, gt_iff_lt, Nat.not_lt.2 hcol, hatts, hbad, ne_eq, not_true_eq_false, Bool.not_false, if_true, if_false]

section
variable (hok : (passOf w b₁).ok (!t₁.flag Reg.GFX_GCTX_MODE [j.gctx]) (w.getD 4 0) = true)
  (hpages : t₁.dmaRead (gfxAccess j.inst (w.getD 1 0 % 2 ^ 20)) (w.getD 3 0) (8 * w.getD 4 0) = (.ok, b₂, t₂))
include hok hpages

theorem passBegin_of_bad_pages (hnone : pageList b₂ (w.getD 4 0) = none) : t.passBegin u j w = t₂.gfxEnd u .denied := by
  unfold passOf at hok
  simp only [State.passBegin, gt_iff_lt, Nat.not_lt.2 hcol, hatts, hpages, hok, hnone, ne_eq, not_true_eq_false, Bool.not_true,
    Bool.false_eq_true, if_false]

theorem passBegin_of_pages {l : List ℕ} (hl : pageList b₂ (w.getD 4 0) = some l) : t.passBegin u j w =
    t₂.setGfxJob { j.past 1 with pid := w.getD 1 0 % 2 ^ 20, pass := some { passOf w b₁ with pages := l } } := by
  unfold passOf at hok ⊢
  simp only [State.passBegin, gt_iff_lt, Nat.not_lt.2 hcol, hatts, hpages, hok, hl, ne_eq, not_true_eq_false, Bool.not_true,
    Bool.false_eq_true, if_false]

end

end

end

/-! ### O47 -/

/-- Settles O47: each command runs as an attempt of the stream's job, and a packet by the three outcomes of its read. -/
theorem packetsOfAStream : Obligations.PacketsOfAStream := by
  unfold Obligations.PacketsOfAStream
  intro s u j hjob hfresh P c run a all
  have hrun {f : State → State} {t : State} (ht : f c = t) : run (s.jobRun u f) t := jobRun_of_fresh hfresh ht
  have hjob' : c.gfxJob u = some j := hjob
  have hall {t : State} (ht : ∀ ty k, c.packet u ty k = t) : all t :=
    ⟨show run (execPacketEnd u s) t from hrun (ht _ _), show run (execPassBegin u s) t from hrun (ht _ _),
      show run (execPipe u s) t from hrun (ht _ _), show run (execBind u s) t from hrun (ht _ _),
      show run (execPacketWait u s) t from hrun (ht _ _), show run (execPacketSignal u s) t from hrun (ht _ _),
      show run (execJump u s) t from hrun (ht _ _), fun n => show run (execPassEnd u n s) t from hrun (ht _ _)⟩
  refine ⟨fun hended => ?_, fun hwaits => ?_, fun hended hup hpend => ⟨fun st w t hread hst => hall fun ty k => ?_,
    fun h w t hread hbad => hall fun ty k => ?_, fun h w t hread hok hplace => ?_, fun t w => passBegin_of_many, ?_⟩⟩
  · show run (execGfxStreamComplete u s) _
    refine hrun ?_
    simp only [hjob', hended, if_true]
    rfl
  · show run (execPacketWaitTimeout u s) _
    refine hrun ?_
    simp only [hjob', hwaits, if_true]
  · exact packet_of_failed_read hjob' hended hup hpend hread hst
  · exact packet_of_malformed hjob' hended hup hpend hread hbad
  · have hpacket {ty : ℕ} {k : GfxJob → ℕ → List ℕ → State → State} (hty : h % 256 = ty) {r : State} (hr : k j h w t = r) :
        run (s.jobRun u fun s => s.packet u ty k) r :=
      hrun ((packet_of_type hjob' hended hup hpend hread hok hplace hty).trans hr)
    refine ⟨fun hty => ?_, fun hty => ?_, fun hty => ?_, fun hty => ?_, fun st v r hty hdma => ?_, fun hty => ?_, fun hty => ?_,
      fun n hty => ?_⟩
    · exact show run (execPacketEnd u s) _ from hpacket hty rfl
    · exact show run (execJump u s) _ from hpacket hty rfl
    · exact show run (execPipe u s) _ from hpacket hty rfl
    · exact show run (execBind u s) _ from hpacket hty rfl
    · have hdma' : t.dmaNum (gfxAccess j.inst j.pid) (w.getD 0 0) 8 = (st, v, r) := hdma
      refine ⟨fun hst => show run (execPacketWait u s) _ from hpacket hty ?_,
        fun hst hmet => show run (execPacketWait u s) _ from hpacket hty ?_,
        fun hst hunmet => show run (execPacketWait u s) _ from hpacket hty ?_⟩
      · simp only [hdma', hst, ne_eq, not_false_eq_true, if_true]
      · simp only [hdma', hst, hmet, ne_eq, not_true_eq_false, if_true, if_false]
      · simp only [hdma', hst, hunmet, ne_eq, not_true_eq_false, if_false]
    · refine show run (execPacketSignal u s) _ from hpacket hty (congrArg (t.afterWrites _) (funext fun q => ?_))
      rcases q.dmaWrite _ _ _ with ⟨st, r⟩
      cases bitAt h 43 <;> rfl
    · exact show run (execPassBegin u s) _ from hpacket hty rfl
    · exact show run (execPassEnd u n s) _ from hpacket hty rfl
  · intro t b₁ t₁ b₂ t₂ w hcol n pid p hatts
    exact ⟨passBegin_of_bad hcol hatts, fun hok hpages =>
      ⟨passBegin_of_bad_pages hcol hatts hok hpages, fun l => passBegin_of_pages hcol hatts hok hpages⟩⟩

/-! ### DRAW (R350 to R353) -/

section
variable {t r : State} {u cyc pipe : ℕ} {j : GfxJob} {p : Pass} {w : List ℕ} {prims : List Prim} {st : Status}
  (hpass : j.pass = some p) (hruns : t.runsOn j.mask j.inst j.pid = true)

section
variable (hpipe : (t.payJob u 23 cyc).dmaNum (gfxAccess j.inst p.pid) p.pipe 64 = (st, pipe, r))
include hpass hruns hpipe

theorem draw_of_failed_pipe (hst : st ≠ .ok) : t.draw u cyc prims j w = r.gfxEnd u st := by
  simp only [State.draw, hpass, hruns, hpipe, hst, ne_eq, not_false_eq_true, Bool.not_true, Bool.false_eq_true, if_true, if_false]

theorem draw_of_flush (hst : st = .ok) (hflush : p.flush = true) : t.draw u cyc prims j w = r.flushPass u j p pipe := by
  simp only [State.draw, hpass, hruns, hpipe, hst, hflush, ne_eq, not_true_eq_false, Bool.not_true, Bool.false_eq_true, if_true, if_false]

theorem draw_of_nothing (hst : st = .ok) (hflush : p.flush = false) (hnone : w.headD 0 % 2 ^ 32 = 0 ∨ bitsOf (w.headD 0) 32 32 = 0) :
    t.draw u cyc prims j w = r.setGfxJob (j.past 5) := by
  have hnone' : (decide (w.headD 0 % 2 ^ 32 = 0) || decide (bitsOf (w.headD 0) 32 32 = 0)) = true := by simpa using hnone
  simp only [State.draw, hpass, hruns, hpipe, hst, hflush, hnone', ne_eq, not_true_eq_false, Bool.not_true, Bool.false_eq_true, if_true,
    if_false]

theorem draw_of_indices (hst : st = .ok) (hflush : p.flush = false) (hcount : w.headD 0 % 2 ^ 32 ≠ 0)
    (hinst : bitsOf (w.headD 0) 32 32 ≠ 0) {x : Status} {ix : List Byte} {q : State}
    (hindex : r.dmaRead (gfxAccess j.inst p.pid) (w.getD 2 0) (indexBytes w) = (x, ix, q)) :
    t.draw u cyc prims j w = if x ≠ .ok then q.gfxEnd u x else q.binAll j p pipe prims := by
  simp only [State.draw, hpass, hruns, hpipe, hst, hflush, hcount, hinst, hindex, ne_eq, not_true_eq_false, decide_false, Bool.or_false,
    Bool.not_true, Bool.false_eq_true, if_false]

end

theorem execDraw_of_fits {s : State} (hjob : s.gfxJob u = some j) (hpass : j.pass = some p)
    (hbins : ∀ q ∈ prims, ∀ b ∈ q.bins, b < p.binCount) :
    execDraw u cyc prims s = s.jobRun u (fun s => s.packet u 5 (fun j _ w s => s.draw u cyc prims j w)) := by
  refine if_neg ?_
  simp only [hjob, hpass, List.any_eq_true, decide_eq_true_eq]
  rintro ⟨q, hq, b, hb, hout⟩
  exact absurd (hbins q hq b hb) (Nat.not_lt.2 hout)

/-! ### PASS_END (R350) -/

section
variable (hstore : (t.payJob u 23 cyc).resolveBins j p false (List.range p.binCount) = (st, r))
include hpass hruns hstore

theorem passEnd_of_failed_store (hst : st ≠ .ok) : t.passEnd u cyc j = r.gfxEnd u st := by
  simp only [State.passEnd, hpass, hruns, hstore, hst, ne_eq, not_false_eq_true, Bool.not_true, Bool.false_eq_true, if_true, if_false]

/-- The graphics of a stream whose pass is over: its threads and its holds are dropped. -/
def State.passOver (s : State) (u : Nat) (j : GfxJob) : State :=
  (s.setGfx { s.gfx with threads := s.gfx.threads.filter (fun t => t.id.uid ≠ u)
                         holds := s.gfx.holds.filter (fun h => h.2 ≠ j.gctx) }).setGfxJob { j.past 2 with pass := none }

omit hpass hruns hstore in
theorem passOver_fab : (r.passOver u j).fab = r.fab := rfl

omit hpass hruns hstore in
theorem passOver_mem : (r.passOver u j).mem = r.mem := rfl

theorem passEnd_of_stored (hst : st = .ok) : t.passEnd u cyc j = (r.passOver u j).wr Reg.GFX_GCTX_PAGES [j.gctx] 0 := by
  simp only [State.passEnd, State.passOver, hpass, hruns, hstore, hst, ne_eq, not_true_eq_false, Bool.not_true, Bool.false_eq_true,
    if_false]

end

end

/-- A word below the clusters' states is left alone by a look at the clusters. -/
theorem rd_syncClusters_before (s : State) {q : Row} {jx : List ℕ} (h : q.key jx < wordKey Reg.GFX_CL_STATE.space Reg.GFX_CL_STATE.base) :
    s.syncClusters.rd q jx = s.rd q jx :=
  rd_foldl (fun s c => rd_wr_before s [c] _ h) _ s

theorem rd_pages_syncClusters (s : State) {n : ℕ} (hn : n < 32) :
    s.syncClusters.rd Reg.GFX_GCTX_PAGES [n] = s.rd Reg.GFX_GCTX_PAGES [n] := by
  refine rd_syncClusters_before s ?_
  have hkey : Reg.GFX_GCTX_PAGES.key [n] = 0x09 * 2 ^ 17 + (2 + (8 * n + 0)) := rfl
  have hend : wordKey Reg.GFX_CL_STATE.space Reg.GFX_CL_STATE.base = 0x09 * 2 ^ 17 + 0x180 := rfl
  omega

theorem syncClusters_fab (s : State) : s.syncClusters.fab = s.fab := by rw [syncClusters_frame]

theorem syncClusters_mem (s : State) : s.syncClusters.mem = s.mem := by rw [syncClusters_frame]

theorem syncClusters_gfx (s : State) : s.syncClusters.gfx = s.gfx := by rw [syncClusters_frame]

/-- What the end of a pass leaves, seen after the run. -/
theorem passOver_ended {r x : State} {u P : ℕ} {j : GfxJob} {o : Host.Outcome State Fault Refusal} (ho : o = .next (x.ended P))
    (hpages : j.gctx < 32 → x.rd Reg.GFX_GCTX_PAGES [j.gctx] = 0) (hmem : x.mem = r.mem) (hgfx : x.gfx = (r.passOver u j).gfx) :
    ∃ y : State, o = .next y ∧ (j.gctx < 32 → y.rd Reg.GFX_GCTX_PAGES [j.gctx] = 0) ∧ y.mem = r.mem
      ∧ (∀ k ∈ y.gfx.threads, k.id.uid ≠ u) ∧ (∀ k ∈ y.gfx.holds, k.2 ≠ j.gctx)
      ∧ y.gfx.jobs = r.gfx.jobs.map (fun k => if k.uid = j.uid then { j.past 2 with pass := none } else k) := by
  refine ⟨_, ho, hpages, hmem, fun k hk => ?_, fun k hk => ?_, congrArg Gfx.jobs hgfx⟩
  · have hk' : k ∈ (r.passOver u j).gfx.threads := hgfx ▸ hk
    simpa using (List.mem_filter.1 hk').2
  · have hk' : k ∈ (r.passOver u j).gfx.holds := hgfx ▸ hk
    simpa using (List.mem_filter.1 hk').2

/-! ### Binning (R351 to R353) -/

section
variable {x y : State} {j : GfxJob} {b : Pass} {st : Status} (hrefs : x.writeRefs j b = (st, y))
include hrefs

theorem binned_of_failed_write (hst : st ≠ .ok) : x.binned j b = y.gfxEnd j.uid st := by
  simp only [State.binned, hrefs, hst, ne_eq, not_false_eq_true, if_true]

theorem binned_of_none_left (hst : st = .ok) (hleft : b.left = []) :
    x.binned j b = (y.wr Reg.GFX_GCTX_PAGES [j.gctx] (ceilDiv b.chunks 256)).setGfxJob
      { j.past 5 with pass := some { b with fresh := [], flush := false } } := by
  simp only [State.binned, hrefs, hst, hleft, List.isEmpty_nil, ne_eq, not_true_eq_false, if_true, if_false]

section
variable (hst : st = .ok) (hleft : b.left ≠ [])
include hst hleft

/-- A shortage in grow mode is told to the instance as a grow fault. -/
theorem binned_of_grow (hmode : y.flag Reg.GFX_GCTX_MODE [j.gctx] = true) : x.binned j b =
    (((y.wr Reg.GFX_GCTX_PAGES [j.gctx] (ceilDiv b.chunks 256)).setGfxJob { j with pass := some { b with fresh := [] } }).wr
      Reg.GFX_GCTX_PEND [j.gctx] 1).send j.inst (y.rd Reg.GFX_GCTX_BIN_VEC [j.gctx]) := by
  have hempty : b.left.isEmpty = false := by simpa using hleft
  have hmode' : (y.wr Reg.GFX_GCTX_PAGES [j.gctx] (ceilDiv b.chunks 256)).flag Reg.GFX_GCTX_MODE [j.gctx] = true := by
    rw [State.flag, rd_wr_beside _ _ _ (by decide)]
    exact hmode
  simp only [State.binned, hrefs, hst, hempty, hmode', rd_wr_beside y (q := Reg.GFX_GCTX_BIN_VEC) (r := Reg.GFX_GCTX_PAGES) [j.gctx] _
    (by decide), ne_eq, not_true_eq_false, Bool.false_eq_true, if_true, if_false]

theorem binned_of_flush (hmode : y.flag Reg.GFX_GCTX_MODE [j.gctx] = false) : x.binned j b =
    (y.wr Reg.GFX_GCTX_PAGES [j.gctx] (ceilDiv b.chunks 256)).setGfxJob { j with pass := some { b with fresh := [], flush := true } } := by
  have hempty : b.left.isEmpty = false := by simpa using hleft
  have hmode' : (y.wr Reg.GFX_GCTX_PAGES [j.gctx] (ceilDiv b.chunks 256)).flag Reg.GFX_GCTX_MODE [j.gctx] = false := by
    rw [State.flag, rd_wr_beside _ _ _ (by decide)]
    exact hmode
  simp only [State.binned, hrefs, hst, hempty, hmode', ne_eq, not_true_eq_false, Bool.false_eq_true, if_false]

end

end

theorem send_rd (s : State) (inst vec : ℕ) (q : Row) (jx : List ℕ) : (s.send inst vec).rd q jx = s.rd q jx := by
  unfold State.send
  split <;> rfl

theorem send_msgs {s : State} {inst vec : ℕ} (h : vec ≠ 0) : (s.send inst vec).msgs = s.msgs ++ [{ inst := inst, vec := vec }] := by
  rw [State.send, if_neg h]

/-- The place that the key of a sample spells. -/
theorem pxKey_place {c d : ℕ} (i k : ℕ) (hc : c < 2 ^ 16) (hd : d < 2 ^ 19) :
    pxKey i k c d % 2 ^ 16 = c ∧ pxKey i k c d / 2 ^ 16 % 2 ^ 19 = d := by
  unfold pxKey
  omega

/-- A flushed bin keeps no sample in tile memory. -/
theorem find_px_flushedTo (p : Pass) {bins : List ℕ} {i k c d : ℕ} (hbin : p.binOf c d ∈ bins) (hc : c < 2 ^ 16) (hd : d < 2 ^ 19) :
    (p.flushedTo bins).px.find? (fun e => e.1 = pxKey i k c d) = none := by
  rw [List.find?_eq_none]
  intro e he hkey
  obtain ⟨_, hout⟩ := List.mem_filter.1 he
  obtain ⟨hx, hy⟩ := pxKey_place i k hc hd
  rw [of_decide_eq_true hkey, hx, hy] at hout
  simp [hbin] at hout

theorem pixel_flushedTo (x : State) (j : GfxJob) (p : Pass) {bins : List ℕ} (i : ℕ) (a : Att) {c d : ℕ} (k : ℕ)
    (hbin : p.binOf c d ∈ bins) (hc : c < 2 ^ 16) (hd : d < 2 ^ 19) :
    x.pixel j (p.flushedTo bins) i a c d k =
      x.dmaNum (gfxAccess j.inst p.pid) (a.at_ a.flushBase p.samples c d k) (fmtBytes a.fmt) := by
  have hflushed : (p.flushedTo bins).flushed.contains ((p.flushedTo bins).binOf c d) = true :=
    List.contains_iff_mem.2 (List.mem_eraseDups.2 (List.mem_append_right _ hbin))
  rw [State.pixel, find_px_flushedTo p hbin hc hd]
  exact if_pos hflushed

/-! ### O48 -/

/-- Settles O48: DRAW and PASS_END by their branches on a resident stream, a pass after binning by what is left, and a
sample of a flushed bin by its place in memory. -/
theorem passesAreBinnedAndStored : Obligations.PassesAreBinnedAndStored := by
  unfold Obligations.PassesAreBinnedAndStored
  refine ⟨?_, ?_, ?_, ?_, fun _ _ _ _ => rfl, fun x j p bins i a c d k hbin hc hd => pixel_flushedTo x j p i a k hbin hc hd, ?_⟩
  · intro s t u cyc h w j p prims P run hjob hfresh hended hup hpend hpass hread hok hruns v
    have hjob' : (s.inRun P).gfxJob u = some j := hjob
    refine ⟨?_, ?_⟩
    · intro hty hbins st pipe r hpipe
      have hplace : packetPlace (h % 256) j.pass.isSome = true := by rw [hty, hpass]; rfl
      have hdraw {x : State} (hx : t.draw u cyc prims j w = x) : run (execDraw u cyc prims s) x := by
        intro hstall
        rw [execDraw_of_fits hjob hpass hbins]
        exact jobRun_of_fresh hfresh ((packet_of_type hjob' hended hup hpend hread hok hplace hty).trans hx) hstall
      exact ⟨fun hst => hdraw (draw_of_failed_pipe hpass hruns hpipe hst),
        fun hst hflush hcount hinst x ix q hindex => hdraw (draw_of_indices hpass hruns hpipe hst hflush hcount hinst hindex),
        fun hst hflush => hdraw (draw_of_flush hpass hruns hpipe hst hflush),
        fun hst hflush hnone => hdraw (draw_of_nothing hpass hruns hpipe hst hflush hnone)⟩
    · intro hty st r hstore
      have hplace : packetPlace (h % 256) j.pass.isSome = true := by rw [hty]; rfl
      have hend {x : State} (hx : t.passEnd u cyc j = x) : run (execPassEnd u cyc s) x :=
        jobRun_of_fresh hfresh ((packet_of_type hjob' hended hup hpend hread hok hplace hty).trans hx)
      refine ⟨fun hst => hend (passEnd_of_failed_store hpass hruns hstore hst), fun hst hstall => ?_⟩
      have hover := hend (passEnd_of_stored hpass hruns hstore hst)
      have hfab : ((r.passOver u j).wr Reg.GFX_GCTX_PAGES [j.gctx] 0).syncClusters.fab = r.fab := by
        rw [syncClusters_fab, wr_fab, passOver_fab]
      exact passOver_ended (hover (by rw [hfab]; exact hstall))
        (fun hn => (rd_pages_syncClusters _ hn).trans (rd_wr_same _ _ _ _ (by decide)))
        (by rw [syncClusters_mem, wr_mem, passOver_mem]) (by rw [syncClusters_gfx, wr_gfx])
  · intro t u cyc j hnone
    simp only [State.passEnd, hnone]
  · intro x j b st y hn hrefs z
    refine ⟨binned_of_failed_write hrefs, binned_of_none_left hrefs, fun hst hleft hmode => ?_, binned_of_flush hrefs⟩
    rw [binned_of_grow hrefs hst hleft hmode, send_rd]
    exact ⟨rd_wr_same _ _ _ _ (by decide), fun hvec => send_msgs hvec⟩
  · intro x y j p b pipe prims st hbin
    rw [State.binAll, hbin]
  · intro x n k hn hpend hfind hfresh r
    have hexec : execBinGrowTimeout n x = x.jobRun k.uid (fun s => s.gfxEnd k.uid .timeout) := by
      simp only [execBinGrowTimeout, Nat.not_le.2 hn, hpend, hfind, Bool.not_true, Bool.false_eq_true, if_false]
    exact fun hstall => hexec.trans (jobRun_of_fresh hfresh rfl hstall)

end Sys2Proof.Machine
end

section
/-! O50: the commands of a display pipe, by what stands in its queue and by its running period. -/

namespace Sys2Proof.Machine

/-! ### A pipe and its words -/

section
variable {s : State} {d : ℕ}

theorem setPipe_frame (s : State) (d : ℕ) (p : Pipe) : s.setPipe d p = { s with words := (s.setPipe d p).words, dsp := tput s.dsp d p } := rfl

@[simp] theorem pipe_setPipe (s : State) (d : ℕ) (p : Pipe) : (s.setPipe d p).pipe d = p := tget_tput_same _ _ _ _

theorem rd_setPipe (s : State) (d : ℕ) (p : Pipe) {q : Row} (hq : q.Beside Reg.DSP_PIPE_QUEUE) (hs : q.Beside Reg.DSP_PIPE_SHOWN) :
    (s.setPipe d p).rd q [d] = s.rd q [d] := by
  simp only [State.setPipe, State.syncPipe, rd_wr_beside _ _ _ hs, rd_wr_beside _ _ _ hq]
  rfl

theorem pipe_latchPipe (s : State) (d : ℕ) : (s.latchPipe d).pipe d = { s.pipe d with set := s.pipeSet d } := pipe_setPipe s d _

/-! ### The decision instant (R380, R385) -/

section
variable (hd : d < 4) (hon : s.pipeOn d = true)

/-- The shown frame of a pipe has been aborted. -/
def State.shownGone (s : State) (d : ℕ) : Bool :=
  match (s.pipe d).shown with
  | some u => (match s.jobOf u with | some j => j.abort | none => false)
  | none => false

theorem shownGone_of_shown {u : ℕ} {j : Job} (hu : (s.pipe d).shown = some u) (hj : s.jobOf u = some j) : s.shownGone d = j.abort := by
  simp only [State.shownGone, hu, hj]

theorem shownGone_of_none_aborted (h : ∀ u j, (s.pipe d).shown = some u → s.jobOf u = some j → j.abort = false) : s.shownGone d = false := by
  unfold State.shownGone
  split
  · next u hu =>
    split
    · next j hj => exact h u j hu hj
    · rfl
  · rfl

include hd hon

omit hd hon in
theorem successor_latchPipe : ((s.latchPipe d).pipe d).successor ((s.latchPipe d).pipe d).shown = (s.pipe d).successor (s.pipe d).shown := by
  rw [pipe_latchPipe]
  rfl

theorem execDisplayDecisionInstant_of_ready {f : Frame} (hf : (s.pipe d).successor (s.pipe d).shown = some f) (hready : f.ready = true) :
    execDisplayDecisionInstant d s =
      .next (((s.latchPipe d).setPipe d (((s.latchPipe d).pipe d).supersede (some f.uid))).slotFree.schedule) := by
  simp only [execDisplayDecisionInstant, Nat.not_le.2 hd, hon, successor_latchPipe, hf, hready, Bool.not_true, Bool.false_eq_true, if_true,
    if_false]

/-- With no complete submission the shown frame stays, unless it has been aborted. -/
theorem execDisplayDecisionInstant_of_none (hnone : (s.pipe d).successor (s.pipe d).shown = none
      ∨ ∃ f, (s.pipe d).successor (s.pipe d).shown = some f ∧ f.ready = false) :
    execDisplayDecisionInstant d s =
      if s.shownGone d then .next (((s.latchPipe d).setPipe d (((s.latchPipe d).pipe d).supersede none)).slotFree.schedule)
      else .next (s.latchPipe d) := by
  have hgone : (s.latchPipe d).shownGone d = s.shownGone d := by
    rw [State.shownGone, pipe_latchPipe]
    rfl
  rw [← hgone]
  rcases hnone with hnone | ⟨f, hf, hready⟩
  · simp only [execDisplayDecisionInstant, Nat.not_le.2 hd, hon, successor_latchPipe, hnone, Bool.not_true, Bool.false_eq_true, if_false]
    rfl
  · simp only [execDisplayDecisionInstant, Nat.not_le.2 hd, hon, successor_latchPipe, hf, hready, Bool.not_true, Bool.false_eq_true,
      if_false]
    rfl

end

/-! ### Periods (R381 to R385) -/

theorem period_newPeriod (s : State) (d : ℕ) : ∃ q, ((s.newPeriod d).pipe d).period = some q ∧ q.band = 0 := by
  unfold State.newPeriod
  simp only [pipe_setPipe]
  exact ⟨_, rfl, rfl⟩

theorem lateSwitch_of_switched {q : Period} (hq : (s.pipe d).period = some q) (hkind : q.kind = 0 ∨ q.kind = 2) (b : ℕ) :
    s.lateSwitch d b = s := by
  have hkind' : (decide (q.kind = 1) || decide (q.kind = 3)) = false := by rcases hkind with h | h <;> simp [h]
  unfold State.lateSwitch
  simp only [hq]
  split
  · next q' f hsome _ =>
    obtain rfl : q = q' := Option.some.inj hsome
    rw [hkind', if_pos (by simp)]
  · rfl

theorem produceBand_of_blank {q : Period} (hq : (s.pipe d).period = some q) (hblank : (s.pipe d).frame q.cur = none) (mid : ℕ)
    (under : List ℕ) : s.produceBand d mid under = s.setPipe d { s.pipe d with
      period := some { q with band := q.band + 1 }
      band := List.replicate (s.rd Reg.DSP_PIPE_HACT [d] * (s.bandLines d q.band).length) (s.pipe d).set.fill } := by
  simp only [State.produceBand, hq, hblank]

theorem pollReady_of_all_ready (h : (s.pipe d).queue.all (fun f => f.ready) = true) : s.pollReady d = s := by
  have hfind : (s.pipe d).queue.find? (fun f => !f.ready) = none := by
    rw [List.find?_eq_none]
    intro f hf
    simp [List.all_eq_true.1 h f hf]
  simp only [State.pollReady, hfind]

/-- A superseded frame that no band of the running period reads is retired. -/
theorem frameRetire_of_idle {u : ℕ} (hold : (s.pipe d).old.any (fun f => f.uid = u) = true)
    (hidle : ∀ q, (s.pipe d).period = some q → q.cur ≠ some u) :
    (let p := s.pipe d
     let busy := match p.period with | some q => q.cur = some u && q.band < s.bandCount d | none => false
     if p.old.any (fun f => f.uid = u) && !busy then s.frameEnd d u .ok else s) = s.frameEnd d u .ok := by
  cases hq : (s.pipe d).period with
  | none => simp only [hold, hq, Bool.not_false, Bool.and_self, if_true]
  | some q => simp only [hold, hq, hidle q hq, decide_false, Bool.false_and, Bool.not_false, Bool.and_self, if_true]

/-! ### The commands of a pipe as attempts -/

section
variable {f : State → State} {t : State} (hd : d < 4) (hfresh : s.fresh (partyPipe d) = true)
include hd hfresh

theorem pipeRun_of_fresh (ht : f (s.inRun (partyPipe d)) = t) (hstall : t.fab.stall = none) :
    s.pipeRun d f = .next (t.ended (partyPipe d)) := by
  rw [State.pipeRun, if_neg (Nat.not_le.2 hd)]
  exact attempt_of_unstopped (partyWaits_of_fresh hfresh) (congrArg go ht) hstall

section
variable (hon : s.pipeOn d = true) {q : Period}
include hon

/-- The status word of a period that has made way for the next. -/
theorem execFrameStatusWrite_of_done (hdone : (s.pipe d).done = some q)
    (hstall : (((s.inRun (partyPipe d)).setPipe d { s.pipe d with done := none }).endPeriod d q).fab.stall = none) :
    execFrameStatusWrite d s = .next ((((s.inRun (partyPipe d)).setPipe d { s.pipe d with done := none }).endPeriod d q).ended (partyPipe d)) := by
  refine pipeRun_of_fresh hd hfresh ?_ hstall
  have hon' : (s.inRun (partyPipe d)).pipeOn d = true := hon
  simp only [hon', show (s.inRun (partyPipe d)).pipe d = s.pipe d from rfl, hdone, Bool.not_true, Bool.false_eq_true, if_false]

/-- The status word of a period whose last band is out. -/
theorem execFrameStatusWrite_of_over (hdone : (s.pipe d).done = none) (hq : (s.pipe d).period = some q) (hband : s.bandCount d ≤ q.band)
    (htold : q.told = false)
    (hstall : (((s.inRun (partyPipe d)).setPipe d { s.pipe d with period := some { q with told := true } }).endPeriod d q).fab.stall = none) :
    execFrameStatusWrite d s = .next
      ((((s.inRun (partyPipe d)).setPipe d { s.pipe d with period := some { q with told := true } }).endPeriod d q).ended (partyPipe d)) := by
  refine pipeRun_of_fresh hd hfresh ?_ hstall
  have hon' : (s.inRun (partyPipe d)).pipeOn d = true := hon
  have hband' : ¬ q.band < (s.inRun (partyPipe d)).bandCount d := Nat.not_lt.2 hband
  simp only [hon', show (s.inRun (partyPipe d)).pipe d = s.pipe d from rfl, hdone, hq, hband', htold, decide_false, Bool.or_false,
    Bool.not_true, Bool.false_eq_true, if_false]

end

section
variable (hon : (s.inRun (partyPipe d)).pipeOn d = true) {mid : ℕ} {under : List ℕ} (hpoll : (s.inRun (partyPipe d)).pollReady d = t)
include hon hpoll

/-- A band of a running period goes on with it. -/
theorem execBandProduction_of_running {q : Period} (hq : (t.pipe d).period = some q) (hband : q.band < t.bandCount d)
    (hstall : (((t.lateSwitch d q.band).dropForce d q.band).produceBand d mid under).schedule.fab.stall = none) :
    execBandProduction d mid under s =
      .next ((((t.lateSwitch d q.band).dropForce d q.band).produceBand d mid under).schedule.ended (partyPipe d)) := by
  refine pipeRun_of_fresh hd hfresh ?_ hstall
  simp only [hon, hpoll, hq, Nat.not_le.2 hband, decide_false, Bool.not_true, Bool.false_eq_true, if_false]

/-- Where no period runs, a new one starts. -/
theorem execBandProduction_of_over (hover : (t.pipe d).period = none ∨ ∃ q, (t.pipe d).period = some q ∧ t.bandCount d ≤ q.band)
    (hstall : ((((t.newPeriod d).lateSwitch d 0).dropForce d 0).produceBand d mid under).schedule.fab.stall = none) :
    execBandProduction d mid under s =
      .next (((((t.newPeriod d).lateSwitch d 0).dropForce d 0).produceBand d mid under).schedule.ended (partyPipe d)) := by
  refine pipeRun_of_fresh hd hfresh ?_ hstall
  obtain ⟨q', hq', hband'⟩ := period_newPeriod t d
  rcases hover with hnone | ⟨q, hq, hband⟩
  · simp only [hon, hpoll, hnone, hq', hband', Bool.not_true, Bool.false_eq_true, if_true, if_false]
  · simp only [hon, hpoll, hq, hq', hband', hband, decide_true, Bool.not_true, Bool.false_eq_true, if_true, if_false]

end

end

/-! ### The safety region (R394) -/

section
variable {q : Period} (hopen : q.crcChecked = false) (hrgn : q.rgn.isSome = true) (hfull : q.rgnSize ≤ q.rgnPix.length)
include hopen hrgn hfull

/-- A complete region that has not been checked is checked. -/
theorem checkRegion_of_complete : s.checkRegion d q =
    if crc32 (q.rgnPix.flatMap (leBytes 4)) = q.rgnCrc then ({ q with crcChecked := true }, s)
    else ({ q with crcChecked := true, crcFail := true }, (((s.incSat Reg.DSP_PIPE_CRC_FAILS [d] 1).raise 8).pipeEvent d)) := by
  have hnone : q.rgn.isNone = false := by simpa using hrgn
  rw [State.checkRegion, hopen, hnone, if_neg (by simpa using hfull)]

end

theorem execRegionCrcCheck_of_done (hd : d < 4) (hon : s.pipeOn d = true) (hcrc : (s.pipe d).set.crc = true) {q : Period}
    (hdone : (s.pipe d).done = some q) :
    execRegionCrcCheck d s = .next ((s.checkRegion d q).2.setPipe d { s.pipe d with done := some (s.checkRegion d q).1 }) := by
  simp only [execRegionCrcCheck, Nat.not_le.2 hd, hon, hcrc, hdone, Bool.not_true, Bool.or_false, Bool.false_eq_true, if_false]

/-- A mismatch counts CRC_FAILS and asserts event 8. -/
theorem regionMismatch (s : State) (d : ℕ) :
    let t := ((s.incSat Reg.DSP_PIPE_CRC_FAILS [d] 1).raise 8).pipeEvent d
    8 ∈ t.saf.lines ∧ t.rd Reg.DSP_PIPE_CRC_FAILS [d] = satTo 16 (s.rd Reg.DSP_PIPE_CRC_FAILS [d] + 1) ∧ t.mem = s.mem := by
  intro t
  have ht : t = { (s.incSat Reg.DSP_PIPE_CRC_FAILS [d] 1).raise 8 with msgs := t.msgs } := send_frame _ _ _
  refine ⟨?_, ?_, ?_⟩
  · rw [ht]
    exact mem_lines_raise.2 (.inl rfl)
  · rw [show t.rd Reg.DSP_PIPE_CRC_FAILS [d] = _ from send_rd _ _ _ _ _, rd_raise]
    exact rd_incSat_same _ _ _ _ (by decide)
  · rw [ht]
    simp [State.incSat]

/-! ### The status word (R395, R397) -/

theorem length_statusWord (q : Period) (n : ℕ) (link stale : Bool) : (statusWord q n link stale).length = 32 := by
  simp only [statusWord, List.length_append, length_leBytes]

/-- The end of a period that is new and without fault changes no counter: the status word is written, and its message sent. -/
theorem endPeriod_of_new {q : Period} (hkind : q.kind = 0) (hunder : q.underflow = false) (hpose : q.poseBad = false) :
    s.endPeriod d q =
      let no := s.rd Reg.DSP_PIPE_VSYNC_NO [d]
      let r := ((s.setPipe d { s.pipe d with stale := 0 }).dmaWrite scanAccess
        (s.rdPair Reg.DSP_PIPE_RING_LO Reg.DSP_PIPE_RING_HI [d] + 32 * (no % 2 ^ s.rd Reg.DSP_PIPE_RING_LOG2 [d]))
        (statusWord q no (s.rd Reg.DSP_PIPE_STATE [d] ≠ 2) false)).2
      if (s.pipe d).set.vsMsg then r.pipeEvent d else r := by
  simp only [State.endPeriod, hkind, hunder, hpose, State.rdPair]
  simp (disch := decide) [rd_setPipe]

/-! ### VSYNC (R371, R373) -/

theorem stampStart_frame (s : State) (u : Option ℕ) (t : ℕ) : s.stampStart u t = { s with cmp := (s.stampStart u t).cmp } := by
  unfold State.stampStart
  split
  · rfl
  · split
    · split <;> rfl
    · rfl

theorem rd_stampStart (s : State) (u : Option ℕ) (t : ℕ) (q : Row) (jx : List ℕ) : (s.stampStart u t).rd q jx = s.rd q jx := by
  rw [stampStart_frame]
  rfl

theorem mem_stampStart (s : State) (u : Option ℕ) (t : ℕ) : (s.stampStart u t).mem = s.mem := by rw [stampStart_frame]

theorem pipe_stampStart (s : State) (u : Option ℕ) (t d : ℕ) : (s.stampStart u t).pipe d = s.pipe d := by
  rw [stampStart_frame]
  rfl

theorem pipe_wr (s : State) (r : Row) (ix : List ℕ) (v d : ℕ) : (s.wr r ix v).pipe d = s.pipe d := rfl

theorem mem_setPipe (s : State) (d : ℕ) (p : Pipe) : (s.setPipe d p).mem = s.mem := rfl

theorem endHolds_mem_dsp (s : State) (d : ℕ) : (s.endHolds d).mem = s.mem ∧ (s.endHolds d).dsp = s.dsp ∧ (s.endHolds d).epoch = s.epoch
    ∧ (s.endHolds d).boot = s.boot := by
  unfold State.endHolds State.epoch
  rw [syncClusters_frame]
  exact ⟨rfl, rfl, rfl, rfl⟩

theorem wordsWithin_endHolds (s : State) (d : ℕ) : wordsWithin s (s.endHolds d) [0x09] := by
  have hgfx (g : Gfx) : wordsWithin s (s.setGfx g) [0x09] := wordsWithin_of_words rfl rfl _
  exact (hgfx _).trans (wordsWithin_syncClusters _)

/-- A field of the pipes is left alone by the end of holds. -/
theorem rd_endHolds (s : State) (d : ℕ) {q : Row} (hd : d < 4) (hq : q.space = 0x0A) (hdims : q.dims = [(32, 4)]) (hbase : q.base < 0x80) :
    (s.endHolds d).rd q [d] = s.rd q [d] := by
  refine (wordsWithin_endHolds s d).rd_eq ?_
  have hkey : q.key [d] = 0x0A * 2 ^ 17 + (q.base + (32 * d + 0)) := by rw [Row.key, hq, hdims]; rfl
  rw [hkey, List.mem_singleton]
  omega

/-- The state of a pipe on whose running period a vsync is stamped. -/
def State.vsyncStamped (s : State) (d : ℕ) (t : ℕ) : State :=
  match (s.pipe d).period with
  | none => s
  | some q => (s.setPipe d { s.pipe d with period := some { q with vsync := t } }).stampStart (if q.kind = 0 then q.cur else none) t

theorem vsyncStamped_spec (s : State) (d t : ℕ) :
    (s.vsyncStamped d t).rd Reg.DSP_PIPE_VSYNC_NO [d] = s.rd Reg.DSP_PIPE_VSYNC_NO [d] ∧ (s.vsyncStamped d t).mem = s.mem
      ∧ ((s.vsyncStamped d t).pipe d).period = (s.pipe d).period.map (fun q => { q with vsync := t }) := by
  unfold State.vsyncStamped
  split
  · next hq => exact ⟨rfl, rfl, by rw [hq]; rfl⟩
  · next q hq =>
    rw [rd_stampStart, mem_stampStart, pipe_stampStart, rd_setPipe _ _ _ (by decide) (by decide), pipe_setPipe, mem_setPipe, hq]
    exact ⟨rfl, rfl, rfl⟩

theorem execVsync_eq (hd : d < 4) (hon : (s.endHolds d).pipeOn d = true) : execVsync d s =
    .next (((s.endHolds d).incWrap Reg.DSP_PIPE_VSYNC_NO [d] 1).vsyncStamped d ((s.endHolds d).incWrap Reg.DSP_PIPE_VSYNC_NO [d] 1).epoch) := by
  rw [execVsync, if_neg (Nat.not_le.2 hd)]
  simp only [hon, Bool.not_true, Bool.false_eq_true, if_false, State.vsyncStamped]
  generalize (s.endHolds d).incWrap Reg.DSP_PIPE_VSYNC_NO [d] 1 = u
  cases (u.pipe d).period <;> rfl

theorem execVsync_counts (hd : d < 4) (hon : s.pipeOn d = true) : ∃ t, execVsync d s = .next t
    ∧ t.rd Reg.DSP_PIPE_VSYNC_NO [d] = (s.rd Reg.DSP_PIPE_VSYNC_NO [d] + 1) % 2 ^ 32 ∧ t.mem = s.mem
    ∧ (t.pipe d).period = (s.pipe d).period.map (fun q => { q with vsync := s.epoch }) := by
  obtain ⟨hmem, hdsp, hepoch, hboot⟩ := endHolds_mem_dsp s d
  have hon' : (s.endHolds d).pipeOn d = true := by
    rw [State.pipeOn, State.flag, rd_endHolds s d hd rfl rfl (by decide), hboot]
    exact hon
  have hcount : ((s.endHolds d).incWrap Reg.DSP_PIPE_VSYNC_NO [d] 1).rd Reg.DSP_PIPE_VSYNC_NO [d]
      = (s.rd Reg.DSP_PIPE_VSYNC_NO [d] + 1) % 2 ^ 32 := by
    rw [State.incWrap, rd_wr_same _ _ _ _ (by decide), rd_endHolds s d hd rfl rfl (by decide)]
    rfl
  have hpipe : ((s.endHolds d).incWrap Reg.DSP_PIPE_VSYNC_NO [d] 1).pipe d = s.pipe d := by
    rw [State.incWrap, pipe_wr, State.pipe, hdsp, State.pipe]
  have hepoch' : ((s.endHolds d).incWrap Reg.DSP_PIPE_VSYNC_NO [d] 1).epoch = s.epoch := by
    rw [State.epoch, State.incWrap, wr_clk]
    exact hepoch
  obtain ⟨hno, hmem', hperiod⟩ := vsyncStamped_spec ((s.endHolds d).incWrap Reg.DSP_PIPE_VSYNC_NO [d] 1) d
    ((s.endHolds d).incWrap Reg.DSP_PIPE_VSYNC_NO [d] 1).epoch
  refine ⟨_, execVsync_eq hd hon', hno.trans hcount, ?_, ?_⟩
  · rw [hmem', State.incWrap, wr_mem, hmem]
  · rw [hperiod, hpipe, hepoch']

/-! ### Links and disable (R374, R398) -/

theorem pipeDisable_spec (s : State) (d : ℕ) : (s.pipeDisable d).rd Reg.DSP_PIPE_STATE [d] = 0 ∧ (s.pipeDisable d).pipe d = {} := by
  unfold State.pipeDisable
  extract_lets p t u
  exact ⟨rd_wr_same _ _ _ _ (by decide), (pipe_wr _ _ _ _ d).trans (pipe_setPipe u d {})⟩

end

/-! ### O50 -/

/-- Settles O50: each command of a pipe by its branch on the pipe's queue and period, the attempts by what they run. -/
theorem displayPipesShowFrames : Obligations.DisplayPipesShowFrames := by
  unfold Obligations.DisplayPipesShowFrames
  intro s d hd hon hfresh p c run l
  have hon' : c.pipeOn d = true := hon
  have hrun {f : State → State} {t : State} (ht : f c = t) : run (s.pipeRun d f) t := pipeRun_of_fresh hd hfresh ht
  refine ⟨pipe_latchPipe s d, fun f => execDisplayDecisionInstant_of_ready hd hon, fun hnone => ?_, fun mid under => ?_,
    fun q b hq hkind => lateSwitch_of_switched hq hkind b, fun q mid under hq hblank => ?_, ?_, pollReady_of_all_ready,
    fun u hu => ?_, fun u hu hidle => ?_, fun q hcrc hdone => execRegionCrcCheck_of_done hd hon hcrc hdone, fun q hopen hrgn hfull => ?_,
    fun q => execFrameStatusWrite_of_done hd hfresh hon,
    fun q => execFrameStatusWrite_of_over hd hfresh hon, length_statusWord, fun q => endPeriod_of_new, execVsync_counts hd hon, fun hstate => ?_, ?_,
    (pipeDisable_spec s d).1, (pipeDisable_spec s d).2⟩
  · have hexec : exec (.displayDecisionInstant d) s = _ := execDisplayDecisionInstant_of_none hd hon hnone
    refine ⟨fun hkept => ?_, fun u j hu hj habort => ?_⟩
    · rw [hexec, shownGone_of_none_aborted hkept]
      rfl
    · rw [hexec, shownGone_of_shown hu hj, habort]
      rfl
  · intro t
    exact ⟨fun q hq hband => execBandProduction_of_running hd hfresh hon' rfl hq hband,
      fun hover => execBandProduction_of_over hd hfresh hon' rfl hover⟩
  · rw [produceBand_of_blank hq hblank, pipe_setPipe]
    exact ⟨rfl, rfl⟩
  · show run (execFrameReadyPoll d s) _
    refine hrun ?_
    simp only [hon', if_true]
  · show run (execFrameReadyTimeout d u s) _
    exact hrun (if_pos hu)
  · show run (execFrameRetire d u s) _
    exact hrun (frameRetire_of_idle hu hidle)
  · refine ⟨fun hcrc => ?_, fun hcrc => ?_⟩ <;> rw [checkRegion_of_complete hopen hrgn hfull]
    · rw [if_pos hcrc]
    · rw [if_neg hcrc]
      exact ⟨rfl, regionMismatch s d⟩
  · show execDisplayLinkDown d s = _
    rw [execDisplayLinkDown, if_neg (Nat.not_le.2 hd), if_pos (by simp [hon, hstate])]
  · show execDisplayLinkTrained d s = _
    rw [execDisplayLinkTrained, if_neg (Nat.not_le.2 hd), if_pos hon]

end Sys2Proof.Machine
end

section
/-! O51: sensor streams, ego steps, epochs and fusion jobs (R400 to R436), a lemma for each command. -/

namespace Sys2Proof.Machine

/-! ### The health of a stream -/

/-- A record, a message and a raised line leave the reads below the Almanac's words as the two writes of the health made them. -/
theorem rd_setHealth (s : State) (n st why : ℕ) {q : Row} {jx : List ℕ} (hq : q.key jx < wordKey Reg.ALM_STAT_LOST.space Reg.ALM_STAT_LOST.base) :
    (s.setHealth n st why).rd q jx = ((s.wr Reg.SNS_STREAM_STATE [n] st).wr Reg.SNS_STREAM_WHY [n] why).rd q jx := by
  unfold State.setHealth
  dsimp only
  split
  · rfl
  · split
    · rw [rd_raise, send_rd, rd_record_before _ _ _ _ hq]
    · rw [send_rd, rd_record_before _ _ _ _ hq]

theorem mem_setHealth (s : State) (n st why : ℕ) : (s.setHealth n st why).mem = s.mem := by
  unfold State.setHealth
  dsimp only
  split
  · rfl
  · split
    · rw [raise_mem, send_frame, record_frame]; rfl
    · rw [send_frame, record_frame]; rfl

theorem key_stream_before {q : Row} (hspace : q.space = 0x0b) (hdims : q.dims = [(16, 128)]) (hbase : q.base < 16) {n : ℕ} (hn : n < 128) :
    q.key [n] < wordKey Reg.ALM_STAT_LOST.space Reg.ALM_STAT_LOST.base := by
  have hkey : q.key [n] = 0x0b * 2 ^ 17 + (q.base + 16 * n) := by
    simp only [Row.key, wordKey, joinOffset, hspace, hdims]; rfl
  have hlost : wordKey Reg.ALM_STAT_LOST.space Reg.ALM_STAT_LOST.base ≥ 0x12 * 2 ^ 17 := by decide
  omega

theorem health_setHealth (s : State) {n st : ℕ} (why : ℕ) (hn : n < 128) (hst : st < 4) : (s.setHealth n st why).health n = st := by
  rw [State.health, rd_setHealth _ _ _ _ (key_stream_before rfl rfl (by decide) hn), rd_wr_beside _ _ _ (by decide),
    rd_wr_same _ _ _ _ (by decide)]
  exact Nat.mod_eq_of_lt hst

theorem why_setHealth (s : State) {n why : ℕ} (st : ℕ) (hn : n < 128) (hwhy : why < 4) :
    (s.setHealth n st why).rd Reg.SNS_STREAM_WHY [n] = why := by
  rw [rd_setHealth _ _ _ _ (key_stream_before rfl rfl (by decide) hn), rd_wr_same _ _ _ _ (by decide)]
  exact Nat.mod_eq_of_lt hwhy

theorem rd_setHealth_beside (s : State) {n : ℕ} (st why : ℕ) (hn : n < 128) {q : Row} (hspace : q.space = 0x0b) (hdims : q.dims = [(16, 128)])
    (hbase : q.base < 16) (hne : q.base ≠ 8) : (s.setHealth n st why).rd q [n] = s.rd q [n] := by
  rw [rd_setHealth _ _ _ _ (key_stream_before hspace hdims hbase hn), rd_wr_beside _ _ _ ⟨hspace, hdims, .inl hne⟩,
    rd_wr_beside _ _ _ ⟨hspace, hdims, .inl hne⟩]

/-- The words of two streams are apart. -/
theorem key_stream_ne {q r : Row} (hq : q.space = 0x0b ∧ q.dims = [(16, 128)] ∧ q.base < 16)
    (hr : r.space = 0x0b ∧ r.dims = [(16, 128)] ∧ r.base < 16) {m n : ℕ} (hmn : m ≠ n) : q.key [m] ≠ r.key [n] := by
  obtain ⟨hqs, hqd, hqb⟩ := hq
  obtain ⟨hrs, hrd, hrb⟩ := hr
  have hqk : q.key [m] = 0x0b * 2 ^ 17 + (q.base + 16 * m) := by
    simp only [Row.key, wordKey, joinOffset, hqs, hqd]; rfl
  have hrk : r.key [n] = 0x0b * 2 ^ 17 + (r.base + 16 * n) := by
    simp only [Row.key, wordKey, joinOffset, hrs, hrd]; rfl
  omega

theorem health_setHealth_ne (s : State) {m n : ℕ} (st why : ℕ) (hm : m < 128) (hmn : m ≠ n) :
    (s.setHealth n st why).health m = s.health m := by
  rw [State.health, rd_setHealth _ _ _ _ (key_stream_before rfl rfl (by decide) hm), rd_wr_ne _ _ _ _ _ _ (key_stream_ne (by decide) (by decide) hmn),
    rd_wr_ne _ _ _ _ _ _ (key_stream_ne (by decide) (by decide) hmn)]
  rfl

/-! ### What judges a stream -/

theorem execStreamTimeout_spec {s : State} {n : ℕ} (hn : n < 128) (htakes : s.takes n = true) :
    ∃ t, execStreamTimeout n s = .next t ∧ t.rd Reg.SNS_STREAM_TMO [n] = satTo 8 (s.rd Reg.SNS_STREAM_TMO [n] + 1) ∧ t.health n = 3
      ∧ (s.health n ≠ 3 → t.rd Reg.SNS_STREAM_WHY [n] = 1) ∧ (∀ m, m < 128 → m ≠ n → t.health m = s.health m) ∧ t.mem = s.mem := by
  have htmo : (s.incSat Reg.SNS_STREAM_TMO [n] 1).rd Reg.SNS_STREAM_TMO [n] = satTo 8 (s.rd Reg.SNS_STREAM_TMO [n] + 1) :=
    rd_incSat_same s Reg.SNS_STREAM_TMO [n] 1 (by decide)
  have hsame : (s.incSat Reg.SNS_STREAM_TMO [n] 1).health n = s.health n := rd_wr_beside _ _ _ (by decide)
  have hother : ∀ m, m ≠ n → (s.incSat Reg.SNS_STREAM_TMO [n] 1).health m = s.health m := fun m hmn =>
    rd_wr_ne _ _ _ _ _ _ (key_stream_ne (by decide) (by decide) hmn)
  have hexec : execStreamTimeout n s = (if (s.incSat Reg.SNS_STREAM_TMO [n] 1).health n = 3 then go (s.incSat Reg.SNS_STREAM_TMO [n] 1)
      else go (((s.incSat Reg.SNS_STREAM_TMO [n] 1).setStream n { (s.incSat Reg.SNS_STREAM_TMO [n] 1).stream n with good := 0 }).setHealth n 3 1)) := by
    rw [execStreamTimeout, if_neg (by omega), htakes]; rfl
  have hmem : (s.incSat Reg.SNS_STREAM_TMO [n] 1).mem = s.mem := rfl
  generalize s.incSat Reg.SNS_STREAM_TMO [n] 1 = t at *
  by_cases hmasked : t.health n = 3
  · exact ⟨t, hexec.trans (if_pos hmasked), htmo, hmasked, fun h => absurd (hsame ▸ hmasked) h, fun m _ => hother m, hmem⟩
  · refine ⟨_, hexec.trans (if_neg hmasked), ?_, health_setHealth _ _ hn (by decide), fun _ => why_setHealth _ _ hn (by decide), ?_, ?_⟩
    · rw [rd_setHealth_beside _ _ _ hn rfl rfl (by decide) (by decide)]
      exact htmo
    · exact fun m hm hmn => (health_setHealth_ne _ _ _ hm hmn).trans (hother m hmn)
    · rw [mem_setHealth]
      exact hmem

/-- The `ERR_N`-th faulty sample in a row masks the stream with `WHY` 2 (R410). -/
theorem judgeSample_of_faulty {s : State} {n : ℕ} (hn : n < 128) (hhealthy : s.health n ≠ 3) (hset : s.rd Reg.SNS_STREAM_ERR_N [n] ≠ 0)
    (hbad : s.rd Reg.SNS_STREAM_ERR_N [n] ≤ (s.stream n).bad + 1) :
    (s.judgeSample n true).health n = 3 ∧ (s.judgeSample n true).rd Reg.SNS_STREAM_WHY [n] = 2 := by
  have hjudge : s.judgeSample n true = (s.setStream n { s.stream n with bad := (s.stream n).bad + 1, good := 0 }).setHealth n 3 2 := by
    refine (if_neg hhealthy).trans (if_pos ?_)
    exact Bool.and_eq_true_iff.2 ⟨decide_eq_true hset, decide_eq_true hbad⟩
  rw [hjudge]
  exact ⟨health_setHealth _ _ hn (by decide), why_setHealth _ _ hn (by decide)⟩

/-- The `UNMASK_N`-th correct sample in a row makes a masked stream that no lie masked healthy again (R410). -/
theorem judgeSample_of_correct {s : State} {n : ℕ} (hn : n < 128) (hmasked : s.health n = 3) (hwhy : s.rd Reg.SNS_STREAM_WHY [n] ≠ 3)
    (hgood : max 1 (s.rd Reg.SNS_STREAM_UNMASK_N [n]) ≤ (s.stream n).good + 1) : (s.judgeSample n false).health n = 1 := by
  have hjudge : s.judgeSample n false = (s.setStream n { s.stream n with bad := 0, good := (s.stream n).good + 1 }).setHealth n 1 0 := by
    refine (if_pos hmasked).trans (if_pos ?_)
    exact Bool.and_eq_true_iff.2 ⟨decide_eq_true hwhy, decide_eq_true hgood⟩
  rw [hjudge]
  exact health_setHealth _ _ hn (by decide)

theorem streamLie_spec {s : State} {n : ℕ} (hn : n < 128) (hon : s.flag Reg.SNS_STREAM_ENABLE [n] = true) :
    (s.streamLie n).health n = 3 ∧ (s.streamLie n).rd Reg.SNS_STREAM_WHY [n] = 3 := by
  have hon' : (s.wr Reg.SNS_STREAM_LIE [n] 0).flag Reg.SNS_STREAM_ENABLE [n] = true := by
    rw [State.flag, rd_wr_beside _ _ _ (by decide)]
    exact hon
  have hlie : s.streamLie n = (s.wr Reg.SNS_STREAM_LIE [n] 0).setHealth n 3 3 := if_pos hon'
  rw [hlie]
  exact ⟨health_setHealth _ _ hn (by decide), why_setHealth _ _ hn (by decide)⟩

theorem streamClr_of_lie {s : State} {n : ℕ} (hn : n < 128) (hmasked : s.health n = 3) (hwhy : s.rd Reg.SNS_STREAM_WHY [n] = 3) :
    (s.streamClr n).health n = 1 := by
  have hmasked' : (s.wr Reg.SNS_STREAM_CLR [n] 0).health n = 3 := (rd_wr_beside _ _ _ (by decide)).trans hmasked
  have hwhy' : (s.wr Reg.SNS_STREAM_CLR [n] 0).rd Reg.SNS_STREAM_WHY [n] = 3 := (rd_wr_beside _ _ _ (by decide)).trans hwhy
  have hclr : s.streamClr n = ((s.wr Reg.SNS_STREAM_CLR [n] 0).setStream n { (s.wr Reg.SNS_STREAM_CLR [n] 0).stream n with lies := 0 }).setHealth n 1 0 :=
    if_pos (Bool.and_eq_true_iff.2 ⟨decide_eq_true hmasked', decide_eq_true hwhy'⟩)
  rw [hclr]
  exact health_setHealth _ _ hn (by decide)

/-! ### Samples -/

theorem execSampleArrival_taken {s : State} {n : ℕ} (a : Sample) (hn : n < 128) (htakes : s.takes n = true) (hmoves : s.portMoves n = false) :
    execSampleArrival n a s = s.attempt (partyStream n) none (fun s => go (s.arrive n a)) := by
  rw [execSampleArrival, if_neg (by omega), htakes, hmoves]; rfl

theorem execSampleArrival_moving {s : State} {n : ℕ} (a : Sample) (htakes : s.takes n = true) (hmoves : s.portMoves n = true) :
    execSampleArrival n a s = .next s := by
  have hn : n < 128 := by
    simp only [State.takes, Bool.and_eq_true, decide_eq_true_eq] at htakes
    exact htakes.1.1
  rw [execSampleArrival, if_neg (by omega), htakes, hmoves]; rfl

/-- Packets of another virtual channel or data type are not taken (R400). -/
theorem csiTaken_eq_nil {s : State} {n : ℕ} {a : Sample}
    (hother : ∀ q ∈ a.packets, q.vc ≠ s.rd Reg.SNS_STREAM_VC [n] ∨ q.dt ≠ bitsOf (s.rd Reg.SNS_STREAM_PARSE0 [n]) 0 6) : s.csiTaken n a = [] := by
  refine List.filter_eq_nil_iff.2 fun q hq htaken => ?_
  simp only [Bool.and_eq_true, decide_eq_true_eq] at htaken
  exact (hother q hq).elim (absurd htaken.1.1) (absurd htaken.1.2)

theorem payload_of_none_taken {s : State} {n : ℕ} {a : Sample} (hcam : s.isCamera n = true) (hnil : s.csiTaken n a = []) :
    s.payload n a = [] ∧ s.integrityFaults n a = a.lost := by
  constructor
  · rw [State.payload, if_pos hcam, hnil]; rfl
  · rw [State.integrityFaults, if_pos hcam, hnil]; rfl

/-! ### Poses and epochs -/

theorem poseQuery_newest {s : State} {k : Kept} {ks : List Kept} (hhist : s.sxt.ego.hist = k :: ks) (hq : k.q ≠ 0) :
    s.poseQuery k.time = some k := by
  rw [State.poseQuery, hhist]
  cases ks with
  | nil => simp [poseIn, hq]
  | cons a rest => simp [poseIn, hq]

theorem q_egoStep (p : Kept) (bias track : ℕ) (e : EgoIn) :
    (egoStep p bias track e).q = (if e.imu.isSome then 2 else 0) + (if e.wheels.isSome then 1 else 0) := by
  obtain ⟨imu, wheels⟩ := e
  cases imu with
  | none => cases wheels <;> rfl
  | some g => cases wheels <;> rfl

theorem freePoints_frame (s : State) : s.freePoints = { s with sxt := s.freePoints.sxt } := by
  unfold State.freePoints
  split <;> rfl

theorem opened_freePoints (s : State) : s.freePoints.sxt.opened = s.sxt.opened := by
  unfold State.freePoints
  split <;> rfl

theorem rd_freePoints (s : State) (q : Row) (jx : List ℕ) : s.freePoints.rd q jx = s.rd q jx := by
  rw [freePoints_frame]; rfl

section
variable (b : State) (x : Sxt) (e : OpenEpoch) (n : ℕ)

theorem opened_closed : ((b.setSxt x).freePoints.wr Reg.SXT_STAT_OPEN [] n).sxt.opened = x.opened :=
  opened_freePoints (b.setSxt x)

theorem rd_epochNo_closed :
    ((b.setSxt x).freePoints.wr Reg.SXT_STAT_OPEN [] n).rd Reg.SXT_STAT_EPOCH_NO [] = b.rd Reg.SXT_STAT_EPOCH_NO [] := by
  rw [rd_wr_beside _ _ _ (by decide), rd_freePoints]
  rfl

/-- The counts of a release leave `EPOCH_NO` as the release wrote it. -/
theorem rd_epochNo_counted : (if e.forced then (b.wr Reg.SXT_STAT_EPOCH_NO [] e.no).incSat Reg.SXT_STAT_FORCED [] 1
    else b.wr Reg.SXT_STAT_EPOCH_NO [] e.no).rd Reg.SXT_STAT_EPOCH_NO [] = e.no % 2 ^ 32 := by
  split
  · rw [State.incSat, rd_wr_beside _ _ _ (by decide)]
    exact rd_wr_same _ _ _ _ (by decide)
  · exact rd_wr_same _ _ _ _ (by decide)

end

theorem release_spec (s : State) (e : OpenEpoch) :
    (s.release e).rd Reg.SXT_STAT_EPOCH_NO [] = e.no % 2 ^ 32 ∧ ∀ x ∈ (s.release e).sxt.opened, x.no ≠ e.no := by
  unfold State.release
  extract_lets
  constructor
  · exact (rd_epochNo_closed _ _ _).trans (rd_epochNo_counted _ e)
  · intro x hx
    rw [opened_closed] at hx
    exact of_decide_eq_true (List.mem_filter.1 hx).2

/-! ### The Sextant's commands -/

section
variable {s : State}

theorem execBiasUpdate_spec (hup : s.snsUp = true) :
    ∃ t, execBiasUpdate s = .next t ∧ t.sxt.ego.gz = [] ∧ t.sxt.ego.still = true
      ∧ (s.sxt.ego.still = false → t.sxt.ego.bias = s.sxt.ego.bias)
      ∧ (s.sxt.ego.still = true → s.sxt.ego.gz ≠ [] →
          t.sxt.ego.bias = ((sumAny (s.sxt.ego.gz.map fp32.decode)).div32 (flNat s.sxt.ego.gz.length)).bits32)
      ∧ t = { s with sxt := { s.sxt with ego := t.sxt.ego } } := by
  have hexec : execBiasUpdate s = go (s.setSxt { s.sxt with ego := { s.sxt.ego with
      bias := if s.sxt.ego.still && !s.sxt.ego.gz.isEmpty then ((sumAny (s.sxt.ego.gz.map fp32.decode)).div32 (flNat s.sxt.ego.gz.length)).bits32
        else s.sxt.ego.bias
      gz := [], still := true } }) := by
    rw [execBiasUpdate, hup]; rfl
  refine ⟨_, hexec, rfl, rfl, fun hmoved => if_neg ?_, fun hstill hgz => if_pos ?_, rfl⟩
  · simp [hmoved]
  · simp [hstill, hgz]

variable (hup : s.snsUp = true) (hfresh : s.fresh partySextant = true)
include hfresh hup

/-- A command of the Sextant that nothing waits for takes its effect on the state of its run. -/
theorem sextantRun_of_fresh {f : State → State} {t : State} (ht : f (s.inRun partySextant) = t) (hstall : t.fab.stall = none) :
    s.sextantRun f = .next (t.ended partySextant) := by
  refine attempt_of_unstopped (partyWaits_of_fresh hfresh) ?_ hstall
  exact congrArg go ((if_pos hup).trans ht)

/-- An ego step: the inputs of the step taken (`b`), the next pose `k` kept (`x`), and its record written (`y`) (R415, R419). -/
theorem execEgoStep_of_fresh {e : EgoIn} {b x y : State} {k : Kept} (he : e = (s.inRun partySextant).egoIn)
    (hb : b = ((s.inRun partySextant).plausible e).feedBias e)
    (hk : k = { egoStep b.sxt.ego.cur b.sxt.ego.bias (fdiv (Fl.ofInt (b.rd Reg.SXT_TRACK_MM [])).bits32 (Fl.ofInt 1000).bits32) e with
      time := b.epoch, tq := b.quality })
    (hx : x = b.setSxt { b.sxt with ego := { b.sxt.ego with cur := k, hist := (k :: b.sxt.ego.hist).take 4096 } })
    (hy : y = (x.dmaWrite sextantAccess x.egoRing k.bytes).2)
    (hstall : ((y.setSxt { y.sxt with ego := { y.sxt.ego with step := b.sxt.ego.step + 1 } }).wr Reg.SXT_STAT_POSE_Q [] k.q).fab.stall = none) :
    execEgoStep s = .next
      (((y.setSxt { y.sxt with ego := { y.sxt.ego with step := b.sxt.ego.step + 1 } }).wr Reg.SXT_STAT_POSE_Q [] k.q).ended partySextant) := by
  unfold execEgoStep
  refine attempt_of_unstopped (partyWaits_of_fresh hfresh) ?_ hstall
  have hup' : (!(s.inRun partySextant).snsUp) = false := (congrArg Bool.not hup).trans rfl
  refine (if_neg (Bool.eq_false_iff.1 hup')).trans ?_
  dsimp only
  have hq : k.q = (egoStep b.sxt.ego.cur b.sxt.ego.bias (fdiv (Fl.ofInt (b.rd Reg.SXT_TRACK_MM [])).bits32 (Fl.ofInt 1000).bits32) e).q := by
    rw [hk]
  rw [← he, ← hb, ← hk, ← hx, ← hy, ← hq]

omit hfresh hup

section
variable {e : OpenEpoch} {rest : List OpenEpoch} (hopen : s.sxt.opened = e :: rest)
include hopen

theorem opened_inRun : (s.inRun partySextant).sxt.opened = e :: rest := hopen

include hup hfresh

theorem execEpochRelease_of_ready (hready : s.epochReady e = true) (hstall : ((s.inRun partySextant).release e).fab.stall = none) :
    execEpochRelease s = .next (((s.inRun partySextant).release e).ended partySextant) := by
  refine sextantRun_of_fresh hup hfresh ?_ hstall
  rw [opened_inRun hopen]
  exact if_pos hready

theorem execEpochRelease_of_waiting (hwait : s.epochReady e = false) : execEpochRelease s = .next s := by
  unfold execEpochRelease State.sextantRun
  refine attempt_of_idle hfresh (congrArg Host.Outcome.next ?_)
  refine (if_pos hup).trans ?_
  dsimp only
  rw [opened_inRun hopen]
  exact if_neg (Bool.eq_false_iff.1 hwait)

theorem execEpochWaitExpiry_of_open (hstall : ((s.inRun partySextant).release e).fab.stall = none) :
    execEpochWaitExpiry s = .next (((s.inRun partySextant).release e).ended partySextant) := by
  refine sextantRun_of_fresh hup hfresh ?_ hstall
  rw [opened_inRun hopen]

end

section
variable {j : FusJob} {rest : List FusJob} {st : Status} {d : ℕ} {t : State} (hjobs : s.sxt.jobs = j :: rest)
  (hdesc : (s.inRun partySextant).dmaNum (fusAccess j.inst) j.desc 64 = (st, d, t))
include hup hfresh hjobs hdesc

/-- What a fusion job makes of its descriptor. -/
theorem execFusionJob_of_desc {r : State}
    (hr : (if st ≠ .ok then t.fusEnd j.uid st else if !fusOk d then t.fusEnd j.uid .denied else t.fusRun j d) = r)
    (hstall : r.fab.stall = none) : execFusionJob s = .next (r.ended partySextant) := by
  refine sextantRun_of_fresh hup hfresh ?_ hstall
  have hjobs' : (s.inRun partySextant).sxt.jobs = j :: rest := hjobs
  rw [hjobs']
  dsimp only
  rw [hdesc]
  exact hr

end
end

theorem fusRun_of_stale {t : State} {j : FusJob} {d : ℕ} {b : List Byte} {r : State}
    (hread : t.dmaRead (fusAccess j.inst) (bitsOf d 128 64) (64 + 65536) = (.ok, b, r)) (hkeep : bitAt d 44 = false)
    (hstale : bitsOf d 0 32 ≤ bitsOf (ofLeBytes (b.take 64)) 64 32) : t.fusRun j d = r.fusEnd j.uid .denied := by
  rw [State.fusRun, hread]
  refine (if_neg (not_not.2 rfl)).trans (if_pos ?_)
  rw [hkeep]
  exact hstale

theorem execFusionEpochTimeout_of_job {s : State} {u : ℕ} (hfresh : s.fresh partySextant = true)
    (hjob : s.sxt.jobs.any (fun j => j.uid = u) = true) (hstall : ((s.inRun partySextant).fusEnd u .timeout).fab.stall = none) :
    execFusionEpochTimeout u s = .next (((s.inRun partySextant).fusEnd u .timeout).ended partySextant) :=
  attempt_of_unstopped (partyWaits_of_fresh hfresh) (if_pos hjob) hstall

/-- Settles O51, command by command: each clause is what the command's own lemma says. -/
theorem sensorsAndSextant : Obligations.SensorsAndSextant := by
  unfold Obligations.SensorsAndSextant
  intro s P c run
  refine ⟨fun n a hn htakes hmoves hfresh hstall => ?_, fun n a htakes hmoves => execSampleArrival_moving a htakes hmoves,
    fun n a hcam hother => payload_of_none_taken hcam (csiTaken_eq_nil hother), fun n hn htakes => execStreamTimeout_spec hn htakes,
    fun n hn => judgeSample_of_faulty hn, fun n hn => judgeSample_of_correct hn, fun n hn => streamLie_spec hn,
    fun n hn => streamClr_of_lie hn, fun _ _ _ => rfl, fun k ks => poseQuery_newest, release_spec s, execBiasUpdate_spec,
    fun hup hfresh => ⟨?_, fun e rest hopen => ⟨fun hready hstall => execEpochRelease_of_ready hup hfresh hopen hready hstall,
      execEpochRelease_of_waiting hup hfresh hopen, fun hstall => execEpochWaitExpiry_of_open hup hfresh hopen hstall⟩,
      fun j rest st d t hjobs hdesc => ⟨fun hst hstall => ?_, fun hst hbad hstall => ?_, fun hst hgood hstall => ?_, fun b r => fusRun_of_stale⟩⟩,
    fun u hfresh hjob hstall => execFusionEpochTimeout_of_job hfresh hjob hstall⟩
  · show execSampleArrival n a s = _
    rw [execSampleArrival_taken a hn htakes hmoves]
    exact attempt_of_unstopped (partyWaits_of_fresh hfresh) rfl hstall
  · intro e b o k x y
    refine ⟨?_, ?_⟩
    · show run P (execEgoStep s) _
      exact execEgoStep_of_fresh hup hfresh rfl rfl rfl rfl rfl
    · show (egoStep _ _ _ _).q = _
      exact q_egoStep _ _ _ _
  · exact execFusionJob_of_desc hup hfresh hjobs hdesc (if_pos hst) hstall
  · exact execFusionJob_of_desc hup hfresh hjobs hdesc ((if_neg (not_not.2 hst)).trans (if_pos (by rw [hbad]; rfl))) hstall
  · exact execFusionJob_of_desc hup hfresh hjobs hdesc ((if_neg (not_not.2 hst)).trans (if_neg (by rw [hgood]; decide))) hstall

end Sys2Proof.Machine
end

section
/-! O52 and O53: the entries of a transmit job, and what the networks receive, a lemma for each command. -/

namespace Sys2Proof.Machine

/-! ### The next entry of a transmit job (R443) -/

section
variable {s : State} {u : ℕ} {j : NetJob} (hj : s.netJob u = some j) (hfresh : s.fresh (partyNet j.xd) = true)
include hj hfresh

theorem tryEntry_of_fresh {f : NextEntry × State → State} {r : State} (hr : f ((s.inRun (partyNet j.xd)).nextEntry u) = r)
    (hstall : r.fab.stall = none) : s.tryEntry u f = .next (r.ended (partyNet j.xd)) := by
  rw [State.tryEntry, hj]
  exact attempt_of_unstopped (partyWaits_of_fresh hfresh) (congrArg go hr) hstall

/-- An entry that cannot be read ends with the status of the read. -/
theorem txEthernet_of_unread {st : Status} {t : State} (hread : (s.inRun (partyNet j.xd)).nextEntry u = (.failed j st, t))
    (hstall : (t.endEntry j ⟨j.next, 0⟩ st 0).fab.stall = none) :
    execTxEthernet u s = .next ((t.endEntry j ⟨j.next, 0⟩ st 0).ended (partyNet j.xd)) :=
  tryEntry_of_fresh hj hfresh (by rw [hread]) hstall

section
variable {g : Job} {x : TxEntry} {t r : State} (hread : (s.inRun (partyNet j.xd)).nextEntry u = (.entry j g x, t)) (hstall : r.fab.stall = none)
include hread hstall

theorem txEthernet_of_entry (hr : (if x.kind = 2 || x.kind = 3 || x.kind = 4 then t else t.txEther j g x) = r) :
    execTxEthernet u s = .next (r.ended (partyNet j.xd)) := tryEntry_of_fresh hj hfresh (by rw [hread]; exact hr) hstall

theorem txCan_of_entry (hr : (if x.kind = 2 then t.txCan j g x else t) = r) :
    execTxCan (.entry u) s = .next (r.ended (partyNet j.xd)) := by
  dsimp only [execTxCan]
  exact tryEntry_of_fresh hj hfresh (by rw [hread]; exact hr) hstall

theorem txLin_of_entry (hr : (if x.kind = 3 then t.txLin j g x else t) = r) :
    execTxLin u s = .next (r.ended (partyNet j.xd)) := tryEntry_of_fresh hj hfresh (by rw [hread]; exact hr) hstall

theorem txDiagnosticMessage_of_entry (hr : (if x.kind = 4 then t.txDiag j g x else t) = r) :
    execTxDiagnosticMessage u s = .next (r.ended (partyNet j.xd)) := tryEntry_of_fresh hj hfresh (by rw [hread]; exact hr) hstall

end

/-- The command of an entry's `KIND` takes it, and the commands of the other kinds leave it. -/
theorem commands_of_entry {g : Job} {x : TxEntry} {t : State} (hread : (s.inRun (partyNet j.xd)).nextEntry u = (.entry j g x, t)) :
    (x.kind = 1 → (t.txEther j g x).fab.stall = none → execTxEthernet u s = .next ((t.txEther j g x).ended (partyNet j.xd)))
    ∧ (x.kind = 2 → (t.txCan j g x).fab.stall = none → execTxCan (.entry u) s = .next ((t.txCan j g x).ended (partyNet j.xd)))
    ∧ (x.kind = 3 → (t.txLin j g x).fab.stall = none → execTxLin u s = .next ((t.txLin j g x).ended (partyNet j.xd)))
    ∧ (x.kind = 4 → (t.txDiag j g x).fab.stall = none → execTxDiagnosticMessage u s = .next ((t.txDiag j g x).ended (partyNet j.xd)))
    ∧ (x.kind ≠ 2 → t.fab.stall = none → execTxCan (.entry u) s = .next (t.ended (partyNet j.xd)))
    ∧ (x.kind ≠ 3 → t.fab.stall = none → execTxLin u s = .next (t.ended (partyNet j.xd)))
    ∧ (x.kind ≠ 4 → t.fab.stall = none → execTxDiagnosticMessage u s = .next (t.ended (partyNet j.xd))) :=
  ⟨fun hk hstall => txEthernet_of_entry hj hfresh hread hstall (by rw [hk]; rfl),
    fun hk hstall => txCan_of_entry hj hfresh hread hstall (if_pos hk), fun hk hstall => txLin_of_entry hj hfresh hread hstall (if_pos hk),
    fun hk hstall => txDiagnosticMessage_of_entry hj hfresh hread hstall (if_pos hk),
    fun hk hstall => txCan_of_entry hj hfresh hread hstall (if_neg hk), fun hk hstall => txLin_of_entry hj hfresh hread hstall (if_neg hk),
    fun hk hstall => txDiagnosticMessage_of_entry hj hfresh hread hstall (if_neg hk)⟩

end

/-! ### The checks of an entry -/

section
variable {t : State} {j : NetJob} {g : Job} {x : TxEntry}

theorem denied_of_malformed (hbad : x.ok = false) :
    t.txEther j g x = t.endEntry j x .denied 0 ∧ t.txCan j g x = t.endEntry j x .denied 0 ∧ t.txLin j g x = t.endEntry j x .denied 0
      ∧ t.txDiag j g x = t.endEntry j x .denied 0 := by
  have hbad' : (!x.ok) = true := by rw [hbad]; rfl
  exact ⟨if_pos hbad', if_pos hbad', if_pos hbad', if_pos hbad'⟩

theorem not_malformed (hok : x.ok = true) : ¬ (!x.ok) = true := by rw [hok]; decide

theorem entryOwner_of_foreign {cls : ℕ} (hstep : t.rd Reg.ENC_OWN_STEP [ownIndex cls j.xd x.port] = 0)
    (howner : t.rd Reg.ENC_OWN_OWNER [ownIndex cls j.xd x.port] ≠ g.inst) : t.entryOwner cls j g x = .denied :=
  (if_neg (not_not.2 hstep)).trans (if_pos howner)

theorem entryOwner_of_step {cls : ℕ} (hstep : t.rd Reg.ENC_OWN_STEP [ownIndex cls j.xd x.port] ≠ 0) : t.entryOwner cls j g x = .aborted :=
  if_pos hstep

variable (hok : x.ok = true)
include hok

theorem txEther_of_foreign (howner : t.entryOwner 0 j g x = .denied) : t.txEther j g x = t.endEntry j x .denied 0 := by
  rw [State.txEther, if_neg (not_malformed hok), howner]

theorem txCan_of_moving (howner : t.entryOwner 1 j g x = .aborted) : t.txCan j g x = t.endEntry j x .aborted 0 := by
  rw [State.txCan, if_neg (not_malformed hok), howner]

section
variable {b : List Byte} {r : State} (hread : t.dmaRead (netAccess g.inst j.xd) x.addr x.len = (.ok, b, r))
include hread

theorem txEther_of_frame (howner : t.entryOwner 0 j g x = .ok) :
    t.txEther j g x = (r.takeEntry j x).enterSwitch j.xd x.port x.tc g.inst (.entry j.uid x.k) b := by
  rw [State.txEther, if_neg (not_malformed hok), howner]
  dsimp only
  rw [hread]
  exact if_neg (not_not.2 rfl)

theorem txLin_of_frame (howner : t.entryOwner 2 j g x = .ok) (hon : r.flag Reg.CAN_LIN_EN [j.xd, x.port] = true)
    (hmode : r.rd Reg.CAN_LIN_MODE [j.xd, x.port] ≠ 0) :
    t.txLin j g x = (r.onWire 2 (8 * j.xd + x.port) b).endEntry j x .ok r.epoch := by
  rw [State.txLin, if_neg (not_malformed hok), howner]
  dsimp only
  rw [hread]
  exact (if_neg (not_not.2 rfl)).trans (if_neg (by simp [hon, hmode]))

end
end

/-! ### The island's frames and the end of a job -/

theorem txCan_of_island {s : State} {c : ℕ} {f : CanFrame} (hc : c < 4) (hrun : s.saf.islandRun = true) (hfits : s.canFits 0 c f = true) :
    execTxCan (.island c f) s = .next (s.canOffer 0 c .island f).2 := by
  refine (if_neg (by omega)).trans (if_pos ?_)
  rw [hrun, hfits]; rfl

theorem canOffer_of_blocked {s : State} {c : ℕ} {f : CanFrame} (hblock : s.aasBlocks 0 c .island f = true) :
    (s.canOffer 0 c .island f).2 = s.incSat Reg.NET_AAS_ISL_BLOCK [] 1 := by
  rw [State.canOffer, if_pos hblock, State.countBlock, if_pos rfl]

theorem txJobComplete_of_done {s : State} {u : ℕ} {j : NetJob} (hj : s.netJob u = some j) (hdone : j.count ≤ j.done.length)
    (hfresh : s.fresh (partyJob u) = true) {r : State}
    (hr : r = (((s.inRun (partyJob u)).setNet { (s.inRun (partyJob u)).net with
      jobs := (s.inRun (partyJob u)).net.jobs.filter (fun x => x.uid ≠ u) }).endJob u j.status)) (hstall : r.fab.stall = none) :
    execTxJobComplete u s = .next (r.ended (partyJob u)) := by
  have hj' : (s.inRun (partyJob u)).netJob u = some j := hj
  refine attempt_of_unstopped (partyWaits_of_fresh hfresh) ?_ hstall
  rw [hj']
  exact (if_neg (by omega)).trans (congrArg go hr.symm)

theorem status_of_all_ok {j : NetJob} (hok : ∀ e ∈ j.done, e.2 = .ok) : j.status = .ok := by
  have hnone : (List.range j.count).findSome? (fun k => (j.done.find? (fun e => e.1 = k && e.2 ≠ .ok)).map (·.2)) = none := by
    refine List.findSome?_eq_none_iff.2 fun k _ => ?_
    rw [Option.map_eq_none_iff, List.find?_eq_none]
    intro e he
    simp [hok e he]
  rw [NetJob.status, hnone]

/-- The lowest-numbered entry that failed gives the job its status (R443). -/
theorem status_of_first_failed {j : NetJob} {k : ℕ} {st : Status} (hk : k < j.count) (hmem : (k, st) ∈ j.done) (hst : st ≠ .ok)
    (huniq : ∀ e ∈ j.done, e.1 = k → e.2 = st) (hlow : ∀ e ∈ j.done, e.1 < k → e.2 = .ok) : j.status = st := by
  have hat : (j.done.find? (fun e => e.1 = k && e.2 ≠ .ok)).map (·.2) = some st := by
    cases hfind : j.done.find? (fun e => e.1 = k && e.2 ≠ .ok) with
    | none =>
      have hnot := List.find?_eq_none.1 hfind _ hmem
      simp [hst] at hnot
    | some e =>
      have hkey := List.find?_some hfind
      simp only [Bool.and_eq_true, decide_eq_true_eq] at hkey
      exact congrArg some (huniq e (List.mem_of_find?_eq_some hfind) hkey.1)
  have hbelow : ∀ k' < k, (j.done.find? (fun e => e.1 = k' && e.2 ≠ .ok)).map (·.2) = none := by
    intro k' hk'
    rw [Option.map_eq_none_iff, List.find?_eq_none]
    intro e he hfound
    simp only [Bool.and_eq_true, decide_eq_true_eq] at hfound
    exact hfound.2 (hlow e he (hfound.1 ▸ hk'))
  have hsplit : List.range j.count = List.range k ++ (List.range (j.count - k)).map (k + ·) := by
    rw [← List.range_add, Nat.add_sub_cancel' hk.le]
  have hfirst : (List.range (j.count - k)).map (k + ·) = k :: (List.range (j.count - k - 1)).map (k + 1 + ·) := by
    obtain ⟨m, hm⟩ : ∃ m, j.count - k = m + 1 := ⟨j.count - k - 1, by omega⟩
    rw [hm, List.range_succ_eq_map]
    simp [Function.comp_def, Nat.add_comm, Nat.add_left_comm]
  have hnone : (List.range k).findSome? (fun k => (j.done.find? (fun e => e.1 = k && e.2 ≠ .ok)).map (·.2)) = none :=
    List.findSome?_eq_none_iff.2 fun k' hk' => hbelow k' (List.mem_range.1 hk')
  have hsome : (List.range j.count).findSome? (fun k => (j.done.find? (fun e => e.1 = k && e.2 ≠ .ok)).map (·.2)) = some st := by
    rw [hsplit, List.findSome?_append, hnone, Option.none_or, hfirst, List.findSome?_cons, hat]
  rw [NetJob.status, hsome]

/-! ### Ports, gates and credits (R448 to R452) -/

section
variable {s : State} {n p : ℕ}

section
variable (hon : s.portOn n p = true)
include hon

theorem synthesiserLock_of_settling (hfresh : s.fresh (partyNet n) = true) (hstate : s.rd Reg.NET_PORT_STATE [n, p] = 1)
    (hstall : (((s.inRun (partyNet n)).wr Reg.NET_PORT_STATE [n, p] 2).portRun n p).fab.stall = none) :
    execSynthesiserLock n p s = .next ((((s.inRun (partyNet n)).wr Reg.NET_PORT_STATE [n, p] 2).portRun n p).ended (partyNet n)) := by
  refine (if_pos ?_).trans (attempt_of_unstopped (partyWaits_of_fresh hfresh) rfl hstall)
  rw [hon, hstate]; rfl

theorem calibrationStart_of_locked (hstate : s.rd Reg.NET_PORT_STATE [n, p] = 2) :
    execSynthesiserCalibrationStart n p s = .next (s.wr Reg.NET_PORT_STATE [n, p] 1) := by
  refine if_pos ?_
  rw [hon, hstate]; rfl

theorem linkDown_of_on : execEthernetLinkDown n p s = .next (s.wr Reg.NET_PORT_STATE [n, p] 0) := if_pos hon

theorem linkRetrained_of_on : execEthernetLinkRetrained n p s = .next (s.wr Reg.NET_PORT_STATE [n, p] 1) := if_pos hon

theorem gateInterval_of_on (hfresh : s.fresh (partyNet n) = true) (gates : ℕ) (slopes : List (ℕ × ℕ)) {r : State}
    (hr : r = ((((s.inRun (partyNet n)).setEthPort (32 * n + p) { (s.inRun (partyNet n)).ethPort (32 * n + p) with gates := gates % 256 }).setSlopes n p
      slopes).portRun n p)) (hstall : r.fab.stall = none) :
    execGateIntervalExpiry n p gates slopes s = .next (r.ended (partyNet n)) :=
  (if_pos hon).trans (attempt_of_unstopped (partyWaits_of_fresh hfresh) (congrArg go hr.symm) hstall)

end

section
variable {tc : ℕ} {e : EthPend} (hwait : s.net.queue.find? (fun x => x.port = 32 * n + p && x.tc = tc) = some e)
  (hfresh : s.fresh (partyNet n) = true)
include hwait

theorem ethDiscard_of_waiting (st : Status) :
    (s.inRun (partyNet n)).ethDiscard n p tc st = some (e, ((s.inRun (partyNet n)).unqueue e).sentBy e.src st 0) :=
  congrArg (Option.map _) hwait

include hfresh

theorem egressAged_of_waiting {r : State}
    (hr : r = (((s.inRun (partyNet n)).unqueue e).sentBy e.src .timeout 0).incSat Reg.NET_CNT_AGED [n, p] 1) (hstall : r.fab.stall = none) :
    execEgressAged n p tc s = .next (r.ended (partyNet n)) := by
  refine attempt_of_unstopped (partyWaits_of_fresh hfresh) ?_ hstall
  rw [ethDiscard_of_waiting hwait]
  exact congrArg go hr.symm

variable (hstate : s.rd Reg.NET_PORT_STATE [n, p] = 1)
include hstate

theorem holdExpiry_of_entry {u k : ℕ} (hsrc : e.src = .entry u k) {r : State}
    (hr : r = ((s.inRun (partyNet n)).unqueue e).entryDone u k .notReady 0) (hstall : r.fab.stall = none) :
    execSynthesiserHoldExpiry n p tc s = .next (r.ended (partyNet n)) := by
  refine (if_neg (not_not.2 hstate)).trans (attempt_of_unstopped (partyWaits_of_fresh hfresh) ?_ hstall)
  rw [ethDiscard_of_waiting hwait, hsrc, hr]
  dsimp only
  rw [hsrc]
  rfl

theorem holdExpiry_of_routed (hsrc : e.src = .main) {r : State}
    (hr : r = ((s.inRun (partyNet n)).unqueue e).incSat Reg.NET_CNT_NOT_READY [n, p] 1) (hstall : r.fab.stall = none) :
    execSynthesiserHoldExpiry n p tc s = .next (r.ended (partyNet n)) := by
  refine (if_neg (not_not.2 hstate)).trans (attempt_of_unstopped (partyWaits_of_fresh hfresh) ?_ hstall)
  rw [ethDiscard_of_waiting hwait, hsrc, hr]
  dsimp only
  rw [hsrc]
  rfl

end

theorem mayLeave_spec {e : EthPend} (hleave : s.mayLeave e = true) :
    bitAt (s.ethPort e.port).gates e.tc = true
      ∧ ∀ k ∈ (s.ethPort e.port).shapers, k.1 = e.tc → 0 ≤ (k.2.settle s.now true).credit := by
  simp only [State.mayLeave, State.shaperAdmits, Bool.and_eq_true, List.all_eq_true, Bool.or_eq_true, decide_eq_true_eq] at hleave
  obtain ⟨⟨-, hgate⟩, hshapers⟩ := hleave
  exact ⟨hgate, fun k hk htc => ((hshapers k hk).resolve_left (not_not.2 htc)).1⟩

end

/-- Settles O52, command by command. -/
theorem transmitJobsSendTheirEntries : Obligations.TransmitJobsSendTheirEntries := by
  unfold Obligations.TransmitJobsSendTheirEntries
  intro s run
  refine ⟨fun u j hj hfresh => ⟨fun st t hread hstall => txEthernet_of_unread hj hfresh hread hstall, fun g x t hread => commands_of_entry hj hfresh hread⟩,
    fun t j g x => ⟨denied_of_malformed, fun hok hstep howner => txEther_of_foreign hok (entryOwner_of_foreign hstep howner),
      fun hok hstep => txCan_of_moving hok (entryOwner_of_step hstep), fun b r hok hread => ⟨txEther_of_frame hok hread, txLin_of_frame hok hread⟩⟩,
    fun c f hc hrun hfits => ⟨txCan_of_island hc hrun hfits, canOffer_of_blocked⟩,
    fun u j hj hdone hfresh => fun hstall => txJobComplete_of_done hj hdone hfresh rfl hstall,
    fun j => status_of_all_ok, fun j k st hk hmem hst huniq => status_of_first_failed hk hmem hst huniq,
    fun n p hon hfresh => ⟨fun hstate hstall => synthesiserLock_of_settling hon hfresh hstate hstall, calibrationStart_of_locked hon, linkDown_of_on hon,
      linkRetrained_of_on hon, fun g l hstall => gateInterval_of_on hon hfresh g l rfl hstall⟩,
    fun n p tc e hwait hfresh => ⟨fun hstall => egressAged_of_waiting hwait hfresh rfl hstall, fun hstate =>
      ⟨fun u k hsrc hstall => holdExpiry_of_entry hwait hfresh hstate hsrc rfl hstall, fun hsrc hstall => holdExpiry_of_routed hwait hfresh hstate hsrc rfl hstall⟩⟩,
    fun x bits mbps now => ⟨min_le_right _ _, rfl, rfl⟩, fun e => mayLeave_spec⟩

/-! ### Frames of a switch port (R446, R475) -/

section
variable {s : State} {n p : ℕ} {b : List Byte} {passed sec : Bool} {dst : List (ℕ × ℕ)}
  (hn : n < 4) (hp : p < 22) (hon : s.portOn n p = true) (hstate : s.rd Reg.NET_PORT_STATE [n, p] ≠ 0)
include hn hp hon hstate

theorem execEthernetRx_on {ok : Bool} : execEthernetRx n p b ok passed sec dst s =
    (if !ok || b.length > 1522 then go (s.incSat Reg.NET_CNT_FCS_DROP [n, p] 1)
    else if b.length < 14 || !passed then go s
    else
      s.attempt (partyNet n) none (fun t =>
        go (((t.learn n p b).egressOf n p b dst).foldl (fun t e =>
          if e.1 = 22 then t.classify n p (wrapTo 64 ((s.epoch : Int) - s.rd Reg.NET_LAT_RX_LAT [n, p]))
            (sec && p < 18 && (List.range 36).any (fun k => 4 ≤ k && s.flag Reg.NET_MSA_VALID [n, 36 * p + k])) b
          else t.ethOffer n e.1 e.2 .main b) (t.learn n p b)))) := by
  have hwf : ¬ (n ≥ 4 || p ≥ 22) = true := by simp [hn, hp]
  have hup : ¬ (!s.portOn n p || s.rd Reg.NET_PORT_STATE [n, p] = 0) = true := by simp [hon, hstate]
  rw [execEthernetRx, if_neg hwf, if_neg hup]

theorem ethernetRx_of_bad {ok : Bool} (hbad : ok = false ∨ 1522 < b.length) :
    execEthernetRx n p b ok passed sec dst s = .next (s.incSat Reg.NET_CNT_FCS_DROP [n, p] 1) := by
  rw [execEthernetRx_on hn hp hon hstate]
  refine if_pos ?_
  simpa using hbad

theorem ethernetRx_of_refused (hlong : b.length ≤ 1522) (hshort : b.length < 14 ∨ passed = false) :
    execEthernetRx n p b true passed sec dst s = .next s := by
  rw [execEthernetRx_on hn hp hon hstate]
  refine (if_neg (by simp; omega)).trans (if_pos ?_)
  simpa using hshort

theorem ethernetRx_admitted (hshort : 14 ≤ b.length) (hlong : b.length ≤ 1522) : execEthernetRx n p b true true sec dst s =
    s.attempt (partyNet n) none (fun t =>
        go (((t.learn n p b).egressOf n p b dst).foldl (fun t e =>
          if e.1 = 22 then t.classify n p (wrapTo 64 ((s.epoch : Int) - s.rd Reg.NET_LAT_RX_LAT [n, p]))
            (sec && p < 18 && (List.range 36).any (fun k => 4 ≤ k && s.flag Reg.NET_MSA_VALID [n, 36 * p + k])) b
          else t.ethOffer n e.1 e.2 .main b) (t.learn n p b))) := by
  rw [execEthernetRx_on hn hp hon hstate]
  exact (if_neg (by simp; omega)).trans (if_neg (by simp; omega))

end

section
variable {s : State} {n p : ℕ} {b : List Byte} {dst : List (ℕ × ℕ)}

theorem mem_of_mem_egressOf {e : ℕ × ℕ} (he : e ∈ s.egressOf n p b dst) : e ∈ dst ∧ e.1 ≠ p ∧ e.1 ≤ 22 := by
  have hl : e ∈ dst.filter (fun e => e.1 ≠ p && e.1 ≤ 22) := by
    unfold State.egressOf at he
    dsimp only at he
    split at he
    · exact (List.mem_filter.1 he).1
    · exact he
  obtain ⟨hdst, hkeep⟩ := List.mem_filter.1 hl
  simp only [Bool.and_eq_true, decide_eq_true_eq] at hkeep
  exact ⟨hdst, hkeep⟩

theorem egressOf_eq_nil (hnone : ∀ e ∈ dst, e.1 = p ∨ 22 < e.1) : s.egressOf n p b dst = [] := by
  refine List.eq_nil_iff_forall_not_mem.2 fun e he => ?_
  obtain ⟨hdst, hne, hle⟩ := mem_of_mem_egressOf he
  exact (hnone e hdst).elim hne (by omega)

/-- Learning an address changes the switch's table alone, so the end of the run gives back the rest. -/
theorem ended_learn_inRun (hfresh : s.fresh (partyNet n) = true) :
    ((s.inRun (partyNet n)).learn n p b).ended (partyNet n) = s.learn n p b := by
  have hended := ended_inRun_of_fresh hfresh
  have hcomm : ∀ t : State, (t.learn n p b).ended (partyNet n) = (t.ended (partyNet n)).learn n p b := by
    intro t
    unfold State.learn
    dsimp only
    split
    · exact (if_pos ‹_›).symm
    · exact (if_neg ‹_›).symm
  rw [hcomm, hended]

theorem stall_learn_inRun : ((s.inRun (partyNet n)).learn n p b).fab.stall = none := by
  unfold State.learn
  dsimp only
  split <;> rfl

end

/-! ### CAN controllers (R454, R465, R466) -/

theorem canKick_frame (s : State) (n c : ℕ) : s.canKick n c = { s with net := (s.canKick n c).net } := by
  unfold State.canKick
  dsimp only
  split
  · rfl
  · split <;> rfl

theorem rd_canKick (s : State) (n c : ℕ) (q : Row) (jx : List ℕ) : (s.canKick n c).rd q jx = s.rd q jx := by
  rw [canKick_frame]; rfl

theorem boot_recvCount (s : State) (n c : ℕ) : (s.recvCount n c).boot = s.boot := by
  unfold State.recvCount
  dsimp only
  split <;> split <;> rfl

theorem boot_loneEnd (s : State) (n c : ℕ) : (s.loneEnd n c).boot = s.boot := by
  unfold State.loneEnd
  split
  · rw [canKick_frame]; rfl
  · rfl

section
variable {s : State} {n k : ℕ}

theorem canFrameRx_on (time : ℕ) (f : CanFrame) (hn : n < 4) (hk : k < 16) (hpow : s.canPowered n k = true)
    (hen : s.flag Reg.CAN_CTL_EN [n, k] = true) (hstate : s.rd Reg.CAN_CTL_STATE [n, k] ≠ 2) : execCanFrameRx n k time f s =
    s.attempt (partyNet n) none (fun t => go (if ((t.recvCount n k).loneEnd n k).boot.mainUp then ((t.recvCount n k).loneEnd n k).routeFrame n k time f
      else (t.recvCount n k).loneEnd n k)) := by
  have hwf : ¬ (n ≥ 4 || k ≥ 24) = true := by simp; omega
  have hup : ¬ (!s.canPowered n k || !s.flag Reg.CAN_CTL_EN [n, k] || s.rd Reg.CAN_CTL_STATE [n, k] = 2) = true := by simp [hpow, hen, hstate]
  rw [execCanFrameRx, if_neg hwf, if_pos hk, if_neg hup]

theorem boot_received : (((s.inRun (partyNet n)).recvCount n k).loneEnd n k).boot = s.boot := by
  rw [boot_loneEnd, boot_recvCount]; rfl

theorem rd_rec_recvCount (hrec : s.rd Reg.CAN_CTL_REC [n, k] ≤ 127) :
    (s.recvCount n k).rd Reg.CAN_CTL_REC [n, k] = s.rd Reg.CAN_CTL_REC [n, k] - 1 := by
  have hdown : (s.wr Reg.CAN_CTL_REC [n, k] (s.rd Reg.CAN_CTL_REC [n, k] - 1)).rd Reg.CAN_CTL_REC [n, k] = s.rd Reg.CAN_CTL_REC [n, k] - 1 := by
    rw [rd_wr_same _ _ _ _ (by decide)]
    refine Nat.mod_eq_of_lt (show _ < 2 ^ 8 from ?_)
    generalize s.rd Reg.CAN_CTL_REC [n, k] = v at *
    omega
  unfold State.recvCount
  dsimp only
  rw [if_neg (show ¬ s.rd Reg.CAN_CTL_REC [n, k] > 127 by omega)]
  generalize s.wr Reg.CAN_CTL_REC [n, k] (s.rd Reg.CAN_CTL_REC [n, k] - 1) = t at *
  split
  · rw [rd_wr_beside _ _ _ (by decide)]
    exact hdown
  · exact hdown

theorem routeFrame_of_unknown {src time : ℕ} {f : CanFrame} (hsrc : src < 16) (hnone : s.routeFor n src f.id = none) :
    s.routeFrame n src time f = if s.flag Reg.CAN_CTL_STRICT [n, src] then s.incSat Reg.NET_IDS_UNKNOWN_ID [n] 1 else s := by
  have hif : (src < 16 && s.flag Reg.CAN_CTL_STRICT [n, src]) = s.flag Reg.CAN_CTL_STRICT [n, src] := by simp [hsrc]
  unfold State.routeFrame
  rw [hnone]
  dsimp only
  rw [hif]

theorem routeFrame_of_policed {src time k : ℕ} {f : CanFrame} {t : State} (hroute : s.routeFor n src f.id = some k)
    (hpol : s.flag Reg.NET_ROUTE_POL_EN [n, k] = true) (htoken : s.police n k = (false, t)) :
    s.routeFrame n src time f = t.incSat Reg.NET_IDS_POLICED [n] 1 := by
  unfold State.routeFrame
  rw [hroute]
  dsimp only
  rw [hpol, htoken]
  rfl

section
variable {p : CanPend} (hsend : (s.can (16 * n + k)).sending = some p) (hfresh : s.fresh (partyNet n) = true)
include hsend hfresh

theorem canTxDone_acked (hstall : ((s.inRun (partyNet n)).acked n k p).fab.stall = none) :
    execCanTxDone n k .acked s = .next (((s.inRun (partyNet n)).acked n k p).ended (partyNet n)) := by
  rw [execCanTxDone, hsend]
  exact attempt_of_unstopped (partyWaits_of_fresh hfresh) rfl hstall

theorem canTxDone_ackError (hstall : ((s.inRun (partyNet n)).ackError n k).fab.stall = none) :
    execCanTxDone n k .ackError s = .next (((s.inRun (partyNet n)).ackError n k).ended (partyNet n)) := by
  rw [execCanTxDone, hsend]
  exact attempt_of_unstopped (partyWaits_of_fresh hfresh) rfl hstall

theorem canTxDone_error {r : State}
    (hr : r = (((s.inRun (partyNet n)).setCan (16 * n + k) { (s.inRun (partyNet n)).can (16 * n + k) with ackRun := 0 }).txError n k).canRetry n k)
    (hstall : r.fab.stall = none) : execCanTxDone n k .error s = .next (r.ended (partyNet n)) := by
  rw [execCanTxDone, hsend]
  exact attempt_of_unstopped (partyWaits_of_fresh hfresh) (congrArg go hr.symm) hstall

end

section
variable {c : ℕ}

theorem satTo_tec {v : ℕ} (hv : v ≤ 255) : satTo 8 v = v := by
  rw [satTo, if_pos (by omega)]

theorem txError_of_active (hv : s.rd Reg.CAN_CTL_TEC [n, c] + 8 ≤ 127) :
    s.txError n c = s.wr Reg.CAN_CTL_TEC [n, c] (s.rd Reg.CAN_CTL_TEC [n, c] + 8) := by
  unfold State.txError
  rw [if_neg (by omega), if_neg (by omega), satTo_tec (by omega)]

theorem txError_of_passive (hlow : 127 < s.rd Reg.CAN_CTL_TEC [n, c] + 8) (hhigh : s.rd Reg.CAN_CTL_TEC [n, c] + 8 ≤ 255) :
    (s.txError n c).rd Reg.CAN_CTL_TEC [n, c] = s.rd Reg.CAN_CTL_TEC [n, c] + 8 ∧ (s.txError n c).rd Reg.CAN_CTL_STATE [n, c] = 1 := by
  have herr : s.txError n c = (s.wr Reg.CAN_CTL_TEC [n, c] (s.rd Reg.CAN_CTL_TEC [n, c] + 8)).wr Reg.CAN_CTL_STATE [n, c] 1 := by
    unfold State.txError
    rw [if_neg (by omega), if_pos hlow, satTo_tec hhigh]
  rw [herr]
  constructor
  · rw [rd_wr_beside _ _ _ (by decide), rd_wr_same _ _ _ _ (by decide)]
    exact Nat.mod_eq_of_lt (by simp only [Reg.CAN_CTL_TEC] at *; omega)
  · exact rd_wr_same _ _ _ _ (by decide)

/-- A frame that a transmit job's entry sends. -/
def CanPend.ofEntry (p : CanPend) : Bool := match p.src with | .entry _ _ => true | _ => false

theorem ofEntry_eq_false {p : CanPend} (h : ∀ u k, p.src ≠ .entry u k) : p.ofEntry = false := by
  unfold CanPend.ofEntry
  split
  · exact absurd ‹_› (h _ _)
  · rfl

theorem rd_setCan (s : State) (k : ℕ) (x : CanCtl) (q : Row) (jx : List ℕ) : (s.setCan k x).rd q jx = s.rd q jx := rfl

theorem txError_above (hv : 255 < s.rd Reg.CAN_CTL_TEC [n, c] + 8) (x : CanCtl) (hx : x = s.can (16 * n + c)) : s.txError n c =
    ((x.sending.toList ++ x.bufs).filter CanPend.ofEntry).foldl (fun s p => s.sentBy p.src .notReady 0)
      (((s.wr Reg.CAN_CTL_TEC [n, c] (satTo 8 (s.rd Reg.CAN_CTL_TEC [n, c] + 8))).wr Reg.CAN_CTL_STATE [n, c] 2).setCan (16 * n + c)
        { x with sending := none, bufs := (x.sending.toList ++ x.bufs).filter (fun p => !p.ofEntry) }) := by
  unfold State.txError
  rw [if_pos hv, hx]
  rfl

/-- Above 255 the controller is bus-off (R466). -/
theorem txError_of_busOff (hv : 255 < s.rd Reg.CAN_CTL_TEC [n, c] + 8)
    (hfree : ∀ p ∈ (s.can (16 * n + c)).sending.toList ++ (s.can (16 * n + c)).bufs, ∀ u k, p.src ≠ .entry u k) :
    (s.txError n c).rd Reg.CAN_CTL_STATE [n, c] = 2 := by
  have hnil : ((s.can (16 * n + c)).sending.toList ++ (s.can (16 * n + c)).bufs).filter CanPend.ofEntry = [] :=
    List.filter_eq_nil_iff.2 fun p hp hentry => by rw [ofEntry_eq_false (hfree p hp)] at hentry; cases hentry
  rw [txError_above hv _ rfl, hnil, List.foldl_nil, rd_setCan, rd_wr_same _ _ _ _ (by decide)]
  rfl

theorem busOffEnd_spec (s : State) (n c : ℕ) : (s.busOffEnd n c).rd Reg.CAN_CTL_STATE [n, c] = 0 ∧ (s.busOffEnd n c).rd Reg.CAN_CTL_TEC [n, c] = 0
    ∧ (s.busOffEnd n c).rd Reg.CAN_CTL_REC [n, c] = 0 ∧ (s.busOffEnd n c).mem = s.mem := by
  unfold State.busOffEnd
  refine ⟨?_, ?_, ?_, ?_⟩
  · rw [rd_canKick, rd_wr_beside _ _ _ (by decide), rd_wr_beside _ _ _ (by decide), rd_wr_same _ _ _ _ (by decide)]; rfl
  · rw [rd_canKick, rd_wr_beside _ _ _ (by decide), rd_wr_same _ _ _ _ (by decide)]; rfl
  · rw [rd_canKick, rd_wr_same _ _ _ _ (by decide)]; rfl
  · rw [canKick_frame]; rfl

theorem busOffRecovery_spec (hn : n < 4) (hc : c < 16) (hoff : s.rd Reg.CAN_CTL_STATE [n, c] = 2) (hauto : s.flag Reg.CAN_CTL_AUTO_BOR [n, c] = true) :
    ∃ t, execBusOffRecovery n c s = .next t ∧ t.rd Reg.CAN_CTL_STATE [n, c] = 0 ∧ t.rd Reg.CAN_CTL_TEC [n, c] = 0 ∧ t.rd Reg.CAN_CTL_REC [n, c] = 0
      ∧ t.mem = s.mem :=
  ⟨_, if_pos (by simp [hn, hc, hoff, hauto]), busOffEnd_spec s n c⟩

end
end

/-! ### Periods, sessions and schedules (R468, R469, R470) -/

section
variable {s : State} {n d : ℕ} (hn : n < s.fuses.variant.xds) (hup : s.boot.mainUp = true)
include hn hup

theorem pduPeriod_of_set (hd : d < 128) (hper : s.rd Reg.NET_PDU_PERIOD_MS [n, d] ≠ 0) : execPduPeriod n d s = .next (s.pduSend n d) :=
  if_pos (by simp [hn, hup, hd, hper])

theorem diagSessionIdle_of_idle (hd : d < 32) (hn4 : n < 4) (hact : s.flag Reg.NET_DIAG_ACTIVE [n, d] = true)
    (hidle : tget 0 s.net.passed (32 * n + d) + s.rd Reg.NET_DIAG_IDLE_S [n, d] * 1000000000 ≤ s.now) :
    ∃ t, execDiagSessionIdle n d s = .next t ∧ t.rd Reg.NET_DIAG_ACTIVE [n, d] = 0 ∧ t.mem = s.mem := by
  refine ⟨_, if_pos (by simp [hn, hup, hd, hact, hidle]), ?_, ?_⟩
  · have hkey : Reg.NET_DIAG_ACTIVE.key [n, d] = 0x0d * 2 ^ 17 + (0x1b001 + (128 * n + 4 * d)) := by
      simp only [Row.key, wordKey, joinOffset, Reg.NET_DIAG_ACTIVE, Nat.add_zero]
    have hlost : wordKey Reg.ALM_STAT_LOST.space Reg.ALM_STAT_LOST.base ≥ 0x12 * 2 ^ 17 := by decide
    rw [rd_record_before _ _ _ _ (by omega), rd_wr_same _ _ _ _ (by decide)]
    rfl
  · rw [record_frame]; rfl

omit hn hup in
theorem diagSessionIdle_of_busy (hbusy : s.now < tget 0 s.net.passed (32 * n + d) + s.rd Reg.NET_DIAG_IDLE_S [n, d] * 1000000000) :
    execDiagSessionIdle n d s = .next s := by
  refine if_neg ?_
  simp only [Bool.and_eq_true, decide_eq_true_eq]
  omega

theorem linScheduleSlot_spec (hd : d < 8) (hen : s.flag Reg.CAN_LIN_EN [n, d] = true) (hmode : s.rd Reg.CAN_LIN_MODE [n, d] = 1) :
    ∃ t b, execLinScheduleSlot n d s = .next t ∧ tget [] t.net.wire (2048 + (8 * n + d)) = [b] ∧ t.mem = s.mem ∧ t.words = s.words :=
  ⟨_, _, if_pos (by simp [hn, hup, hd, hen, hmode]), tget_tput_same _ _ _ _, rfl, rfl⟩

end

/-! ### The change of authority (R476, R478) -/

section
variable {s : State} {cause : ℕ}

theorem execAuthChange_of_move {dusk : Bool} {rest : List (Bool × ℕ)} (hmoves : s.net.moves = (dusk, cause) :: rest) : execAuthChange s =
    (let r := ([0, 1, 2, 3].foldl (State.removeLosers dusk) (s.setNet { s.net with moves := rest })).record 0x41 33
      (leBytes 1 (if dusk then 1 else 0) ++ leBytes 1 cause)
    .next ((0 :: [0, 1, 2, 3].map (fun c => r.rd Reg.ENC_OWN_OWNER [ownIndex 1 0 c])).eraseDups.foldl (fun t i => t.send i (r.rd Reg.NET_AAS_VEC [])) r)) := by
  unfold execAuthChange
  rw [hmoves]

/-- What `DUSK` leaves of the words: `AUTH` 1, `REQ_MAIN` 0, and `TAKEOVERS` one more. -/
theorem rd_duskSet (s : State) : let t := (((s.wr Reg.NET_AAS_REQ_MAIN [] 0).wr Reg.NET_AAS_AUTH [] 1).incSat Reg.SAF_STAT_TAKEOVERS [] 1)
    t.rd Reg.NET_AAS_AUTH [] = 1 ∧ t.rd Reg.NET_AAS_REQ_MAIN [] = 0
      ∧ t.rd Reg.SAF_STAT_TAKEOVERS [] = satTo Reg.SAF_STAT_TAKEOVERS.width (s.rd Reg.SAF_STAT_TAKEOVERS [] + 1) := by
  refine ⟨?_, ?_, ?_⟩
  · rw [State.incSat, rd_wr_ne _ _ _ _ _ _ (by decide), rd_wr_same _ _ _ _ (by decide)]; rfl
  · rw [State.incSat, rd_wr_ne _ _ _ _ _ _ (by decide), rd_wr_beside _ _ _ (by decide), rd_wr_same _ _ _ _ (by decide)]; rfl
  · rw [rd_incSat_same _ _ _ _ (by decide), rd_wr_ne _ _ _ _ _ _ (by decide), rd_wr_ne _ _ _ _ _ _ (by decide)]

theorem incSat_withSaf (t : State) (saf : Saf) (r : Row) (jx : List ℕ) (n : ℕ) :
    State.incSat { t with saf := saf } r jx n = { t.incSat r jx n with saf := saf } := rfl

theorem setAuth_eq (hmain : s.dusk = false) :
    ∃ (saf : Saf) (boot : Boot) (net : Net), net.moves = s.net.moves ++ [(true, cause)] ∧ s.setAuth true cause =
      { (((s.wr Reg.NET_AAS_REQ_MAIN [] 0).wr Reg.NET_AAS_AUTH [] 1).incSat Reg.SAF_STAT_TAKEOVERS [] 1) with saf := saf, boot := boot, net := net } := by
  have hmain' : (s.wr Reg.NET_AAS_REQ_MAIN [] 0).dusk = false := by
    rw [State.dusk, State.flag, rd_wr_beside _ _ _ (by decide)]
    exact hmain
  unfold State.setAuth
  dsimp only
  rw [if_pos rfl, if_neg (by rw [hmain']; decide)]
  rw [if_pos rfl, if_pos rfl, incSat_withSaf]
  have hnet : (((s.wr Reg.NET_AAS_REQ_MAIN [] 0).wr Reg.NET_AAS_AUTH [] (if true then 1 else 0)).incSat Reg.SAF_STAT_TAKEOVERS [] 1).net = s.net := by
    simp only [State.incSat, wr_net]
  rw [if_pos rfl] at hnet ⊢
  generalize ((s.wr Reg.NET_AAS_REQ_MAIN [] 0).wr Reg.NET_AAS_AUTH [] 1).incSat Reg.SAF_STAT_TAKEOVERS [] 1 = t at *
  exact ⟨_, _, { t.net with moves := t.net.moves ++ [(true, cause)] }, congrArg (fun x : Net => x.moves ++ [(true, cause)]) hnet, rfl⟩

theorem rd_with (t : State) (saf : Saf) (boot : Boot) (net : Net) (q : Row) (jx : List ℕ) :
    State.rd { t with saf := saf, boot := boot, net := net } q jx = t.rd q jx :=
  rd_of_word rfl

theorem setAuth_dusk (hmain : s.dusk = false) : (s.setAuth true cause).dusk = true ∧ (s.setAuth true cause).rd Reg.NET_AAS_REQ_MAIN [] = 0
    ∧ (s.setAuth true cause).rd Reg.SAF_STAT_TAKEOVERS [] = satTo Reg.SAF_STAT_TAKEOVERS.width (s.rd Reg.SAF_STAT_TAKEOVERS [] + 1)
    ∧ (s.setAuth true cause).net.moves = s.net.moves ++ [(true, cause)] := by
  obtain ⟨saf, boot, net, hmoves, heq⟩ := setAuth_eq (cause := cause) hmain
  obtain ⟨hauth, hreq, htake⟩ := rd_duskSet s
  rw [heq]
  exact ⟨decide_eq_true ((rd_with _ _ _ _ _ _).trans hauth), (rd_with _ _ _ _ _ _).trans hreq, (rd_with _ _ _ _ _ _).trans htake, hmoves⟩

end

/-- Settles O53, command by command. -/
theorem networksReceiveAndRecover : Obligations.NetworksReceiveAndRecover := by
  unfold Obligations.NetworksReceiveAndRecover
  intro s run
  refine ⟨fun n p b passed sec dst hn hp hon hstate => ⟨fun ok => ethernetRx_of_bad hn hp hon hstate, ethernetRx_of_refused hn hp hon hstate,
      fun hshort hlong hfresh => ⟨fun hnone => ?_, fun hstall => ?_, fun e he => ?_⟩⟩,
    fun n k time f hn hk hpow hen hstate => ⟨fun hfresh => ⟨fun hup hstall => ?_, fun hup hstall => ?_⟩, rd_rec_recvCount⟩,
    fun n src time f _ hsrc => routeFrame_of_unknown hsrc, fun n src time f k hroute hpol htoken => routeFrame_of_policed hroute hpol (Prod.ext htoken rfl),
    fun n k p hsend hfresh => ⟨canTxDone_acked hsend hfresh, canTxDone_ackError hsend hfresh, canTxDone_error hsend hfresh rfl⟩,
    fun n c _ _ => ⟨txError_of_active, txError_of_passive, txError_of_busOff⟩, fun n c => busOffRecovery_spec,
    fun n d hn hup => ⟨pduPeriod_of_set hn hup, fun hd hn4 hact => ⟨diagSessionIdle_of_idle hn hup hd hn4 hact, diagSessionIdle_of_busy⟩,
      linScheduleSlot_spec hn hup⟩,
    fun dusk cause rest => execAuthChange_of_move, fun cause => setAuth_dusk⟩
  · show execEthernetRx n p b true true sec dst s = _
    rw [ethernetRx_admitted hn hp hon hstate hshort hlong, ← ended_learn_inRun hfresh]
    refine attempt_of_unstopped (partyWaits_of_fresh hfresh) ?_ stall_learn_inRun
    rw [egressOf_eq_nil hnone]
    rfl
  · show execEthernetRx n p b true true false dst s = _
    rw [ethernetRx_admitted hn hp hon hstate hshort hlong]
    exact attempt_of_unstopped (partyWaits_of_fresh hfresh) rfl hstall
  · obtain ⟨hdst, hne, -⟩ := mem_of_mem_egressOf he
    exact ⟨hdst, hne⟩
  · show execCanFrameRx n k time f s = _
    rw [canFrameRx_on time f hn hk hpow hen hstate]
    exact attempt_of_unstopped (partyWaits_of_fresh hfresh) (congrArg go (if_pos (by rw [boot_received, hup]))) hstall
  · show execCanFrameRx n k time f s = _
    rw [canFrameRx_on time f hn hk hpow hen hstate]
    exact attempt_of_unstopped (partyWaits_of_fresh hfresh) (congrArg go (if_neg (by rw [boot_received, hup]; decide))) hstall

end Sys2Proof.Machine
end

section
/-! O54: the reference, the quality code and Epoch time. One lemma says what each step of a judgement leaves of the words, and the commands follow. -/

namespace Sys2Proof.Machine

/-! ### The quality code (R490, R492) -/

/-- A read of the clocks' words that a write to `r` leaves alone, and whose word stands before the Almanac's. -/
abbrev Row.Apart (q r : Row) : Prop := q.Beside r ∧ q.key [] < wordKey Reg.ALM_STAT_LOST.space Reg.ALM_STAT_LOST.base

section
variable (s : State) {q : Row}

theorem rd_wr_apart {r : Row} (h : q.Apart r) (v : ℕ) : (s.wr r [] v).rd q [] = s.rd q [] := rd_wr_beside _ _ _ h.1

theorem rd_updateQ (h : q.Apart Reg.CLK_EPOCH_Q) : s.updateQ.rd q [] = s.rd q [] := by
  have hrec : ∀ (v : ℕ) (l : List Byte), ((s.wr Reg.CLK_EPOCH_Q [] v).record 0x61 34 l).rd q [] = s.rd q [] := fun v l => by
    rw [rd_record_before _ _ _ _ h.2, rd_wr_apart s h]
  unfold State.updateQ
  dsimp only
  split
  · rfl
  · split
    · rw [rd_raise, hrec]
    · rw [hrec]

theorem recorded_frame (r : Row) (v code tag : ℕ) (l : List Byte) :
    ∃ words alm, (s.wr r [] v).record code tag l = { s with words := words, alm := alm } := by
  obtain ⟨w, hw⟩ : ∃ w, s.wr r [] v = { s with words := w } := ⟨_, rfl⟩
  rw [hw]
  exact ⟨_, _, record_frame _ _ _ _⟩

theorem raised_frame (e : ℕ) : ∃ saf, s.raise e = { s with saf := saf } := ⟨_, raise_frame s e⟩

/-- The quality code changes words, the Almanac's intake and the lines of the safety events alone. -/
theorem updateQ_frame : ∃ words alm saf, s.updateQ = { s with words := words, alm := alm, saf := saf } := by
  obtain ⟨w, alm, hrec⟩ := recorded_frame s Reg.CLK_EPOCH_Q s.qCode 0x61 34 (leBytes 1 s.quality ++ leBytes 1 s.qCode)
  unfold State.updateQ
  dsimp only
  rw [hrec]
  split
  · exact ⟨s.words, s.alm, s.saf, rfl⟩
  · split
    · obtain ⟨saf, hraise⟩ := raised_frame { s with words := w, alm := alm } 13
      rw [hraise]
      exact ⟨w, alm, saf, rfl⟩
    · exact ⟨w, alm, s.saf, rfl⟩

theorem mem_updateQ : s.updateQ.mem = s.mem := by
  obtain ⟨words, alm, saf, h⟩ := updateQ_frame s
  rw [h]

theorem clk_updateQ : s.updateQ.clk = s.clk := by
  obtain ⟨words, alm, saf, h⟩ := updateQ_frame s
  rw [h]

theorem mem_lines_updateQ {x : ℕ} (hx : x ∈ s.saf.lines) : x ∈ s.updateQ.saf.lines := by
  have hrec : ∀ (v : ℕ) (l : List Byte), ((s.wr Reg.CLK_EPOCH_Q [] v).record 0x61 34 l).saf = s.saf := fun v l => by
    obtain ⟨w, alm, h⟩ := recorded_frame s Reg.CLK_EPOCH_Q v 0x61 34 l
    rw [h]
  unfold State.updateQ
  dsimp only
  split
  · exact hx
  · split
    · rw [mem_lines_raise, hrec]
      exact .inr hx
    · rw [hrec]
      exact hx

theorem qCode_lt : s.qCode < 8 := by
  unfold State.qCode
  dsimp only
  repeat' split
  all_goals decide

theorem quality_updateQ : s.updateQ.quality = s.qCode := by
  have hq : ∀ l : List Byte, ((s.wr Reg.CLK_EPOCH_Q [] s.qCode).record 0x61 34 l).rd Reg.CLK_EPOCH_Q [] = s.qCode := fun l => by
    rw [rd_record_before _ _ _ _ (by decide), rd_wr_same _ _ _ _ (by decide)]
    exact Nat.mod_eq_of_lt (qCode_lt s)
  unfold State.quality State.updateQ
  dsimp only
  split
  · exact Eq.symm ‹_›
  · split
    · rw [rd_raise, hq]
    · rw [hq]

end

/-! ### Epoch time (R490, R493, R500) -/

/-- What a hart's registers do not reach, rearming the timers keeps. -/
theorem rearmTimers_keeps {β : Type} {g : State → β} (hg : ∀ s h x, g (State.setHart s h x) = g s) (s : State) : g s.rearmTimers = g s := by
  unfold State.rearmTimers
  refine foldl_keeps (fun t h => ?_) _ _
  dsimp only
  split
  · exact hg _ _ _
  · rfl

theorem clk_rearmTimers (s : State) : s.rearmTimers.clk = s.clk := rearmTimers_keeps (g := State.clk) (fun _ _ _ => rfl) s

theorem rd_rearmTimers (s : State) (q : Row) (jx : List ℕ) : s.rearmTimers.rd q jx = s.rd q jx :=
  rearmTimers_keeps (g := fun t => t.rd q jx) (fun _ _ _ => rd_of_word rfl) s

section
variable (t : State) (c : Clk) (r : Row) (jx : List ℕ) (v : ℕ)

theorem wr_withClk : State.wr { t with clk := c } r jx v = { t.wr r jx v with clk := c } := rfl

theorem incSat_withClk : State.incSat { t with clk := c } r jx v = { t.incSat r jx v with clk := c } := rfl

theorem rd_withClk : State.rd { t with clk := c } r jx = t.rd r jx := rd_of_word rfl

theorem clk_record (code tag : ℕ) (l : List Byte) : (t.record code tag l).clk = t.clk := by rw [record_frame]

theorem rd_shiftPoses (d : ℤ) : (t.shiftPoses d).rd r jx = t.rd r jx := rd_of_word rfl

end

section
variable (s : State) (tag : ℕ) (d : ℤ)

theorem stepEpoch_eq : s.stepEpoch tag d =
    ((({ (s.incSat Reg.CLK_EPOCH_STEPS [] 1).wr Reg.CLK_EPOCH_LAST_STEP [] (sat32 d) with
      clk := { s.clk with epoch := wrapTo 64 (s.clk.epoch + d), unset := false } } : State).record 0x62 tag (leBytes 8 (wrapTo 64 d))).shiftPoses d).rearmTimers := by
  unfold State.stepEpoch State.nudge
  dsimp only
  rw [incSat_withClk, wr_withClk]

theorem clk_stepEpoch : (s.stepEpoch tag d).clk = { s.clk with epoch := wrapTo 64 (s.clk.epoch + d), unset := false } := by
  rw [stepEpoch_eq, clk_rearmTimers]
  exact clk_record _ _ _ _

theorem rd_stepEpoch {q : Row} (hq : q.key [] < wordKey Reg.ALM_STAT_LOST.space Reg.ALM_STAT_LOST.base) : (s.stepEpoch tag d).rd q [] =
    ((s.incSat Reg.CLK_EPOCH_STEPS [] 1).wr Reg.CLK_EPOCH_LAST_STEP [] (sat32 d)).rd q [] := by
  rw [stepEpoch_eq, rd_rearmTimers, rd_shiftPoses, rd_record_before _ _ _ _ hq, rd_withClk]

theorem sat32_lt : sat32 d < 2 ^ 32 := by
  have hpos : (0 : ℤ) < ((2 ^ 32 : ℕ) : ℤ) := by decide
  have hlt := Int.emod_lt_of_pos (max (-(2 ^ 31 : Int)) (min d (2 ^ 31 - 1))) hpos
  rw [sat32, wrapTo]
  omega

theorem stepEpoch_spec : (s.stepEpoch tag d).clk.epoch = wrapTo 64 (s.clk.epoch + d)
    ∧ (s.stepEpoch tag d).rd Reg.CLK_EPOCH_STEPS [] = satTo 16 (s.rd Reg.CLK_EPOCH_STEPS [] + 1)
    ∧ (s.stepEpoch tag d).rd Reg.CLK_EPOCH_LAST_STEP [] = sat32 d := by
  refine ⟨by rw [clk_stepEpoch], ?_, ?_⟩
  · rw [rd_stepEpoch _ _ _ (by decide), rd_wr_ne _ _ _ _ _ _ (by decide)]
    exact rd_incSat_same _ _ _ _ (by decide)
  · rw [rd_stepEpoch _ _ _ (by decide), rd_wr_same _ _ _ _ (by decide)]
    exact Nat.mod_eq_of_lt (sat32_lt d)

theorem epochGo_spec : (s.epochGo tag).clk.epoch = s.rdPair Reg.CLK_EPOCH_SET_LO Reg.CLK_EPOCH_SET_HI [] ∧ (s.epochGo tag).clk.unset = false := by
  unfold State.epochGo
  rw [clk_updateQ, clk_stepEpoch]
  refine ⟨?_, rfl⟩
  have hlo : s.rd Reg.CLK_EPOCH_SET_LO [] < 2 ^ 32 := rd_lt s _ _
  have hhi : s.rd Reg.CLK_EPOCH_SET_HI [] < 2 ^ 32 := rd_lt s _ _
  have hset : s.rdPair Reg.CLK_EPOCH_SET_LO Reg.CLK_EPOCH_SET_HI [] < 2 ^ 64 := by
    rw [State.rdPair, show Reg.CLK_EPOCH_SET_LO.lo = 0 from rfl]
    omega
  have hsum : (s.clk.epoch : ℤ) + ((s.rdPair Reg.CLK_EPOCH_SET_LO Reg.CLK_EPOCH_SET_HI [] : ℕ) - (s.epoch : ℤ)) =
      s.rdPair Reg.CLK_EPOCH_SET_LO Reg.CLK_EPOCH_SET_HI [] := by
    rw [State.epoch]
    omega
  show wrapTo 64 _ = _
  rw [hsum, wrapTo, ← Int.natCast_mod, Int.toNat_natCast]
  exact Nat.mod_eq_of_lt hset

end

theorem rtcSync_spec (s : State) : s.rtcSync.rtc = s.clk.epoch * 32768 / 1000000000 % 2 ^ 48 ∧ s.rtcSync.rd Reg.CLK_RTC_VALID [] = 1 := by
  unfold State.rtcSync State.wrPair
  constructor
  · have hlt : s.epoch * 32768 / 1000000000 % 2 ^ 48 < 2 ^ 48 := Nat.mod_lt _ (by decide)
    rw [State.rtc, State.rdPair, rd_wr_ne _ _ _ _ _ _ (by decide), rd_wr_ne _ _ _ _ _ _ (by decide), rd_wr_same _ _ _ _ (by decide),
      rd_wr_ne _ _ _ _ _ _ (by decide), rd_wr_same _ _ _ _ (by decide)]
    show _ % 2 ^ 32 * 2 ^ 0 + _ % 2 ^ 16 * 2 ^ 32 = s.epoch * 32768 / 1000000000 % 2 ^ 48
    rw [Nat.shiftRight_eq_div_pow, Nat.shiftRight_eq_div_pow]
    show _ / 2 ^ 0 % 2 ^ 32 * 2 ^ 0 + _ = _
    omega
  · rw [rd_wr_same _ _ _ _ (by decide)]
    rfl

/-! ### gPTP (R455, R490, R493) -/

section
variable {s : State} {off : ℤ} (hrole : s.rd Reg.NET_GPTP_ROLE [] = 2) (hup : s.boot.mainUp = true) {b : State}
  (hb : b = { s.wr Reg.CLK_EPOCH_OFFSET [] (sat32 off) with clk := { s.clk with
    synced := true, fresh := true, held := false, offsets := pushOffset (if s.clk.fresh then s.clk.offsets else []) off.natAbs } })
include hb

theorem rd_synced {q : Row} (hq : q.Beside Reg.CLK_EPOCH_OFFSET) : b.rd q [] = s.rd q [] := by
  rw [hb, rd_withClk, rd_wr_beside _ _ _ hq]

theorem slewLimit_synced : b.slewLimit = s.slewLimit := by
  rw [State.slewLimit, State.slewLimit, rd_synced hb (by decide)]

include hrole hup

theorem gptpSyncRx_of_follower : execGptpSyncRx off s = .next (State.updateQ (if off.natAbs ≤ b.rd Reg.CLK_EPOCH_STEP_NS [] then
    { b.drawn with clk := { b.clk with corr := ((b.freeVal % (2 * b.slewLimit + 1) : ℕ) : ℤ) - (b.slewLimit : ℤ) } } else b.stepEpoch 34 off)) := by
  have hon : ¬ (s.rd Reg.NET_GPTP_ROLE [] ≠ 2 || !s.boot.mainUp) = true := by simp [hrole, hup]
  have hclk : b.clk = { s.clk with
    synced := true, fresh := true, held := false, offsets := pushOffset (if s.clk.fresh then s.clk.offsets else []) off.natAbs } := by rw [hb]
  unfold execGptpSyncRx
  rw [if_neg hon]
  dsimp only
  rw [wr_clk, ← hb, hclk]

theorem gptpSyncRx_of_small (hsmall : off.natAbs ≤ s.rd Reg.CLK_EPOCH_STEP_NS []) : ∃ c : ℤ, c.natAbs ≤ s.slewLimit
    ∧ execGptpSyncRx off s = .next (State.updateQ { b.drawn with clk := { b.clk with corr := c } }) := by
  refine ⟨((b.freeVal % (2 * b.slewLimit + 1) : ℕ) : ℤ) - (b.slewLimit : ℤ), ?_, ?_⟩
  · have hlt : b.freeVal % (2 * b.slewLimit + 1) < 2 * b.slewLimit + 1 := Nat.mod_lt _ (by omega)
    rw [← slewLimit_synced hb]
    generalize b.freeVal % (2 * b.slewLimit + 1) = v at *
    omega
  · rw [gptpSyncRx_of_follower hrole hup hb, if_pos (by rw [rd_synced hb (by decide)]; exact hsmall)]

theorem gptpSyncRx_of_large (hlarge : s.rd Reg.CLK_EPOCH_STEP_NS [] < off.natAbs) :
    execGptpSyncRx off s = .next (b.stepEpoch 34 off).updateQ := by
  rw [gptpSyncRx_of_follower hrole hup hb, if_neg (by rw [rd_synced hb (by decide)]; omega)]

end

/-! ### The reference crystal (R488, R496, R497) -/

section
variable (s : State) {q : Row}

/-- Judging a crystal writes its `OK` field, or nothing, and counts its windows. -/
theorem judgeCrystal_eq (b out live : Bool) (n : ℕ) : ∃ (t : State) (clk : Clk), s.judgeCrystal b out live n = { t with clk := clk }
    ∧ (t = s ∨ ∃ v, t = s.wr (if b then Reg.CLK_REF_B_OK else Reg.CLK_REF_A_OK) [] v) := by
  unfold State.judgeCrystal
  refine ⟨_, _, rfl, ?_⟩
  generalize (if out then 0 else min 10 (n + 1)) = m
  split
  · exact .inr ⟨0, rfl⟩
  · split
    · exact .inr ⟨1, rfl⟩
    · exact .inl rfl

theorem rd_judgeCrystal (ha : q.Apart Reg.CLK_REF_A_OK) (hb : q.Apart Reg.CLK_REF_B_OK) (b out live : Bool) (n : ℕ) :
    (s.judgeCrystal b out live n).rd q [] = s.rd q [] := by
  obtain ⟨t, clk, heq, ht⟩ := judgeCrystal_eq s b out live n
  rw [heq, rd_withClk]
  obtain rfl | ⟨v, rfl⟩ := ht
  · rfl
  · refine rd_wr_apart s ?_ v
    split
    · exact hb
    · exact ha

theorem mem_judgeCrystal (b out live : Bool) (n : ℕ) : (s.judgeCrystal b out live n).mem = s.mem := by
  obtain ⟨t, clk, heq, ht⟩ := judgeCrystal_eq s b out live n
  rw [heq]
  obtain rfl | ⟨v, rfl⟩ := ht
  · rfl
  · dsimp only
    rw [wr_mem]

theorem rd_drawn (jx : List ℕ) : s.drawn.rd q jx = s.rd q jx := rd_of_word rfl

theorem rd_nudge (d : ℤ) (jx : List ℕ) : (s.nudge d).rd q jx = s.rd q jx := rd_withClk _ _ _ _

theorem rd_switchRef (hact : q.Apart Reg.CLK_REF_ACTIVE) (hcount : q.Apart Reg.CLK_REF_SWITCHES) (tag cause ns : ℕ) :
    (s.switchRef tag cause ns).rd q [] = s.rd q [] := by
  unfold State.switchRef
  dsimp only
  rw [rd_nudge, rd_drawn, rd_record_before _ _ _ _ hact.2, State.incSat, rd_wr_apart _ hcount, rd_wr_apart _ hact]

theorem onB_switchRef (tag cause ns : ℕ) : (s.switchRef tag cause ns).onB = !s.onB := by
  unfold State.switchRef State.onB State.flag
  dsimp only
  rw [rd_nudge, rd_drawn, rd_record_before _ _ _ _ (by decide), State.incSat, rd_wr_apart _ (by decide), rd_wr_same _ _ _ _ (by decide)]
  cases decide (s.rd Reg.CLK_REF_ACTIVE [] = 1) <;> rfl

theorem switchRef_frame (tag cause ns : ℕ) :
    ∃ words alm clk free, s.switchRef tag cause ns = { s with words := words, alm := alm, clk := clk, free := free } := by
  obtain ⟨v, hv⟩ : ∃ v, s.wr Reg.CLK_REF_ACTIVE [] (if (!s.onB) = true then 1 else 0) = { s with words := v } := ⟨_, rfl⟩
  obtain ⟨w, hw⟩ : ∃ w, State.incSat { s with words := v } Reg.CLK_REF_SWITCHES [] 1 = { s with words := w } := ⟨_, rfl⟩
  unfold State.switchRef
  dsimp only
  rw [hv, hw, record_frame]
  exact ⟨_, _, _, _, rfl⟩

theorem mem_switchRef (tag cause ns : ℕ) : (s.switchRef tag cause ns).mem = s.mem := by
  obtain ⟨w, alm, clk, free, h⟩ := switchRef_frame s tag cause ns
  rw [h]

variable (ns : ℕ)

theorem judgeRef_of_ok (hok : (s.refOk false || s.refOk true) = true) : s.judgeRef ns =
    (if !(s.wr Reg.CLK_REF_DEGRADED [] 0).refOk (s.wr Reg.CLK_REF_DEGRADED [] 0).onB && (s.wr Reg.CLK_REF_DEGRADED [] 0).refOk !(s.wr Reg.CLK_REF_DEGRADED [] 0).onB
      then ((s.wr Reg.CLK_REF_DEGRADED [] 0).switchRef 34 0 ns).raise 11 else s.wr Reg.CLK_REF_DEGRADED [] 0) := by
  unfold State.judgeRef
  dsimp only
  rw [if_pos hok]

/-- What a move of the reference leaves of the words: all but `ACTIVE`, `SWITCHES` and `DEGRADED`. -/
theorem rd_judgeRef (hact : q.Apart Reg.CLK_REF_ACTIVE) (hcount : q.Apart Reg.CLK_REF_SWITCHES) (hdeg : q.Apart Reg.CLK_REF_DEGRADED) :
    (s.judgeRef ns).rd q [] = s.rd q [] := by
  have hlost : ∀ (t : State) (l : List Byte), ((t.wr Reg.CLK_REF_DEGRADED [] 1).record 0x60 34 l).rd q [] = t.rd q [] := fun t l => by
    rw [rd_record_before _ _ _ _ hact.2, rd_wr_apart _ hdeg]
  unfold State.judgeRef
  dsimp only
  split
  · split
    · rw [rd_raise, rd_switchRef _ hact hcount, rd_wr_apart _ hdeg]
    · rw [rd_wr_apart _ hdeg]
  · have hmoved : (if (signedOf 32 (s.driftWord !s.onB)).natAbs < (signedOf 32 (s.driftWord s.onB)).natAbs then s.switchRef 34 0 ns else s).rd q [] = s.rd q [] := by
      split
      · exact rd_switchRef s hact hcount _ _ _
      · rfl
    split
    · rw [rd_wr_apart _ hdeg, hmoved]
    · rw [rd_raise, hlost, hmoved]

theorem mem_judgeRef : (s.judgeRef ns).mem = s.mem := by
  have hlost : ∀ (t : State) (l : List Byte), ((t.wr Reg.CLK_REF_DEGRADED [] 1).record 0x60 34 l).mem = t.mem := fun t l => by
    obtain ⟨w, alm, h⟩ := recorded_frame t Reg.CLK_REF_DEGRADED 1 0x60 34 l
    rw [h]
  unfold State.judgeRef
  dsimp only
  split
  · split
    · rw [raise_mem, mem_switchRef, wr_mem]
    · exact wr_mem _ _ _ _
  · have hmoved : (if (signedOf 32 (s.driftWord !s.onB)).natAbs < (signedOf 32 (s.driftWord s.onB)).natAbs then s.switchRef 34 0 ns else s).mem = s.mem := by
      split
      · exact mem_switchRef s _ _ _
      · rfl
    split
    · rw [wr_mem, hmoved]
    · rw [raise_mem, hlost, hmoved]

end

theorem judgeCrystal_out (s : State) (b : Bool) : ∃ clk : Clk, s.judgeCrystal b true true 0 =
    { s.wr (if b then Reg.CLK_REF_B_OK else Reg.CLK_REF_A_OK) [] 0 with clk := clk } := ⟨_, rfl⟩

theorem refOk_judgeCrystal_out (s : State) (b : Bool) : (s.judgeCrystal b true true 0).refOk b = false := by
  obtain ⟨clk, heq⟩ := judgeCrystal_out s b
  rw [heq, State.refOk, State.flag, rd_withClk, rd_wr_same _ _ _ _ (by cases b <;> decide), Nat.zero_mod]
  rfl

theorem refOk_judgeCrystal_other (s : State) (b : Bool) : (s.judgeCrystal b true true 0).refOk (!b) = s.refOk !b := by
  obtain ⟨clk, heq⟩ := judgeCrystal_out s b
  rw [heq, State.refOk, State.refOk, State.flag, State.flag, rd_withClk]
  cases b
  · simp only [Bool.not_false, Bool.false_eq_true, if_true, if_false]
    rw [rd_wr_apart _ (by decide)]
  · simp only [Bool.not_true, Bool.false_eq_true, if_true, if_false]
    rw [rd_wr_apart _ (by decide)]

theorem refOk_judgeRef (s : State) (ns : ℕ) (b : Bool) : (s.judgeRef ns).refOk b = s.refOk b := by
  unfold State.refOk State.flag
  cases b
  · rw [if_neg (by decide), rd_judgeRef _ _ (by decide) (by decide) (by decide)]
  · rw [if_pos rfl, rd_judgeRef _ _ (by decide) (by decide) (by decide)]

theorem refOk_updateQ (s : State) (b : Bool) : s.updateQ.refOk b = s.refOk b := by
  unfold State.refOk State.flag
  cases b
  · rw [if_neg (by decide), rd_updateQ _ (by decide)]
  · rw [if_pos rfl, rd_updateQ _ (by decide)]

/-- Where the crystal in use is out and the other is good, the reference moves, with event 11 (R497). -/
theorem judgeRef_moves {t : State} (ns : ℕ) (hout : t.refOk t.onB = false) (hgood : t.refOk (!t.onB) = true) :
    (t.judgeRef ns).onB = !t.onB ∧ 11 ∈ (t.judgeRef ns).saf.lines ∧ (t.judgeRef ns).rd Reg.CLK_REF_DEGRADED [] = 0 := by
  have hok : (t.refOk false || t.refOk true) = true := by
    revert hgood
    cases t.onB <;> simp_all
  have hsame : ∀ b, (t.wr Reg.CLK_REF_DEGRADED [] 0).refOk b = t.refOk b := by
    intro b
    unfold State.refOk State.flag
    cases b
    · rw [if_neg (by decide), rd_wr_apart _ (by decide)]
    · rw [if_pos rfl, rd_wr_apart _ (by decide)]
  have honB : (t.wr Reg.CLK_REF_DEGRADED [] 0).onB = t.onB := by
    rw [State.onB, State.flag, rd_wr_apart _ (by decide)]
    rfl
  have heq : t.judgeRef ns = ((t.wr Reg.CLK_REF_DEGRADED [] 0).switchRef 34 0 ns).raise 11 := by
    rw [judgeRef_of_ok _ _ hok, hsame, hsame, honB, hout, hgood]
    rfl
  rw [heq]
  refine ⟨?_, mem_lines_raise.2 (.inl rfl), ?_⟩
  · rw [State.onB, State.flag, rd_raise]
    exact (onB_switchRef _ _ _ _).trans (congrArg not honB)
  · rw [rd_raise, rd_switchRef _ (by decide) (by decide), rd_wr_same _ _ _ _ (by decide)]
    rfl

section
variable {s : State} (hsafe : s.safeUp = true)
include hsafe

/-- What the end of a window makes of its deviations: both crystals judged, `DISAGREE`, and the reference judged (R488). -/
theorem refWindowEnd_eq (da db dab : ℤ) : ∃ (d : State) (x y : Bool) (l : List Byte),
    d = ((s.wr Reg.CLK_DRIFT_A [] (sat32 da)).wr Reg.CLK_DRIFT_B [] (sat32 db)).wr Reg.CLK_DRIFT_AB [] (sat32 dab)
    ∧ (let live := d.judgeIsGptp || d.flag Reg.CLK_REF_J32_OK []
      let a := d.judgeCrystal false x live d.clk.runA
      let b := a.judgeCrystal true y live a.clk.runB
      let dis := decide (10000 < dab.natAbs) && b.refOk false && b.refOk true
      let c := b.wr Reg.CLK_REF_DISAGREE [] (if dis then 1 else 0)
      execRefWindowEnd da db dab s = .next ((if dis then c.record 0x60 34 l else c).judgeRef 2).updateQ) := by
  have hon : ¬ (!s.safeUp) = true := by rw [hsafe]; decide
  unfold execRefWindowEnd
  rw [if_neg hon]
  exact ⟨_, _, _, _, rfl, rfl⟩

theorem refWindowEnd_spec (da db dab : ℤ) : ∃ t, execRefWindowEnd da db dab s = .next t ∧ t.rd Reg.CLK_DRIFT_A [] = sat32 da
    ∧ t.rd Reg.CLK_DRIFT_B [] = sat32 db ∧ t.rd Reg.CLK_DRIFT_AB [] = sat32 dab ∧ (dab.natAbs ≤ 10000 → t.rd Reg.CLK_REF_DISAGREE [] = 0)
    ∧ t.mem = s.mem := by
  obtain ⟨d, x, y, l, hd, hexec⟩ := refWindowEnd_eq hsafe da db dab
  extract_lets live a b dis c at hexec
  have hrec : ∀ {q : Row}, q.key [] < wordKey Reg.ALM_STAT_LOST.space Reg.ALM_STAT_LOST.base → (if dis then c.record 0x60 34 l else c).rd q [] = c.rd q [] := by
    intro q hq
    split
    · exact rd_record_before _ _ _ _ hq
    · rfl
  have hdrift : ∀ {q : Row}, q.Apart Reg.CLK_REF_ACTIVE → q.Apart Reg.CLK_REF_SWITCHES → q.Apart Reg.CLK_REF_DEGRADED → q.Apart Reg.CLK_EPOCH_Q →
      q.Apart Reg.CLK_REF_DISAGREE → q.Apart Reg.CLK_REF_A_OK → q.Apart Reg.CLK_REF_B_OK →
      (((if dis then c.record 0x60 34 l else c).judgeRef 2).updateQ).rd q [] = d.rd q [] := by
    intro q hact hcount hdeg hq hdis ha hb
    rw [rd_updateQ _ hq, rd_judgeRef _ _ hact hcount hdeg, hrec hact.2, rd_wr_apart _ hdis, rd_judgeCrystal _ ha hb, rd_judgeCrystal _ ha hb]
  refine ⟨_, hexec, ?_, ?_, ?_, fun hnear => ?_, ?_⟩
  · rw [hdrift (by decide) (by decide) (by decide) (by decide) (by decide) (by decide) (by decide), hd, rd_wr_ne _ _ _ _ _ _ (by decide),
      rd_wr_ne _ _ _ _ _ _ (by decide), rd_wr_same _ _ _ _ (by decide)]
    exact Nat.mod_eq_of_lt (sat32_lt da)
  · rw [hdrift (by decide) (by decide) (by decide) (by decide) (by decide) (by decide) (by decide), hd, rd_wr_ne _ _ _ _ _ _ (by decide),
      rd_wr_same _ _ _ _ (by decide)]
    exact Nat.mod_eq_of_lt (sat32_lt db)
  · rw [hdrift (by decide) (by decide) (by decide) (by decide) (by decide) (by decide) (by decide), hd, rd_wr_same _ _ _ _ (by decide)]
    exact Nat.mod_eq_of_lt (sat32_lt dab)
  · have hdis : dis = false := by simp [dis, hnear]
    rw [rd_updateQ _ (by decide), rd_judgeRef _ _ (by decide) (by decide) (by decide), hrec (by decide), rd_wr_same _ _ _ _ (by decide), hdis]
    rfl
  · have hmem : (if dis then c.record 0x60 34 l else c).mem = c.mem := by
      split
      · rw [record_frame]
      · rfl
    rw [mem_updateQ, mem_judgeRef, hmem, wr_mem, mem_judgeCrystal, mem_judgeCrystal, hd, wr_mem, wr_mem, wr_mem]

theorem crystalEdgeLoss_spec (b : Bool) : ∃ t, execCrystalEdgeLoss b s = .next t ∧ t.refOk b = false ∧ t.mem = s.mem
    ∧ (s.onB = b → s.refOk (!b) = true → t.onB = !b ∧ 11 ∈ t.saf.lines ∧ t.rd Reg.CLK_REF_DEGRADED [] = 0) := by
  refine ⟨_, if_pos hsafe, ?_, ?_, fun honB hgood => ?_⟩
  · rw [refOk_updateQ, refOk_judgeRef, refOk_judgeCrystal_out]
  · rw [mem_updateQ, mem_judgeRef, mem_judgeCrystal]
  · have hother : (s.judgeCrystal b true true 0).refOk (!b) = true := (refOk_judgeCrystal_other s b).trans hgood
    have hon : (s.judgeCrystal b true true 0).onB = b := by
      rw [State.onB, State.flag, rd_judgeCrystal _ (by decide) (by decide)]
      exact honB
    obtain ⟨hmove, hline, hdeg⟩ := judgeRef_moves (t := s.judgeCrystal b true true 0) 10 (by rw [hon, refOk_judgeCrystal_out]) (by rw [hon, hother])
    refine ⟨?_, mem_lines_updateQ _ hline, ?_⟩
    · rw [State.onB, State.flag, rd_updateQ _ (by decide)]
      exact hmove.trans (congrArg not hon)
    · rw [rd_updateQ _ (by decide)]
      exact hdeg

end

/-! ### The other commands of time -/

section
variable {s : State}

theorem holdoverExpiry_of_stale (hsynced : s.clk.synced = true) (hstale : s.clk.fresh = false) :
    execHoldoverExpiry s = .next (State.updateQ { s with clk := { s.clk with held := true } }) :=
  if_pos (by rw [hsynced, hstale]; rfl)

theorem frequencyChangeDone_apc {f : ℕ} (hgoal : s.clk.apcGoal = some f) :
    execFrequencyChangeDone false s = .next { s.wr Reg.CLK_DOM_MHZ [2] f with clk := { s.clk with apcGoal := none } } := by
  have hgoal' : (if (false : Bool) then s.clk.gfxGoal else s.clk.apcGoal) = some f := hgoal
  unfold execFrequencyChangeDone
  rw [hgoal']
  rfl

theorem frequencyChangeDone_gfx {f : ℕ} (hgoal : s.clk.gfxGoal = some f) :
    execFrequencyChangeDone true s = .next { s.wr Reg.CLK_DOM_MHZ [6] f with clk := { s.clk with gfxGoal := none } } := by
  have hgoal' : (if (true : Bool) then s.clk.gfxGoal else s.clk.apcGoal) = some f := hgoal
  unfold execFrequencyChangeDone
  rw [hgoal']
  rfl

end

/-- Settles O54, command by command. -/
theorem referenceAndEpochTime : Obligations.ReferenceAndEpochTime := by
  unfold Obligations.ReferenceAndEpochTime
  intro s
  refine ⟨fun off hrole hup => ⟨gptpSyncRx_of_small hrole hup rfl, gptpSyncRx_of_large hrole hup rfl⟩, stepEpoch_spec s,
    fun n p => ⟨fun h => if_pos h, fun h => if_pos h⟩, fun da db dab hsafe => refWindowEnd_spec hsafe da db dab, fun b hsafe => crystalEdgeLoss_spec hsafe b,
    fun hsafe => ⟨if_pos hsafe, if_pos hsafe⟩, fun hfresh => if_pos hfresh, holdoverExpiry_of_stale, quality_updateQ s,
    fun f => ⟨frequencyChangeDone_apc, frequencyChangeDone_gfx⟩, epochGo_spec s, rtcSync_spec s |>.1, rtcSync_spec s |>.2, fun tag h => if_pos h⟩

end Sys2Proof.Machine
end

section
/-! O55: safety events and authority. What a move of authority and the reaction to an event leave of the words, then a lemma for each command. -/

namespace Sys2Proof.Machine

/-! ### The change of authority (R517, R519) -/

theorem flag_eq_decide (s : State) (q : Row) (jx : List ℕ) : s.flag q jx = decide (s.rd q jx = 1) := rfl

section
variable (s : State)

theorem rd_withSaf (saf : Saf) (q : Row) (jx : List ℕ) : State.rd { s with saf := saf } q jx = s.rd q jx := rd_of_word rfl

theorem rd_withCmp (cmp : Cmp) (q : Row) (jx : List ℕ) : State.rd { s with cmp := cmp } q jx = s.rd q jx := rd_of_word rfl

theorem rd_withAlm (alm : Alm) (q : Row) (jx : List ℕ) : State.rd { s with alm := alm } q jx = s.rd q jx := rd_of_word rfl

variable (dusk : Bool) (cause : ℕ)

/-- A move of authority that changes it: `AUTH`, the count of the moves, and the bookkeeping of the island and of the networks. -/
def State.authMoved (t : State) (dusk : Bool) : State :=
  (t.wr Reg.NET_AAS_AUTH [] (if dusk then 1 else 0)).incSat (if dusk then Reg.SAF_STAT_TAKEOVERS else Reg.SAF_STAT_RETURNS) [] 1

/-- The state in which `setAuth` compares the authority: a move to Dusk has cleared `REQ_MAIN`. -/
def State.authAsked (s : State) (dusk : Bool) : State := if dusk then s.wr Reg.NET_AAS_REQ_MAIN [] 0 else s

theorem setAuth_of_same (hsame : (s.authAsked dusk).dusk = dusk) : s.setAuth dusk cause = s.authAsked dusk := if_pos hsame

theorem setAuth_of_other (hother : (s.authAsked dusk).dusk ≠ dusk) : ∃ (saf : Saf) (boot : Boot) (net : Net),
    s.setAuth dusk cause = { (s.authAsked dusk).authMoved dusk with saf := saf, boot := boot, net := net }
    ∧ (saf = (s.authAsked dusk).saf ∨ saf = { (s.authAsked dusk).saf with holdStart := (s.authAsked dusk).now }) := by
  have heq : s.setAuth dusk cause =
      (let t := s.authAsked dusk
       let u := t.wr Reg.NET_AAS_AUTH [] (if dusk then 1 else 0)
       let v : State := if dusk then { u with saf := { u.saf with holdStart := u.now } } else u
       let w := if dusk then v.incSat Reg.SAF_STAT_TAKEOVERS [] 1 else v.incSat Reg.SAF_STAT_RETURNS [] 1
       (({ w with boot := { w.boot with switchBlock := w.boot.switchBlock && !dusk } } : State).setNet { w.net with moves := w.net.moves ++ [(dusk, cause)] })) :=
    if_neg hother
  rw [heq]
  unfold State.authMoved
  generalize s.authAsked dusk = t
  dsimp only
  have hsaf : (t.wr Reg.NET_AAS_AUTH [] (if dusk = true then 1 else 0)).saf = t.saf := wr_saf _ _ _ _
  have hnow : (t.wr Reg.NET_AAS_AUTH [] (if dusk = true then 1 else 0)).now = t.now := wr_now _ _ _ _
  generalize t.wr Reg.NET_AAS_AUTH [] (if dusk = true then 1 else 0) = u at *
  cases dusk with
  | false =>
    simp only [Bool.false_eq_true, if_false]
    have hcount : (u.incSat Reg.SAF_STAT_RETURNS [] 1).saf = t.saf := by rw [State.incSat, wr_saf, hsaf]
    generalize u.incSat Reg.SAF_STAT_RETURNS [] 1 = w at *
    exact ⟨w.saf, _, _, rfl, .inl hcount⟩
  | true =>
    simp only [if_true]
    rw [incSat_withSaf]
    rw [hsaf, hnow]
    generalize u.incSat Reg.SAF_STAT_TAKEOVERS [] 1 = w
    exact ⟨_, _, _, rfl, .inr rfl⟩

theorem key_authCount : (if dusk then Reg.SAF_STAT_TAKEOVERS else Reg.SAF_STAT_RETURNS).key [] = Reg.SAF_STAT_TAKEOVERS.key [] := by
  cases dusk <;> rfl

theorem rd_incSat_authCount (t : State) {q : Row} {jx : List ℕ} (hcount : q.key jx ≠ Reg.SAF_STAT_TAKEOVERS.key []) :
    (t.incSat (if dusk then Reg.SAF_STAT_TAKEOVERS else Reg.SAF_STAT_RETURNS) [] 1).rd q jx = t.rd q jx := by
  have hne : q.key jx ≠ (if dusk then Reg.SAF_STAT_TAKEOVERS else Reg.SAF_STAT_RETURNS).key [] := by rw [key_authCount]; exact hcount
  exact rd_wr_ne _ _ _ _ _ _ hne

/-- Moving authority leaves the words beside those of `AUTH` and of the counts. -/
theorem rd_setAuth {q : Row} {jx : List ℕ} (hauth : q.key jx ≠ Reg.NET_AAS_AUTH.key []) (hcount : q.key jx ≠ Reg.SAF_STAT_TAKEOVERS.key []) :
    (s.setAuth dusk cause).rd q jx = s.rd q jx := by
  have hasked : (s.authAsked dusk).rd q jx = s.rd q jx := by
    unfold State.authAsked
    split
    · exact rd_wr_ne _ _ _ _ _ _ hauth
    · rfl
  by_cases hsame : (s.authAsked dusk).dusk = dusk
  · rw [setAuth_of_same s dusk cause hsame, hasked]
  · obtain ⟨saf, boot, net, heq, -⟩ := setAuth_of_other s dusk cause hsame
    rw [heq, rd_with, State.authMoved, rd_incSat_authCount _ _ hcount, rd_wr_ne _ _ _ _ _ _ hauth, hasked]

theorem dusk_setAuth : (s.setAuth dusk cause).dusk = dusk := by
  by_cases hsame : (s.authAsked dusk).dusk = dusk
  · rw [setAuth_of_same s dusk cause hsame, hsame]
  · obtain ⟨saf, boot, net, heq, -⟩ := setAuth_of_other s dusk cause hsame
    rw [heq, State.dusk, State.flag, rd_with, State.authMoved, rd_incSat_authCount _ _ (by decide), rd_wr_same _ _ _ _ (by decide)]
    cases dusk <;> rfl

/-- `REQ_MAIN` is 0 where it was cleared before. -/
theorem reqMain_setAuth (hreq : s.rd Reg.NET_AAS_REQ_MAIN [] = 0) : (s.setAuth dusk cause).rd Reg.NET_AAS_REQ_MAIN [] = 0 := by
  have hasked : (s.authAsked dusk).rd Reg.NET_AAS_REQ_MAIN [] = 0 := by
    unfold State.authAsked
    split
    · rw [rd_wr_same _ _ _ _ (by decide), Nat.zero_mod]
    · exact hreq
  by_cases hsame : (s.authAsked dusk).dusk = dusk
  · rw [setAuth_of_same s dusk cause hsame, hasked]
  · obtain ⟨saf, boot, net, heq, -⟩ := setAuth_of_other s dusk cause hsame
    rw [heq, rd_with, State.authMoved, rd_incSat_authCount _ _ (by decide), rd_wr_beside _ _ _ (by decide), hasked]

theorem authAsked_frame : ∃ words, s.authAsked dusk = { s with words := words } := by
  unfold State.authAsked
  split
  · exact ⟨_, rfl⟩
  · exact ⟨s.words, rfl⟩

theorem authMoved_frame : ∃ words, s.authMoved dusk = { s with words := words } := by
  obtain ⟨v, hv⟩ : ∃ v, s.wr Reg.NET_AAS_AUTH [] (if dusk then 1 else 0) = { s with words := v } := ⟨_, rfl⟩
  unfold State.authMoved
  rw [hv]
  exact ⟨_, rfl⟩

/-- What a move of authority leaves, whatever it moves: all but words, the island, the boot and the networks' own state. -/
theorem setAuth_frame : ∃ (words : List (ℕ × Word)) (saf : Saf) (boot : Boot) (net : Net),
    s.setAuth dusk cause = { s with words := words, saf := saf, boot := boot, net := net }
    ∧ (saf = s.saf ∨ saf = { s.saf with holdStart := s.now }) := by
  obtain ⟨w, hw⟩ := authAsked_frame s dusk
  by_cases hsame : (s.authAsked dusk).dusk = dusk
  · rw [setAuth_of_same s dusk cause hsame, hw]
    exact ⟨w, s.saf, s.boot, s.net, rfl, .inl rfl⟩
  · obtain ⟨saf, boot, net, heq, hsaf⟩ := setAuth_of_other s dusk cause hsame
    rw [hw] at heq hsaf
    obtain ⟨x, hx⟩ := authMoved_frame { s with words := w } dusk
    rw [hx] at heq
    exact ⟨x, saf, boot, net, heq, hsaf⟩

theorem mem_setAuth : (s.setAuth dusk cause).mem = s.mem := by
  obtain ⟨w, saf, boot, net, heq, -⟩ := setAuth_frame s dusk cause
  rw [heq]

theorem faultN_setAuth : (s.setAuth dusk cause).saf.faultN = s.saf.faultN := by
  obtain ⟨w, saf, boot, net, heq, hsaf⟩ := setAuth_frame s dusk cause
  rw [heq]
  obtain rfl | rfl := hsaf <;> rfl

end

/-! ### The reaction to an event (R516 to R518, R524, R528) -/

section
variable (s : State) {e : ℕ} {q : Row} {jx : List ℕ}

theorem rd_reactNotify (e r : ℕ) : (s.reactNotify e r).rd q jx = s.rd q jx := by
  unfold State.reactNotify State.islandInt
  split
  · rfl
  · dsimp only
    split
    · split
      · rw [rd_withSaf, send_rd]
      · rw [send_rd]
    · rw [send_rd]

theorem rd_reactTakeover (e r : ℕ) (hauth : q.key jx ≠ Reg.NET_AAS_AUTH.key []) (hcount : q.key jx ≠ Reg.SAF_STAT_TAKEOVERS.key []) :
    (s.reactTakeover e r).rd q jx = s.rd q jx := by
  unfold State.reactTakeover
  split
  · rfl
  · rw [rd_setAuth _ _ _ hauth hcount, rd_withSaf]

theorem rd_reactRestart (e r : ℕ) : (s.reactRestart e r).rd q jx = s.rd q jx := by
  unfold State.reactRestart
  split
  · rw [rd_withSaf]
  · rfl

theorem rd_reactWreck (r : ℕ) : (s.reactWreck r).rd q jx = s.rd q jx := by
  unfold State.reactWreck State.wreckTrigger
  dsimp only
  split
  · rw [rd_withAlm]
  · rfl

theorem rd_islandFail (hfail : q.key jx ≠ Reg.SAF_STAT_ISL_FAIL.key []) : s.islandFail.rd q jx = s.rd q jx := by
  unfold State.islandFail
  rw [rd_withSaf, rd_wr_ne _ _ _ _ _ _ hfail]

theorem rd_cmpFatal : s.cmpFatal.rd q jx = s.rd q jx := by
  unfold State.cmpFatal
  refine (foldl_keeps (g := fun t : State => t.rd q jx) (fun t n => ?_) _ _).trans (rd_withCmp _ _ _ _)
  unfold State.releaseStrand
  split
  · exact rd_withCmp _ _ _ _
  · rfl

/-- The key of an event's words. -/
theorem key_event {r : Row} (hspace : r.space = 0x11) (hbase : r.base = 0x40) (hdims : r.dims = [(1, 28)]) (e : ℕ) :
    r.key [e] = 0x11 * 2 ^ 17 + (0x40 + e) := by
  simp only [Row.key, wordKey, joinOffset, hspace, hbase, hdims, Nat.one_mul, Nat.add_zero]

theorem rd_reactRecord (he : e < 28) {r : Row} (hr : r = Reg.SAF_EVT_LATCH ∨ r = Reg.SAF_EVT_COUNT) : (s.reactRecord e).rd r [e] =
    ((s.wr Reg.SAF_EVT_LATCH [e] 1).incSat Reg.SAF_EVT_COUNT [e] 1).rd r [e] := by
  have hkey : r.key [e] = 0x11 * 2 ^ 17 + (0x40 + e) := by
    obtain rfl | rfl := hr
    · exact key_event rfl rfl rfl e
    · exact key_event rfl rfl rfl e
  have hlast : ∀ {x : Row}, 0x11 * 2 ^ 17 + 0x60 ≤ x.key [] → r.key [e] ≠ x.key [] := fun h => by omega
  have hlost : wordKey Reg.ALM_STAT_LOST.space Reg.ALM_STAT_LOST.base ≥ 0x12 * 2 ^ 17 := by decide
  unfold State.reactRecord State.wrPair
  dsimp only
  rw [rd_record_before _ _ _ _ (by omega), rd_wr_ne _ _ _ _ _ _ (hlast (by decide)), rd_wr_ne _ _ _ _ _ _ (hlast (by decide)),
    rd_wr_ne _ _ _ _ _ _ (hlast (by decide))]

/-- The events' words as the record of the event leaves them. -/
theorem rd_latch_event (he : e < 28) {r : Row} (hr : r = Reg.SAF_EVT_LATCH ∨ r = Reg.SAF_EVT_COUNT) : (s.latch e).rd r [e] =
    (((if e = 20 then s.cmpFatal else s).wr Reg.SAF_EVT_LATCH [e] 1).incSat Reg.SAF_EVT_COUNT [e] 1).rd r [e] := by
  have hkey : r.key [e] = 0x11 * 2 ^ 17 + (0x40 + e) := by
    obtain rfl | rfl := hr
    · exact key_event rfl rfl rfl e
    · exact key_event rfl rfl rfl e
  have hstat : ∀ {x : Row}, x.key [] ≤ 0x11 * 2 ^ 17 + 0x10 → r.key [e] ≠ x.key [] := fun h => by omega
  have hreacted : ∀ (t : State) (k : ℕ), ((((t.reactRecord e).reactNotify e k).reactTakeover e k).reactRestart e k).rd r [e] = (t.reactRecord e).rd r [e] :=
    fun t k => by
      rw [rd_reactRestart, rd_reactTakeover _ _ _ (hstat (by decide)) (hstat (by decide)), rd_reactNotify]
  unfold State.latch
  dsimp only
  rw [rd_reactWreck]
  split
  · rw [rd_islandFail _ (hstat (by decide)), hreacted, rd_reactRecord _ he hr]
  · rw [hreacted, rd_reactRecord _ he hr]

theorem latched_latch (he : e < 28) : (s.latch e).latched e = true := by
  rw [State.latched, State.flag, rd_latch_event s he (.inl rfl), State.incSat, rd_wr_beside _ _ _ (by decide), rd_wr_same _ _ _ _ (by decide)]
  rfl

theorem count_latch (he : e < 28) : (s.latch e).rd Reg.SAF_EVT_COUNT [e] = satTo 16 (s.rd Reg.SAF_EVT_COUNT [e] + 1) := by
  have hfatal : (if e = 20 then s.cmpFatal else s).rd Reg.SAF_EVT_COUNT [e] = s.rd Reg.SAF_EVT_COUNT [e] := by
    split
    · exact rd_cmpFatal s
    · rfl
  rw [rd_latch_event s he (.inr rfl), rd_incSat_same _ _ _ _ (by decide), rd_wr_beside _ _ _ (by decide), hfatal]
  rfl

theorem dusk_of_rd {t : State} (h : t.rd Reg.NET_AAS_AUTH [] = s.rd Reg.NET_AAS_AUTH []) : t.dusk = s.dusk := by
  rw [State.dusk, State.dusk, State.flag, State.flag, h]

/-- A reaction of 2 or more leaves authority with Dusk (R517). -/
theorem dusk_latch (hreact : 2 ≤ s.react e) : (s.latch e).dusk = true := by
  have htake : ∀ t : State, (t.reactTakeover e (s.react e)).dusk = true := fun t => by
    rw [State.reactTakeover, if_neg (by omega)]
    exact dusk_setAuth _ _ _
  unfold State.latch
  dsimp only
  rw [dusk_of_rd _ (rd_reactWreck _ _)]
  split
  · rw [dusk_of_rd _ (rd_islandFail _ (by decide)), dusk_of_rd _ (rd_reactRestart _ _ _), htake]
  · rw [dusk_of_rd _ (rd_reactRestart _ _ _), htake]

/-- A reaction of 4 fails the island (R518). -/
theorem latch_of_react4 (hreact : s.react e = 4) :
    (s.latch e).rd Reg.SAF_STAT_ISL_FAIL [] = 1 ∧ (s.latch e).saf.faultN = false ∧ (s.latch e).saf.islandRun = false := by
  have hwreck : ∀ t : State, (t.reactWreck 4).saf = t.saf := fun t => by
    unfold State.reactWreck State.wreckTrigger
    dsimp only
    split <;> rfl
  unfold State.latch
  dsimp only
  rw [rd_reactWreck, hreact, if_pos rfl, hwreck]
  refine ⟨?_, rfl, rfl⟩
  rw [State.islandFail, rd_withSaf, rd_wr_same _ _ _ _ (by decide)]
  rfl

end

/-! ### Lines and their latches (R512, R514, R515) -/

section
variable {s : State} {e : ℕ}

theorem asserts_of_line (h : e ∈ s.saf.lines) : s.asserts e = s := by
  refine if_neg ?_
  simp [h]

theorem asserts_of_inner (h : e ∉ outerEvents) : s.asserts e = s := by
  refine if_neg ?_
  simp [h]

theorem asserts_of_down (he : 19 ≤ e) (hdown : s.boot.mainUp = false) : s.asserts e = s := by
  refine if_neg ?_
  have hlow : ¬ e < 19 := by omega
  simp [hlow, hdown]

/-- An outer checker whose domain is out of reset asserts its line. -/
theorem asserts_of_outer (houter : e ∈ outerEvents) (hup : e < 19 ∨ s.boot.mainUp = true) (hline : e ∉ s.saf.lines) :
    s.asserts e = { s with saf := { s.saf with lines := s.saf.lines ++ [e] } } := by
  refine if_pos ?_
  have hup' : (decide (e < 19) || s.boot.mainUp) = true := by simpa using hup
  have houter' : outerEvents.contains e = true := by simpa using houter
  have hline' : s.saf.lines.contains e = false := by simpa using hline
  rw [houter', hup', hline']
  rfl

/-- What a latch makes of an asserted line that nothing injects. -/
theorem fcuLatch_of_line {t : State} (ht : s.asserts e = t) (hsafe : t.safeUp = true) (he : e < 28) (hline : e ∈ t.saf.lines)
    (hfree : e ∉ t.saf.underInjection) : execFcuLatch e s = if t.latched e then go (t.dropLine e) else go ((t.dropLine e).latch e) := by
  unfold execFcuLatch
  rw [ht]
  refine if_neg ?_
  have hlow : ¬ 28 ≤ e := by omega
  simp [hsafe, hline, hfree, hlow]

theorem fcuLatch_of_no_line (ht : s.asserts e = s) (hline : e ∉ s.saf.lines) : execFcuLatch e s = .next s := by
  unfold execFcuLatch
  rw [ht]
  refine if_pos ?_
  simp [hline]

theorem fcuLatch_asserted (hsafe : s.safeUp = true) (he : e < 28) (hline : e ∈ s.saf.lines) (hfree : e ∉ s.saf.underInjection) :
    (s.latched e = true → execFcuLatch e s = .next (s.dropLine e)) ∧ (s.latched e = false → execFcuLatch e s = .next ((s.dropLine e).latch e)) := by
  have hlatch := fcuLatch_of_line (asserts_of_line hline) hsafe he hline hfree
  exact ⟨fun h => hlatch.trans (if_pos h), fun h => hlatch.trans (if_neg (Bool.eq_false_iff.1 h))⟩

theorem latched_withSaf (saf : Saf) : State.latched { s with saf := saf } e = s.latched e := by
  rw [State.latched, State.latched, State.flag, State.flag, rd_withSaf]

theorem fcuLatch_outer (hsafe : s.safeUp = true) (he : e < 28) (hline : e ∉ s.saf.lines) (houter : e ∈ outerEvents) (hfree : e ∉ s.saf.underInjection)
    (hlatched : s.latched e = false) (hup : e < 19 ∨ s.boot.mainUp = true) :
    execFcuLatch e s = .next (((s.asserts e).dropLine e).latch e) := by
  have hasserts := asserts_of_outer houter hup hline
  rw [hasserts]
  refine (fcuLatch_of_line hasserts hsafe he ?_ hfree).trans (if_neg ?_)
  · exact List.mem_append_right _ (List.mem_singleton_self e)
  · rw [latched_withSaf, hlatched]
    decide

/-! ### Clears (R515) -/

theorem eventClr_of_kept (h : e ≤ 3 ∨ e = 26) : s.eventClr e = s := by
  refine if_pos ?_
  obtain h | h := h <;> simp [h]

theorem latched_cleared : (s.wr Reg.SAF_EVT_LATCH [e] 0).latched e = false := by
  rw [State.latched, State.flag, rd_wr_same _ _ _ _ (by decide), Nat.zero_mod]
  rfl

theorem eventClr_of_latched (hlow : 3 < e) (hfree : e ∉ [5, 12, 13, 16, 17, 20, 22, 24, 26]) (hlatched : s.latched e = true) :
    s.eventClr e = s.wr Reg.SAF_EVT_LATCH [e] 0 ∧ (s.eventClr e).latched e = false := by
  simp only [List.mem_cons, List.not_mem_nil, or_false, not_or] at hfree
  obtain ⟨h5, h12, h13, h16, h17, h20, h22, h24, h26⟩ := hfree
  have hcause : ∀ t : State, t.causeHolds e = false := fun t => by
    unfold State.causeHolds
    rw [if_neg h5, if_neg h12, if_neg h13, if_neg h16, if_neg h17, if_neg h20, if_neg h22, if_neg h24]
  have hclear : s.eventClr e = s.wr Reg.SAF_EVT_LATCH [e] 0 := by
    have hon : ¬ (e ≤ 3 || e = 26 || !s.latched e) = true := by
      have hlow' : ¬ e ≤ 3 := by omega
      simp [hlow', h26, hlatched]
    unfold State.eventClr
    rw [if_neg hon]
    exact if_neg (Bool.eq_false_iff.1 (hcause _))
  exact ⟨hclear, by rw [hclear, latched_cleared]⟩

/-! ### Injections (R525, R526) -/

section
variable (hinj : e ∈ s.saf.underInjection) {u : State}
  (hu : u = { s with saf := { s.saf with underInjection := s.saf.underInjection.filter (· ≠ e) } })
include hinj hu

theorem injectionResample_eq (still : Bool) : execInjectionResample e still s =
    (if !s.saf.lines.contains e then go u else if still && !u.latched e then go ((u.dropLine e).latch e) else go (u.dropLine e)) := by
  have hin : ¬ (!s.saf.underInjection.contains e) = true := by simp [hinj]
  unfold execInjectionResample
  rw [if_neg hin, hu]

theorem injectionResample_spec (still : Bool) :
    (e ∉ s.saf.lines → execInjectionResample e still s = .next u)
    ∧ (e ∈ s.saf.lines → still = true → s.latched e = false → execInjectionResample e still s = .next ((u.dropLine e).latch e))
    ∧ (e ∈ s.saf.lines → still = false → execInjectionResample e still s = .next (u.dropLine e)) := by
  have heq := injectionResample_eq hinj hu still
  have hlatched : u.latched e = s.latched e := by rw [hu, latched_withSaf]
  refine ⟨fun hline => heq.trans (if_pos (by simp [hline])), fun hline hstill hfree => ?_, fun hline hstill => ?_⟩
  · exact heq.trans ((if_neg (by simp [hline])).trans (if_pos (by simp [hstill, hlatched, hfree])))
  · exact heq.trans ((if_neg (by simp [hline])).trans (if_neg (by simp [hstill])))

end
end

section
variable (s : State)

theorem injectGroup_frame (fails : List ℕ) (g : ℕ) : ∃ words, s.injectGroup fails g = { s with words := words } := by
  unfold State.injectGroup
  split
  · obtain ⟨a, ha⟩ : ∃ a, s.wr Reg.SAF_INJ_OK [g] 0 = { s with words := a } := ⟨_, rfl⟩
    obtain ⟨b, hb⟩ : ∃ b, State.incSat { s with words := a } Reg.SAF_INJ_FAILS [g] 1 = { s with words := b } := ⟨_, rfl⟩
    rw [ha, hb]
    exact ⟨_, rfl⟩
  · exact ⟨_, rfl⟩

theorem injectGroups_frame (fails : List ℕ) (l : List ℕ) : ∃ words, l.foldl (State.injectGroup fails) s = { s with words := words } := by
  induction l generalizing s with
  | nil => exact ⟨s.words, rfl⟩
  | cons g l ih =>
    obtain ⟨a, ha⟩ := injectGroup_frame s fails g
    obtain ⟨b, hb⟩ := ih { s with words := a }
    exact ⟨b, by rw [List.foldl_cons, ha, hb]⟩

theorem rd_injectGroup (fails : List ℕ) {g : ℕ} (hg : g < 64) :
    (s.injectGroup fails g).rd Reg.SAF_INJ_OK [g] = if fails.contains g then 0 else 1 := by
  have hkey : Reg.SAF_INJ_OK.key [g] = 0x11 * 2 ^ 17 + (0x80 + g) := by
    simp only [Row.key, wordKey, joinOffset, Reg.SAF_INJ_OK, Nat.one_mul, Nat.add_zero]
  have hstat : Reg.SAF_INJ_OK.key [g] ≠ Reg.SAF_STAT_INJ_FAIL.key [] := by
    have hfail : Reg.SAF_STAT_INJ_FAIL.key [] = 0x11 * 2 ^ 17 + 8 := rfl
    omega
  unfold State.injectGroup
  split
  · rw [rd_wr_ne _ _ _ _ _ _ hstat, State.incSat, rd_wr_beside _ _ _ (by decide), rd_wr_same _ _ _ _ (by decide)]
    rfl
  · rw [rd_wr_same _ _ _ _ (by decide)]
    rfl

end

section
variable {s : State} (hsafe : s.safeUp = true)
include hsafe

theorem startupInjection_on (main : Bool) (groups fails : List ℕ) (hon : (if main then s.boot.mainUp else s.saf.islandRun) = true) :
    ∃ words, execStartupInjection main groups fails s =
      (if groups.any fails.contains then go (State.raise { s with words := words } (if main then 25 else 26))
        else if main then go { State.wr { s with words := words } Reg.SAF_STAT_INJ_DONE [] 1 with saf := { s.saf with mainInjected := true } }
        else go (State.setAuth { s with words := words, saf := { s.saf with faultN := true } } true 0x42)) := by
  have hgo : ¬ (!s.safeUp || (main && !s.boot.mainUp) || (!main && !s.saf.islandRun)) = true := by
    cases main <;> simp_all
  obtain ⟨words, hwords⟩ := injectGroups_frame s fails (groups.filter (· < 64))
  refine ⟨words, ?_⟩
  unfold execStartupInjection
  rw [if_neg hgo, hwords]

theorem startupInjection_main (groups : List ℕ) (hup : s.boot.mainUp = true) : ∃ t, execStartupInjection true groups [] s = .next t
    ∧ t.rd Reg.SAF_STAT_INJ_DONE [] = 1 ∧ t.saf.mainInjected = true ∧ t.mem = s.mem := by
  obtain ⟨words, hexec⟩ := startupInjection_on hsafe true groups [] hup
  refine ⟨_, hexec.trans ((if_neg (by simp)).trans (if_pos rfl)), ?_, rfl, ?_⟩
  · rw [rd_withSaf, rd_wr_same _ _ _ _ (by decide)]
    rfl
  · dsimp only
    rw [wr_mem]

theorem startupInjection_island (groups : List ℕ) (hrun : s.saf.islandRun = true) : ∃ t, execStartupInjection false groups [] s = .next t
    ∧ t.dusk = true ∧ t.saf.faultN = true ∧ t.mem = s.mem := by
  obtain ⟨words, hexec⟩ := startupInjection_on hsafe false groups [] hrun
  refine ⟨_, hexec.trans ((if_neg (by simp)).trans (if_neg (by decide))), dusk_setAuth _ _ _, ?_, ?_⟩
  · rw [faultN_setAuth]
  · rw [mem_setAuth]

theorem startupInjection_failed {groups fails : List ℕ} {g : ℕ} (hg : g ∈ groups) (hfail : g ∈ fails) (hup : s.boot.mainUp = true) :
    ∃ t, execStartupInjection true groups fails s = .next t ∧ 25 ∈ t.saf.lines := by
  obtain ⟨words, hexec⟩ := startupInjection_on hsafe true groups fails hup
  refine ⟨_, hexec.trans (if_pos ?_), mem_lines_raise.2 (.inl rfl)⟩
  exact List.any_eq_true.2 ⟨g, hg, List.contains_iff_mem.2 hfail⟩

omit hsafe in
theorem underInjection_raise (t : State) (e : ℕ) : (t.raise e).saf.underInjection = t.saf.underInjection := by
  unfold State.raise
  split <;> rfl

theorem runtimeInjection_spec {g : ℕ} (evs : List ℕ) (ok d : Bool) (hg : g < 64) : ∃ t, execRuntimeInjection g evs ok d s = .next t
    ∧ t.rd Reg.SAF_INJ_OK [g] = (if ok then 1 else 0) ∧ (∀ e ∈ evs, e ∈ t.saf.underInjection) ∧ (ok = false → (if d then 26 else 25) ∈ t.saf.lines)
    ∧ t.mem = s.mem := by
  have hgo : ¬ (!s.safeUp || 64 ≤ g) = true := by
    have hg' : ¬ 64 ≤ g := by omega
    simp [hsafe, hg']
  obtain ⟨words, hwords⟩ := injectGroup_frame s (if ok then [] else [g]) g
  have hok := rd_injectGroup s (if ok then [] else [g]) hg
  rw [hwords] at hok
  have hexec : execRuntimeInjection g evs ok d s = go (if ok
      then { s with words := words, saf := { s.saf with underInjection := s.saf.underInjection ++ evs.filter (fun e => !s.saf.underInjection.contains e) } }
      else State.raise { s with words := words, saf := { s.saf with underInjection := s.saf.underInjection ++ evs.filter (fun e => !s.saf.underInjection.contains e) } }
        (if d then 26 else 25)) := by
    unfold execRuntimeInjection
    rw [if_neg hgo, hwords]
  have hmem : ∀ e ∈ evs, e ∈ s.saf.underInjection ++ evs.filter (fun e => !s.saf.underInjection.contains e) := fun e he => by
    by_cases hin : e ∈ s.saf.underInjection
    · exact List.mem_append_left _ hin
    · exact List.mem_append_right _ (List.mem_filter.2 ⟨he, by simp [hin]⟩)
  refine ⟨_, hexec, ?_, fun e he => ?_, fun hbad => ?_, ?_⟩
  · cases ok with
    | true =>
      rw [if_pos rfl]
      exact (rd_of_word rfl).trans hok
    | false =>
      rw [if_neg (by decide), rd_raise]
      refine (rd_of_word rfl).trans (hok.trans ?_)
      simp
  · split
    · exact hmem e he
    · rw [underInjection_raise]
      exact hmem e he
  · rw [if_neg (Bool.eq_false_iff.1 hbad)]
    exact mem_lines_raise.2 (.inl rfl)
  · split
    · rfl
    · rw [raise_mem]

end

/-! ### The island's control block, kicks and heartbeats (R519, R521, R529) -/

section
variable {s : State}

theorem islandWrite_spec (hrun : s.saf.islandRun = true) (v : ℕ) :
    s.islandWrite 0x04 v = { s with saf := { s.saf with evtMsg := v % 2 ^ 32 } }
    ∧ (bitAt v 0 = true → s.islandWrite 0x08 v = s.setAuth true 0x40) ∧ (bitAt v 0 = false → s.islandWrite 0x08 v = s)
    ∧ s.islandWrite 0x0C v = s.wr Reg.SAF_STAT_CONSENT [] (v % 2) ∧ s.islandWrite 0x10 v = s.kick v
    ∧ (s.saf.kicked = true → s.islandWrite 0x14 v = s)
    ∧ (s.saf.kicked = false → 1 ≤ v % 256 → v % 256 ≤ 100 → s.islandWrite 0x14 v = { s with saf := { s.saf with wdogMs := v % 256 } })
    ∧ s.islandWrite 0x00 v = s.answer .denied 0 ∧ s.islandWrite 0x18 v = s.answer .denied 0 := by
  have hoff : ∀ off, s.islandWrite off v = (if off = 0x04 then { s with saf := { s.saf with evtMsg := v % 2 ^ 32 } }
      else if off = 0x08 then (if bitAt v 0 then s.takeAuth else s) else if off = 0x0C then s.wr Reg.SAF_STAT_CONSENT [] (v % 2)
      else if off = 0x10 then s.kick v
      else if off = 0x14 then (if s.saf.kicked then s else if 1 ≤ v % 256 && v % 256 ≤ 100 then { s with saf := { s.saf with wdogMs := v % 256 } }
        else { s.drawn with saf := { s.saf with wdogMs := s.freeVal % 100 + 1 } })
      else if off = 0x00 || off = 0x18 then s.answer .denied 0 else s) := fun off => if_neg (by simp [hrun])
  have htake : s.takeAuth = s.setAuth true 0x40 := if_pos hrun
  refine ⟨hoff _, fun hbit => ?_, fun hbit => ?_, hoff _, hoff _, fun hkick => ?_, fun hkick hlow hhigh => ?_, hoff _, hoff _⟩
  · exact (hoff 0x08).trans ((if_pos hbit).trans htake)
  · exact (hoff 0x08).trans (if_neg (Bool.eq_false_iff.1 hbit))
  · exact (hoff 0x14).trans (if_pos hkick)
  · exact (hoff 0x14).trans ((if_neg (Bool.eq_false_iff.1 hkick)).trans (if_pos (by simp [hlow, hhigh])))

theorem kick_of_next {v : ℕ} (hrun : s.saf.islandRun = true) (hv : v % 2 ^ 16 = (s.saf.lastKick + 1) % 2 ^ 16) :
    s.kick v = { s with saf := { s.saf with kicked := true, lastKick := v % 2 ^ 16 } } := if_pos (by rw [hrun, decide_eq_true hv]; rfl)

theorem kick_of_other {v : ℕ} (hv : v % 2 ^ 16 ≠ (s.saf.lastKick + 1) % 2 ^ 16) : s.kick v = s :=
  if_neg (by rw [decide_eq_false hv, Bool.and_false]; decide)

section
variable {last v : ℕ} (hen : s.flag Reg.SAF_HB_CFG_EN [] = true) (hlater : s.saf.hbAny = false)
include hen hlater

theorem heartbeat_eq : s.heartbeat last v =
    (if v = (last + 1) % 2 ^ 16 && s.saf.hbTime + s.rd Reg.SAF_HB_CFG_MIN_MS [] * 1000000 ≤ s.now then
      { s.wr Reg.SAF_HB_SEQ [] v with saf := { s.saf with hbAny := false, hbTime := s.now, hbCount := s.saf.hbCount + 1 } }
    else s.raise 4) := by
  have hon : ¬ (!s.flag Reg.SAF_HB_CFG_EN []) = true := by rw [hen]; decide
  unfold State.heartbeat
  rw [if_neg hon, hlater, Bool.false_or]

theorem heartbeat_accepted (hv : v = (last + 1) % 2 ^ 16) (htime : s.saf.hbTime + s.rd Reg.SAF_HB_CFG_MIN_MS [] * 1000000 ≤ s.now) :
    (s.heartbeat last v).rd Reg.SAF_HB_SEQ [] = v ∧ (s.heartbeat last v).saf.hbCount = s.saf.hbCount + 1 ∧ (s.heartbeat last v).saf.hbTime = s.now := by
  have hlt : v < 2 ^ 16 := hv ▸ Nat.mod_lt _ (by decide)
  rw [heartbeat_eq hen hlater, if_pos (Bool.and_eq_true_iff.2 ⟨decide_eq_true hv, decide_eq_true htime⟩)]
  refine ⟨?_, rfl, rfl⟩
  rw [rd_withSaf, rd_wr_same _ _ _ _ (by decide)]
  exact Nat.mod_eq_of_lt hlt

theorem heartbeat_refused (hbad : v ≠ (last + 1) % 2 ^ 16 ∨ s.now < s.saf.hbTime + s.rd Reg.SAF_HB_CFG_MIN_MS [] * 1000000) :
    s.heartbeat last v = s.raise 4 := by
  rw [heartbeat_eq hen hlater]
  refine if_neg fun hok => ?_
  obtain ⟨hv, htime⟩ := Bool.and_eq_true_iff.1 hok
  have hv' := of_decide_eq_true hv
  have htime' := of_decide_eq_true htime
  exact hbad.elim (fun h => h hv') (fun h => by omega)

end

/-- The return of authority to the main domain (R519). -/
theorem authorityReturn_spec (hmay : s.mayReturn = true) : ∃ t, execAuthorityReturn s = .next t ∧ t.dusk = false ∧ t.rd Reg.NET_AAS_REQ_MAIN [] = 0
    ∧ t.rd Reg.SAF_STAT_CONSENT [] = 0 ∧ t.mem = s.mem := by
  refine ⟨_, if_pos hmay, dusk_setAuth _ _ _, reqMain_setAuth _ _ _ ?_, ?_, ?_⟩
  · rw [rd_wr_ne _ _ _ _ _ _ (by decide), rd_wr_same _ _ _ _ (by decide), Nat.zero_mod]
  · rw [rd_setAuth _ _ _ (by decide) (by decide), rd_wr_same _ _ _ _ (by decide), Nat.zero_mod]
  · rw [mem_setAuth, wr_mem, wr_mem]

end

/-- Settles O55, command by command. -/
theorem safetyEventsAndAuthority : Obligations.SafetyEventsAndAuthority := by
  unfold Obligations.SafetyEventsAndAuthority
  intro s
  refine ⟨fun e hsafe he hline hfree => fcuLatch_asserted hsafe he hline hfree,
    fun e hsafe he hline => ⟨fun hinner => fcuLatch_of_no_line (asserts_of_inner hinner) hline,
      fun houter hfree hlatched hup => fcuLatch_outer hsafe he hline houter hfree hlatched hup,
      fun hlow hdown => fcuLatch_of_no_line (asserts_of_down hlow hdown) hline⟩,
    fun hstop off v => congrArg go (if_pos (by rw [hstop]; rfl)), fun hrun v => ?_,
    fun e he => ⟨latched_latch s he, count_latch s he, dusk_latch s, latch_of_react4 s⟩, fun e => eventClr_of_kept,
    fun e _ hlow hfree hlatched => eventClr_of_latched hlow hfree hlatched, fun hrun => ⟨congrArg go (if_pos hrun), dusk_setAuth _ _ _⟩,
    fun v hrun hv => congrArg go (kick_of_next hrun hv), fun v hv => congrArg go (kick_of_other hv), fun hrun => if_pos hrun,
    fun e => mem_lines_raise.2 (.inl rfl), fun hen hlater last v => ⟨heartbeat_accepted hen hlater, heartbeat_refused hen hlater⟩,
    fun hen hup hparked => if_pos (by rw [hen, hup, hparked]; rfl), authorityReturn_spec, fun hmay => if_neg (Bool.eq_false_iff.1 hmay),
    fun e still hinj => injectionResample_spec hinj rfl still,
    fun groups hsafe => ⟨startupInjection_main hsafe groups, startupInjection_island hsafe groups, fun fails g => startupInjection_failed hsafe⟩,
    fun g evs ok d hsafe hg => runtimeInjection_spec hsafe evs ok d hg, fun hrun hfault hline => if_pos (by simp [hrun, hfault, hline])⟩
  obtain ⟨hmsg, htake, hkeep, hconsent, hkick, hwdog, hset, hctrl, hstat⟩ := islandWrite_spec hrun v
  exact ⟨congrArg go hmsg, fun h => congrArg go (htake h), fun h => congrArg go (hkeep h), congrArg go hconsent, congrArg go hkick,
    fun h => congrArg go (hwdog h), fun h hlow hhigh => congrArg go (hset h hlow hhigh), congrArg go hctrl, congrArg go hstat⟩

end Sys2Proof.Machine
end

section
/-! O56: records and their slots, alarms on the backup cell, wreck buffers and dumps. -/

namespace Sys2Proof.Machine

/-! ### Records (R531, R532) -/

theorem length_body (r : AlmRec) (seq : ℕ) : (r.body seq).length = 30 := by
  have hpay : ((r.payload ++ List.replicate 14 0).take 14 : List Byte).length = 14 := by
    rw [List.length_take, List.length_append, List.length_replicate]
    omega
  rw [AlmRec.body]
  simp only [List.length_append, length_leBytes, hpay]

section
variable (s : State)

/-- A record: its 32 bytes in its slot, and the words of `SEQ` and `HEAD` one on. -/
theorem putRecord_frame (r : AlmRec) : ∃ (b : List Byte) (alm : Alm), b.length = 32 ∧ s.putRecord r =
    { (s.wr Reg.ALM_SEQ [] (s.rd Reg.ALM_SEQ [] + 1)).wr Reg.ALM_HEAD [] (s.rd Reg.ALM_SEQ [] + 1) with
      mem := memPutBytes s.mem (slotAddr (s.rd Reg.ALM_SEQ [])) b, alm := alm } := by
  have hwr : ∀ (t : State) (m : List Host.Cell) (alm : Alm) (v : ℕ),
      (State.wr { t with mem := m, alm := alm } Reg.ALM_SEQ [] v).wr Reg.ALM_HEAD [] v =
      { (t.wr Reg.ALM_SEQ [] v).wr Reg.ALM_HEAD [] v with mem := m, alm := alm } := fun t m alm v => by
    have hone : ∀ (u : State) (x : Row), State.wr { u with mem := m, alm := alm } x [] v = { u.wr x [] v with mem := m, alm := alm } := fun _ _ => rfl
    rw [hone, hone]
  refine ⟨r.body (s.rd Reg.ALM_SEQ []) ++ leBytes 2 (chkOf (r.body (s.rd Reg.ALM_SEQ [])) s.alm.chk), _, ?_, hwr _ _ _ _⟩
  rw [List.length_append, length_body, length_leBytes]

theorem rd_withMemAlm (m : List Host.Cell) (alm : Alm) (q : Row) (jx : List ℕ) : State.rd { s with mem := m, alm := alm } q jx = s.rd q jx := rd_of_word rfl

theorem rd_putRecord (r : AlmRec) {q : Row} (hseq : q.Beside Reg.ALM_SEQ) (hhead : q.Beside Reg.ALM_HEAD) :
    (s.putRecord r).rd q [] = s.rd q [] := by
  obtain ⟨b, alm, -, heq⟩ := putRecord_frame s r
  rw [heq, rd_withMemAlm, rd_wr_beside _ _ _ hhead, rd_wr_beside _ _ _ hseq]

theorem putRecord_spec (r : AlmRec) : (s.putRecord r).rd Reg.ALM_SEQ [] = (s.rd Reg.ALM_SEQ [] + 1) % 2 ^ 32
    ∧ bytesWithin s (s.putRecord r) (slotAddr (s.rd Reg.ALM_SEQ [])) 32 := by
  obtain ⟨b, alm, hlen, heq⟩ := putRecord_frame s r
  constructor
  · rw [heq, rd_withMemAlm, rd_wr_beside _ _ _ (by decide), rd_wr_same _ _ _ _ (by decide)]
    rfl
  · rw [← hlen]
    exact bytesWithin_of_memPutBytes (by rw [heq])

theorem almanacRecord_of_intake {r : AlmRec} {rest : List AlmRec} (hin : s.alm.intake = r :: rest) :
    execAlmanacRecord s = .next (State.putRecord { s with alm := { s.alm with intake := rest } } r) := by
  unfold execAlmanacRecord
  rw [hin]

end

/-! ### Alarms on the backup cell (R539) -/

section
variable {s : State} {src : ℕ} (hsrc : src < 7) (hpower : s.pwr.pwrGood = false) (hcell : s.pwr.vbat = 0)
include hsrc hpower hcell

theorem backupAlarm_on : ∃ (r : AlmRec) (bkLast : List (ℕ × ℕ)) (wakeEnd : ℕ), execBackupAlarm src none s =
    (if !bitAt (s.rd Reg.ALM_BK_EN []) src || s.alm.bkLast.any (fun x => x.1 = src && s.now < x.2 + 1000000000) then go s
    else
      let t := s.drawn.putRecord r
      let u := (t.wr Reg.ALM_BK_LATCH [] (t.rd Reg.ALM_BK_LATCH [] ||| 2 ^ src)).wr Reg.ALM_STAT_BK_PENDING [] 1
      go { u with alm := { u.alm with bkLast := bkLast, wakeEnd := wakeEnd } }) := by
  have hon : ¬ (7 ≤ src || s.pwr.pwrGood || s.pwr.vbat ≠ 0) = true := by
    have hsrc' : ¬ 7 ≤ src := by omega
    simp [hsrc', hpower, hcell]
  unfold execBackupAlarm
  rw [if_neg hon]
  exact ⟨_, _, _, rfl⟩

theorem backupAlarm_of_disabled (hen : bitAt (s.rd Reg.ALM_BK_EN []) src = false) : execBackupAlarm src none s = .next s := by
  obtain ⟨r, bkLast, wakeEnd, heq⟩ := backupAlarm_on hsrc hpower hcell
  refine heq.trans (if_pos ?_)
  rw [hen]
  rfl

theorem backupAlarm_of_enabled (hen : bitAt (s.rd Reg.ALM_BK_EN []) src = true)
    (hquiet : ∀ x ∈ s.alm.bkLast, x.1 = src → x.2 + 1000000000 ≤ s.now) :
    ∃ t, execBackupAlarm src none s = .next t ∧ bitAt (t.rd Reg.ALM_BK_LATCH []) src = true ∧ t.rd Reg.ALM_STAT_BK_PENDING [] = 1
      ∧ t.rd Reg.ALM_SEQ [] = (s.rd Reg.ALM_SEQ [] + 1) % 2 ^ 32 ∧ bytesWithin s t (slotAddr (s.rd Reg.ALM_SEQ [])) 32 := by
  obtain ⟨r, bkLast, wakeEnd, heq⟩ := backupAlarm_on hsrc hpower hcell
  have hquiet' : s.alm.bkLast.any (fun x => x.1 = src && s.now < x.2 + 1000000000) = false := by
    refine List.any_eq_false.2 fun x hx hearly => ?_
    simp only [Bool.and_eq_true, decide_eq_true_eq] at hearly
    have hlate := hquiet x hx hearly.1
    omega
  obtain ⟨hseq, hbytes⟩ := putRecord_spec s.drawn r
  have hdrawn : s.drawn.rd Reg.ALM_SEQ [] = s.rd Reg.ALM_SEQ [] := rd_drawn s []
  rw [hdrawn] at hseq hbytes
  refine ⟨_, heq.trans (if_neg (by rw [hen, hquiet']; decide)), ?_, ?_, ?_, ?_⟩
  · rw [rd_withAlm, rd_wr_ne _ _ _ _ _ _ (by decide), rd_wr_same _ _ _ _ (by decide)]
    have hwidth : Reg.ALM_BK_LATCH.width = 7 := rfl
    rw [hwidth, bitAt, Nat.testBit_mod_two_pow, Nat.testBit_or, Nat.testBit_two_pow_self]
    simp [hsrc]
  · rw [rd_withAlm, rd_wr_same _ _ _ _ (by decide)]
    rfl
  · rw [rd_withAlm, rd_wr_ne _ _ _ _ _ _ (by decide), rd_wr_ne _ _ _ _ _ _ (by decide), hseq]
  · intro x hx
    have hmem := hbytes x hx
    dsimp only
    rw [wr_mem, wr_mem, hmem, drawn_mem]

end

theorem bkAck_spec (s : State) : s.bkAck.rd Reg.ALM_BK_LATCH [] = 0 ∧ s.bkAck.rd Reg.ALM_STAT_BK_PENDING [] = 0 := by
  unfold State.bkAck
  constructor
  · rw [rd_wr_ne _ _ _ _ _ _ (by decide), rd_wr_same _ _ _ _ (by decide), Nat.zero_mod]
  · rw [rd_wr_same _ _ _ _ (by decide), Nat.zero_mod]

/-! ### Wreck buffers (R542 to R545) -/

section
variable {s : State} {d : ℕ}

theorem mem_dies {fz : Fuses} (h : d ∈ dies fz) : d < 5 := List.mem_range.1 (List.mem_filter.1 h).1

theorem key_wreck {q : Row} (hspace : q.space = 0x12) (hbase : q.base = 0x10) (hdims : q.dims = [(1, 5)]) (d : ℕ) :
    q.key [d] = 0x12 * 2 ^ 17 + (0x10 + d) := by
  simp only [Row.key, wordKey, joinOffset, hspace, hbase, hdims, Nat.one_mul, Nat.add_zero]

/-- The buffer of a die starts its capture. -/
def State.armed (s : State) (cause d : ℕ) : State :=
  ((s.wr Reg.ALM_WRECK_STATE [d] 1).wr Reg.ALM_WRECK_CAUSE [d] cause).setWreck d { s.wreck d with left := s.rd Reg.ALM_CFG_POST [] * 256, trig := true }

theorem rd_setWreck (s : State) (d : ℕ) (w : Wreck) (q : Row) (jx : List ℕ) : (s.setWreck d w).rd q jx = s.rd q jx := rd_withAlm _ _ _ _

theorem rd_armed_state (s : State) (cause b : ℕ) :
    (s.armed cause b).rd Reg.ALM_WRECK_STATE [d] = if d = b then 1 else s.rd Reg.ALM_WRECK_STATE [d] := by
  unfold State.armed
  rw [rd_setWreck]
  split
  case isTrue h => rw [h, rd_wr_beside _ _ _ (by decide), rd_wr_same _ _ _ _ (by decide)]; rfl
  case isFalse h =>
    have hkey := key_wreck (q := Reg.ALM_WRECK_STATE) rfl rfl rfl
    have hcause := key_wreck (q := Reg.ALM_WRECK_CAUSE) rfl rfl rfl
    rw [rd_wr_ne _ _ _ _ _ _ (by rw [hkey, hcause]; omega), rd_wr_ne _ _ _ _ _ _ (by rw [hkey, hkey]; omega)]

theorem rd_armed_cause (s : State) (cause b : ℕ) :
    (s.armed cause b).rd Reg.ALM_WRECK_CAUSE [d] = if d = b then cause % 2 ^ 4 else s.rd Reg.ALM_WRECK_CAUSE [d] := by
  unfold State.armed
  rw [rd_setWreck]
  split
  case isTrue h => rw [h, rd_wr_same _ _ _ _ (by decide)]; rfl
  case isFalse h =>
    have hkey := key_wreck (q := Reg.ALM_WRECK_STATE) rfl rfl rfl
    have hcause := key_wreck (q := Reg.ALM_WRECK_CAUSE) rfl rfl rfl
    rw [rd_wr_ne _ _ _ _ _ _ (by rw [hcause, hcause]; omega), rd_wr_ne _ _ _ _ _ _ (by rw [hcause, hkey]; omega)]

theorem wordsWithin_wreck (s : State) {r : Row} {d : ℕ} (hd : d < 5) (hspace : r.space = 0x12) (hbase : r.base = 0x10) (hdims : r.dims = [(1, 5)])
    (v : ℕ) : wordsWithin s (s.wr r [d] v) [0x12] := by
  refine wordsWithin_wr s r [d] v ?_
  rw [key_wreck hspace hbase hdims, List.mem_singleton]
  omega

theorem wordsWithin_setWreck (s : State) (d : ℕ) (w : Wreck) (spaces : List ℕ) : wordsWithin s (s.setWreck d w) spaces :=
  wordsWithin_of_words rfl rfl _

theorem wordsWithin_armed (s : State) (cause : ℕ) {d : ℕ} (hd : d < 5) : wordsWithin s (s.armed cause d) [0x12] := by
  have hstate : wordsWithin s (s.wr Reg.ALM_WRECK_STATE [d] 1) [0x12] := wordsWithin_wreck s hd rfl rfl rfl 1
  unfold State.armed
  generalize s.wr Reg.ALM_WRECK_STATE [d] 1 = t at hstate ⊢
  exact (hstate.trans (wordsWithin_wreck t hd rfl rfl rfl cause)).trans (wordsWithin_setWreck _ _ _ _)

theorem armed_mem_triggers (s : State) (cause d : ℕ) : ((s.armed cause d).mem, (s.armed cause d).alm.triggers) = (s.mem, s.alm.triggers) := rfl

theorem missed_mem_triggers (s : State) (d : ℕ) : ((s.incSat Reg.ALM_WRECK_MISSED [d] 1).mem, (s.incSat Reg.ALM_WRECK_MISSED [d] 1).alm.triggers) =
    (s.mem, s.alm.triggers) := rfl

theorem wreckTrigger_of_next {x : ℕ × ℕ} (hnext : nextTrigger s.alm.triggers = some x) {t : State}
    (ht : t = { s with alm := { s.alm with triggers := s.alm.triggers.erase x } }) : execWreckTrigger s =
    (if ((dies t.fuses).filter (fun d => t.rd Reg.ALM_WRECK_STATE [d] ≠ 0)).isEmpty then go ((dies t.fuses).foldl (fun s d => s.armed x.1 d) t)
      else go (((dies t.fuses).filter (fun d => t.rd Reg.ALM_WRECK_STATE [d] ≠ 0)).foldl (fun s d => s.incSat Reg.ALM_WRECK_MISSED [d] 1) t)) := by
  unfold execWreckTrigger
  rw [hnext, ht]
  rfl

theorem wreckTrigger_spec {x : ℕ × ℕ} (hnext : nextTrigger s.alm.triggers = some x) :
    ∃ t, execWreckTrigger s = .next t ∧ t.alm.triggers = s.alm.triggers.erase x ∧ t.mem = s.mem ∧ wordsWithin s t [0x12]
      ∧ ((∀ d ∈ dies s.fuses, s.rd Reg.ALM_WRECK_STATE [d] = 0) →
          ∀ d ∈ dies s.fuses, t.rd Reg.ALM_WRECK_STATE [d] = 1 ∧ t.rd Reg.ALM_WRECK_CAUSE [d] = x.1 % 2 ^ 4)
      ∧ ((∃ d ∈ dies s.fuses, s.rd Reg.ALM_WRECK_STATE [d] ≠ 0) → ∀ d, d < 5 → t.rd Reg.ALM_WRECK_STATE [d] = s.rd Reg.ALM_WRECK_STATE [d]) := by
  have hexec := wreckTrigger_of_next hnext rfl
  have hrd : ∀ d, State.rd { s with alm := { s.alm with triggers := s.alm.triggers.erase x } } Reg.ALM_WRECK_STATE [d] = s.rd Reg.ALM_WRECK_STATE [d] :=
    fun d => rd_withAlm _ _ _ _
  have hwords : wordsWithin s { s with alm := { s.alm with triggers := s.alm.triggers.erase x } } [0x12] := wordsWithin_of_words rfl rfl _
  have hdies : dies (State.fuses { s with alm := { s.alm with triggers := s.alm.triggers.erase x } }) = dies s.fuses := rfl
  have hkept : (State.mem { s with alm := { s.alm with triggers := s.alm.triggers.erase x } },
      (State.alm { s with alm := { s.alm with triggers := s.alm.triggers.erase x } }).triggers) = (s.mem, s.alm.triggers.erase x) := rfl
  rw [hdies] at hexec
  generalize ({ s with alm := { s.alm with triggers := s.alm.triggers.erase x } } : State) = u at hexec hrd hwords hkept
  have hbusy : ((dies s.fuses).filter (fun d => u.rd Reg.ALM_WRECK_STATE [d] ≠ 0)).isEmpty = true ↔ ∀ d ∈ dies s.fuses, s.rd Reg.ALM_WRECK_STATE [d] = 0 := by
    rw [List.isEmpty_iff, List.filter_eq_nil_iff]
    simp only [hrd, decide_eq_true_eq, not_not]
  by_cases hidle : ∀ d ∈ dies s.fuses, s.rd Reg.ALM_WRECK_STATE [d] = 0
  · have hkeep := (foldl_keeps (g := fun t : State => (t.mem, t.alm.triggers)) (fun t d => armed_mem_triggers t x.1 d) (dies s.fuses) u).trans hkept
    obtain ⟨hmem, htrig⟩ := Prod.mk.inj hkeep
    refine ⟨_, hexec.trans (if_pos (hbusy.2 hidle)), htrig, hmem, hwords.trans (wordsWithin_foldl (fun d hd t => wordsWithin_armed t x.1 (mem_dies hd)) u),
      fun _ d hd => ⟨?_, ?_⟩, fun ⟨d, hd, hne⟩ => absurd (hidle d hd) hne⟩
    · exact (foldl_sets (g := fun t : State => t.rd Reg.ALM_WRECK_STATE [d]) (fun t b => rd_armed_state t x.1 b) _ _).trans (if_pos hd)
    · exact (foldl_sets (g := fun t : State => t.rd Reg.ALM_WRECK_CAUSE [d]) (fun t b => rd_armed_cause t x.1 b) _ _).trans (if_pos hd)
  · have hkeep := (foldl_keeps (g := fun t : State => (t.mem, t.alm.triggers)) (fun t d => missed_mem_triggers t d)
      ((dies s.fuses).filter (fun d => u.rd Reg.ALM_WRECK_STATE [d] ≠ 0)) u).trans hkept
    obtain ⟨hmem, htrig⟩ := Prod.mk.inj hkeep
    refine ⟨_, hexec.trans (if_neg (mt hbusy.1 hidle)), htrig, hmem,
      hwords.trans (wordsWithin_foldl (fun d hd t => wordsWithin_wreck t (mem_dies (List.mem_of_mem_filter hd)) rfl rfl rfl _) u),
      fun h => absurd h hidle, fun _ d _ => ?_⟩
    refine (foldl_keeps (g := fun t : State => t.rd Reg.ALM_WRECK_STATE [d]) (fun t b => ?_) _ _).trans (hrd d)
    refine rd_wr_other t _ _ _ _ _ ?_
    exact .inr (.inl (by decide))

/-- A buffer that has recorded its last entry freezes (R544). -/
theorem wreckFreeze_spec (hd : d ∈ dies s.fuses) (hstate : s.rd Reg.ALM_WRECK_STATE [d] = 1) (hleft : (s.wreck d).left = 0) :
    ∃ t, execWreckFreeze d s = .next t ∧ t.rd Reg.ALM_WRECK_STATE [d] = 2 ∧ t.mem = s.mem := by
  have hfrozen : (s.freezeWreck d).rd Reg.ALM_WRECK_STATE [d] = 2 := by
    unfold State.freezeWreck
    rw [rd_wr_beside _ _ _ (by decide), rd_wr_same _ _ _ _ (by decide)]
    rfl
  have hmem : (s.freezeWreck d).mem = s.mem := by
    unfold State.freezeWreck
    rw [wr_mem, wr_mem]
  refine ⟨_, if_pos (by simp [hd, hstate, hleft]), ?_, ?_⟩
  · unfold State.wreckRecord
    dsimp only
    split
    · exact hfrozen
    · refine (rd_of_word (word_record_ne _ _ _ _ ?_)).trans hfrozen
      have hlost : Reg.ALM_STAT_LOST.key [] = 0x12 * 2 ^ 17 + 4 := rfl
      rw [key_wreck rfl rfl rfl, hlost]
      omega
  · unfold State.wreckRecord
    dsimp only
    split
    · exact hmem
    · rw [record_frame]
      exact hmem

theorem wreckRearm_spec (hd : d ∈ dies s.fuses) : (s.wreckRearm d).rd Reg.ALM_WRECK_STATE [d] = 0 ∧ (s.wreckRearm d).wreck d = {} := by
  rw [State.wreckRearm, if_pos (List.contains_iff_mem.2 hd)]
  refine ⟨?_, tget_tput_same _ _ _ _⟩
  rw [rd_setWreck, rd_wr_same _ _ _ _ (by decide), Nat.zero_mod]

theorem dumpGo_spec (s : State) : s.dumpGo.rd Reg.ALM_DUMP_DONE [] = 0
    ∧ s.dumpGo.alm.dump = some (s.rd Reg.ALM_DUMP_DIE [], s.rdPair Reg.ALM_DUMP_ADDR_LO Reg.ALM_DUMP_ADDR_HI []) := by
  unfold State.dumpGo
  refine ⟨?_, rfl⟩
  rw [rd_withAlm, rd_wr_same _ _ _ _ (by decide), Nat.zero_mod]

/-- The end of a dump (R548). -/
theorem dumpDone_of_dump {a : ℕ} {st : Status} {t u : State} (hdump : s.alm.dump = some (d, a)) (hfresh : s.fresh partyAlmanac = true)
    (hwrite : ((s.inRun partyAlmanac).dumpBytes d).2.dmaWrite { tag := 34, pid := 0, src := .xd 0, kind := .write, firm := true } a
      ((s.inRun partyAlmanac).dumpBytes d).1 = (st, t)) (hstall : t.fab.stall = none)
    (hu : u = (t.wr Reg.ALM_DUMP_STATUS [] (statusCode st)).wr Reg.ALM_DUMP_DONE [] 1) :
    execDumpDone s = .next ((State.send { u with alm := { u.alm with dump := none } } 0 (u.rd Reg.ALM_CTRL_VEC [])).ended partyAlmanac)
      ∧ u.rd Reg.ALM_DUMP_DONE [] = 1 := by
  have hfab : u.fab = t.fab := by rw [hu, wr_fab, wr_fab]
  have hdump' : (s.inRun partyAlmanac).alm.dump = some (d, a) := hdump
  constructor
  · refine attempt_of_unstopped (partyWaits_of_fresh hfresh) ?_ ?_
    · dsimp only
      rw [hdump']
      dsimp only
      rw [hwrite, ← hu]
    · rw [send_frame]
      exact (congrArg Fab.stall hfab).trans hstall
  · rw [hu, rd_wr_same _ _ _ _ (by decide)]
    rfl

end

/-- Settles O56, command by command. -/
theorem almanacRingAndWreckBuffers : Obligations.AlmanacRingAndWreckBuffers := by
  unfold Obligations.AlmanacRingAndWreckBuffers
  intro s
  obtain ⟨hlatch, hpending⟩ := bkAck_spec s
  obtain ⟨hdone, hdump⟩ := dumpGo_spec s
  exact ⟨fun r rest => almanacRecord_of_intake s, putRecord_spec s,
    fun src hsrc hpower hcell => ⟨backupAlarm_of_disabled hsrc hpower hcell, backupAlarm_of_enabled hsrc hpower hcell⟩, hlatch, hpending,
    fun x => wreckTrigger_spec, fun d => wreckFreeze_spec, fun d => wreckRearm_spec, hdone, hdump,
    fun d a st t hd hfresh hwrite hstall => dumpDone_of_dump hd hfresh hwrite hstall rfl⟩

end Sys2Proof.Machine
end

section
/-! O57: cold boot, the warm reset, power, and the reset of an instance. The reset of the main domain is followed through what its steps keep. -/

namespace Sys2Proof.Machine

/-! ### Cold boot (R549, R551) -/

theorem rd_withPwr (s : State) (pwr : Pwr) (q : Row) (jx : List ℕ) : State.rd { s with pwr := pwr } q jx = s.rd q jx := rd_of_word rfl

theorem rd_withCmpBoot (s : State) (cmp : Cmp) (boot : Boot) (q : Row) (jx : List ℕ) : State.rd { s with cmp := cmp, boot := boot } q jx = s.rd q jx :=
  rd_of_word rfl

/-- A boot that fails leaves the Command Processor in state 2, `PHASE` 6 and event 20 (R551). -/
theorem bootFail_spec (s : State) (st : Status) (off : ℕ) :
    (s.bootFail st off).cmp.state = 2 ∧ (s.bootFail st off).rd Reg.BOOT_STAT_PHASE [] = 6 ∧ 20 ∈ (s.bootFail st off).saf.lines := by
  unfold State.bootFail
  refine ⟨?_, ?_, mem_lines_raise.2 (.inl rfl)⟩
  · rw [raise_frame]
    rfl
  · rw [rd_raise, rd_wr_ne _ _ _ _ _ _ (by decide), rd_withCmpBoot, rd_wr_same _ _ _ _ (by decide)]
    rfl

theorem loadMain_of_unreadable (s : State) {f : Flash} (hunread : f.readable = false) (needs : List ℕ) :
    s.loadMain f needs = s.bootFail .notReady 0 := by
  have hpick : pickCopy s.fuses f needs = none := if_pos (by rw [hunread]; rfl)
  unfold State.loadMain
  rw [hpick, hunread]
  rfl

theorem loadMain_of_unreadable_spec (s : State) {f : Flash} (hunread : f.readable = false) (needs : List ℕ) :
    (s.loadMain f needs).cmp.state = 2 ∧ (s.loadMain f needs).rd Reg.BOOT_STAT_PHASE [] = 6 ∧ 20 ∈ (s.loadMain f needs).saf.lines := by
  rw [loadMain_of_unreadable s hunread]
  exact bootFail_spec s _ _

section
variable {s : State}

/-- The supervisor runs: `PHASE` 5, the Command Processor in state 1, and hart 0 at the entry (R557). -/
theorem supervisorRunning_spec (hup : s.boot.mainUp = true) (hphase : s.rd Reg.BOOT_STAT_PHASE [] = 4) :
    ∃ t, execSupervisorRunning s = .next t ∧ t.rd Reg.BOOT_STAT_PHASE [] = 5 ∧ t.cmp.state = 1 ∧ t.boot.cold = false ∧ t.boot.warm = false
      ∧ (t.hart 0).pc = 0x1000 + s.boot.entry ∧ tget 0 (t.hart 0).x 11 = 0x1000 ∧ t.mem = s.mem := by
  have hon : ¬ (!s.boot.mainUp || s.rd Reg.BOOT_STAT_PHASE [] ≠ 4) = true := by simp [hup, hphase]
  have hrd : (s.wr Reg.BOOT_STAT_PHASE [] 5).rd Reg.BOOT_STAT_PHASE [] = 5 := by
    rw [rd_wr_same _ _ _ _ (by decide)]
    rfl
  have hboot : (s.wr Reg.BOOT_STAT_PHASE [] 5).boot = s.boot := wr_boot _ _ _ _
  have hmem : (s.wr Reg.BOOT_STAT_PHASE [] 5).mem = s.mem := wr_mem _ _ _ _
  unfold execSupervisorRunning
  rw [if_neg hon, ← hboot, ← hmem]
  generalize s.wr Reg.BOOT_STAT_PHASE [] 5 = u at hrd
  refine ⟨_, rfl, (rd_of_word rfl).trans hrd, rfl, rfl, rfl, ?_, ?_, rfl⟩
  · rw [hart_setHart_same]
  · rw [hart_setHart_same]
    rfl

end

/-! ### The warm reset (R522, R524, R564) -/

section
variable (s : State)

theorem flushAll_of_empty (hcache : s.hbm.cache = []) : s.flushAll = s := by
  rw [State.flushAll, hcache]
  rfl

section
variable (words : List (ℕ × Word)) (alm : Alm) (saf : Saf)

theorem setLine_with (pa : ℕ) (l : Line) : State.setLine { s with words := words, alm := alm, saf := saf } pa l =
    { s.setLine pa l with words := words, alm := alm, saf := saf } := rfl

theorem freshLine_with (pa slot : ℕ) (b : List Byte) : State.freshLine { s with words := words, alm := alm, saf := saf } pa slot b = s.freshLine pa slot b := rfl

theorem lineBytes_with (pa : ℕ) : State.lineBytes { s with words := words, alm := alm, saf := saf } pa = s.lineBytes pa := rfl

theorem lineAt_with (pa : ℕ) : State.lineAt { s with words := words, alm := alm, saf := saf } pa = s.lineAt pa := rfl

theorem uncache_with (line : ℕ) : State.uncache { s with words := words, alm := alm, saf := saf } line =
    { s.uncache line with words := words, alm := alm, saf := saf } := rfl

theorem evict_of_dirty {c : CacheLine} (h : c.dirty = true) : s.evict c = (s.uncache c.line).setLine (c.line * 64)
    ((s.uncache c.line).freshLine (c.line * 64) c.slot ((s.uncache c.line).lineBytes (c.line * 64))) := if_pos h

theorem evict_of_poisoned {c : CacheLine} (h : c.dirty = false) (hp : ((s.uncache c.line).lineAt (c.line * 64)).poisoned = true) :
    s.evict c = { s.uncache c.line with mem := memPutBytes (s.uncache c.line).mem (c.line * 64) (List.replicate 64 0) } :=
  (if_neg (Bool.eq_false_iff.1 h)).trans (if_pos hp)

theorem evict_of_clean {c : CacheLine} (h : c.dirty = false) (hp : ((s.uncache c.line).lineAt (c.line * 64)).poisoned = false) :
    s.evict c = s.uncache c.line := (if_neg (Bool.eq_false_iff.1 h)).trans (if_neg (Bool.eq_false_iff.1 hp))

/-- The system cache's write-back rests on the line store alone. -/
theorem evict_with (c : CacheLine) :
    State.evict { s with words := words, alm := alm, saf := saf } c = { s.evict c with words := words, alm := alm, saf := saf } := by
  have hpoison : ((State.uncache { s with words := words, alm := alm, saf := saf } c.line).lineAt (c.line * 64)).poisoned =
      ((s.uncache c.line).lineAt (c.line * 64)).poisoned := by rw [uncache_with, lineAt_with]
  cases hdirty : c.dirty with
  | true => rw [evict_of_dirty _ hdirty, evict_of_dirty _ hdirty, uncache_with, lineBytes_with, freshLine_with, setLine_with]
  | false =>
    cases hp : ((s.uncache c.line).lineAt (c.line * 64)).poisoned with
    | true => rw [evict_of_poisoned _ hdirty (hpoison.trans hp), evict_of_poisoned _ hdirty hp, uncache_with]
    | false => rw [evict_of_clean _ hdirty (hpoison.trans hp), evict_of_clean _ hdirty hp, uncache_with]

theorem flushAll_with :
    State.flushAll { s with words := words, alm := alm, saf := saf } = { s.flushAll with words := words, alm := alm, saf := saf } := by
  have hfold : ∀ (l : List CacheLine) (t : State), l.foldl State.evict { t with words := words, alm := alm, saf := saf } =
      { l.foldl State.evict t with words := words, alm := alm, saf := saf } := by
    intro l
    induction l with
    | nil => exact fun _ => rfl
    | cons c l ih => exact fun t => by rw [List.foldl_cons, List.foldl_cons, evict_with, ih]
  exact hfold _ _

end

theorem flushAll_fuses_saf : (s.flushAll.fuses, s.flushAll.saf) = (s.fuses, s.saf) := by
  refine foldl_keeps (g := fun t : State => (t.fuses, t.saf)) (fun t c => ?_) _ _
  have hunc : ∃ hbm, t.uncache c.line = { t with hbm := hbm } := ⟨_, rfl⟩
  obtain ⟨hbm, hunc⟩ := hunc
  unfold State.evict
  rw [hunc]
  dsimp only
  split
  · rfl
  · split <;> rfl

/-- What a record and a write of a word leave unchanged, a wreck buffer that freezes leaves unchanged too. -/
theorem freezeWrecks_keeps {β : Type} {g : State → β} (hwr : ∀ t r jx v, g (State.wr t r jx v) = g t)
    (hrec : ∀ t code tag l, g (State.record t code tag l) = g t) : g s.freezeWrecks = g s := by
  have hall : ∀ (l : List ℕ), g (l.foldl State.freezeWreck s) = g s := fun l => foldl_keeps (fun t d => by
    unfold State.freezeWreck
    rw [hwr, hwr]) l s
  unfold State.freezeWrecks
  split
  · rfl
  · unfold State.wreckRecord
    dsimp only
    split
    · exact hall _
    · rw [hrec, hall]

theorem breakSem_keeps {β : Type} {g : State → β} (hwr : ∀ t r jx v, g (State.wr t r jx v) = g t)
    (hrec : ∀ t code tag l, g (State.record t code tag l) = g t) (k : ℕ) : g (s.breakSem k) = g s := by
  unfold State.breakSem
  dsimp only
  split
  · rw [hwr, hwr, hrec, hwr]
  · rw [hwr]

/-- The state in which the main domain's reset finds what outlives it: the cache written back, the wreck buffers frozen, the semaphores broken. -/
def State.beforeReset (s : State) : State := (List.range 256).foldl State.breakSem s.flushAll.freezeWrecks

theorem beforeReset_keeps {β : Type} {g : State → β} (hwr : ∀ t r jx v, g (State.wr t r jx v) = g t)
    (hrec : ∀ t code tag l, g (State.record t code tag l) = g t) : g s.beforeReset = g s.flushAll :=
  (foldl_keeps (fun t k => breakSem_keeps t hwr hrec k) _ _).trans (freezeWrecks_keeps _ hwr hrec)

/-- The words that the end of a main domain's reset writes. -/
def State.resetEnd (t : State) (fail gen restarts : ℕ) : State :=
  ((List.range 32).foldl (fun s i => s.wr Reg.BOOT_IRST_BUSY [i] 0)
    (((t.wr Reg.PWR_AVS_FAIL [] fail).wr Reg.ENC_MON_GEN [] gen).wr Reg.ENC_MON_RESTARTS [] restarts)).wr Reg.BOOT_STAT_PHASE [] 0

theorem resetEnd_keeps {β : Type} {g : State → β} (hwr : ∀ t r jx v, g (State.wr t r jx v) = g t) (fail gen restarts : ℕ) :
    g (s.resetEnd fail gen restarts) = g s := by
  unfold State.resetEnd
  rw [hwr, foldl_keeps (fun t i => hwr t _ _ _), hwr, hwr, hwr]

/-- What the reset of the main domain keeps of a state, before the words of its end (R564). -/
def State.cleared (s : State) : State :=
  let t : State := { s with
    words := s.words.filter (fun e => warmKeeps e.1)
    msgs := []
    cmp := { state := 3 }
    ttu := {}
    orr := {}
    fab := {}
    hbm := { lines := s.hbm.lines, serials := s.hbm.serials, keys := s.hbm.keys, repaired := s.hbm.repaired, hard := s.hbm.hard,
             blank := s.hbm.blank, groupUsed := s.hbm.groupUsed, doomed := s.hbm.doomed ++ s.enclaveRanges, further := s.hbm.further,
             unreported := s.hbm.unreported,
             spares := s.hbm.spares.map (fun e => (e.1, { e.2 with ready := false })) }
    apc := {}
    enc := { measures := s.enc.measures, firmware := s.enc.firmware }
    cry := {}
    inf := { retired := s.inf.retired, lost := s.inf.lost }
    gfx := {}
    dsp := []
    sxt := {}
    net := { can := s.net.can.filter (fun e => e.1 < 4), moves := s.net.moves, wire := s.net.wire.filter (fun e => 1024 ≤ e.1 && e.1 < 1028) }
    saf := { s.saf with hbAny := true, hbCount := 0, mainInjected := false, restart := none }
    clk := { s.clk with apcGoal := none, gfxGoal := none }
    boot := { s.boot with mainUp := false, golden := none, released := []
                          wonce := s.boot.wonce.filter (fun k => k / 32 / 2 ^ 17 ≠ 0x04 && k / 32 / 2 ^ 17 ≠ 0x08) }
    pwr := { s.pwr with nextReq := [], avsTries := [], avsGoal := [] } }
  { t with words := t.words.filter (fun e => e.1 ≠ wordKey 0x10 0x40 && e.1 ≠ wordKey 0x06 0x200) }

theorem mainReset_eq : s.mainReset = s.beforeReset.cleared.resetEnd (s.beforeReset.rd Reg.PWR_AVS_FAIL []) (s.beforeReset.rd Reg.ENC_MON_GEN [])
    (s.beforeReset.rd Reg.ENC_MON_RESTARTS []) := rfl

/-- What the reset of the main domain leaves (R564). -/
theorem mainReset_spec : s.mainReset.boot.mainUp = false ∧ s.mainReset.fuses = s.fuses ∧ s.mainReset.msgs = [] ∧ s.mainReset.hbm.cache = []
    ∧ s.mainReset.mem = s.flushAll.mem ∧ s.mainReset.hbm.lines = s.flushAll.hbm.lines ∧ s.mainReset.saf.restart = none
    ∧ s.mainReset.saf.restarts = s.saf.restarts := by
  have hend : ∀ {β : Type} (g : State → β), (∀ t r jx v, g (State.wr t r jx v) = g t) → g s.mainReset = g s.beforeReset.cleared := fun g hwr => by
    rw [mainReset_eq, resetEnd_keeps _ hwr]
  have hclear : ∀ u : State, u.cleared.boot.mainUp = false ∧ u.cleared.fuses = u.fuses ∧ u.cleared.msgs = [] ∧ u.cleared.hbm.cache = []
      ∧ u.cleared.mem = u.mem ∧ u.cleared.hbm.lines = u.hbm.lines ∧ u.cleared.saf.restart = none ∧ u.cleared.saf.restarts = u.saf.restarts :=
    fun u => ⟨rfl, rfl, rfl, rfl, rfl, rfl, rfl, rfl⟩
  obtain ⟨hup, hfuses, hmsgs, hcache, hmem, hlines, hrestart, hrestarts⟩ := hclear s.beforeReset
  have hbefore : ∀ {β : Type} (g : State → β), (∀ t r jx v, g (State.wr t r jx v) = g t) → (∀ t code tag l, g (State.record t code tag l) = g t) →
      g s.beforeReset = g s.flushAll := fun g hwr hrec => beforeReset_keeps s hwr hrec
  obtain ⟨hfuses', hsaf'⟩ := Prod.mk.inj (flushAll_fuses_saf s)
  refine ⟨?_, ?_, ?_, ?_, ?_, ?_, ?_, ?_⟩
  · rw [hend State.boot wr_boot, hup]
  · rw [hend State.fuses wr_fuses, hfuses, hbefore State.fuses wr_fuses (fun _ _ _ _ => by rw [record_frame]), hfuses']
  · rw [hend State.msgs wr_msgs, hmsgs]
  · rw [hend State.hbm wr_hbm, hcache]
  · rw [hend State.mem wr_mem, hmem, hbefore State.mem wr_mem (fun _ _ _ _ => by rw [record_frame])]
  · rw [hend State.hbm wr_hbm, hlines, hbefore State.hbm wr_hbm (fun _ _ _ _ => by rw [record_frame])]
  · rw [hend State.saf wr_saf, hrestart]
  · rw [hend State.saf wr_saf, hrestarts, hbefore State.saf wr_saf (fun _ _ _ _ => by rw [record_frame]), hsaf']

/-- The reset of the main domain after an order's bookkeeping, which changes words, the Almanac and the island alone. -/
theorem mainReset_with (words : List (ℕ × Word)) (alm : Alm) (saf : Saf) {t : State} (ht : t = State.mainReset { s with words := words, alm := alm, saf := saf }) :
    t.boot.mainUp = false ∧ t.fuses = s.fuses ∧ t.msgs = [] ∧ t.hbm.cache = [] ∧ t.mem = s.flushAll.mem
      ∧ t.hbm.lines = s.flushAll.hbm.lines ∧ t.saf.restart = none ∧ t.saf.restarts = saf.restarts := by
  obtain ⟨hup, hfuses, hmsgs, hcache, hmem, hlines, hrestart, hrestarts⟩ := mainReset_spec { s with words := words, alm := alm, saf := saf }
  rw [flushAll_with] at hmem hlines
  rw [ht]
  exact ⟨hup, hfuses, hmsgs, hcache, hmem, hlines, hrestart, hrestarts⟩

/-- A state that differs from `s` in words, the Almanac and the island's `saf` alone. -/
def State.Booked (s : State) (saf : Saf) (t : State) : Prop := ∃ words alm, t = { s with words := words, alm := alm, saf := saf }

section
variable {s} {saf : Saf} {t : State}

theorem booked_wr (h : s.Booked saf t) (r : Row) (jx : List ℕ) (v : ℕ) : s.Booked saf (t.wr r jx v) := by
  obtain ⟨words, alm, rfl⟩ := h
  exact ⟨_, alm, rfl⟩

theorem booked_record (h : s.Booked saf t) (code tag : ℕ) (l : List Byte) : s.Booked saf (t.record code tag l) := by
  obtain ⟨words, alm, rfl⟩ := h
  exact ⟨_, _, record_frame _ _ _ _⟩

end

section
variable {s} {e : ℕ} (hrestart : s.saf.restart = some e) (hup : s.boot.mainUp = true) {u : State}
  (hu : u = { s with saf := { s.saf with restart := none, restarts := s.recentRestarts } })
include hrestart hup hu

theorem warmResetAssert_eq : ∃ (a b : ℕ) (c d : List Byte), execWarmResetAssert s =
    (if u.rd Reg.SAF_RST_MAX [] < s.recentRestarts.length + 1 then
      go { ((u.record 0x03 34 c).wr Reg.SAF_RST_PARKED [] 1).mainReset with
        boot := { ((u.record 0x03 34 c).wr Reg.SAF_RST_PARKED [] 1).mainReset.boot with warm := false, cold := false } }
    else
      let v := ({ u with saf := { u.saf with restarts := s.recentRestarts ++ [u.now] } } : State).wr Reg.SAF_RST_COUNT [] a
      let w := (((v.record 0x02 34 d).wr Reg.BOOT_STAT_CAUSE [] b).incSat Reg.BOOT_STAT_WARMS [] 1).mainReset
      go { w with boot := { w.boot with warm := true, cold := false } }) := by
  have hon : ¬ (!s.boot.mainUp) = true := by rw [hup]; decide
  unfold execWarmResetAssert
  rw [hrestart]
  dsimp only
  rw [if_neg hon, hu]
  exact ⟨_, _, _, _, rfl⟩

/-- An ordered warm reset: the main domain down, the cache written back, and the restart counted or the domain parked (R522, R524). -/
theorem warmResetAssert_cases : ∃ (words : List (ℕ × Word)) (alm : Alm) (saf : Saf) (warm : Bool), execWarmResetAssert s =
    .next { State.mainReset { s with words := words, alm := alm, saf := saf } with
      boot := { (State.mainReset { s with words := words, alm := alm, saf := saf }).boot with warm := warm, cold := false } }
    ∧ (s.recentRestarts.length + 1 ≤ s.rd Reg.SAF_RST_MAX [] → warm = true ∧ saf.restarts = s.recentRestarts ++ [s.now])
    ∧ (s.rd Reg.SAF_RST_MAX [] < s.recentRestarts.length + 1 → warm = false) := by
  obtain ⟨a, b, c, d, heq⟩ := warmResetAssert_eq hrestart hup hu
  have hmax : u.rd Reg.SAF_RST_MAX [] = s.rd Reg.SAF_RST_MAX [] := by rw [hu, rd_withSaf]
  have hbooked : s.Booked { s.saf with restart := none, restarts := s.recentRestarts } u := ⟨s.words, s.alm, hu⟩
  by_cases hpark : u.rd Reg.SAF_RST_MAX [] < s.recentRestarts.length + 1
  · rw [if_pos hpark] at heq
    obtain ⟨words, alm, hx⟩ := booked_wr (booked_record hbooked 0x03 34 c) Reg.SAF_RST_PARKED [] 1
    rw [hx] at heq
    exact ⟨words, alm, _, false, heq, fun h => absurd h (by rw [← hmax]; omega), fun _ => rfl⟩
  · rw [if_neg hpark] at heq
    have hcount : s.Booked { u.saf with restarts := s.recentRestarts ++ [u.now] } { u with saf := { u.saf with restarts := s.recentRestarts ++ [u.now] } } :=
      ⟨s.words, s.alm, by rw [hu]⟩
    obtain ⟨words, alm, hx⟩ := booked_wr (booked_wr (booked_record (booked_wr hcount Reg.SAF_RST_COUNT [] a) 0x02 34 d) Reg.BOOT_STAT_CAUSE [] b)
      Reg.BOOT_STAT_WARMS [] (satTo Reg.BOOT_STAT_WARMS.width (State.rd (State.wr (State.record (State.wr
        { u with saf := { u.saf with restarts := s.recentRestarts ++ [u.now] } } Reg.SAF_RST_COUNT [] a) 0x02 34 d) Reg.BOOT_STAT_CAUSE [] b) Reg.BOOT_STAT_WARMS [] + 1))
    dsimp only [State.incSat] at heq
    rw [hx] at heq
    exact ⟨words, alm, _, true, heq, fun _ => ⟨rfl, by rw [hu]⟩, fun h => absurd (hmax.trans_lt h) hpark⟩

end

theorem warmResetAssert_spec {e : ℕ} (hrestart : s.saf.restart = some e) (hup : s.boot.mainUp = true) :
    ∃ t, execWarmResetAssert s = .next t ∧ t.boot.mainUp = false ∧ t.fuses = s.fuses ∧ t.msgs = [] ∧ t.hbm.cache = []
      ∧ t.mem = s.flushAll.mem ∧ t.hbm.lines = s.flushAll.hbm.lines ∧ t.saf.restart = none
      ∧ (s.recentRestarts.length + 1 ≤ s.rd Reg.SAF_RST_MAX [] → t.boot.warm = true ∧ t.saf.restarts = s.recentRestarts ++ [s.now])
      ∧ (s.rd Reg.SAF_RST_MAX [] < s.recentRestarts.length + 1 → t.boot.warm = false) := by
  obtain ⟨words, alm, saf, warm, heq, hwarm, hpark⟩ := warmResetAssert_cases hrestart hup rfl
  obtain ⟨m, hm⟩ : ∃ m, m = State.mainReset { s with words := words, alm := alm, saf := saf } := ⟨_, rfl⟩
  rw [← hm] at heq
  obtain ⟨hdown, hfuses, hmsgs, hcache, hmem, hlines, hnone, hrestarts⟩ := mainReset_with s words alm saf hm
  exact ⟨_, heq, hdown, hfuses, hmsgs, hcache, hmem, hlines, hnone, fun h => ⟨(hwarm h).1, hrestarts.trans (hwarm h).2⟩, hpark⟩

end

/-! ### The Monitor and the restart (R565, R567) -/

section
variable (s : State)

theorem state_monHalt : s.monHalt.rd Reg.ENC_MON_STATE [] = 2 := by
  unfold State.monHalt
  dsimp only
  rw [send_rd, rd_record_before _ _ _ _ (by decide), rd_wr_same _ _ _ _ (by decide)]
  rfl

/-- A Monitor whose firmware does not verify stays halted. -/
theorem rewakeMonitor_unverified : (s.rewakeMonitor false).rd Reg.ENC_MON_STATE [] = 2 := by
  by_cases hgen : s.rd Reg.ENC_MON_GEN [] = 7
  · have heq : s.rewakeMonitor false = s.monHalt := if_pos hgen
    rw [heq, state_monHalt]
  · have heq : s.rewakeMonitor false = ((s.wr Reg.ENC_MON_STATE [] 1).incSat Reg.ENC_MON_RESTARTS [] 1).monHalt := (if_neg hgen).trans (if_pos rfl)
    rw [heq, state_monHalt]

theorem warmRestart_of_warm {f : Flash} {verified : Bool} (hwarm : s.boot.warm = true) (hdown : s.boot.mainUp = false) (hbooted : s.boot.failed = false)
    (htrip : s.pwr.tripHold = false) (hpin : s.pwr.warmRstN = true) (hsafe : s.safeUp = true) {b : State}
    (hb : b = { s.releaseMain with hbm := { s.releaseMain.hbm with verifying := true } }) :
    execWarmRestart f verified s = .next (((b.wr Reg.BOOT_STAT_SLOW [] (if f.fast then 0 else 1)).rewakeMonitor verified).loadMain f [2, 5]) := by
  have hon : ¬ (!s.boot.warm || s.boot.mainUp || s.boot.failed || s.pwr.tripHold || !s.pwr.warmRstN || !s.safeUp) = true := by
    rw [hwarm, hdown, hbooted, htrip, hpin, hsafe]
    decide
  unfold execWarmRestart
  rw [if_neg hon, hb]

theorem words_raise (e : ℕ) : (s.raise e).words = s.words := by rw [raise_frame]

theorem pwr_raise (e : ℕ) : (s.raise e).pwr = s.pwr := by rw [raise_frame]

theorem warmRstNAssert_spec (hsafe : s.safeUp = true) (hpin : s.pwr.warmRstN = true) :
    ∃ t, execWarmRstNAssert s = .next t ∧ t.pwr.warmRstN = false ∧ 24 ∈ t.saf.lines ∧ t.words = s.words ∧ t.mem = s.mem := by
  have hon : ¬ (!s.pwr.warmRstN) = true := by rw [hpin]; decide
  refine ⟨_, (if_neg hon).trans (if_pos hsafe), ?_, mem_lines_raise.2 (.inl rfl), ?_, ?_⟩
  · rw [pwr_raise]
  · rw [words_raise]
  · rw [raise_mem]

/-! ### Power (R569, R606, R607) -/

/-- What the cold reset leaves: the pin low, the main domain down, and the Almanac's memory alone (R569). -/
theorem coldReset_spec : s.coldReset.pwr.porstN = false ∧ s.coldReset.pwr.pwrGood = s.pwr.pwrGood ∧ s.coldReset.boot.mainUp = false
    ∧ s.coldReset.boot.nextCause = s.boot.nextCause ∧ s.coldReset.fuses = s.fuses ∧ s.coldReset.pending = s.pending ∧ s.coldReset.now = s.now
    ∧ s.coldReset.mem = s.mem.filter (fun e => 0x3300_0000 ≤ e.1 && e.1 < 0x3304_0000) := by
  unfold State.coldReset
  dsimp only
  rw [wr_pwr, wr_pwr, wr_boot, wr_boot, wr_fuses, wr_fuses, wr_pending, wr_pending, wr_now, wr_now, wr_mem, wr_mem]
  exact ⟨rfl, rfl, rfl, rfl, rfl, rfl, rfl, rfl⟩

/-- The backup cell's fall to a level: its level, and beside it neither pins, boot, fuses, commands nor time. -/
theorem vbatFall_keeps (v : ℕ) : (s.vbatFall v).pwr = { s.pwr with vbat := v } ∧ (s.vbatFall v).boot = s.boot ∧ (s.vbatFall v).fuses = s.fuses
    ∧ (s.vbatFall v).pending = s.pending ∧ (s.vbatFall v).now = s.now := by
  have hwr : ∃ words, (if 1 ≤ v then State.wr { s with pwr := { s.pwr with vbat := v } } Reg.CLK_RTC_VALID [] 0 else { s with pwr := { s.pwr with vbat := v } }) =
      { s with words := words, pwr := { s.pwr with vbat := v } } := by
    split
    · exact ⟨_, rfl⟩
    · exact ⟨s.words, rfl⟩
  obtain ⟨words, hwords⟩ := hwr
  unfold State.vbatFall
  dsimp only
  rw [hwords]
  split <;> exact ⟨rfl, rfl, rfl, rfl, rfl⟩

/-- The word of a field that no entry lists, in a table whose fields stand apart, reads the field's own reset value. -/
theorem getBits_wordReset {r : Row} {ix : List ℕ} (hword : r.lo + r.width ≤ 32) (hmem : (r, ix) ∈ fieldsAt (r.key ix / 2 ^ 17) (r.key ix % 2 ^ 17))
    (hapart : ∀ e ∈ fieldsAt (r.key ix / 2 ^ 17) (r.key ix % 2 ^ 17), e.1.BitsApart r ∨ e = (r, ix)) (fz : Fuses) :
    getBits (wordReset fz (r.key ix)) r.lo r.width = resetValue fz r ix % 2 ^ r.width :=
  getBits_foldl_setBits (fun e => resetValue fz e.1 e.2) hmem hword hapart 0

theorem rtcValid_reset (fz : Fuses) : getBits (wordReset fz (Reg.CLK_RTC_VALID.key [])) Reg.CLK_RTC_VALID.lo Reg.CLK_RTC_VALID.width = 0 :=
  getBits_wordReset (r := Reg.CLK_RTC_VALID) (by decide) (by decide +kernel) (by decide +kernel) fz

/-- The backup cell's words are gone with it. -/
theorem tget_kept {k : ℕ} (hk : coldKeeps k = true) (d : Word) (l : List (ℕ × Word)) : tget d (l.filter (fun e => !coldKeeps e.1)) k = d :=
  tget_filter_of_dropped d (fun _ => by simp [hk]) l

theorem rtcValid_vbatFall {v : ℕ} (hv : 1 ≤ v) : (s.vbatFall v).rd Reg.CLK_RTC_VALID [] = 0 := by
  have hwr : ∀ t : State, (t.wr Reg.CLK_RTC_VALID [] 0).rd Reg.CLK_RTC_VALID [] = 0 := fun t => by
    rw [rd_wr_same _ _ _ _ (by decide), Nat.zero_mod]
  have hkeep : coldKeeps (Reg.CLK_RTC_VALID.key []) = true := by decide
  unfold State.vbatFall
  dsimp only
  rw [if_pos hv]
  split
  · exact hwr _
  · rw [State.rd, State.word, tget_kept hkeep]
    exact rtcValid_reset _

theorem putRecord_keeps (r : AlmRec) : ((s.putRecord r).fuses, (s.putRecord r).pending, (s.putRecord r).now) = (s.fuses, s.pending, s.now) := by
  obtain ⟨b, alm, -, heq⟩ := putRecord_frame s r
  rw [heq]
  dsimp only
  rw [wr_fuses, wr_fuses, wr_pending, wr_pending, wr_now, wr_now]

theorem flushIntake_keeps : (s.flushIntake.fuses, s.flushIntake.pending, s.flushIntake.now) = (s.fuses, s.pending, s.now) :=
  (foldl_keeps (g := fun t : State => (t.fuses, t.pending, t.now)) (fun t r => putRecord_keeps t r) _ _).trans rfl

theorem powerLoss_spec (v : ℕ) (hgood : s.pwr.pwrGood = true) : ∃ t, execPowerLoss v s = .next t ∧ t.pwr.pwrGood = false ∧ t.pwr.porstN = false
    ∧ t.boot.mainUp = false ∧ t.pwr.vbat = min v 2 ∧ t.fuses = s.fuses ∧ t.pending = s.pending ∧ t.now = s.now := by
  have hon : ¬ (!s.pwr.pwrGood) = true := by rw [hgood]; decide
  have hflush : ((if s.safeUp then s.flushIntake else s).fuses, (if s.safeUp then s.flushIntake else s).pending,
      (if s.safeUp then s.flushIntake else s).now) = (s.fuses, s.pending, s.now) := by
    split
    · exact flushIntake_keeps s
    · rfl
  obtain ⟨hfuses, hrest⟩ := Prod.mk.inj hflush
  obtain ⟨hpending, hnow⟩ := Prod.mk.inj hrest
  unfold execPowerLoss
  rw [if_neg hon]
  dsimp only
  generalize (if s.safeUp then s.flushIntake else s) = u at *
  obtain ⟨hpin, -, hdown, -, hf, hp, hn, -⟩ := coldReset_spec
    { u with boot := { u.boot with nextCause := if u.pwr.porstN then 1 else u.boot.nextCause }, alm := { u.alm with rtcDown := u.rtc } }
  generalize State.coldReset
    { u with boot := { u.boot with nextCause := if u.pwr.porstN then 1 else u.boot.nextCause }, alm := { u.alm with rtcDown := u.rtc } } = c at *
  obtain ⟨hpwr, hboot, hf', hp', hn'⟩ := vbatFall_keeps { c with pwr := { c.pwr with pwrGood := false, driven := none } } (min v 2)
  refine ⟨_, rfl, ?_, ?_, ?_, ?_, ?_, ?_, ?_⟩
  · rw [hpwr]
  · rw [hpwr]
    exact hpin
  · rw [hboot]
    exact hdown
  · rw [hpwr]
  · exact hf'.trans (hf.trans hfuses)
  · exact hp'.trans (hp.trans hpending)
  · exact hn'.trans (hn.trans hnow)

theorem porstNAssert_spec (hpin : s.pwr.porstN = true) (hgood : s.pwr.pwrGood = true) : ∃ t, execPorstNAssert s = .next t ∧ t.pwr.porstN = false
    ∧ t.pwr.pwrGood = true ∧ t.boot.mainUp = false ∧ t.boot.nextCause = 0 ∧ t.fuses = s.fuses
    ∧ (∀ x, 0x3300_0000 ≤ x → x < 0x3304_0000 → memByte t.mem x = memByte s.mem x) := by
  obtain ⟨hlow, hpower, hdown, hcause, hfuses, -, -, hmem⟩ := coldReset_spec { s with boot := { s.boot with nextCause := 0 } }
  refine ⟨_, if_pos (by rw [hpin, hgood]; rfl), hlow, hpower.trans hgood, hdown, hcause, hfuses, fun x hlo hhi => ?_⟩
  rw [hmem]
  exact tget_filter_of_kept _ (fun _ => by simp [hlo, hhi]) _

theorem vbatBkpFall_spec (lost : Bool) (hoff : s.pwr.pwrGood = false) : ∃ t, execVbatBkpFall lost s = .next t ∧ t.rd Reg.CLK_RTC_VALID [] = 0
    ∧ t.pwr.vbat = max s.pwr.vbat (if lost then 2 else 1) := by
  have hone : 1 ≤ max s.pwr.vbat (if lost then 2 else 1) := by cases lost <;> simp
  refine ⟨_, if_neg (Bool.eq_false_iff.1 hoff), rtcValid_vbatFall s hone, ?_⟩
  rw [(vbatFall_keeps s _).1]

end

/-! ### Instances, fuses and harts (R617) -/

section
variable {s : State} {i : ℕ}

theorem instanceResetDone_spec (hi : i < 32) (hbusy : s.flag Reg.BOOT_IRST_BUSY [i] = true) : ∃ t, execInstanceResetDone i s = .next t
    ∧ t.rd Reg.BOOT_IRST_BUSY [i] = 0 ∧ t.rd Reg.BOOT_IRST_COUNT [i] = satTo 16 (s.rd Reg.BOOT_IRST_COUNT [i] + 1) ∧ t.mem = s.mem
    ∧ wordsWithin s t [0x13] := by
  have hkey : ∀ r : Row, r.space = 0x13 → r.base = 0x40 → r.dims = [(1, 32)] → r.key [i] / 2 ^ 17 ∈ [0x13] := fun r hspace hbase hdims => by
    have hk : r.key [i] = 0x13 * 2 ^ 17 + (0x40 + i) := by
      simp only [Row.key, wordKey, joinOffset, hspace, hbase, hdims, Nat.one_mul, Nat.add_zero]
    rw [hk, List.mem_singleton]
    omega
  refine ⟨_, if_pos (by simp [hi, hbusy]), ?_, ?_, ?_, ?_⟩
  · rw [State.incSat, rd_wr_beside _ _ _ (by decide), rd_wr_same _ _ _ _ (by decide), Nat.zero_mod]
  · rw [rd_incSat_same _ _ _ _ (by decide), rd_wr_beside _ _ _ (by decide)]
    rfl
  · rw [State.incSat, wr_mem, wr_mem]
  · exact (wordsWithin_wr s _ _ _ (hkey _ rfl rfl rfl)).trans (wordsWithin_wr _ _ _ _ (hkey _ rfl rfl rfl))

theorem svnMin_placed : ∀ k < 5, (Reg.BOOT_SVN_MIN, [k]) ∈ fieldsAt (Reg.BOOT_SVN_MIN.key [k] / 2 ^ 17) (Reg.BOOT_SVN_MIN.key [k] % 2 ^ 17)
    ∧ ∀ e ∈ fieldsAt (Reg.BOOT_SVN_MIN.key [k] / 2 ^ 17) (Reg.BOOT_SVN_MIN.key [k] % 2 ^ 17), e.1.BitsApart Reg.BOOT_SVN_MIN ∨ e = (Reg.BOOT_SVN_MIN, [k]) := by
  decide +kernel

/-- `ADV` raises a fuse, and `MIN` reads it. -/
theorem svnAdv_spec {k v : ℕ} (hk : k < 5) (hv : v < 64) :
    (s.svnAdv k v).rd Reg.BOOT_SVN_MIN [k] = v ∧ (s.svnAdv k v).fuses.svnMin.getD k 0 = v ∧ (s.svnAdv k v).mem = s.mem := by
  have hfuse : (s.svnAdv k v).fuses.svnMin.getD k 0 = v := by
    show ((List.range 5).map (fun j => if j = k then v else s.fuses.svnMin.getD j 0)).getD k 0 = v
    rw [List.getD_eq_getElem _ _ (by simpa using hk), List.getElem_map, List.getElem_range, if_pos rfl]
  refine ⟨?_, hfuse, rfl⟩
  obtain ⟨hmem, hapart⟩ := svnMin_placed k hk
  have hword : (s.svnAdv k v).word (Reg.BOOT_SVN_MIN.key [k]) = wordReset (s.svnAdv k v).fuses (Reg.BOOT_SVN_MIN.key [k]) := tget_tdel_same _ _ _
  rw [State.rd, hword, getBits_wordReset (by decide) hmem hapart]
  show (s.svnAdv k v).fuses.svnMin.getD k 0 % 2 ^ 6 = v
  rw [hfuse]
  exact Nat.mod_eq_of_lt hv

theorem hartGo_spec {h : ℕ} (hgo : bitAt (s.rd Reg.BOOT_CTRL_HART_GO []) (h - 1) = true) (hheld : h ∉ s.boot.released) :
    h ∈ (s.hartGo h).boot.released ∧ ((s.hartGo h).hart h).pc = s.bootAddr (h / 4) ∧ (s.hartGo h).hartGo h = s.hartGo h := by
  have hstart : s.hartGo h = ({ s with boot := { s.boot with released := s.boot.released ++ [h] } } : State).setHart h
      { pc := State.bootAddr { s with boot := { s.boot with released := s.boot.released ++ [h] } } (h / 4) } := if_pos (by simp [hgo, hheld])
  have hin : h ∈ (s.hartGo h).boot.released := by
    rw [hstart]
    exact List.mem_append_right _ (List.mem_singleton_self h)
  refine ⟨hin, ?_, if_neg (by simp [hin])⟩
  rw [hstart, hart_setHart_same]
  rfl

/-- What the reset of an instance drops, whatever its contexts and jobs have left. -/
theorem instanceReset_eq (s : State) (i : ℕ) : ∃ u : State, s.instanceReset i = (List.range 64).foldl (fun s k => s.wr Reg.APC_IPEND [i, k] 0)
    (State.dropTag { u with orr := { u.orr with waiting := u.orr.waiting.filter (fun q => q.tag ≠ i) } } i) := by
  unfold State.instanceReset State.each
  exact ⟨_, rfl⟩

theorem instanceReset_spec (s : State) (i : ℕ) : (∀ e ∈ (s.instanceReset i).ttu.tlb, e.tag ≠ i) ∧ (∀ q ∈ (s.instanceReset i).orr.waiting, q.tag ≠ i)
    ∧ (∀ k, k < 64 → (s.instanceReset i).rd Reg.APC_IPEND [i, k] = 0) := by
  obtain ⟨u, hu⟩ := instanceReset_eq s i
  rw [hu]
  refine ⟨fun e he => ?_, fun q hq => ?_, fun k hk => ?_⟩
  · rw [foldl_keeps (g := State.ttu) (fun t k => wr_ttu t _ _ _)] at he
    exact of_decide_eq_true (List.mem_filter.1 he).2
  · rw [foldl_keeps (g := State.orr) (fun t k => wr_orr t _ _ _)] at hq
    exact of_decide_eq_true (List.mem_filter.1 hq).2
  · refine (foldl_sets (g := fun t : State => t.rd Reg.APC_IPEND [i, k]) (a := k) (v := 0) (fun t b => ?_) _ _).trans (if_pos (List.mem_range.2 hk))
    split
    case isTrue h => rw [h, rd_wr_same _ _ _ _ (by decide), Nat.zero_mod]
    case isFalse h =>
      refine rd_wr_ne _ _ _ _ _ _ fun hkey => h ?_
      simp only [Row.key, wordKey, joinOffset, Reg.APC_IPEND] at hkey
      omega

end

theorem coldBoot_of_pins {s : State} {f : Flash} (hpin : s.pwr.porstN = false) (hgood : s.pwr.pwrGood = true) {a b c : State}
    (ha : a = { s with pwr := { s.pwr with porstN := true, porstAt := s.now, driven := none }, boot := { s.boot with cold := true } })
    (hb : b = (a.startEpoch.powerUpRecord.wr Reg.BOOT_STAT_SLOW [] (if f.fast then 0 else 1)).wr Reg.BOOT_STAT_PHASE [] 1)
    (hc : c = ((b.restoreWear.hardRepair.newKeys.loadDusk f).releaseMain.senseWarmRst.startMonitor f).loadMain f [2, 4, 5]) :
    execColdBoot f s = .next c.finishLoad := by
  have hon : ¬ (s.pwr.porstN || !s.pwr.pwrGood) = true := by rw [hpin, hgood]; decide
  unfold execColdBoot
  rw [if_neg hon, hc, hb, ha]

/-- Settles O57, command by command. -/
theorem resetsBootAndPowerSupply : Obligations.ResetsBootAndPowerSupply := by
  unfold Obligations.ResetsBootAndPowerSupply
  intro s
  refine ⟨fun f hpin hgood => ?_, supervisorRunning_spec, fun e => warmResetAssert_spec s, flushAll_of_empty s, rewakeMonitor_unverified s,
    fun f verified hwarm hdown hbooted htrip hpin hsafe => warmRestart_of_warm s hwarm hdown hbooted htrip hpin hsafe rfl, warmRstNAssert_spec s, rfl,
    fun v => powerLoss_spec s v, porstNAssert_spec s, fun hoff => if_neg (Bool.eq_false_iff.1 hoff), fun lost => vbatBkpFall_spec s lost,
    fun i => instanceResetDone_spec, fun k v => svnAdv_spec, fun h _ _ => hartGo_spec, fun i _ => instanceReset_spec s i⟩
  intro a b c
  exact ⟨coldBoot_of_pins hpin hgood rfl rfl rfl, fun hunread => loadMain_of_unreadable_spec _ hunread _⟩

end Sys2Proof.Machine
end

section
/-! O58: wear, power domains, rails, thermal levels and the trip, boundary scan. -/

namespace Sys2Proof.Machine

/-! ### Tables of words that a pass goes through once -/

section
variable {r : Row} {f : State → ℕ → State} {upd : ℕ → ℕ → ℕ}

/-- Where each step changes the field of its own element alone, a pass that has every element once changes each by its own step. -/
theorem rd_foldl_own (hf : ∀ s b m, (f s b).rd r [m] = if m = b then upd m (s.rd r [m]) else s.rd r [m]) {l : List ℕ} (hnodup : l.Nodup) (s : State) (m : ℕ) :
    (l.foldl f s).rd r [m] = if m ∈ l then upd m (s.rd r [m]) else s.rd r [m] := by
  induction l generalizing s with
  | nil => simp
  | cons b l ih =>
    obtain ⟨hb, hl⟩ := List.nodup_cons.1 hnodup
    rw [List.foldl_cons, ih hl, hf]
    by_cases hmb : m = b
    · rw [if_pos hmb, if_neg (hmb ▸ hb), if_pos (hmb ▸ List.mem_cons_self)]
    · rw [if_neg hmb]
      simp only [List.mem_cons, hmb, false_or]

/-- The fields of a table of single words. -/
theorem rd_wr_element {width : ℕ} (hdims : r.dims = [(1, width)]) (hword : r.lo + r.width ≤ 32) (s : State) (b m v : ℕ) :
    (s.wr r [b] v).rd r [m] = if m = b then v % 2 ^ r.width else s.rd r [m] := by
  split
  case isTrue h => rw [h, rd_wr_same _ _ _ _ hword]
  case isFalse h =>
    refine rd_wr_ne _ _ _ _ _ _ fun hkey => h ?_
    simp only [Row.key, wordKey, joinOffset, hdims] at hkey
    omega

end

/-! ### Wear (R574, R577, R579) -/

section
variable {s : State}

theorem raiseCauses_nil (s : State) : s.raiseCauses [] = s := by
  unfold State.raiseCauses
  rfl

theorem raiseIf_false (s : State) (b : ℕ) : s.raiseIf false b = s := if_neg (by decide)

theorem rd_withSvc (svc : Svc) (q : Row) (jx : List ℕ) : State.rd { s with svc := svc } q jx = s.rd q jx := rd_of_word rfl

theorem emUnits_le (t : ℤ) : emUnits t ≤ 52 := by
  unfold emUnits
  split
  · decide
  · split
    · decide
    · split <;> decide

theorem satTo_of_le {n v : ℕ} (h : v < 2 ^ n) : satTo n v = v := by
  rw [satTo]
  split
  · rfl
  · omega

/-- A second of active time on the dies: each counter rises by the units of its die's reading. -/
theorem rd_em (s : State) (temps : List ℤ) {l : List ℕ} (hnodup : l.Nodup) (d : ℕ) :
    (l.foldl (fun s d => s.incSat Reg.SVC_EM [d] (emUnits (temps.getD d 0))) s).rd Reg.SVC_EM [d] =
      if d ∈ l then satTo 32 (s.rd Reg.SVC_EM [d] + emUnits (temps.getD d 0)) else s.rd Reg.SVC_EM [d] := by
  refine rd_foldl_own (r := Reg.SVC_EM) (upd := fun m v => satTo 32 (v + emUnits (temps.getD m 0))) (fun s b m => ?_) hnodup s d
  rw [State.incSat, rd_wr_element (r := Reg.SVC_EM) rfl (by decide)]
  split
  case isTrue h => rw [h]; exact Nat.mod_eq_of_lt (satTo_lt _ _)
  case isFalse h => rfl

theorem emSample_spec (temps : List ℤ) (hgood : s.pwr.pwrGood = true) (hsec : s.svc.activeSec + 1 < 3600)
    (hem : ∀ d, d < 5 → s.rd Reg.SVC_EM [d] < 758000000) : ∃ t, execEmSample temps s = .next t
      ∧ t.rd Reg.SVC_EM [0] = s.rd Reg.SVC_EM [0] + emUnits (temps.getD 0 0) ∧ t.svc.activeSec = s.svc.activeSec + 1 ∧ t.mem = s.mem := by
  have hon : ¬ (!s.pwr.pwrGood) = true := by rw [hgood]; decide
  have hnodup : ((List.range 5).filter (fun d => d = 0 || d - 1 < s.fuses.variant.xds)).Nodup := List.nodup_range.filter _
  have hzero : 0 ∈ (List.range 5).filter (fun d => d = 0 || d - 1 < s.fuses.variant.xds) := List.mem_filter.2 ⟨by decide, rfl⟩
  have hbelow : ∀ d ∈ (List.range 5).filter (fun d => d = 0 || d - 1 < s.fuses.variant.xds), d < 5 := fun d hd =>
    List.mem_range.1 (List.mem_filter.1 hd).1
  have hrd := rd_em s temps hnodup
  have hkept := foldl_keeps (g := fun t : State => (t.mem, t.svc)) (f := fun s d => s.incSat Reg.SVC_EM [d] (emUnits (temps.getD d 0))) (fun t d => by
    rw [State.incSat, wr_mem, wr_svc]) ((List.range 5).filter (fun d => d = 0 || d - 1 < s.fuses.variant.xds)) s
  unfold execEmSample
  rw [if_neg hon]
  dsimp only
  generalize (List.range 5).filter (fun d => d = 0 || d - 1 < s.fuses.variant.xds) = dies at *
  generalize dies.foldl (fun s d => s.incSat Reg.SVC_EM [d] (emUnits (temps.getD d 0))) s = u at *
  obtain ⟨hmem, hsvc⟩ := Prod.mk.inj hkept
  have hval : ∀ d ∈ dies, u.rd Reg.SVC_EM [d] = s.rd Reg.SVC_EM [d] + emUnits (temps.getD d 0) := fun d hd => by
    have hlt := hem d (hbelow d hd)
    have hle := emUnits_le (temps.getD d 0)
    rw [hrd, if_pos hd, satTo_of_le]
    omega
  have hnone : dies.any (fun d => u.rd Reg.SVC_EM [d] ≥ 758880000) = false := List.any_eq_false.2 fun d hd hover => by
    have hlt := hem d (hbelow d hd)
    have hle := emUnits_le (temps.getD d 0)
    have hv := of_decide_eq_true hover
    rw [hval d hd] at hv
    omega
  rw [hnone, if_pos (by rw [hsvc]; exact hsec), if_neg (by decide), raiseCauses_nil]
  refine ⟨_, rfl, ?_, by rw [hsvc], hmem⟩
  rw [rd_withSvc, hval 0 hzero]

theorem rd_age (s : State) (ages : List ℕ) (m : ℕ) (hm : m < 16) :
    ((List.range 16).foldl (fun s m => s.wr Reg.SVC_AGE [m] (satTo 8 (ages.getD m (s.rd Reg.SVC_AGE [m])))) s).rd Reg.SVC_AGE [m] =
      satTo 8 (ages.getD m (s.rd Reg.SVC_AGE [m])) := by
  refine (rd_foldl_own (r := Reg.SVC_AGE) (upd := fun m v => satTo 8 (ages.getD m v)) (fun s b m => ?_) List.nodup_range s m).trans
    (if_pos (List.mem_range.2 hm))
  rw [rd_wr_element (r := Reg.SVC_AGE) rfl (by decide)]
  split
  case isTrue h => rw [h]; exact Nat.mod_eq_of_lt (satTo_lt _ _)
  case isFalse h => rfl

theorem rd_applyCeilings (s : State) (q : Row) (jx : List ℕ) : s.applyCeilings.rd q jx = s.rd q jx := rd_withClk _ _ _ _

theorem mem_applyCeilings (s : State) : s.applyCeilings.mem = s.mem := rfl

theorem ageingSample_spec (ages : List ℕ) (hgood : s.pwr.pwrGood = true) (hage : ∀ m, m < 16 → satTo 8 (ages.getD m (s.rd Reg.SVC_AGE [m])) < 50) :
    ∃ t, execAgeingSample ages s = .next t ∧ (∀ m, m < 16 → t.rd Reg.SVC_AGE [m] = satTo 8 (ages.getD m (s.rd Reg.SVC_AGE [m]))) ∧ t.mem = s.mem := by
  have hon : ¬ (!s.pwr.pwrGood) = true := by rw [hgood]; decide
  have hread := rd_age s ages
  have hmem := foldl_keeps (g := State.mem) (f := fun s m => s.wr Reg.SVC_AGE [m] (satTo 8 (ages.getD m (s.rd Reg.SVC_AGE [m])))) (fun t d => wr_mem t _ _ _)
    (List.range 16) s
  have hceil : ∀ (t : State) (a b m : ℕ), m < 16 → (((t.wr Reg.SVC_FCAP_APC [] a).wr Reg.SVC_FCAP_GFX [] b).applyCeilings).rd Reg.SVC_AGE [m] =
      t.rd Reg.SVC_AGE [m] := fun t a b m hm => by
    have hkey : Reg.SVC_AGE.key [m] = 0x14 * 2 ^ 17 + (0x30 + m) := by
      simp only [Row.key, wordKey, joinOffset, Reg.SVC_AGE, Nat.one_mul, Nat.add_zero]
    have hapc : Reg.SVC_FCAP_APC.key [] = 0x14 * 2 ^ 17 + 0x40 := rfl
    have hgfx : Reg.SVC_FCAP_GFX.key [] = 0x14 * 2 ^ 17 + 0x41 := rfl
    rw [rd_applyCeilings, rd_wr_ne _ _ _ _ _ _ (by omega), rd_wr_ne _ _ _ _ _ _ (by omega)]
  unfold execAgeingSample
  rw [if_neg hon]
  dsimp only
  generalize (List.range 16).foldl (fun s m => s.wr Reg.SVC_AGE [m] (satTo 8 (ages.getD m (s.rd Reg.SVC_AGE [m])))) s = u at *
  generalize ageCeiling 2600 _ _ = a
  generalize ageCeiling 1200 _ _ = b
  have hnone : (List.range 16).any (fun m => (((u.wr Reg.SVC_FCAP_APC [] a).wr Reg.SVC_FCAP_GFX [] b).applyCeilings).rd Reg.SVC_AGE [m] ≥ 50) = false :=
    List.any_eq_false.2 fun m hm hover => by
      have hm' := List.mem_range.1 hm
      have hv := of_decide_eq_true hover
      rw [hceil u a b m hm', hread m hm'] at hv
      have hlt := hage m hm'
      omega
  rw [hnone, raiseIf_false]
  refine ⟨_, rfl, fun m hm => (hceil u a b m hm).trans (hread m hm), ?_⟩
  rw [mem_applyCeilings, wr_mem, wr_mem, hmem]

theorem wearLogWrite_ok (hgood : s.pwr.pwrGood = true) : ∃ t, execWearLogWrite true s = .next t
    ∧ t.rd Reg.SVC_LOG_SEQ [] = (s.rd Reg.SVC_LOG_SEQ [] + 1) % 2 ^ 32 ∧ t.svc.log.isSome = true ∧ t.svc.fails = 0 := by
  have hon : ¬ (!s.pwr.pwrGood) = true := by rw [hgood]; decide
  refine ⟨_, (if_neg hon).trans (if_pos rfl), ?_, rfl, rfl⟩
  unfold State.writeLog
  dsimp only
  rw [rd_withSvc, State.incWrap, rd_wr_same _ _ _ _ (by decide)]
  rfl

theorem wearLogWrite_fails (hgood : s.pwr.pwrGood = true) (hfails : s.svc.fails = 0) :
    execWearLogWrite false s = .next { s with svc := { s.svc with fails := 1 } } := by
  have hon : ¬ (!s.pwr.pwrGood) = true := by rw [hgood]; decide
  unfold execWearLogWrite
  rw [if_neg hon, if_neg (by decide)]
  dsimp only
  rw [hfails]
  exact congrArg go (raiseIf_false _ _)

theorem sendReplaceFrame_inactive (hoff : s.replaceActive = false) : s.sendReplaceFrame = s := if_pos (by rw [hoff]; rfl)

theorem standbyHour_spec (hoff : s.pwr.pwrGood = false) (hcell : s.pwr.vbat = 0) (hhours : s.rd Reg.SVC_HOURS_STANDBY [] + 1 < 110000) :
    execStandbyHour s = .next (s.incSat Reg.SVC_HOURS_STANDBY [] 1) := by
  have hon : ¬ (s.pwr.pwrGood || s.pwr.vbat ≠ 0) = true := by rw [hoff, hcell]; decide
  have hbelow : decide ((s.incSat Reg.SVC_HOURS_STANDBY [] 1).rd Reg.SVC_HOURS_STANDBY [] ≥ 110000) = false := by
    have hwidth : Reg.SVC_HOURS_STANDBY.width = 18 := rfl
    rw [rd_incSat_same _ _ _ _ (by decide), hwidth, satTo_of_le (by omega), decide_eq_false_iff_not]
    omega
  unfold execStandbyHour
  rw [if_neg hon]
  dsimp only
  rw [hbelow, raiseIf_false]

end

/-! ### Power domains and rails (R583, R586, R590, R592) -/

section
variable {s : State} {k : ℕ}

theorem pdRequest_spec : (s.rd Reg.PWR_PD_STATE [k] = 0 → s.pdRequest k 1 = s.wr Reg.PWR_PD_STATE [k] 1)
    ∧ (s.rd Reg.PWR_PD_STATE [k] = 2 → s.pdRequest k 0 = s.wr Reg.PWR_PD_STATE [k] 3)
    ∧ (s.rd Reg.PWR_PD_STATE [k] = 2 → (s.pdRequest k 1).words = s.words) := by
  refine ⟨fun h => ?_, fun h => ?_, fun h => ?_⟩
  · unfold State.pdRequest
    rw [if_pos rfl, if_pos h]
  · unfold State.pdRequest
    rw [if_neg (by decide), if_pos h]
  · unfold State.pdRequest
    rw [if_pos rfl, if_neg (by omega), if_neg (by omega)]

theorem rd_withInf (inf : Inf) (q : Row) (jx : List ℕ) : State.rd { s with inf := inf } q jx = s.rd q jx := rd_of_word rfl

/-- A domain that has come up (R583). -/
theorem domainUp_spec (s : State) (k : ℕ) : (s.domainUp k).rd Reg.PWR_PD_STATE [k] = 2
    ∧ (s.domainUp k).rd Reg.PWR_PD_ON_COUNT [k] = satTo 16 (s.rd Reg.PWR_PD_ON_COUNT [k] + 1) ∧ (s.domainUp k).mem = s.mem ∧ (s.domainUp k).pwr = s.pwr := by
  have hstate : ((s.wr Reg.PWR_PD_STATE [k] 2).incSat Reg.PWR_PD_ON_COUNT [k] 1).rd Reg.PWR_PD_STATE [k] = 2 := by
    rw [State.incSat, rd_wr_beside _ _ _ (by decide), rd_wr_same _ _ _ _ (by decide)]
    rfl
  have hcount : ((s.wr Reg.PWR_PD_STATE [k] 2).incSat Reg.PWR_PD_ON_COUNT [k] 1).rd Reg.PWR_PD_ON_COUNT [k] = satTo 16 (s.rd Reg.PWR_PD_ON_COUNT [k] + 1) := by
    rw [rd_incSat_same _ _ _ _ (by decide), rd_wr_beside _ _ _ (by decide)]
    rfl
  have hmem : ((s.wr Reg.PWR_PD_STATE [k] 2).incSat Reg.PWR_PD_ON_COUNT [k] 1).mem = s.mem := by rw [State.incSat, wr_mem, wr_mem]
  have hpwr : ((s.wr Reg.PWR_PD_STATE [k] 2).incSat Reg.PWR_PD_ON_COUNT [k] 1).pwr = s.pwr := by rw [State.incSat, wr_pwr, wr_pwr]
  unfold State.domainUp
  dsimp only
  generalize (s.wr Reg.PWR_PD_STATE [k] 2).incSat Reg.PWR_PD_ON_COUNT [k] 1 = u at *
  split
  · exact ⟨(rd_withInf _ _ _).trans hstate, (rd_withInf _ _ _).trans hcount, hmem, hpwr⟩
  · exact ⟨hstate, hcount, hmem, hpwr⟩

/-- A domain that has gone down. -/
theorem domainOff_spec (s : State) (k : ℕ) : (s.domainOff k).rd Reg.PWR_PD_STATE [k] = 0 ∧ (s.domainOff k).mem = s.mem ∧ (s.domainOff k).pwr = s.pwr := by
  have hoff : (s.wr Reg.PWR_PD_STATE [k] 0).rd Reg.PWR_PD_STATE [k] = 0 := by rw [rd_wr_same _ _ _ _ (by decide), Nat.zero_mod]
  have htiles : ∀ (l : List ℕ) (t : State), (∀ x ∈ l, x < 1024) →
      (l.foldl (fun s x => s.wr Reg.INF_TILE_STATE [x] 5) t).rd Reg.PWR_PD_STATE [k] = t.rd Reg.PWR_PD_STATE [k] := by
    intro l
    induction l with
    | nil => exact fun _ _ => rfl
    | cons x l ih =>
      intro t hl
      obtain ⟨hx, hl⟩ := List.forall_mem_cons.1 hl
      rw [List.foldl_cons, ih _ hl]
      refine rd_wr_ne _ _ _ _ _ _ ?_
      simp only [Row.key, wordKey, joinOffset, Reg.PWR_PD_STATE, Reg.INF_TILE_STATE]
      omega
  have hbound : ∀ x ∈ (s.wr Reg.PWR_PD_STATE [k] 0).halfTiles k, x < 1024 := fun x hx => by
    have hx' := List.mem_range.1 (List.mem_filter.1 hx).1
    have htiles : (s.wr Reg.PWR_PD_STATE [k] 0).fuses.variant.tiles ≤ 64 := min_le_left _ _
    omega
  unfold State.domainOff
  dsimp only
  split
  · refine ⟨(htiles _ _ hbound).trans hoff, ?_, ?_⟩
    · rw [foldl_keeps (g := State.mem) (fun t x => wr_mem t _ _ _), wr_mem]
    · rw [foldl_keeps (g := State.pwr) (fun t x => wr_pwr t _ _ _), wr_pwr]
  · exact ⟨hoff, wr_mem _ _ _ _, wr_pwr _ _ _ _⟩

end

section
variable {s : State} {k : ℕ} (hlow : 4 ≤ k) (hhigh : k ≤ 8) (hup : s.boot.mainUp = true) (hreq : ∀ e ∈ s.pwr.nextReq, e.1 ≠ k)
include hlow hhigh hup hreq

/-- The end of a domain's transition, where no request of it waits. -/
theorem domainTransitionDone_of_free {t : State} (hmoves : s.rd Reg.PWR_PD_STATE [k] = 1 ∨ s.rd Reg.PWR_PD_STATE [k] = 3)
    (ht : t = if s.rd Reg.PWR_PD_STATE [k] = 1 then s.domainUp k else s.domainOff k) : execDomainTransitionDone k s = .next t := by
  have hon : ¬ (k < 4 || 8 < k || !s.boot.mainUp) = true := by
    have hlow' : ¬ k < 4 := by omega
    have hhigh' : ¬ 8 < k := by omega
    simp [hlow', hhigh', hup]
  have hmoves' : ¬ (s.rd Reg.PWR_PD_STATE [k] = 0 || s.rd Reg.PWR_PD_STATE [k] = 2) = true := by
    obtain h | h := hmoves <;> simp [h]
  have hpwr : t.pwr = s.pwr := by
    rw [ht]
    split
    · exact (domainUp_spec s k).2.2.2
    · exact (domainOff_spec s k).2.2
  have hnone : t.pwr.nextReq.find? (fun e => e.1 = k) = none := by
    rw [hpwr]
    exact List.find?_eq_none.2 fun e he => by simpa using hreq e he
  unfold execDomainTransitionDone
  rw [if_neg hon, if_neg hmoves', ← ht]
  dsimp only
  rw [hnone]

theorem domainTransitionDone_spec : (s.rd Reg.PWR_PD_STATE [k] = 1 → ∃ t, execDomainTransitionDone k s = .next t ∧ t.rd Reg.PWR_PD_STATE [k] = 2
      ∧ t.rd Reg.PWR_PD_ON_COUNT [k] = satTo 16 (s.rd Reg.PWR_PD_ON_COUNT [k] + 1) ∧ t.mem = s.mem)
    ∧ (s.rd Reg.PWR_PD_STATE [k] = 3 → ∃ t, execDomainTransitionDone k s = .next t ∧ t.rd Reg.PWR_PD_STATE [k] = 0 ∧ t.mem = s.mem) := by
  refine ⟨fun h => ?_, fun h => ?_⟩
  · obtain ⟨hstate, hcount, hmem, -⟩ := domainUp_spec s k
    exact ⟨_, domainTransitionDone_of_free hlow hhigh hup hreq (.inl h) (if_pos h).symm, hstate, hcount, hmem⟩
  · obtain ⟨hstate, hmem, -⟩ := domainOff_spec s k
    exact ⟨_, domainTransitionDone_of_free hlow hhigh hup hreq (.inr h) (if_neg (by omega)).symm, hstate, hmem⟩

end

section
variable {s : State}

theorem railOutOfRange_of_on {k : ℕ} (hk : k < 12) (hsafe : s.safeUp = true) (hup : s.boot.mainUp = true) (hon : s.domainOn k = true) :
    execRailOutOfRange k s = .next (s.raise 23) := if_pos (by simp [hk, hsafe, hup, hon])

theorem avsVoltageWrite_of_up {r : ℕ} (hr : r < 2) (hsafe : s.safeUp = true) (hok : s.flag Reg.PWR_AVS_FAIL [] = false) : execAvsVoltageWrite r s =
    .next { s with pwr := { s.pwr with avsGoal := tput s.pwr.avsGoal r (Config.avsTarget r (s.railFreq r) s.hottest % 2 ^ 10) } } := by
  have hr' : ¬ 2 ≤ r := by omega
  exact if_neg (by simp [hr', hsafe, hok])

section
variable {r v : ℕ} (hgoal : s.pwr.avsGoal.find? (fun e => e.1 = r) = some (r, v))
include hgoal

theorem avsAcknowledge_ok {a b : State} (ha : a = { s with pwr := { s.pwr with avsGoal := tdel s.pwr.avsGoal r } })
    (hb : b = a.wr (if r = 1 then Reg.PWR_AVS_CPU else Reg.PWR_AVS_CORE) [] v) :
    execAvsAcknowledge r true s = .next (State.allowRise { b with pwr := { b.pwr with avsTries := b.pwr.avsTries.filter (fun e => e.1 ≠ r) } } r) := by
  unfold execAvsAcknowledge
  rw [hgoal]
  dsimp only
  rw [if_pos rfl, ← ha, ← hb]

theorem avsAcknowledge_failed : ∃ t, execAvsAcknowledge r false s = .next t ∧
    (2 ≤ ((s.pwr.avsTries.filter (fun e => s.now < e.2 + 1000000)).filter (fun e => e.1 = r)).length → t.rd Reg.PWR_AVS_FAIL [] = 1) := by
  unfold execAvsAcknowledge
  rw [hgoal]
  dsimp only
  rw [if_neg (by decide)]
  refine ⟨_, rfl, fun htries => ?_⟩
  have hthree : 3 ≤ (((r, s.now) :: s.pwr.avsTries.filter (fun e => s.now < e.2 + 1000000)).filter (fun e => e.1 = r)).length := by
    rw [List.filter_cons_of_pos (by simp), List.length_cons]
    omega
  rw [if_pos hthree, rd_wr_same _ _ _ _ (by decide)]
  rfl

end

/-! ### Thermal levels and the trip (R595, R598, R602, R606) -/

theorem levelOf_logic (off : ℕ) (x : ℤ) : levelOf logicThresholds off x =
    if (114 - off) * 8 ≤ x then 3 else if (111 - off) * 8 ≤ x then 2 else if (108 - off) * 8 ≤ x then 1 else 0 := by
  have hlen : ∀ p : ℤ → Bool, (logicThresholds.filter p).length = (if p 108 then 1 else 0) + (if p 111 then 1 else 0) + (if p 114 then 1 else 0) := by
    intro p
    simp only [logicThresholds, List.filter_cons, List.filter_nil]
    cases p 108 <;> cases p 111 <;> cases p 114 <;> rfl
  rw [levelOf, hlen]
  simp only [decide_eq_true_eq]
  split_ifs <;> omega

/-- The levels and temperatures of a sample are noted one after another; a reading at a trip's threshold then trips (R606). -/
theorem thermalSample_on {cd : ℤ} {xds hbmStacks : List ℤ} (hsafe : s.safeUp = true) {a b c d f : State} {temps hbms : List ℤ} {off : ℕ}
    (ha : a = s.countLevel (s.rd Reg.PWR_THERM_LEVEL [])) (htemps : temps = cd :: xds.take a.fuses.variant.xds)
    (hhbms : hbms = hbmStacks.take a.fuses.variant.hbmStacks) (hoff : off = a.rd Reg.PWR_THERM_OFFSET [])
    (hb : b = temps.zipIdx.foldl (fun u e => (u.wr Reg.PWR_TEMP [e.2] (wrapTo 12 e.1)).feedCycle e.2 e.1) a)
    (hc : c = hbms.zipIdx.foldl (fun u e => u.wr Reg.PWR_HBMT_T [e.2] (wrapTo 12 e.1)) b)
    (hd : d = hbms.zipIdx.foldl (fun u e => u.setStackLevel e.2 (max (u.rd Reg.PWR_HBMT_LEVEL [e.2]) (levelOf stackThresholds off e.1))) c)
    (hf : f = d.setLogicLevel (max (d.rd Reg.PWR_THERM_LEVEL []) (levelOf logicThresholds off (temps.foldl max cd)))) :
    execThermalSample cd xds hbmStacks s = .next (if 960 ≤ temps.foldl max cd || hbms.any (fun x => 856 ≤ x) then f.thermalTrip else f) := by
  have hon : ¬ (!s.safeUp) = true := by rw [hsafe]; decide
  unfold execThermalSample
  rw [if_neg hon, hf, hd, hc, hb, hoff, hhbms, htemps, ha]

theorem fuses_countLevel (s : State) (l : ℕ) : (s.countLevel l).fuses = s.fuses := by
  unfold State.countLevel
  dsimp only
  split
  · rfl
  · split
    · exact wr_fuses _ _ _ _
    · rfl

theorem setLogicLevel_of_other {l : ℕ} (hl : l ≠ s.rd Reg.PWR_THERM_LEVEL []) : s.setLogicLevel l =
    (if l = 3 && s.rd Reg.PWR_THERM_LEVEL [] < 3 then (((s.wr Reg.PWR_THERM_LEVEL [] l).applyDerate).applyCeilings).raise 22
      else ((s.wr Reg.PWR_THERM_LEVEL [] l).applyDerate).applyCeilings) := if_neg hl

theorem setLogicLevel_spec {l : ℕ} (hl4 : l < 4) (hl : l ≠ s.rd Reg.PWR_THERM_LEVEL []) : (s.setLogicLevel l).rd Reg.PWR_THERM_LEVEL [] = l
    ∧ (s.setLogicLevel l).rd Reg.PWR_DERATE_TILE [] = [8, 8, 6, 4].getD l 4 ∧ (l = 3 → 22 ∈ (s.setLogicLevel l).saf.lines) := by
  have hset : (s.wr Reg.PWR_THERM_LEVEL [] l).rd Reg.PWR_THERM_LEVEL [] = l := by
    rw [rd_wr_same _ _ _ _ (by decide)]
    exact Nat.mod_eq_of_lt hl4
  have hlevel : (((s.wr Reg.PWR_THERM_LEVEL [] l).applyDerate).applyCeilings).rd Reg.PWR_THERM_LEVEL [] = l := by
    unfold State.applyDerate
    dsimp only
    rw [rd_applyCeilings, rd_wr_ne _ _ _ _ _ _ (by decide), rd_wr_ne _ _ _ _ _ _ (by decide), hset]
  have hderate : (((s.wr Reg.PWR_THERM_LEVEL [] l).applyDerate).applyCeilings).rd Reg.PWR_DERATE_TILE [] = [8, 8, 6, 4].getD l 4 := by
    unfold State.applyDerate
    dsimp only
    rw [rd_applyCeilings, rd_wr_beside _ _ _ (by decide), rd_wr_same _ _ _ _ (by decide), hset]
    interval_cases l <;> rfl
  rw [setLogicLevel_of_other hl]
  refine ⟨?_, ?_, fun h3 => ?_⟩
  · split
    · rw [rd_raise, hlevel]
    · exact hlevel
  · split
    · rw [rd_raise, hderate]
    · exact hderate
  · have hlt : s.rd Reg.PWR_THERM_LEVEL [] < 2 ^ 2 := rd_lt s _ _
    have hold : s.rd Reg.PWR_THERM_LEVEL [] < 3 := by omega
    rw [if_pos (by simp [h3, hold])]
    exact mem_lines_raise.2 (.inl rfl)

/-- A move of authority leaves the pins and the main domain up or down. -/
theorem pwr_setAuth (s : State) (dusk : Bool) (cause : ℕ) : (s.setAuth dusk cause).pwr = s.pwr := by
  obtain ⟨w, saf, boot, net, heq, -⟩ := setAuth_frame s dusk cause
  rw [heq]

theorem mainUp_setAuth (s : State) (dusk : Bool) (cause : ℕ) : (s.setAuth dusk cause).boot.mainUp = s.boot.mainUp := by
  unfold State.setAuth
  cases dusk with
  | false =>
    simp only [Bool.false_eq_true, if_false]
    split
    · rfl
    · simp only [State.setNet, State.incSat, wr_boot]
  | true =>
    simp only [if_true]
    split
    · exact congrArg Boot.mainUp (wr_boot _ _ _ _)
    · simp only [State.setNet, State.incSat, wr_boot]

/-- What the reaction to an event does not reach: the pins, and whether the main domain is up. -/
def State.supply (s : State) : Pwr × Bool := (s.pwr, s.boot.mainUp)

theorem supply_wr (s : State) (r : Row) (jx : List ℕ) (v : ℕ) : (s.wr r jx v).supply = s.supply := by
  unfold State.supply
  rw [wr_pwr, wr_boot]

theorem supply_reactions (s : State) (e r : ℕ) : (s.cmpFatal.supply = s.supply ∧ (s.reactRecord e).supply = s.supply)
    ∧ ((s.reactNotify e r).supply = s.supply ∧ (s.reactTakeover e r).supply = s.supply)
    ∧ (s.reactRestart e r).supply = s.supply ∧ s.islandFail.supply = s.supply ∧ (s.reactWreck r).supply = s.supply := by
  refine ⟨⟨?_, ?_⟩, ⟨?_, ?_⟩, ?_, ?_, ?_⟩
  · unfold State.cmpFatal
    refine (foldl_keeps (g := State.supply) (fun t n => ?_) _ _).trans rfl
    unfold State.releaseStrand
    split <;> rfl
  · unfold State.reactRecord State.wrPair
    dsimp only
    have hrec : ∀ (t : State) (code tag : ℕ) (l : List Byte), (t.record code tag l).supply = t.supply := fun t code tag l => by
      rw [record_frame]
      rfl
    rw [hrec, supply_wr, supply_wr, supply_wr, State.incSat, supply_wr, supply_wr]
  · unfold State.reactNotify State.islandInt
    dsimp only
    have hsend : ∀ (t : State) (i v : ℕ), (t.send i v).supply = t.supply := fun t i v => by
      rw [send_frame]
      rfl
    split
    · rfl
    · split
      · split
        · exact hsend s _ _
        · exact hsend s _ _
      · exact hsend s _ _
  · unfold State.reactTakeover
    split
    · rfl
    · unfold State.supply
      rw [pwr_setAuth, mainUp_setAuth]
  · unfold State.reactRestart
    split <;> rfl
  · unfold State.islandFail State.supply
    dsimp only
    rw [wr_pwr, wr_boot]
  · unfold State.reactWreck State.wreckTrigger
    dsimp only
    split <;> rfl

theorem supply_latch (s : State) (e : ℕ) : (s.latch e).supply = s.supply := by
  have hreact : ∀ (t : State) (r : ℕ), (((((if e = 20 then t.cmpFatal else t).reactRecord e).reactNotify e r).reactTakeover e r).reactRestart e r).supply = t.supply := by
    intro t r
    rw [(supply_reactions _ e r).2.2.1, (supply_reactions _ e r).2.1.2, (supply_reactions _ e r).2.1.1, (supply_reactions _ e r).1.2]
    split
    · exact (supply_reactions t e r).1.1
    · rfl
  unfold State.latch
  dsimp only
  rw [(supply_reactions _ e _).2.2.2.2]
  split
  · rw [(supply_reactions _ e 0).2.2.2.1, hreact]
  · exact hreact s _

/-- The power unit's words stand below those of the safety block, which the reaction to an event writes. -/
theorem rd_latch_power (s : State) (e : ℕ) {q : Row} (hauth : q.key [] ≠ Reg.NET_AAS_AUTH.key []) (hq : q.key [] < 0x11 * 2 ^ 17) :
    (s.latch e).rd q [] = s.rd q [] := by
  have hevent : ∀ {r : Row}, r.space = 0x11 → r.base = 0x40 → r.dims = [(1, 28)] → q.key [] ≠ r.key [e] := fun hspace hbase hdims => by
    rw [key_event hspace hbase hdims]
    omega
  have hsafe : ∀ {r : Row}, 0x11 * 2 ^ 17 ≤ r.key [] → q.key [] ≠ r.key [] := fun h => by omega
  have hlost : wordKey Reg.ALM_STAT_LOST.space Reg.ALM_STAT_LOST.base ≥ 0x12 * 2 ^ 17 := by decide
  have hrecord : ∀ t : State, (t.reactRecord e).rd q [] = t.rd q [] := fun t => by
    unfold State.reactRecord State.wrPair
    dsimp only
    rw [rd_record_before _ _ _ _ (by omega), rd_wr_ne _ _ _ _ _ _ (hsafe (by decide)), rd_wr_ne _ _ _ _ _ _ (hsafe (by decide)),
      rd_wr_ne _ _ _ _ _ _ (hsafe (by decide)), State.incSat, rd_wr_ne _ _ _ _ _ _ (hevent rfl rfl rfl), rd_wr_ne _ _ _ _ _ _ (hevent rfl rfl rfl)]
  have hreact : ∀ (t : State) (r : ℕ), ((((t.reactRecord e).reactNotify e r).reactTakeover e r).reactRestart e r).rd q [] = t.rd q [] := fun t r => by
    rw [rd_reactRestart, rd_reactTakeover _ _ _ hauth (hsafe (by decide)), rd_reactNotify, hrecord]
  have hfatal : (if e = 20 then s.cmpFatal else s).rd q [] = s.rd q [] := by
    split
    · exact rd_cmpFatal s
    · rfl
  unfold State.latch
  dsimp only
  rw [rd_reactWreck]
  split
  · rw [rd_islandFail _ (hsafe (by decide)), hreact, hfatal]
  · rw [hreact, hfatal]

/-- The state of a trip before its event: held, counted, and in `TRIP` (R606). -/
def State.tripped (s : State) : State :=
  { (s.wr Reg.PWR_THERM_TRIP [] 1).incSat Reg.PWR_TRIPS [] 1 with pwr := { s.pwr with tripHold := true } }

/-- The state of a trip after its event. -/
def State.trippedLatched (s : State) : State := if s.tripped.latched 22 then s.tripped else s.tripped.latch 22

theorem thermalTrip_eq (hheld : s.pwr.tripHold = false) : s.thermalTrip =
    (if (s.trippedLatched.setAuth true 22).boot.mainUp then
      { s.trippedLatched.setAuth true 22 with saf := { (s.trippedLatched.setAuth true 22).saf with restart := some 22 } }
    else s.trippedLatched.setAuth true 22) := if_neg (Bool.eq_false_iff.1 hheld)

theorem trippedLatched_spec : s.trippedLatched.pwr.tripHold = true ∧ s.trippedLatched.rd Reg.PWR_THERM_TRIP [] = 1
    ∧ s.trippedLatched.latched 22 = true ∧ s.trippedLatched.boot.mainUp = s.boot.mainUp := by
  have htrip : s.tripped.rd Reg.PWR_THERM_TRIP [] = 1 := by
    rw [State.tripped, rd_withPwr, State.incSat, rd_wr_ne _ _ _ _ _ _ (by decide), rd_wr_same _ _ _ _ (by decide)]
    rfl
  have hup : s.tripped.boot.mainUp = s.boot.mainUp := by
    unfold State.tripped State.incSat
    rw [wr_boot, wr_boot]
  have hheld : s.tripped.pwr.tripHold = true := rfl
  unfold State.trippedLatched
  split
  case isTrue h => exact ⟨hheld, htrip, h, hup⟩
  case isFalse h =>
    obtain ⟨hpwr, hboot⟩ := Prod.mk.inj (supply_latch s.tripped 22)
    exact ⟨by rw [hpwr, hheld], by rw [rd_latch_power _ _ (by decide) (by decide), htrip], latched_latch _ (by decide), hboot.trans hup⟩

theorem thermalTrip_spec (hheld : s.pwr.tripHold = false) : s.thermalTrip.pwr.tripHold = true ∧ s.thermalTrip.rd Reg.PWR_THERM_TRIP [] = 1
    ∧ s.thermalTrip.dusk = true ∧ s.thermalTrip.latched 22 = true ∧ (s.boot.mainUp = true → s.thermalTrip.saf.restart = some 22) := by
  obtain ⟨hhold, htrip, hlatched, hup⟩ := trippedLatched_spec (s := s)
  have hhold' : (s.trippedLatched.setAuth true 22).pwr.tripHold = true := by rw [pwr_setAuth, hhold]
  have htrip' : (s.trippedLatched.setAuth true 22).rd Reg.PWR_THERM_TRIP [] = 1 := by rw [rd_setAuth _ _ _ (by decide) (by decide), htrip]
  have hdusk : (s.trippedLatched.setAuth true 22).dusk = true := dusk_setAuth _ _ _
  have hlatched' : (s.trippedLatched.setAuth true 22).latched 22 = true := by
    rw [State.latched, State.flag, rd_setAuth _ _ _ (by decide) (by decide)]
    exact hlatched
  have hup' : (s.trippedLatched.setAuth true 22).boot.mainUp = s.boot.mainUp := by rw [mainUp_setAuth, hup]
  rw [thermalTrip_eq hheld]
  generalize s.trippedLatched.setAuth true 22 = u at *
  split
  · exact ⟨hhold', (rd_withSaf _ _ _ _).trans htrip', (dusk_of_rd _ (rd_withSaf _ _ _ _)).trans hdusk, (latched_withSaf _).trans hlatched', fun _ => rfl⟩
  case isFalse h => exact ⟨hhold', htrip', hdusk, hlatched', fun hmain => absurd (hup'.trans hmain) h⟩

theorem thermalLevelFall_of_cool (hsafe : s.safeUp = true)
    (hcool : coolEnough logicThresholds (s.rd Reg.PWR_THERM_OFFSET []) (s.rd Reg.PWR_THERM_LEVEL []) s.hottest = true) :
    execThermalLevelFall none s = .next (s.setLogicLevel (s.rd Reg.PWR_THERM_LEVEL [] - 1)) := by
  unfold execThermalLevelFall
  exact if_pos (by rw [hsafe, hcool]; rfl)

theorem thermalTripRelease_of_cool (hheld : s.pwr.tripHold = true) (hlogic : s.hottest ≤ 800)
    (hstacks : ∀ k, k < s.fuses.variant.hbmStacks → signedOf 12 (s.rd Reg.PWR_HBMT_T [k]) ≤ 760) :
    execThermalTripRelease s = .next { s with pwr := { s.pwr with tripHold := false } } := by
  refine if_pos ?_
  have hall : (List.range s.fuses.variant.hbmStacks).all (fun k => signedOf 12 (s.rd Reg.PWR_HBMT_T [k]) ≤ 760) = true :=
    List.all_eq_true.2 fun k hk => decide_eq_true (hstacks k (List.mem_range.1 hk))
  rw [hheld, hall, decide_eq_true hlogic]
  rfl

end

/-- Settles O58, command by command. -/
theorem wearPowerAndPins : Obligations.WearPowerAndPins := by
  unfold Obligations.WearPowerAndPins
  intro s
  refine ⟨fun temps => emSample_spec temps, by decide, fun ages => ageingSample_spec ages, wearLogWrite_ok, wearLogWrite_fails,
    fun hgood => ⟨if_pos hgood, sendReplaceFrame_inactive⟩, standbyHour_spec, fun k _ => pdRequest_spec, fun k => domainTransitionDone_spec,
    fun k => railOutOfRange_of_on, fun r => avsVoltageWrite_of_up, fun r v hgoal => ⟨avsAcknowledge_ok hgoal rfl rfl, avsAcknowledge_failed hgoal⟩,
    levelOf_logic, fun cd xds hbmStacks hdown => if_pos (by rw [hdown]; rfl), fun cd xds hbmStacks hsafe => ?_, fun l => setLogicLevel_spec,
    thermalTrip_spec, thermalLevelFall_of_cool, thermalTripRelease_of_cool, fun pins bits hlow hgood => ?_, fun pins bits hoff => ?_⟩
  · intro a temps hbms off b c d f
    have hexec := thermalSample_on (s := s) (cd := cd) (xds := xds) (hbmStacks := hbmStacks) hsafe (a := a) (temps := temps) (hbms := hbms) (off := off)
      (b := b) (c := c) (d := d) (f := f) rfl (by rw [fuses_countLevel]) (by rw [fuses_countLevel]) rfl rfl rfl rfl rfl
    refine ⟨fun hhot => ?_, fun hcool hstacks => ?_⟩
    · refine hexec.trans (congrArg Host.Outcome.next (if_pos ?_))
      simpa using hhot
    · refine hexec.trans (congrArg Host.Outcome.next (if_neg ?_))
      simpa using ⟨hcool, hstacks⟩
  · have hon : s.scanOn = true := by rw [State.scanOn, hlow, hgood]; rfl
    exact ⟨if_pos hon, if_pos hon, ⟨_, if_pos hon, rfl, rfl⟩, ⟨_, if_pos hon, rfl, rfl⟩⟩
  · have hon : ¬ s.scanOn = true := by
      rw [State.scanOn]
      obtain h | h := hoff <;> simp [h]
    exact ⟨if_neg hon, if_neg hon⟩

end Sys2Proof.Machine
end

section
/-! O3: every command whose operands spell it completes. A combinator for each shape of a meaning (a branch, an attempt, an issue, a commit), then the commands: each refusal of the model is the negation of a conjunct of `wellFormed`. -/

namespace Sys2Proof.Machine

/-- The outcome is a next state. -/
def Completes (o : Host.Outcome State Fault Refusal) : Prop := ∃ t, o = .next t

section
variable {c : Prop} {_ : Decidable c} {o r : Host.Outcome State Fault Refusal}

theorem Completes.go {t : State} : Completes (.next t) := ⟨t, rfl⟩

theorem Completes.ite (ho : Completes o) (hr : Completes r) : Completes (if c then o else r) := by
  split
  · exact ho
  · exact hr

/-- A branch that the operands rule out may have any outcome. -/
theorem Completes.unless (hc : ¬ c) (ho : Completes o) : Completes (if c then r else o) := by
  rw [if_neg hc]
  exact ho

theorem Completes.below {n k : ℕ} (h : decide (n < k) = true) (ho : Completes o) : Completes (if n ≥ k then r else o) :=
  .unless (Nat.not_le.2 (of_decide_eq_true h)) ho

end

section
variable {s : State} {p : ℕ} {u : Option ℕ} {f : State → Host.Outcome State Fault Refusal}

/-- An attempt that has to wait answers the state with the engine waiting: it completes where each of its runs does (log entry 40). -/
theorem Completes.attempt (hf : ∀ t, Completes (f t)) : Completes (s.attempt p u f) := by
  unfold State.attempt
  refine .ite .go ?_
  obtain ⟨t, ht⟩ := hf { s with fab := { s.fab with runner := some p, stall := none, spent := [] } }
  rw [ht]
  dsimp only
  split
  · exact .go
  · exact .go

theorem Completes.issue {i : Issue} {opc : ℕ} {body : AWord → Ctx → State} (h : issueNames i opc = true) : Completes (s.issue i opc body) := by
  unfold State.issue
  dsimp only
  refine .unless ?_ ?_
  · simp only [issueNames, Bool.and_eq_true, Bool.or_eq_true, decide_eq_true_eq, Option.isNone_iff_eq_none] at h
    obtain ⟨hctx, hop⟩ := h
    obtain hop | hop := hop <;> simp [hctx, hop]
  · split
    · exact .ite .go (.ite .go (.ite .go (.ite .go .go)))
    · exact .go

theorem Completes.shader {i : ShIssue} {f3 : ℕ} {f7 : ℕ → Bool} {body : State → ShEnv → ShThread → State} (h : shaderNames i f3 f7 = true) :
    Completes (s.shader i f3 f7 body) := by
  refine .unless ?_ (.attempt fun t => ?_)
  · simp only [shaderNames, Bool.and_eq_true, Bool.or_eq_true, decide_eq_true_eq] at h
    obtain ⟨⟨hword, hcustom⟩, hname⟩ := h
    obtain hname | ⟨hf3, hf7⟩ := hname
    · simpa [hcustom, hname] using hword
    · simpa [hcustom, hf3, hf7] using hword
  · split
    · exact .go
    · exact .ite .go .go

theorem Completes.gateRun {h : ℕ} {at_ : HartAt} {w : ℕ} {is : GateOp → Bool} (hfits : (h < 16 && placeValid at_) = true)
    (hword : gateOp w = .illegal ∨ is (gateOp w) = true) (hf : ∀ t, Completes (f t)) : Completes (s.gateRun h at_ w is f) := by
  refine .unless (by simpa [Nat.not_le] using hfits) ?_
  obtain hword | hword := hword
  · rw [if_pos hword]
    exact .go
  · rw [if_pos hword]
    exact .ite .go (hf _)

end

section
variable {s : State}

theorem Completes.commitOf {n : ℕ} {l : List (Row × List ℕ × ℕ)} (h : l.all (fun e => e.1.holds e.2.1) = true) : Completes (s.commitOf n l) := by
  unfold State.commitOf
  rw [if_pos h]
  exact .go

/-- The commit of one value to an element that the field has. -/
theorem Completes.commitOne {n v : ℕ} {r : Row} {jx : List ℕ} (h : r.holds jx = true) : Completes (s.commitOf n [(r, jx, v)]) :=
  .commitOf (by simpa using h)

/-- The commit of values to several fields of one element: every field has it where one of the same dimensions does. -/
theorem Completes.commitAlike {n : ℕ} {l : List (Row × List ℕ × ℕ)} {q : Row} {jx : List ℕ} (h : q.holds jx = true)
    (hl : l.map (fun e => (e.1.dims, e.2.1)) = List.replicate l.length (q.dims, jx)) : Completes (s.commitOf n l) := by
  refine .commitOf (List.all_eq_true.2 fun e he => ?_)
  have hmem : (e.1.dims, e.2.1) ∈ l.map (fun e => (e.1.dims, e.2.1)) := List.mem_map_of_mem he
  rw [hl] at hmem
  obtain ⟨hdims, hjx⟩ := Prod.mk.inj (List.eq_of_mem_replicate hmem)
  rw [hjx, ← h, Row.holds, Row.holds, hdims]

theorem Completes.cryOp {n op : ℕ} (h : decide (n < 4) = true) : Completes (s.cryOp n op) := by
  refine .below h ?_
  split
  · exact .go
  · exact .attempt fun _ => .go

theorem Completes.tileAttempt {t : ℕ} {f : State → State} (h : decide (t < s.fuses.variant.tiles) = true) : Completes (s.tileAttempt t f) :=
  .below h (.attempt fun _ => .go)

theorem Completes.duskAttempt {addr : ℕ} {what : Td → Bool} {act : State → Td → State} : Completes (s.duskAttempt addr what act) :=
  .attempt fun _ => .go

theorem Completes.infOp {u : InfUnit} {op cyc : ℕ} {dbe : Bool} (h : unitFits s.fuses u = true) : Completes (s.infOp u op cyc dbe) := by
  cases u with
  | tile t => exact .tileAttempt h
  | dusk a => exact .duskAttempt

theorem Completes.jobRun {u : ℕ} {f : State → State} : Completes (s.jobRun u f) := .attempt fun _ => .go

theorem Completes.pipeRun {d : ℕ} {f : State → State} (h : decide (d < 4) = true) : Completes (s.pipeRun d f) := .below h (.attempt fun _ => .go)

theorem Completes.sextantRun {f : State → State} : Completes (s.sextantRun f) := .attempt fun _ => .go

theorem Completes.tryEntry {u : ℕ} {f : NextEntry × State → State} : Completes (s.tryEntry u f) := by
  unfold State.tryEntry
  split
  · exact .go
  · exact .attempt fun _ => .go

end

section
variable {s : State}

theorem completes_execTileHbmRequest {t : ℕ} {a : Access} {addr size : ℕ} {w : List Byte} {e : RowError}
    (h : (!a.gate && t < s.fuses.variant.tiles && size ≠ 0 && addr % 64 + size ≤ 64 && (a.kind ≠ .write || w.length = size)) = true)
    (hsrc : a.src = .tile (s.rd Reg.INF_TILE_PHYS [t])) : Completes (execTileHbmRequest t a addr size w e s) := by
  refine .unless ?_ (.ite .go .go)
  simp only [Bool.and_eq_true, Bool.or_eq_true, Bool.not_eq_true', decide_eq_true_eq] at h
  obtain ⟨⟨⟨⟨hgate, ht⟩, hpos⟩, hsize⟩, hlen⟩ := h
  simpa [hgate, ht, hpos, hsize, hsrc, or_iff_not_imp_left] using hlen

theorem completes_execRegisterWrite {w : RegWrite} : Completes (execRegisterWrite w s) := by cases w <;> exact .go

theorem completes_execStrandQuantumExpiry {k : ℕ} : Completes (execStrandQuantumExpiry k s) := by
  unfold execStrandQuantumExpiry
  split <;> exact .go

theorem completes_execProgramStart {n : ℕ} {e : RowError} : Completes (execProgramStart n e s) := by
  unfold execProgramStart
  dsimp only
  split
  · refine .ite .go ?_
    split
    · exact .go
    · exact .ite .go .go
  · exact .go

theorem completes_execProgramEnd {n : ℕ} : Completes (execProgramEnd n s) := by
  unfold execProgramEnd
  split
  · exact .go
  · exact .ite .go (.attempt fun _ => .go)

theorem completes_execRunAheadFetch {n pos : ℕ} {w : DWord} {cyc : ℕ} {e : RowError} : Completes (execRunAheadFetch n pos w cyc e s) := by
  unfold execRunAheadFetch
  dsimp only
  split
  · exact .ite .go (.ite .go .go)
  · exact .go

theorem completes_execPollCheck {n cyc : ℕ} {e : RowError} : Completes (execPollCheck n cyc e s) := by
  unfold execPollCheck
  split
  · exact .attempt fun _ => .ite .go (.ite .go .go)
  · exact .go

theorem completes_execPollTimeout {n : ℕ} : Completes (execPollTimeout n s) := by
  unfold execPollTimeout
  split <;> exact .go

theorem completes_execSpaceLockGrant {space : ℕ} : Completes (execSpaceLockGrant space s) := by
  refine .ite .go ?_
  split
  · exact .go
  · split <;> exact .go

theorem completes_execSpaceLockTimeout {n : ℕ} : Completes (execSpaceLockTimeout n s) := by
  unfold execSpaceLockTimeout
  split <;> exact .go

theorem completes_execDispatchSlotTimeout {n : ℕ} : Completes (execDispatchSlotTimeout n s) := by
  unfold execDispatchSlotTimeout
  split <;> exact .go

theorem completes_execWaitTimeout {n : ℕ} : Completes (execWaitTimeout n s) := by
  unfold execWaitTimeout
  split <;> exact .go

theorem completes_execLockTimeout {n : ℕ} : Completes (execLockTimeout n s) := by
  unfold execLockTimeout
  split <;> exact .go

theorem completes_execSemaphoreHandoff {k : ℕ} : Completes (execSemaphoreHandoff k s) := by
  refine .ite .go ?_
  dsimp only
  split <;> exact .go

theorem completes_execTtuTranslate {a : Access} {addr size : ℕ} (h : (!a.gate && size ≠ 0 && size ≤ 64) = true) : Completes (execTtuTranslate a addr size s) := by
  refine .unless ?_ (.ite .go ?_)
  · simp only [Bool.and_eq_true, Bool.not_eq_true', decide_eq_true_eq] at h
    obtain ⟨⟨hgate, hpos⟩, hsize⟩ := h
    simp [hgate, hpos, hsize]
  · split <;> exact .go

theorem completes_execInvalidationDrainDone : Completes (execInvalidationDrainDone s) := by
  unfold execInvalidationDrainDone
  split
  · exact .go
  · exact .ite .go .go

theorem completes_execOrreryArbitration {r : ℕ} (h : (presentRes s.fuses).contains r = true) : Completes (execOrreryArbitration r s) := by
  refine .unless ?_ (.ite .go .go)
  rw [h]
  decide

theorem completes_execSlicePreempt {cluster : Bool} {k : ℕ} (h : (if cluster then decide (k < 8) else decide (k < s.fuses.variant.tiles)) = true) :
    Completes (execSlicePreempt cluster k s) := by
  cases cluster with
  | false => exact .below h (.attempt fun _ => .ite .go .go)
  | true =>
    refine .below h (.attempt fun t => ?_)
    split
    · exact .ite .go .go
    · exact .go

theorem completes_execFabricRequest {a : Access} {addr size : ℕ} {w : List Byte} {e : RowError}
    (h : (!a.gate && a.tag < 64 && size ≠ 0 && size ≤ 64 && (a.kind ≠ .write || w.length = size)) = true) :
    Completes (execFabricRequest a addr size w e s) := by
  refine .unless ?_ (.ite .go (.ite .go ?_))
  · simp only [Bool.and_eq_true, Bool.or_eq_true, Bool.not_eq_true', decide_eq_true_eq] at h
    obtain ⟨⟨⟨⟨hgate, htag⟩, hpos⟩, hsize⟩, hlen⟩ := h
    simpa [hgate, htag, hpos, hsize, or_iff_not_imp_left] using hlen
  · split <;> exact .go

theorem completes_execFabricTimeout {id : ℕ} : Completes (execFabricTimeout id s) := by
  unfold execFabricTimeout
  split
  · exact .go
  · exact .ite .go .go

theorem completes_execLateResponse {id : ℕ} : Completes (execLateResponse id s) := by
  unfold execLateResponse
  split <;> exact .go

theorem completes_execPostedWriteError {st : Status} : Completes (execPostedWriteError st s) := by
  unfold execPostedWriteError
  split <;> exact .go

theorem completes_execInterruptMessageRelease {source : ℕ} : Completes (execInterruptMessageRelease source s) := by
  unfold execInterruptMessageRelease
  dsimp only
  split
  · exact .go
  · exact .ite .go .go

theorem completes_execHbmRead {tag pa : ℕ} {e : RowError} {cancelled : Bool} (h : (isHbm s.fuses pa && tag < 64) = true) : Completes (execHbmRead tag pa e cancelled s) := by
  refine .unless ?_ .go
  simpa [Nat.not_le] using h

theorem completes_execHbmFullWrite {pa : ℕ} {bytes : List Byte} {e : RowError} (h : (isHbm s.fuses pa && bytes.length = 64) = true) : Completes (execHbmFullWrite pa bytes e s) := by
  refine .unless ?_ .go
  simpa using h

theorem completes_execHbmPartialWrite {tag pa : ℕ} {bytes : List Byte} {e : RowError}
    (h : (isHbm s.fuses pa && tag < 64 && bytes.length ≠ 0 && pa % 64 + bytes.length ≤ 64) = true) :
    Completes (execHbmPartialWrite tag pa bytes e s) := by
  refine .unless ?_ .go
  simp only [Bool.and_eq_true, decide_eq_true_eq] at h
  obtain ⟨⟨⟨hhbm, htag⟩, hpos⟩, hline⟩ := h
  simp only [hhbm, Bool.not_true, Bool.false_or, Bool.or_eq_true, decide_eq_true_eq]
  omega

theorem completes_execPatrolScrub {w : ScrubAt} {e : RowError} {last : Bool} (h : scrubFits s.fuses w = true) :
    Completes (execPatrolScrub w e last s) := by
  unfold execPatrolScrub
  dsimp only
  refine .unless ?_ (.ite .go ?_)
  · cases w with
    | line pa =>
      have hplace : isHbm s.fuses pa = true := h
      simpa using hplace
    | spare k | spareRow k =>
      have hplace : decide (k < s.fuses.variant.hbmStacks) = true := h
      simpa using hplace
  · cases last with
    | false => exact .go
    | true => exact .go

theorem completes_execSealDone {e : ℕ} (h : decide (e < 64) = true) : Completes (execSealDone e s) := by
  refine .below h (.ite .go (.attempt fun t => ?_))
  split
  exact .go

theorem completes_execMailboxWrite {a : Access} {e addr : ℕ} {bytes : List Byte} (h : (!a.gate && e < 64 && bytes.length = 64 && a.kind = .write) = true) :
    Completes (execMailboxWrite a e addr bytes s) := by
  refine .unless ?_ (.ite .go ?_)
  · simp only [Bool.and_eq_true, Bool.not_eq_true', decide_eq_true_eq] at h
    obtain ⟨⟨⟨hgate, he⟩, hlen⟩, hkind⟩ := h
    simp [hgate, he, hlen, hkind]
  · split
    · exact .ite .go .go
    · exact .go

theorem completes_execCryptoPreempt {n save : ℕ} (h : (n < 4 && save ≤ 200) = true) : Completes (execCryptoPreempt n save s) := by
  refine .unless (by simpa [Nat.not_le, Nat.not_lt] using h) ?_
  split
  · exact .go
  · refine .attempt fun t => .ite .go ?_
    split
    · exact .ite .go .go
    · exact .go

theorem completes_execCryptoResume {n restore : ℕ} (h : (n < 4 && restore ≤ 200) = true) : Completes (execCryptoResume n restore s) := by
  refine .unless (by simpa [Nat.not_le, Nat.not_lt] using h) ?_
  split
  · exact .ite (.attempt fun _ => .go) .go
  · exact .go

theorem completes_execCryptoJobDone {n : ℕ} (h : decide (n < 4) = true) : Completes (execCryptoJobDone n s) := by
  refine .below h ?_
  split
  · exact .cryOp h
  · exact .attempt fun _ => .ite .go .go

theorem completes_execGateMark {h : ℕ} {at_ : HartAt} {w : ℕ} (hfits : (h < 16 && placeValid at_ && (gateOp w = .illegal || (gateMark w).isSome)) = true) :
    Completes (execGateMark h at_ w s) := by
  obtain ⟨hplace, hword⟩ := (Bool.and_eq_true_iff).1 hfits
  refine .gateRun hplace ?_ fun _ => .go
  obtain hword | hword := (Bool.or_eq_true_iff).1 hword
  · exact .inl (of_decide_eq_true hword)
  · right
    unfold gateMark at hword
    cases hop : gateOp w <;> rw [hop] at hword
    all_goals cases hword

theorem completes_execGateEnter {h : ℕ} {at_ : HartAt} {w rs1 : ℕ} {pa : Option ℕ} (hfits : (h < 16 && placeValid at_ && (gateOp w = .illegal || gateOp w = .enter)) = true) :
    Completes (execGateEnter h at_ w rs1 pa s) := by
  obtain ⟨hplace, hword⟩ := (Bool.and_eq_true_iff).1 hfits
  exact .gateRun hplace (by simpa using hword) fun _ => .ite .go (.attempt fun _ => .go)

theorem completes_execGateExit {h : ℕ} {at_ : HartAt} {w rs1 : ℕ} (hfits : (h < 16 && placeValid at_ && (gateOp w = .illegal || gateOp w = .exit)) = true) :
    Completes (execGateExit h at_ w rs1 s) := by
  obtain ⟨hplace, hword⟩ := (Bool.and_eq_true_iff).1 hfits
  exact .gateRun hplace (by simpa using hword) fun _ => .ite .go .go

theorem completes_execHartAccessFault {h : ℕ} {at_ : HartAt} {va pa : ℕ} {k : Kind} {f : HartFail}
    (hfits : (h < 16 && placeValid at_ && faultFits s.fuses k pa f) = true) : Completes (execHartAccessFault h at_ va pa k f s) := by
  obtain ⟨hplace, hfault⟩ := (Bool.and_eq_true_iff).1 hfits
  refine .unless (by simpa [Nat.not_le] using hplace) ?_
  cases f with
  | misaligned => exact .unless (of_decide_eq_true hfault) .go
  | status st =>
    refine .ite .go ?_
    simp only [faultFits, Bool.or_eq_true, Bool.and_eq_true, decide_eq_true_eq] at hfault
    split
    · next hwrite =>
      obtain hst | ⟨-, hhbm⟩ := hfault
      · rw [of_decide_eq_true (Bool.and_eq_true_iff.1 hwrite).2] at hst
        cases hst
      · rw [if_pos hhbm]
        exact .go
    · next hwrite =>
      obtain hst | ⟨hw, -⟩ := hfault
      · rw [if_pos hst]
        exact .go
      · exact absurd (by simpa using hw) hwrite

theorem completes_execStoreError {h addr : ℕ} {st : Status} {at_ : Option HartAt} (hfits : (h < 16 && st ≠ .ok) = true) : Completes (execStoreError h addr st at_ s) := by
  refine .unless ?_ .go
  simpa [Nat.not_le] using hfits

theorem completes_execIrqDeliver {at_ : Option HartAt} : Completes (execIrqDeliver at_ s) := by
  unfold execIrqDeliver
  split
  · exact .go
  · exact .ite .go .go

theorem completes_execSeteipnumWrite {h f off size v : ℕ} (hfits : (h < 16 && f ≤ 6 && off < 0x1000) = true) : Completes (execSeteipnumWrite h f off size v s) := by
  refine .unless ?_ (.ite .go .go)
  simpa [Nat.not_le, Nat.not_lt, and_assoc] using hfits

theorem completes_execMtimecmpWrite {h off size v : ℕ} (hfits : (h < 16 && off < 8) = true) : Completes (execMtimecmpWrite h off size v s) := by
  refine .unless ?_ (.ite .go .go)
  simpa [Nat.not_le] using hfits

theorem completes_execTimerCompare {h k : ℕ} {at_ : Option HartAt} (hfits : (h < 16 && (k = 5 || k = 6 || k = 7)) = true) : Completes (execTimerCompare h k at_ s) := by
  refine .unless ?_ (.ite .go .go)
  simpa [Nat.not_le, or_iff_not_imp_left, and_imp] using hfits

theorem completes_execGolden {u : InfUnit} {cyc lines crc : ℕ} (h : unitFits s.fuses u = true) : Completes (execGolden u cyc lines crc s) := by
  cases u with
  | tile t => exact .tileAttempt h
  | dusk a => exact .duskAttempt

theorem completes_execSyncBarrier {u : InfUnit} (h : unitFits s.fuses u = true) : Completes (execSyncBarrier u s) := by
  cases u with
  | tile t => exact .tileAttempt h
  | dusk a => exact .duskAttempt

theorem completes_execSyncSignal {u : InfUnit} (h : unitFits s.fuses u = true) : Completes (execSyncSignal u s) := by
  cases u with
  | tile t => exact .tileAttempt h
  | dusk a => exact .duskAttempt

theorem completes_execInfJobComplete {u : ℕ} : Completes (execInfJobComplete u s) := by
  refine .attempt fun t => ?_
  split
  · exact .go
  · exact .ite .go .go

theorem completes_execSpareSwapDone {t : ℕ} : Completes (execSpareSwapDone t s) := by
  unfold execSpareSwapDone
  split <;> exact .go

theorem completes_execRotationSwap : Completes (execRotationSwap s) := by
  refine .ite .go ?_
  dsimp only
  split
  · exact .go
  · split
    · exact .go
    · exact .go

theorem completes_execShaderEcall {th : ShId} {pc a7 : ℕ} : Completes (execShaderEcall th pc a7 s) := by
  refine .attempt fun t => ?_
  split
  · exact .go
  · refine .ite .go ?_
    dsimp only
    split
    · exact .ite .go .go
    · exact .go

theorem completes_execShaderException {th : ShId} {pc cause : ℕ} {st : Status} (h : (!([1, 5, 7].contains cause) || statusFails st) = true) :
    Completes (execShaderException th pc cause st s) := by
  refine .unless ?_ (.attempt fun t => ?_)
  · simpa [imp_iff_not_or] using h
  · split
    · exact .go
    · exact .ite .go (.ite .go .go)

theorem completes_execDraw {u cyc : ℕ} {prims : List Prim} (h : ∀ j p, s.gfxJob u = some j → j.pass = some p → ∀ q ∈ prims, ∀ b ∈ q.bins, b < p.binCount) :
    Completes (execDraw u cyc prims s) := by
  refine .unless ?_ .jobRun
  simp only [List.any_eq_true, not_exists, not_and]
  intro q hq b hb
  split
  · next j hj =>
    split
    · next p hp => simpa [Nat.not_le] using h j p hj hp q hq b hb
    · exact Bool.false_ne_true
  · exact Bool.false_ne_true

theorem completes_execBinGrowTimeout {n : ℕ} (h : decide (n < 32) = true) : Completes (execBinGrowTimeout n s) := by
  refine .below h (.ite .go ?_)
  split
  · exact .jobRun
  · exact .go

theorem completes_execDisplayDecisionInstant {d : ℕ} (h : decide (d < 4) = true) : Completes (execDisplayDecisionInstant d s) := by
  refine .below h (.ite .go ?_)
  dsimp only
  split
  · exact .ite .go (.ite .go .go)
  · exact .ite .go .go

theorem completes_execRegionCrcCheck {d : ℕ} (h : decide (d < 4) = true) : Completes (execRegionCrcCheck d s) := by
  refine .below h (.ite .go ?_)
  dsimp only
  split
  · exact .go
  · split <;> exact .go

theorem completes_execTxCan {r : CanSend} (h : sendFits r = true) : Completes (execTxCan r s) := by
  cases r with
  | entry u =>
    unfold execTxCan
    exact .tryEntry
  | island c f => exact .below h (.ite .go .go)

theorem completes_execTxJobComplete {u : ℕ} : Completes (execTxJobComplete u s) := by
  refine .attempt fun t => ?_
  split
  · exact .go
  · exact .ite .go .go

theorem completes_execSynthesiserHoldExpiry {n p tc : ℕ} : Completes (execSynthesiserHoldExpiry n p tc s) := by
  refine .ite .go (.attempt fun t => ?_)
  split
  · exact .go
  · split <;> exact .go

theorem completes_execEgressAged {n p tc : ℕ} : Completes (execEgressAged n p tc s) := by
  refine .attempt fun t => ?_
  split <;> exact .go

theorem completes_execEthernetRx {n p : ℕ} {b : List Byte} {fcsOk passed sec : Bool} {dst : List (ℕ × ℕ)} (h : (n < 4 && p < 22) = true) :
    Completes (execEthernetRx n p b fcsOk passed sec dst s) := by
  refine .unless ?_ (.ite .go (.ite .go (.ite .go (.attempt fun _ => .go))))
  simpa [Nat.not_le] using h

theorem completes_execCanFrameRx {n src time : ℕ} {f : CanFrame} (h : (n < 4 && src < 24) = true) : Completes (execCanFrameRx n src time f s) := by
  refine .unless ?_ (.ite (.ite .go (.attempt fun _ => .go)) (.ite (.ite .go (.attempt fun _ => .go)) .go))
  simpa [Nat.not_le] using h

theorem completes_execCanTxDone {n c : ℕ} {r : CanResult} : Completes (execCanTxDone n c r s) := by
  unfold execCanTxDone
  split
  · exact .go
  · refine .attempt fun t => ?_
    split <;> exact .go

theorem completes_execAuthChange : Completes (execAuthChange s) := by
  unfold execAuthChange
  split <;> exact .go

theorem completes_execFrequencyChangeDone {gfx : Bool} : Completes (execFrequencyChangeDone gfx s) := by
  unfold execFrequencyChangeDone
  split <;> exact .go

theorem completes_execWarmResetAssert : Completes (execWarmResetAssert s) := by
  unfold execWarmResetAssert
  split
  · exact .go
  · exact .ite .go (.ite .go .go)

theorem completes_execAlmanacRecord : Completes (execAlmanacRecord s) := by
  unfold execAlmanacRecord
  split <;> exact .go

theorem completes_execWreckTrigger : Completes (execWreckTrigger s) := by
  unfold execWreckTrigger
  split
  · exact .go
  · exact .ite .go .go

theorem completes_execDumpDone : Completes (execDumpDone s) := by
  refine .attempt fun t => ?_
  split <;> exact .go

theorem completes_execDomainTransitionDone {k : ℕ} : Completes (execDomainTransitionDone k s) := by
  refine .ite .go (.ite .go ?_)
  dsimp only
  split <;> exact .go

theorem completes_execThermalLevelFall {stack : Option ℕ} : Completes (execThermalLevelFall stack s) := by
  cases stack with
  | none => exact .ite .go .go
  | some k => exact .ite .go .go

theorem completes_execAvsAcknowledge {rail : ℕ} {ok : Bool} : Completes (execAvsAcknowledge rail ok s) := by
  unfold execAvsAcknowledge
  split
  · exact .go
  · exact .ite .go .go

theorem completes_execHandoverQuiesceDone : Completes (execHandoverQuiesceDone s) := by
  unfold execHandoverQuiesceDone
  split
  · exact .go
  · exact .attempt fun _ => .go

theorem completes_execVsync {d : ℕ} (h : decide (d < 4) = true) : Completes (execVsync d s) := by
  refine .below h (.ite .go ?_)
  dsimp only
  split <;> exact .go

theorem completes_execInvalidation {n scope inst pid addr : ℕ} : Completes (execInvalidation n scope inst pid addr s) :=
  .commitOf rfl

theorem completes_execEpochGo {set : ℕ} : Completes (execEpochGo set s) :=
  .commitOf rfl

theorem completes_execDumpGo {d addr : ℕ} : Completes (execDumpGo d addr s) :=
  .commitOf rfl

theorem completes_execEnclaveCreate {e base size inst : ℕ} (h : Reg.ENC_ERT_REQ.holds [e] = true) : Completes (execEnclaveCreate e base size inst s) :=
  .commitAlike h rfl

theorem completes_execBinGrow {n g addr count : ℕ} (h : Reg.GFX_GCTX_GROW_COUNT.holds [g] = true) : Completes (execBinGrow n g addr count s) :=
  .commitAlike h rfl

theorem completes_execHartGo {h : ℕ} (hfits : (0 < h && h ≤ 15) = true) : Completes (execHartGo h s) := by
  refine .unless ?_ (.commitOne rfl)
  simp only [Bool.and_eq_true, decide_eq_true_eq] at hfits
  simp only [Bool.or_eq_true, decide_eq_true_eq]
  omega

theorem completes_execSvnAdv {k v : ℕ} (h : (0 < k && Reg.BOOT_SVN_ADV.holds [k - 1]) = true) : Completes (execSvnAdv k v s) := by
  obtain ⟨hpos, hholds⟩ := (Bool.and_eq_true_iff).1 h
  exact .unless (Nat.pos_iff_ne_zero.1 (of_decide_eq_true hpos)) (.commitOne hholds)

theorem completes_execEgoStep : Completes (execEgoStep s) :=
  .attempt fun _ => .ite .go .go

theorem completes_execDispatch {i : Issue} (h : issueNames i 0x50 = true) : Completes (execDispatch i s) :=
  .attempt fun _ => .issue h

theorem completes_execAbort {i : Issue} (h : issueNames i 0x51 = true) : Completes (execAbort i s) :=
  .attempt fun _ => .issue h

theorem completes_execHandover {i : Issue} (h : issueNames i 0x70 = true) : Completes (execHandover i s) :=
  .attempt fun _ => .issue h

theorem completes_execRstctx {i : Issue} (h : issueNames i 0x71 = true) : Completes (execRstctx i s) :=
  .attempt fun _ => .issue h

end

/-- Every command whose operands spell it completes: each refusal of the model is the negation of a conjunct of `wellFormed`. -/
theorem completes_exec (c : Instr) (s : State) (h : wellFormed s.fuses c = true)
    (hsrc : ∀ t a addr size w e, c = .tileHbmRequest t a addr size w e → a.src = .tile (s.rd Reg.INF_TILE_PHYS [t]))
    (hbins : ∀ u cyc prims, c = .draw u cyc prims → ∀ j p, s.gfxJob u = some j → j.pass = some p → ∀ q ∈ prims, ∀ b ∈ q.bins, b < p.binCount) :
    Completes (exec c s) := by
  cases c with
  | governorWindowOpen | governorReleasePoint | periodBoundary | freezeLimitExpiry | freezeRelease | linkDown | linkRetrainDone
    | linkRetrainExpiry | migrationDone | hbmVerifyPassDone | safetyFrameEnd | biasUpdate | busOffRecovery | pduPeriod | diagSessionIdle
    | gptpSyncRx | gptpSyncTx | refWindowEnd | crystalEdgeLoss | xtal32EdgeLoss | holdoverExpiry | islandWatchdogExpiry | heartbeatTimeout
    | authorityReturn | runtimeInjection | wreckFreeze | coldBoot | powerLoss | warmRestart | supervisorRunning | instanceResetDone
    | ageingSample | replaceFramePeriod | thermalSample | thermalTripRelease | avsVoltageWrite | railOutOfRange | hbOutToggle | extest
    | samplePreload | bypass | idcode | ethernetLinkDown | ethernetLinkRetrained | synthesiserCalibrationStart | pdelayInterval
    | linScheduleSlot | validSyncAgeExpiry | xtal32EdgesResume | porstNAssert | pwrGoodRise | vbatBkpFall
    | standbyHour => exact .ite .go .go
  | tileHbmRequest => exact completes_execTileHbmRequest h (hsrc _ _ _ _ _ _ rfl)
  | cpChainHeadWrite | cpDoorbellRing | cpFaultCodeClear | cpLowHalfRead | cpHighHalfRead | take | wdogKick | warmRstNRelease => exact .go
  | registerWrite => exact completes_execRegisterWrite
  | chainHeadSample => exact .ite .go (.ite .go (.ite .go (.attempt fun _ => .go)))
  | tenantDoorbell | fcuLatch | backupAlarm | warmRstNAssert | emSample | wearLogWrite => exact .ite .go (.ite .go .go)
  | strandQuantumExpiry => exact completes_execStrandQuantumExpiry
  | programStart => exact completes_execProgramStart
  | programEnd => exact completes_execProgramEnd
  | runAheadFetch => exact completes_execRunAheadFetch
  | nop | endProgram | yield | fence | epoch | li | lix | add | addi | sub | and | or | xor | shli | shri | movs | br | bst | call | ret
    | ld | st | poll | stage | stagei | commit | discard | fetch | wait | signal | lock | unlock =>
    unfold exec
    exact .issue h
  | pollCheck => exact completes_execPollCheck
  | pollTimeout => exact completes_execPollTimeout
  | spaceLockGrant => exact completes_execSpaceLockGrant
  | spaceLockTimeout => exact completes_execSpaceLockTimeout
  | dispatch => exact completes_execDispatch h
  | abort => exact completes_execAbort h
  | handover => exact completes_execHandover h
  | rstctx => exact completes_execRstctx h
  | dispatchSlotTimeout => exact completes_execDispatchSlotTimeout
  | waitTimeout => exact completes_execWaitTimeout
  | lockTimeout => exact completes_execLockTimeout
  | semaphoreHandoff => exact completes_execSemaphoreHandoff
  | ttuTranslate => exact completes_execTtuTranslate h
  | invalidation => exact completes_execInvalidation
  | epochGo => exact completes_execEpochGo
  | dumpGo => exact completes_execDumpGo
  | invalidationDrainDone => exact completes_execInvalidationDrainDone
  | orreryArbitration => exact completes_execOrreryArbitration h
  | slicePreempt => exact completes_execSlicePreempt h
  | fabricRequest => exact completes_execFabricRequest h
  | fabricTimeout => exact completes_execFabricTimeout
  | lateResponse => exact completes_execLateResponse
  | postedWriteError => exact completes_execPostedWriteError
  | interruptMessageRelease => exact completes_execInterruptMessageRelease
  | sourceInterrupt => exact .ite .go (.ite (.ite .go .go) (.ite .go .go))
  | hbmRead => exact completes_execHbmRead h
  | hbmFullWrite => exact completes_execHbmFullWrite h
  | hbmPartialWrite => exact completes_execHbmPartialWrite h
  | rekey | enclaveSeal | enclaveDestroy | cryptoKeyClear | sourceAck | clusterRun | clusterRetain | clusterOff | pipeDisable | streamClr
    | streamLie | canResume | eventClr | instanceReset | domainPowerOn | domainPowerOff => exact .commitOne h
  | patrolScrub => exact completes_execPatrolScrub h
  | enclaveCreate => exact completes_execEnclaveCreate h
  | sealDone => exact completes_execSealDone h
  | destroyDone => exact .below h (.ite .go (.attempt fun _ => .go))
  | mailboxWrite => exact completes_execMailboxWrite h
  | monitorRestart | lbistDone | injectionResample | startupInjection => exact .ite .go (.ite .go (.ite .go .go))
  | gcmEncrypt | gcmDecrypt | sha256 | sha384 | sha512 | sha3256 | sha3384 | sha3512 | p256Sign | p256Verify | p384Sign | p384Verify
    | keyload => exact .cryOp h
  | cryptoPreempt => exact completes_execCryptoPreempt h
  | cryptoResume => exact completes_execCryptoResume h
  | cryptoJobDone => exact completes_execCryptoJobDone h
  | gateMark => exact completes_execGateMark h
  | gateEnter => exact completes_execGateEnter h
  | gateExit => exact completes_execGateExit h
  | hartAccessFault => exact completes_execHartAccessFault h
  | storeError => exact completes_execStoreError h
  | irqDeliver => exact completes_execIrqDeliver
  | seteipnumWrite => exact completes_execSeteipnumWrite h
  | mtimecmpWrite => exact completes_execMtimecmpWrite h
  | timerCompare => exact completes_execTimerCompare h
  | clusterStateEntry | streamTimeout => exact .below h (.ite .go (.ite .go .go))
  | clusterWake | displayLinkDown | displayLinkTrained => exact .below h (.ite .go .go)
  | gemm | conv2d | dwconv | deconv | pool | elemwise | activate | norm | softmax | topk | gather | scatter | transpose | reshape | quant
    | dequant | reduce | argmax | resize | gridsample | attention | copy => exact .infOp h
  | golden => exact completes_execGolden h
  | syncBarrier => exact completes_execSyncBarrier h
  | syncSignal => exact completes_execSyncSignal h
  | syncWait | syncWaitPoll | syncWaitTimeout | tileSwitch => exact .tileAttempt h
  | infJobComplete => exact completes_execInfJobComplete
  | spareSwapDone => exact completes_execSpareSwapDone
  | rotationSwap => exact completes_execRotationSwap
  | texSample | interp | tbLd | tbSt | covRead | covDiscard | bar =>
    unfold exec
    exact .shader h
  | shaderEcall => exact completes_execShaderEcall
  | shaderException => exact completes_execShaderException h
  | packetEnd | passBegin | passEnd | pipe | bind | packetWait | packetWaitTimeout | packetSignal | jump | gfxStreamComplete
    | computeJobStart | computeWaitTimeout | computeJobComplete =>
    unfold exec
    exact .jobRun
  | draw => exact completes_execDraw (hbins _ _ _ rfl)
  | binGrow => exact completes_execBinGrow h
  | binGrowTimeout => exact completes_execBinGrowTimeout h
  | clusterSwitch => exact .below h (.attempt fun _ => .go)
  | deadlinePreempt => exact .below h .go
  | displayDecisionInstant => exact completes_execDisplayDecisionInstant h
  | bandProduction | frameReadyPoll | frameReadyTimeout | frameRetire | frameStatusWrite => exact .pipeRun h
  | regionCrcCheck => exact completes_execRegionCrcCheck h
  | sampleArrival => exact .below h (.ite (.attempt fun _ => .go) .go)
  | egoStep => exact completes_execEgoStep
  | fusionEpochTimeout => exact .attempt fun _ => .ite .go .go
  | epochRelease | epochWaitExpiry | fusionJob =>
    unfold exec
    exact .sextantRun
  | txEthernet | txLin | txDiagnosticMessage =>
    unfold exec
    exact .tryEntry
  | txCan => exact completes_execTxCan h
  | txJobComplete => exact completes_execTxJobComplete
  | synthesiserLock | gateIntervalExpiry => exact .ite (.attempt fun _ => .go) .go
  | synthesiserHoldExpiry => exact completes_execSynthesiserHoldExpiry
  | egressAged => exact completes_execEgressAged
  | ethernetRx => exact completes_execEthernetRx h
  | canFrameRx => exact completes_execCanFrameRx h
  | canTxDone => exact completes_execCanTxDone
  | authChange => exact completes_execAuthChange
  | reqMain | refSel | rtcSync | heartbeat | bkAck | wreckSw | wreckRearm | remap =>
    unfold exec
    exact .commitOne rfl
  | frequencyChangeDone => exact completes_execFrequencyChangeDone
  | warmResetAssert => exact completes_execWarmResetAssert
  | almanacRecord => exact completes_execAlmanacRecord
  | wreckTrigger => exact completes_execWreckTrigger
  | dumpDone => exact completes_execDumpDone
  | hartGo => exact completes_execHartGo h
  | svnAdv => exact completes_execSvnAdv h
  | domainTransitionDone => exact completes_execDomainTransitionDone
  | thermalLevelFall => exact completes_execThermalLevelFall
  | avsAcknowledge => exact completes_execAvsAcknowledge
  | handoverQuiesceDone => exact completes_execHandoverQuiesceDone
  | monitorRestartDone => exact .ite .go (.attempt fun _ => .go)
  | vsync => exact completes_execVsync h

/-- Settles O3, command by command. -/
theorem wellFormedCommandsComplete : Obligations.WellFormedCommandsComplete := by
  unfold Obligations.WellFormedCommandsComplete
  exact completes_exec

end Sys2Proof.Machine
end
